-- ==== Sys2Proof/Word.lean ====
section
/-!
DEFINITION. The word types of the LYS-4848 (R5: registers are 32 bits wide, addresses are byte addresses).
-/
namespace Sys2Proof

/-- A 32-bit register word. -/
abbrev Word := BitVec 32

/-- One byte of memory. -/
abbrev Byte := BitVec 8

/-- A 64-bit double word (angle words, barn words, paired registers). -/
abbrev DWord := BitVec 64

/-- A 96-bit granary accumulator (Table 00-5). -/
abbrev Acc96 := BitVec 96

end Sys2Proof
end

