-- ==== Sys2Proof/Syntax.lean ====
section
/-!
DEFINITION. The commands of the LYS-4848: one constructor per row of spec/opcode_table.json, with the row's
operands. Every command carries first `dt`, the fabric cycles since the command before it (0: the same cycle).
Quantities that the analogue world or a fixed filter decides (a sample's unshifted stage result, a measured phase
error, a residual) are operands: the environment gives them.
-/
namespace Sys2Proof

/-- Who makes a register access: a hand of a physical plough (R208, R262) or the host on ring A or B (Table 01-7). -/
inductive Orig
  | plough (p : Fin 5) (h : Fin 16)
  | host (r : Fin 2)
  deriving DecidableEq, Repr

/-- The taps of a channel's chain (R120), and the raw gang stream. -/
inductive Tap
  | c | w | f | raw
  deriving DecidableEq, Repr

/-- The phasor that furrow `fw` has formed from the fine streams of its channel source (R32): its amplitude in fine-stream
LSB, its angle in tines and its frequency in 0.1 mHz, as they are at the input balls now. -/
structure Phasor where
  fw : Fin 4
  amp : Nat
  ang : Nat
  rate : Nat
  deriving DecidableEq, Repr

/-- Coefficients of one slice: offset in 2^-29 of full scale, gain less 1 in 2^-28, skew in ps (Tables 03-31, 03-32). -/
structure Coefs where
  ofs : Int
  gain : Int
  skew : Int
  deriving DecidableEq, Repr

/-- Shadow residuals (Table 03-7), in the units of `Coefs`; `flat`: the input's slope is too small to measure skew. -/
structure Residual where
  ofs : Int
  gain : Int
  skew : Int
  flat : Bool
  deriving DecidableEq, Repr

/-- What a scrub found, of one kind of error: the barn's rows that have one, and how many words of field RAM (R219, R298). -/
structure Scrubbed where
  rows : List (Fin 8192)
  ram : Nat
  deriving DecidableEq, Repr

/-- What a foreground calibration found on one channel: the coefficients of slices 0 to 4 and the PGA corrections,
six for an all-channel calibration or the one of the gain in use (Table 03-10). -/
structure CalOut where
  ch : Fin 48
  co : List Coefs
  pga : List Int
  deriving DecidableEq, Repr

/-- The commands of spec/opcode_table.json, in its order. The first operand, `dt`, is the fabric cycles since the
command before. An operand of type `Unit` carries nothing (log 4): the state fixes what such an event brings. -/
inductive Instr
  /-- POWER_ON_RESET (R468). A main-domain rail falls below its falling threshold, so the power-on reset is held and
  every P-reset field takes its reset value. -/
  | powerOnReset (dt : Nat)
  /-- RST_N_LOW (R470). A low pulse of 1 µs or more on RST_N causes a warm reset without any commit. -/
  | rstNLow (dt : Nat)
  /-- RESET_RELEASE (R469). The internal reset is released at the latest of rails plus 2 ms with REFIN detected, RST_N
  high, and PFWARN low for 10 ms; the boot ROM then starts. -/
  | resetRelease (dt : Nat) (hz : Nat) (gpio00 rom ram : Bool) (passed : Fin 32) (sgl dbl : List (Fin 8192))
  /-- REFIN_LOSS (R25). The loss of REFIN puts the main PLL into holdover, sets REFLOSS and raises a clock tamper event. -/
  | refinLoss (dt : Nat)
  /-- REFIN_RETURN (R25). When REFIN returns, the PLL pulls back to it without a phase step, and HOLD clears when lock
  is regained. -/
  | refinReturn (dt : Nat)
  /-- SYS_RSTCMD_WRITE (R22). A host write of A55Ah to SYS_RSTCMD requests a software reset, and later writes join it;
  any other value is discarded. -/
  | sysRstcmdWrite (dt : Nat) (o : Orig) (w : Word)
  /-- SOFTWARE_RESET_DELAY_EXPIRY (R22). 10 µs after an accepted software reset request, the commit of kind reset runs
  and the warm reset follows. -/
  | softwareResetDelayExpiry (dt : Nat)
  /-- REGISTER_WRITE (R8). A write to a register without behaviour of its own is applied field by field according to its
  access type; D fields are discarded and refused accesses are reported. -/
  | registerWrite (dt : Nat) (o : Orig) (a w : Word)
  /-- FUR_ENABLE (R45). Setting FUR_CTLn.EN from 0 to 1 loads the angle word with the preset and holds it until the
  first lock. -/
  | furEnable (dt : Nat) (n : Fin 4)
  /-- FUR_DISABLE (R47). Clearing FUR_CTLn.EN holds the angle word, stops the resampler, ends AWAITs and fails deals
  waiting on the furrow. -/
  | furDisable (dt : Nat) (n : Fin 4)
  /-- FIRST_LOCK (R45). At the first lock after an enable, the furrow starts advancing at its positive zero crossing, or
  takes the broadcaster's angle, and re-evaluates its seeds. -/
  | firstLock (dt : Nat) (n : Fin 4) (rate : Unit := ())
  /-- LOCK_SET (R39). The phase error stays below 2^12 tines for 2 cycles, so FUR_STATn.LOCK is set. -/
  | lockSet (dt : Nat) (n : Fin 4)
  /-- LOCK_CLEAR (R39). The phase error exceeds 2^14 tines, so FUR_STATn.LOCK is cleared. -/
  | lockClear (dt : Nat) (n : Fin 4)
  /-- SOURCE_LOST (R41). The furrow's source meets its lost condition, so the furrow enters holdover at the last tracked
  frequency. -/
  | sourceLost (dt : Nat) (n : Fin 4)
  /-- FREQ_OUT_OF_RANGE (R40). The source frequency leaves 1 Hz to 400 Hz, so the frequency is held at the limit, RANGE
  reads 1 and LOCK clears. -/
  | freqOutOfRange (dt : Nat) (n : Fin 4) (high : Unit := ())
  /-- RANGE_HOLDOVER_EXPIRY (R40). The source stays out of range for 2 cycles at the held limit, so the furrow enters
  holdover. -/
  | rangeHoldoverExpiry (dt : Nat) (n : Fin 4)
  /-- SOURCE_RETURN (R42). The source becomes present again, so the phase error is measured and the furrow either leaves
  holdover or starts to slew. -/
  | sourceReturn (dt : Nat) (n : Fin 4) (e rate : Unit := ())
  /-- SLEW_END (R42). The phase error falls to 256 tines or less, so the slew ends and SLEW and HOLD clear. -/
  | slewEnd (dt : Nat) (n : Fin 4) (rate : Unit := ())
  /-- FORCEH_SET (R41). A write of FUR_CTLn.FORCEH = 1 forces the furrow into holdover. -/
  | forcehSet (dt : Nat) (n : Fin 4)
  /-- FORCEH_CLEAR (R42). A write of FORCEH = 0 ends forced holdover as a return of the source. -/
  | forcehClear (dt : Nat) (n : Fin 4) (e rate : Unit := ())
  /-- SOURCE_CHANGE (R43). A write to FUR_SRCn while the furrow is enabled changes the source in the next cycle and
  enters holdover. -/
  | sourceChange (dt : Nat) (n : Fin 4) (w : Word)
  /-- ENCODER_INDEX (R34). An encoder index pulse makes the encoder present, checks the count and corrects it, setting
  ENCERR on an error. -/
  | encoderIndex (dt : Nat) (k : Fin 2)
  /-- ANGIN_EDGE (R35). A rising edge on ANGIN0 or ANGIN1 is accepted as a pulse-source edge, or ignored and counted in
  GLITCH. -/
  | anginEdge (dt : Nat) (k : Fin 2)
  /-- ZERO_CROSSING (R31). The furrow's fraction passes 0, which updates FUR_FREQn and marks the positive zero crossing
  used by deals and the tally. -/
  | zeroCrossing (dt : Nat) (n : Fin 4) (rate : Unit := ())
  /-- FUR_LATCH (R58). A write of 1 to FUR_LATCH latches one timestamp per furrow into FUR_TSWk at one edge. -/
  | furLatch (dt : Nat)
  /-- SEED_ARM (R62). A write of word 3 with EN = 1 to a disarmed seed arms it, refuses it with BADSEED, or sets PAST. -/
  | seedArm (dt : Nat) (i : Fin 1024) (w : Word)
  /-- SEED_DISARM (R63). A write of word 3 with EN = 0 disarms the seed at once, including any pending delayed action. -/
  | seedDisarm (dt : Nat) (i : Fin 1024) (w : Word)
  /-- SEED_BUSY_WRITE (R63). A write to an armed seed's words 0 to 2, or of EN = 1 to an armed seed, is discarded and
  sets BUSYWR. -/
  | seedBusyWrite (dt : Nat) (i : Fin 1024) (k : Fin 4) (w : Word)
  /-- SEED_WORD0_READ (R65). A read of seed word 0 latches words 1 to 3 into the reader's seed shadow. -/
  | seedWord0Read (dt : Nat) (o : Orig) (i : Fin 1024)
  /-- SOWC_ENABLE (R70). A write of SOWC_CTL.EN = 1 restarts the sowing engine and re-evaluates every armed seed. -/
  | sowcEnable (dt : Nat)
  /-- SOWC_DISABLE (R70). A write of SOWC_CTL.EN = 0 stops seeds falling due, while pending issues still complete. -/
  | sowcDisable (dt : Nat)
  /-- SEED_DUE (R64). The furrow angle reaches a seed's target, so the seed falls due, advances or is spent, and its
  action is scheduled after DELAY. -/
  | seedDue (dt : Nat) (i : Fin 1024)
  /-- SEED_DISPATCH (R67). The sowing engine dispatches due or waiting seeds, up to eight per cycle and one per
  receiving block, counting waits in SOWC_LATE. -/
  | seedDispatch (dt : Nat)
  /-- SEED_DELAY_EXPIRY (R64). A seed's DELAY expires, and its action is issued to the receiving block. -/
  | seedDelayExpiry (dt : Nat) (i : Fin 1024)
  /-- CHANNEL_CFG_WRITE (R76). A write to ANA_CHCFGc changing GAIN, INSEL, ROGO or RFREF is checked and scheduled for
  the next frame boundary. -/
  | channelCfgWrite (dt : Nat) (c : Fin 48) (w : Word)
  /-- CHANNEL_CFG_TAKE_EFFECT (R76). At the next frame boundary, the new gain or input selection takes effect and four
  frames of CINV follow. -/
  | channelCfgTakeEffect (dt : Nat) (c : Fin 48)
  /-- CHANNEL_ENABLE (R75). Setting ANA_CHCFGc.EN powers the channel up over 50 µs before its enable calibration. -/
  | channelEnable (dt : Nat) (c : Fin 48)
  /-- CHANNEL_POWERUP_DONE (R75). A channel's 50 µs power-up ends, and its one-channel enable calibration starts or
  waits for a running one. -/
  | channelPowerupDone (dt : Nat) (c : Fin 48)
  /-- CHANNEL_DISABLE (R75). Clearing EN powers the channel down at the next frame boundary, and ends or cancels its
  enable calibration. -/
  | channelDisable (dt : Nat) (c : Fin 48)
  /-- HANDOVER_SLOT (R82). A channel's rotation slot falls on the rotation timer, and the handover is made if the shadow
  residuals meet the limits. -/
  | handoverSlot (dt : Nat) (c : Fin 48) (res : Residual) (co : Coefs)
  /-- FALLOW_STEP_CHANGE (R83). The fallow slice passes from the Reference to the Reconnect step, or from Reconnect to
  Shadow, at its time before the slot. -/
  | fallowStepChange (dt : Nat) (c : Fin 48) (co : Coefs)
  /-- SHADOW_EXTENSION (R85). A 50 ms shadow extension ends, and the handover is made, extended again or abandoned with
  DEFER. -/
  | shadowExtension (dt : Nat) (c : Fin 48) (res : Residual) (co : Coefs)
  /-- COEFFICIENT_EXCURSION (R89). A slice coefficient leaves its tolerance window or reaches a hard limit and counts
  excursions. -/
  | coefficientExcursion (dt : Nat) (c : Fin 48) (sl : Fin 5) (co : Coefs)
  /-- SLICE_RETIREMENT (R92). A slice is retired, and the fallow slice leaves its step to shadow the retiring phase. -/
  | sliceRetirement (dt : Nat) (c : Fin 48) (sl : Fin 5)
  /-- RETIREMENT_HANDOVER (R93). After the retirement shadow, the fallow slice takes the retiring phase, NOSPARE is set
  and rotation stops for the channel. -/
  | retirementHandover (dt : Nat) (c : Fin 48) (res : Residual) (co : Coefs)
  /-- SLC_ROTATE_NOW (R86). SLC_CMD OP 001b ends the Reference step at once and proceeds to shadow and handover. -/
  | slcRotateNow (dt : Nat) (c : Fin 64)
  /-- SLC_RETIRE (R91). SLC_CMD OP 010b retires the named slice, or is refused with CMDERR. -/
  | slcRetire (dt : Nat) (c : Fin 64) (sl : Fin 8)
  /-- CALIBRATION_START (R98). ANA_CMD.CAL starts a foreground calibration of all channels or one, or is refused with
  CMDERR. -/
  | calibrationStart (dt : Nat) (one : Bool) (c : Fin 64)
  /-- CALIBRATION_END (R101). A foreground calibration ends: DONE is set, coefficients load, failing slices are retired
  or channels failed, and inputs reconnect. -/
  | calibrationEnd (dt : Nat) (out : List CalOut)
  /-- REFERENCE_CHECK (R111). ANA_CMD.REFCHK measures reference A against REFEXT for 1 s, or is refused with CMDERR. -/
  | referenceCheck (dt : Nat)
  /-- REFERENCE_CHECK_DONE (R111). The 1 s external reference measurement ends and is written to ANA_REFDXA. -/
  | referenceCheckDone (dt : Nat) (d : Int)
  /-- GANG_MODE_CHANGE (R105). A change of ANA_GANGk.MODE takes effect at the next frame boundary, starting or stopping
  the raw gang stream. -/
  | gangModeChange (dt : Nat) (k : Fin 24)
  /-- REF_RATIO_AVERAGE (R107). A 1 s ratio average of the references completes and is judged for disagreement or
  agreement. -/
  | refRatioAverage (dt : Nat) (ab ca cb : Int)
  /-- REFERENCE_ARBITRATION (R108). After C has settled and 10 averages are taken, the outcome retires a reference,
  keeps C as arbiter, or sets NOMAJ. -/
  | referenceArbitration (dt : Nat) (ca cb : Int)
  /-- REFERENCE_SWAP (R109). At a frame boundary, C replaces the retired reference for its half, and REFSWAP is set and
  logged. -/
  | referenceSwap (dt : Nat)
  /-- REF_RETIRE_SETTLE_EXPIRY (R110). C has settled for 10 s after a host retirement of A or B, so the swap follows. -/
  | refRetireSettleExpiry (dt : Nat)
  /-- SHIFT_CHANGE (R119). A write to FLT_SHIFTc changes the stage shifts from each stage's next output and opens
  settling windows. -/
  | shiftChange (dt : Nat) (c : Fin 48) (w : Word)
  /-- SETTLING_CLOSE (R126). The K-sample settling window of a stream closes, and later samples are valid. -/
  | settlingClose (dt : Nat) (c : Fin 48) (t : Tap)
  /-- COMPARATOR_WRITE (R137). A write to a comparator register is checked, resets the comparator to IN with count 0, or
  is discarded with CFGERR. -/
  | comparatorWrite (dt : Nat) (k : Fin 96) (r : Fin 4) (w : Word)
  /-- COMPARATOR_TRIP (R133). The comparator's count reaches N in state IN, so it trips, records, triggers and requests
  its interrupt. -/
  | comparatorTrip (dt : Nat) (k : Fin 96)
  /-- COMPARATOR_RETURN (R132). The comparator's count reaches N in state OUT, so it returns to IN without action. -/
  | comparatorReturn (dt : Nat) (k : Fin 96)
  /-- TRIP_QUEUE_READ (R135). A read of FLT_TRQW0 removes the oldest trip record into the reader's shadow, or returns
  VALID = 0. -/
  | tripQueueRead (dt : Nat) (o : Orig) (k : Fin 6)
  /-- TALLY_ROUND (R143). Every fine period, the tally processes one sample index for every enabled field, forming
  products and accumulating them. -/
  | tallyRound (dt : Nat) (qs : Unit := ())
  /-- GRANARY_WORD0_READ (R157). A read of word 0 of a granary bin or snapshot bin latches the bin into the reader's
  shadow. -/
  | granaryWord0Read (dt : Nat) (o : Orig) (snap : Bool) (b : Fin 4096)
  /-- SNAPSHOT_REQUEST (R159). A write of TAL_SNAPCMD with GO = 1, or an equivalent request, requests a snapshot of the
  selected fields. -/
  | snapshotRequest (dt : Nat) (fields : Fin 65536) (aligned : Bool)
  /-- SNAPSHOT_BOUNDARY (R161). At a snapshot's boundary, the fields' intervals close, the live bins are copied with a
  record, and the live flags clear. -/
  | snapshotBoundary (dt : Nat)
  /-- CONFIG_BOUNDARY (R164). At a field's configuration boundary, the open interval closes under the old configuration
  and the new configuration applies. -/
  | configBoundary (dt : Nat) (f : Fin 16)
  /-- HALF_CYCLE_RMS_PUBLISH (R167). A half-cycle RMS window ends, and its value is published to TAL_HRMSm and
  optionally to the hopper. -/
  | halfCycleRmsPublish (dt : Nat) (f : Fin 16) (k : Fin 8)
  /-- PULSE_START (R171). A pulse starts when PENDING is at least 1, the idle time W has passed and the ceiling allows
  it. -/
  | pulseStart (dt : Nat) (n : Fin 16)
  /-- PULSE_END (R171). A pulse ends at its full width, and the ball returns to its idle level. -/
  | pulseEnd (dt : Nat) (n : Fin 16)
  /-- PULSE_READBACK_FAULT (R173). A PLS ball differs from its driven level for 10 µs, which sets its FAULT bit. -/
  | pulseReadbackFault (dt : Nat) (n : Fin 16)
  /-- PULSE_SPARE_HANDOVER (R174). At the first idle instant of output n, a spare ball takes over or returns its pulses,
  and the hand-over is logged. -/
  | pulseSpareHandover (dt : Nat) (k : Fin 4)
  /-- JOB_POST (R180). A write of a descriptor address to THR_POST posts a thresher job, which is queued, sheds a
  lower-suit job, or is refused. -/
  | jobPost (dt : Nat) (o : Orig) (a : Word)
  /-- JOB_CANCEL (R183). A write to THR_CANCEL cancels the job or releases its lane, according to its state. -/
  | jobCancel (dt : Nat) (a : Word)
  /-- WINDOW_READY (R184). The resampler writes the last sample of a harmonic job's window, so the job becomes ready. -/
  | windowReady (dt : Nat) (n : Fin 4)
  /-- TRANSFORM_BOUNDARY (R182). A transform completes, and the thresher chooses due lane blocks first, then the
  highest-suit ready job. -/
  | transformBoundary (dt : Nat)
  /-- LANE_BLOCK_DUE (R188). A lane's 5120-sample block fills and falls due for transformation. -/
  | laneBlockDue (dt : Nat) (k : Fin 16)
  /-- SILO_ARM (R199). An arm command, seed or deal arms a silo buffer after its checks, or sets ARMERR. -/
  | siloArm (dt : Nat) (b : Fin 8)
  /-- SILO_TRIGGER (R200). A trigger puts an armed buffer into POST and records the pre-trigger count and the trigger
  timestamp, and links other buffers. -/
  | siloTrigger (dt : Nat) (b : Fin 8)
  /-- SILO_STOP (R201). SIL_CMD stop returns the buffer to IDLE at once. -/
  | siloStop (dt : Nat) (b : Fin 8)
  /-- SILO_WAVEFRONT_RERUN (R202). SIL_CMD OP 100b runs the wavefront unit again on a FROZEN raw buffer. -/
  | siloWavefrontRerun (dt : Nat) (b : Fin 8)
  /-- SILO_FREEZE (R198). The block holding the last post-trigger instant completes, so the buffer freezes, FRZ is set
  and the wavefront unit starts. -/
  | siloFreeze (dt : Nat) (b : Fin 8)
  /-- WAVEFRONT_DONE (R202). The wavefront unit finishes writing its pair records, and WF is set. -/
  | wavefrontDone (dt : Nat) (b : Fin 8)
  /-- START_REQUEST (R213). A write to PLG_START places a start request in a logical plough's start queue, or is
  refused. -/
  | startRequest (dt : Nat) (o : Orig) (w : Word)
  /-- START_DISPATCH (R214). With a hand IDLE and the queue not empty, the highest-suit oldest request is given to the
  lowest IDLE hand. -/
  | startDispatch (dt : Nat) (l : Fin 4)
  /-- START_AGE_EXPIRY (R215). A queued start reaches its suit's age limit and is removed and counted in PLG_SHED. -/
  | startAgeExpiry (dt : Nat) (l : Fin 4)
  /-- VECTOR15_REQUEST (R216). While the interrupt line is asserted and none is live, the plough places a vector-15
  request. -/
  | vector15Request (dt : Nat) (l : Fin 4)
  /-- SCARECROW_KICK (R222). A write to PLG_KICKl by its own plough restarts the scarecrow timer, or causes an expiry
  for a wrong value. -/
  | scarecrowKick (dt : Nat) (o : Orig) (l : Fin 4) (w : Word)
  /-- SCARECROW_EXPIRY (R223). The scarecrow timer expires, so the expiry is counted and the plough restarts or is
  swapped. -/
  | scarecrowExpiry (dt : Nat) (l : Fin 4)
  /-- PLOUGH_RESTART_END (R206). 1024 fabric cycles after a restart begins, it ends and the plough is Active again. -/
  | ploughRestartEnd (dt : Nat) (l : Fin 4)
  /-- PLOUGH_SWAP_CMD (R225). PLG_CMD OP 001b swaps the logical plough to the fallow plough, or is refused. -/
  | ploughSwapCmd (dt : Nat) (r : Fin 2) (l : Fin 8)
  /-- ICACHE_INVALIDATE (R220). PLG_CMD OP 010b invalidates the instruction cache of the logical plough. -/
  | icacheInvalidate (dt : Nat) (o : Orig) (l : Fin 8)
  /-- PLOUGH_RESTART_CMD (R223). PLG_CMD OP 011b restarts the logical plough without counting an expiry. -/
  | ploughRestartCmd (dt : Nat) (r : Fin 2) (l : Fin 8)
  /-- SELF_TEST_END (R225). The swapped-out plough's 5 ms self-test ends, so it becomes Fallow or Retired. -/
  | selfTestEnd (dt : Nat) (p : Fin 5) (pass : Bool)
  /-- OVERLOAD_MONITOR (R238). At each whole second, the monitor compares the shed counters with its copies and sets
  PLG_OVSTAT bits. -/
  | overloadMonitor (dt : Nat)
  /-- GLN_REGULAR_START (R233). The RPER period expires and starts the regular gleaner sequence, or the start is skipped
  with RSKIP. -/
  | glnRegularStart (dt : Nat)
  /-- GLN_CMD_REGULAR (R233). GLN_CMD bit 0 starts the regular sequence once. -/
  | glnCmdRegular (dt : Nat)
  /-- GLN_INJECT_TRIGGER (R233). A seed, a comparator, or GLN_CMD bit 1 triggers the injected sequence, or the trigger
  is counted as lost. -/
  | glnInjectTrigger (dt : Nat)
  /-- GLN_INJECT_DELAY_EXPIRY (R234). The injected delay and start-up have passed, so the first injected conversion
  starts. -/
  | glnInjectDelayExpiry (dt : Nat)
  /-- GLN_CONVERSION_DONE (R235). A gleaner conversion ends, its result is written and optionally pushed to the hopper,
  and the next entry starts. -/
  | glnConversionDone (dt : Nat) (r : Fin 4096)
  /-- GLN_SEQUENCE_END (R234). A gleaner sequence ends, the converter powers down, and a waiting or interrupted sequence
  resumes. -/
  | glnSequenceEnd (dt : Nat)
  /-- ILLEGAL_INSTRUCTION (R250). An instruction word with an unassigned op, fn or invalid field raises the
  illegal-instruction exception. -/
  | illegalInstruction (dt : Nat) (p : Fin 5) (h : Fin 16) (w : Word) (k : Fin 5)
  /-- ADD (R257). xd receives xa + xb. -/
  | add (dt : Nat) (p : Fin 5) (h : Fin 16) (rd ra rb : Fin 32)
  /-- SUB (R257). xd receives xa − xb. -/
  | sub (dt : Nat) (p : Fin 5) (h : Fin 16) (rd ra rb : Fin 32)
  /-- AND (R257). Bitwise and of two registers. -/
  | and (dt : Nat) (p : Fin 5) (h : Fin 16) (rd ra rb : Fin 32)
  /-- IOR (R257). Bitwise inclusive or of two registers. -/
  | ior (dt : Nat) (p : Fin 5) (h : Fin 16) (rd ra rb : Fin 32)
  /-- EOR (R257). Bitwise exclusive or of two registers. -/
  | eor (dt : Nat) (p : Fin 5) (h : Fin 16) (rd ra rb : Fin 32)
  /-- SHL (R257). Shift left by xb[4:0]. -/
  | shl (dt : Nat) (p : Fin 5) (h : Fin 16) (rd ra rb : Fin 32)
  /-- SHRU (R257). Logical shift right by xb[4:0]. -/
  | shru (dt : Nat) (p : Fin 5) (h : Fin 16) (rd ra rb : Fin 32)
  /-- SHRS (R257). Arithmetic shift right by xb[4:0]. -/
  | shrs (dt : Nat) (p : Fin 5) (h : Fin 16) (rd ra rb : Fin 32)
  /-- LTS (R257). Signed less-than comparison into xd. -/
  | lts (dt : Nat) (p : Fin 5) (h : Fin 16) (rd ra rb : Fin 32)
  /-- LTU (R257). Unsigned less-than comparison into xd. -/
  | ltu (dt : Nat) (p : Fin 5) (h : Fin 16) (rd ra rb : Fin 32)
  /-- MINS (R257). Signed minimum. -/
  | mins (dt : Nat) (p : Fin 5) (h : Fin 16) (rd ra rb : Fin 32)
  /-- MAXS (R257). Signed maximum. -/
  | maxs (dt : Nat) (p : Fin 5) (h : Fin 16) (rd ra rb : Fin 32)
  /-- MINU (R257). Unsigned minimum. -/
  | minu (dt : Nat) (p : Fin 5) (h : Fin 16) (rd ra rb : Fin 32)
  /-- MAXU (R257). Unsigned maximum. -/
  | maxu (dt : Nat) (p : Fin 5) (h : Fin 16) (rd ra rb : Fin 32)
  /-- ADDQ (R246). Saturating signed addition, setting Q on saturation. -/
  | addq (dt : Nat) (p : Fin 5) (h : Fin 16) (rd ra rb : Fin 32)
  /-- SUBQ (R246). Saturating signed subtraction, setting Q on saturation. -/
  | subq (dt : Nat) (p : Fin 5) (h : Fin 16) (rd ra rb : Fin 32)
  /-- ABSQ (R246). Saturating absolute value. -/
  | absq (dt : Nat) (p : Fin 5) (h : Fin 16) (rd ra : Fin 32)
  /-- LZC (R257). Count of leading zeros of xa. -/
  | lzc (dt : Nat) (p : Fin 5) (h : Fin 16) (rd ra : Fin 32)
  /-- ADDK (R257). xd receives xa plus the sign-extended immediate. -/
  | addk (dt : Nat) (p : Fin 5) (h : Fin 16) (rd ra : Fin 32) (imm : BitVec 16)
  /-- LTSK (R257). Signed less-than against the sign-extended immediate. -/
  | ltsk (dt : Nat) (p : Fin 5) (h : Fin 16) (rd ra : Fin 32) (imm : BitVec 16)
  /-- LTUK (R257). Unsigned less-than against the sign-extended immediate. -/
  | ltuk (dt : Nat) (p : Fin 5) (h : Fin 16) (rd ra : Fin 32) (imm : BitVec 16)
  /-- ANDK (R257). Bitwise and with the zero-extended immediate. -/
  | andk (dt : Nat) (p : Fin 5) (h : Fin 16) (rd ra : Fin 32) (imm : BitVec 16)
  /-- IORK (R257). Bitwise or with the zero-extended immediate. -/
  | iork (dt : Nat) (p : Fin 5) (h : Fin 16) (rd ra : Fin 32) (imm : BitVec 16)
  /-- EORK (R257). Bitwise exclusive or with the zero-extended immediate. -/
  | eork (dt : Nat) (p : Fin 5) (h : Fin 16) (rd ra : Fin 32) (imm : BitVec 16)
  /-- SHLK (R257). Shift left by the immediate count. -/
  | shlk (dt : Nat) (p : Fin 5) (h : Fin 16) (rd ra n : Fin 32)
  /-- SHRUK (R257). Logical shift right by the immediate count. -/
  | shruk (dt : Nat) (p : Fin 5) (h : Fin 16) (rd ra n : Fin 32)
  /-- SHRSK (R257). Arithmetic shift right by the immediate count. -/
  | shrsk (dt : Nat) (p : Fin 5) (h : Fin 16) (rd ra n : Fin 32)
  /-- HIK (R257). xd receives the immediate shifted left by 16. -/
  | hik (dt : Nat) (p : Fin 5) (h : Fin 16) (rd : Fin 32) (imm : BitVec 16)
  /-- MULL (R258). Low 32 bits of the product. -/
  | mull (dt : Nat) (p : Fin 5) (h : Fin 16) (rd ra rb : Fin 32)
  /-- MULHS (R258). High 32 bits of the signed product. -/
  | mulhs (dt : Nat) (p : Fin 5) (h : Fin 16) (rd ra rb : Fin 32)
  /-- MULHU (R258). High 32 bits of the unsigned product. -/
  | mulhu (dt : Nat) (p : Fin 5) (h : Fin 16) (rd ra rb : Fin 32)
  /-- MULQ (R246). Rounded Q31 product, saturating with Q. -/
  | mulq (dt : Nat) (p : Fin 5) (h : Fin 16) (rd ra rb : Fin 32)
  /-- DIVS (R245). Signed quotient, saturating on a zero divisor or overflow. -/
  | divs (dt : Nat) (p : Fin 5) (h : Fin 16) (rd ra rb : Fin 32)
  /-- DIVU (R245). Unsigned quotient, saturating on a zero divisor. -/
  | divu (dt : Nat) (p : Fin 5) (h : Fin 16) (rd ra rb : Fin 32)
  /-- MODS (R245). Signed remainder with the sign of the dividend. -/
  | mods (dt : Nat) (p : Fin 5) (h : Fin 16) (rd ra rb : Fin 32)
  /-- MODU (R245). Unsigned remainder. -/
  | modu (dt : Nat) (p : Fin 5) (h : Fin 16) (rd ra rb : Fin 32)
  /-- KMAC (R259). Adds the signed product to an accumulator. -/
  | kmac (dt : Nat) (p : Fin 5) (h : Fin 16) (ka : Fin 4) (ra rb : Fin 32)
  /-- KMSU (R259). Subtracts the signed product from an accumulator. -/
  | kmsu (dt : Nat) (p : Fin 5) (h : Fin 16) (ka : Fin 4) (ra rb : Fin 32)
  /-- KMACU (R259). Adds the unsigned product to an accumulator. -/
  | kmacu (dt : Nat) (p : Fin 5) (h : Fin 16) (ka : Fin 4) (ra rb : Fin 32)
  /-- CMAC (R259). Complex Q15 multiply-accumulate into an accumulator pair. -/
  | cmac (dt : Nat) (p : Fin 5) (h : Fin 16) (ka : Fin 4) (ra rb : Fin 32)
  /-- CMACJ (R259). Complex multiply-accumulate with the second operand conjugated. -/
  | cmacj (dt : Nat) (p : Fin 5) (h : Fin 16) (ka : Fin 4) (ra rb : Fin 32)
  /-- KCLR (R259). Clears an accumulator. -/
  | kclr (dt : Nat) (p : Fin 5) (h : Fin 16) (ka : Fin 4)
  /-- KEXT (R247). Rounds, shifts and holds an accumulator to 32 bits. -/
  | kext (dt : Nat) (p : Fin 5) (h : Fin 16) (rd : Fin 32) (kb : Fin 4) (ra : Fin 32)
  /-- KRD (R259). Reads one part of an accumulator. -/
  | krd (dt : Nat) (p : Fin 5) (h : Fin 16) (rd : Fin 32) (kb : Fin 4) (pt : Fin 32)
  /-- KWR (R259). Writes one part of an accumulator. -/
  | kwr (dt : Nat) (p : Fin 5) (h : Fin 16) (ka : Fin 4) (ra : Fin 32) (pt : Fin 32)
  /-- KADD (R259). Adds one accumulator to another. -/
  | kadd (dt : Nat) (p : Fin 5) (h : Fin 16) (ka kb : Fin 4)
  /-- KFLT (R259). Converts a scaled accumulator to binary32. -/
  | kflt (dt : Nat) (p : Fin 5) (h : Fin 16) (rd : Fin 32) (kb : Fin 4) (ra : Fin 32)
  /-- FLADD (R260). Binary32 sum. -/
  | fladd (dt : Nat) (p : Fin 5) (h : Fin 16) (rd ra rb : Fin 32)
  /-- FLSUB (R260). Binary32 difference. -/
  | flsub (dt : Nat) (p : Fin 5) (h : Fin 16) (rd ra rb : Fin 32)
  /-- FLMUL (R260). Binary32 product. -/
  | flmul (dt : Nat) (p : Fin 5) (h : Fin 16) (rd ra rb : Fin 32)
  /-- FLDIV (R260). Binary32 quotient. -/
  | fldiv (dt : Nat) (p : Fin 5) (h : Fin 16) (rd ra rb : Fin 32)
  /-- FLSQRT (R260). Binary32 square root. -/
  | flsqrt (dt : Nat) (p : Fin 5) (h : Fin 16) (rd ra : Fin 32)
  /-- FLMAC (R260). Fused binary32 multiply-add into xd. -/
  | flmac (dt : Nat) (p : Fin 5) (h : Fin 16) (rd ra rb : Fin 32)
  /-- FLMIN (R248). IEEE 754-2019 minimum. -/
  | flmin (dt : Nat) (p : Fin 5) (h : Fin 16) (rd ra rb : Fin 32)
  /-- FLMAX (R248). IEEE 754-2019 maximum. -/
  | flmax (dt : Nat) (p : Fin 5) (h : Fin 16) (rd ra rb : Fin 32)
  /-- FLABS (R248). Clears the sign bit. -/
  | flabs (dt : Nat) (p : Fin 5) (h : Fin 16) (rd ra : Fin 32)
  /-- FLNEG (R248). Inverts the sign bit. -/
  | flneg (dt : Nat) (p : Fin 5) (h : Fin 16) (rd ra : Fin 32)
  /-- FLCEQ (R248). Quiet binary32 equality comparison. -/
  | flceq (dt : Nat) (p : Fin 5) (h : Fin 16) (rd ra rb : Fin 32)
  /-- FLCLT (R248). Signalling binary32 less-than comparison. -/
  | flclt (dt : Nat) (p : Fin 5) (h : Fin 16) (rd ra rb : Fin 32)
  /-- FLCLE (R248). Signalling binary32 less-or-equal comparison. -/
  | flcle (dt : Nat) (p : Fin 5) (h : Fin 16) (rd ra rb : Fin 32)
  /-- FLTOI (R248). Binary32 to int32 conversion, held at the limits. -/
  | fltoi (dt : Nat) (p : Fin 5) (h : Fin 16) (rd ra : Fin 32)
  /-- ITOFL (R260). Int32 to binary32 conversion. -/
  | itofl (dt : Nat) (p : Fin 5) (h : Fin 16) (rd ra : Fin 32)
  /-- QTOFL (R260). Q31 to binary32 conversion. -/
  | qtofl (dt : Nat) (p : Fin 5) (h : Fin 16) (rd ra : Fin 32)
  /-- FLTOQ (R248). Binary32 to Q31 conversion, held at the limits. -/
  | fltoq (dt : Nat) (p : Fin 5) (h : Fin 16) (rd ra : Fin 32)
  /-- VADD (R261). Lane-wise integer sum. -/
  | vadd (dt : Nat) (p : Fin 5) (h : Fin 16) (vd va vb : Fin 16)
  /-- VSUB (R261). Lane-wise integer difference. -/
  | vsub (dt : Nat) (p : Fin 5) (h : Fin 16) (vd va vb : Fin 16)
  /-- VADDQ (R261). Lane-wise saturating sum. -/
  | vaddq (dt : Nat) (p : Fin 5) (h : Fin 16) (vd va vb : Fin 16)
  /-- VMULQ (R261). Lane-wise Q31 product. -/
  | vmulq (dt : Nat) (p : Fin 5) (h : Fin 16) (vd va vb : Fin 16)
  /-- VMIN (R261). Lane-wise signed minimum. -/
  | vmin (dt : Nat) (p : Fin 5) (h : Fin 16) (vd va vb : Fin 16)
  /-- VMAX (R261). Lane-wise signed maximum. -/
  | vmax (dt : Nat) (p : Fin 5) (h : Fin 16) (vd va vb : Fin 16)
  /-- VFLADD (R261). Lane-wise binary32 sum. -/
  | vfladd (dt : Nat) (p : Fin 5) (h : Fin 16) (vd va vb : Fin 16)
  /-- VFLSUB (R261). Lane-wise binary32 difference. -/
  | vflsub (dt : Nat) (p : Fin 5) (h : Fin 16) (vd va vb : Fin 16)
  /-- VFLMUL (R261). Lane-wise binary32 product. -/
  | vflmul (dt : Nat) (p : Fin 5) (h : Fin 16) (vd va vb : Fin 16)
  /-- VFLMAC (R261). Lane-wise fused binary32 multiply-add. -/
  | vflmac (dt : Nat) (p : Fin 5) (h : Fin 16) (vd va vb : Fin 16)
  /-- VSPLAT (R261). Copies xa into every lane. -/
  | vsplat (dt : Nat) (p : Fin 5) (h : Fin 16) (vd : Fin 16) (ra : Fin 32)
  /-- VINS (R261). Inserts xa into lane n. -/
  | vins (dt : Nat) (p : Fin 5) (h : Fin 16) (vd : Fin 16) (ra n : Fin 32)
  /-- VEXT (R261). Extracts lane n into xd. -/
  | vext (dt : Nat) (p : Fin 5) (h : Fin 16) (rd : Fin 32) (va : Fin 16) (n : Fin 32)
  /-- VKDOT (R261). Adds the exact dot product of the lanes to an accumulator. -/
  | vkdot (dt : Nat) (p : Fin 5) (h : Fin 16) (ka : Fin 4) (va vb : Fin 16)
  /-- VFLSUM (R261). Pairwise binary32 sum of the eight lanes. -/
  | vflsum (dt : Nat) (p : Fin 5) (h : Fin 16) (rd : Fin 32) (va : Fin 16)
  /-- VSHRS (R261). Lane-wise arithmetic shift right. -/
  | vshrs (dt : Nat) (p : Fin 5) (h : Fin 16) (vd va : Fin 16) (n : Fin 32)
  /-- VQTOFL (R261). Lane-wise Q31 to binary32 conversion. -/
  | vqtofl (dt : Nat) (p : Fin 5) (h : Fin 16) (vd va : Fin 16)
  /-- LDB (R262). Loads a sign-extended byte. -/
  | ldb (dt : Nat) (p : Fin 5) (h : Fin 16) (rd ra : Fin 32) (imm : BitVec 16)
  /-- LDBU (R262). Loads a zero-extended byte. -/
  | ldbu (dt : Nat) (p : Fin 5) (h : Fin 16) (rd ra : Fin 32) (imm : BitVec 16)
  /-- LDH (R262). Loads a sign-extended halfword. -/
  | ldh (dt : Nat) (p : Fin 5) (h : Fin 16) (rd ra : Fin 32) (imm : BitVec 16)
  /-- LDHU (R262). Loads a zero-extended halfword. -/
  | ldhu (dt : Nat) (p : Fin 5) (h : Fin 16) (rd ra : Fin 32) (imm : BitVec 16)
  /-- LDW (R262). Loads a word, with the read side effects of the target register. -/
  | ldw (dt : Nat) (p : Fin 5) (h : Fin 16) (rd ra : Fin 32) (imm : BitVec 16)
  /-- LDV (R262). Loads eight words into a vector register. -/
  | ldv (dt : Nat) (p : Fin 5) (h : Fin 16) (vd : Fin 16) (ra : Fin 32) (imm : BitVec 16)
  /-- STB (R262). Posts a byte store. -/
  | stb (dt : Nat) (p : Fin 5) (h : Fin 16) (rs ra : Fin 32) (imm : BitVec 16)
  /-- STH (R262). Posts a halfword store. -/
  | sth (dt : Nat) (p : Fin 5) (h : Fin 16) (rs ra : Fin 32) (imm : BitVec 16)
  /-- STW (R262). Posts a word store. -/
  | stw (dt : Nat) (p : Fin 5) (h : Fin 16) (rs ra : Fin 32) (imm : BitVec 16)
  /-- STV (R262). Posts an eight-word vector store. -/
  | stv (dt : Nat) (p : Fin 5) (h : Fin 16) (vs : Fin 16) (ra : Fin 32) (imm : BitVec 16)
  /-- LOAD_RETURN (R218). A load's data returns after its latency, and the waiting hand becomes READY. -/
  | loadReturn (dt : Nat) (p : Fin 5) (h : Fin 16) (k : Fin 5)
  /-- STORE_COMPLETE (R253). A posted store or granary write completes at its target in issue order, freeing the store
  buffer. -/
  | storeComplete (dt : Nat) (p : Fin 5) (k : Fin 5)
  /-- FIXED_FUNCTION_RETRY (R419). A fixed-function originator repeats a failed transaction in its reserved share, up to
  15 times. -/
  | fixedFunctionRetry (dt : Nat) (k : Fin 6) (f : Fin 16) (a : BitVec 32) (n : Fin 17)
  /-- D_WAIT_END (R252). Every earlier store of the hand has completed, so a +D instruction proceeds. -/
  | dWaitEnd (dt : Nat) (p : Fin 5) (h : Fin 16)
  /-- AADD (R263). Atomic add to a word, returning the old value. -/
  | aadd (dt : Nat) (p : Fin 5) (h : Fin 16) (rd ra rb : Fin 32) (k : Fin 5)
  /-- ASWAP (R263). Atomic swap of a word, returning the old value. -/
  | aswap (dt : Nat) (p : Fin 5) (h : Fin 16) (rd ra rb : Fin 32) (k : Fin 5)
  /-- ACAS (R263). Atomic compare-and-swap of a word. -/
  | acas (dt : Nat) (p : Fin 5) (h : Fin 16) (rd ra rb : Fin 32) (k : Fin 5)
  /-- BREQ (R264). Branches if xa = xb. -/
  | breq (dt : Nat) (p : Fin 5) (h : Fin 16) (ra rb : Fin 32) (off : BitVec 16)
  /-- BRNE (R264). Branches if xa ≠ xb. -/
  | brne (dt : Nat) (p : Fin 5) (h : Fin 16) (ra rb : Fin 32) (off : BitVec 16)
  /-- BRLT (R264). Branches if xa < xb, signed. -/
  | brlt (dt : Nat) (p : Fin 5) (h : Fin 16) (ra rb : Fin 32) (off : BitVec 16)
  /-- BRGE (R264). Branches if xa ≥ xb, signed. -/
  | brge (dt : Nat) (p : Fin 5) (h : Fin 16) (ra rb : Fin 32) (off : BitVec 16)
  /-- BRLTU (R264). Branches if xa < xb, unsigned. -/
  | brltu (dt : Nat) (p : Fin 5) (h : Fin 16) (ra rb : Fin 32) (off : BitVec 16)
  /-- BRGEU (R264). Branches if xa ≥ xb, unsigned. -/
  | brgeu (dt : Nat) (p : Fin 5) (h : Fin 16) (ra rb : Fin 32) (off : BitVec 16)
  /-- CALL (R264). Writes the return address to x31 and jumps. -/
  | call (dt : Nat) (p : Fin 5) (h : Fin 16) (off : BitVec 26)
  /-- JUMP (R264). Jumps to a pc-relative target. -/
  | jump (dt : Nat) (p : Fin 5) (h : Fin 16) (off : BitVec 26)
  /-- JREG (R264). Jumps through a register, writing the link to xd. -/
  | jreg (dt : Nat) (p : Fin 5) (h : Fin 16) (rd ra : Fin 32) (imm : BitVec 16)
  /-- HPOP (R265). Removes the oldest hopper entry of the plough's queue, or waits on an empty queue. -/
  | hpop (dt : Nat) (p : Fin 5) (h : Fin 16) (rd rt : Fin 32)
  /-- HPOP_WAIT_END (R231). An entry arrives for a hand waiting in HPOP, which takes it in suit and arrival order. -/
  | hpopWaitEnd (dt : Nat) (p : Fin 5)
  /-- HPEEK (R265). Returns the oldest hopper entry without removing it, or an empty indication. -/
  | hpeek (dt : Nat) (p : Fin 5) (h : Fin 16) (rd rt : Fin 32)
  /-- GADD (R266). Posts a shifted add to a program bin. -/
  | gadd (dt : Nat) (p : Fin 5) (h : Fin 16) (rn rb sh : Fin 32)
  /-- GSET (R266). Posts a set of a program bin, resetting its metadata. -/
  | gset (dt : Nat) (p : Fin 5) (h : Fin 16) (rn rb sh : Fin 32)
  /-- GADDK (R266). Posts the add of an accumulator to a program bin. -/
  | gaddk (dt : Nat) (p : Fin 5) (h : Fin 16) (rn : Fin 32) (kb : Fin 4)
  /-- GRD (R266). Reads all four words of a bin in one access. -/
  | grd (dt : Nat) (p : Fin 5) (h : Fin 16) (vd : Fin 16) (rn : Fin 32)
  /-- GSNAP (R266). Requests a snapshot as a TAL_SNAPCMD write and returns a status. -/
  | gsnap (dt : Nat) (p : Fin 5) (h : Fin 16) (rd ra : Fin 32)
  /-- AWAIT (R268). Waits until a furrow angle reaches a target, with an optional timeout. -/
  | await (dt : Nat) (p : Fin 5) (h : Fin 16) (rd ra rt : Fin 32) (fw : Fin 4)
  /-- AWAIT_END (R269). A waiting AWAIT ends because the target is reached, the furrow is disabled, or the timeout
  passes. -/
  | awaitEnd (dt : Nat) (p : Fin 5) (h : Fin 16)
  /-- ARD (R268). Reads a furrow's 64-bit angle word. -/
  | ard (dt : Nat) (p : Fin 5) (h : Fin 16) (rd : Fin 32) (fw : Fin 4)
  /-- ATS (R268). Reads a timestamp on a furrow into a vector register. -/
  | ats (dt : Nat) (p : Fin 5) (h : Fin 16) (vd : Fin 16) (fw : Fin 4)
  /-- SARM (R270). Writes and arms a seed in one cycle, returning a status. -/
  | sarm (dt : Nat) (p : Fin 5) (h : Fin 16) (rd rn : Fin 32) (vs : Fin 16)
  /-- SDIS (R270). Disarms a seed, returning a status. -/
  | sdis (dt : Nat) (p : Fin 5) (h : Fin 16) (rd rn : Fin 32)
  /-- TPOST (R270). Posts a thresher descriptor with the hand's suit. -/
  | tpost (dt : Nat) (p : Fin 5) (h : Fin 16) (rd ra : Fin 32)
  /-- MSND (R271). Sends a data word to a logical plough's mailbox. -/
  | msnd (dt : Nat) (p : Fin 5) (h : Fin 16) (rd ra rb : Fin 32)
  /-- MRCV (R271). Takes the oldest mailbox message, waiting or not according to NB. -/
  | mrcv (dt : Nat) (p : Fin 5) (h : Fin 16) (rd rt : Fin 32) (nb : Bool)
  /-- MRCV_WAIT_END (R221). A message arrives for a hand waiting in MRCV, which takes it in suit and wait order. -/
  | mrcvWaitEnd (dt : Nat) (p : Fin 5)
  /-- ICLM (R271). Claims the interrupt source offered to the plough's target, optionally waiting for the request line. -/
  | iclm (dt : Nat) (p : Fin 5) (h : Fin 16) (rd : Fin 32) (w : Bool)
  /-- ICLM_WAIT_END (R271). The plough's interrupt request line is asserted for a waiting ICLM, which then claims. -/
  | iclmWaitEnd (dt : Nat) (p : Fin 5) (h : Fin 16)
  /-- IDONE (R271). Posts a completion of a source to INT_DONE for the plough's target. -/
  | idone (dt : Nat) (p : Fin 5) (h : Fin 16) (ra : Fin 32)
  /-- SPAWN (R272). Enqueues a start request to a logical plough and vector. -/
  | spawn (dt : Nat) (p : Fin 5) (h : Fin 16) (rd ra rb : Fin 32)
  /-- YIELD (R272). Makes the hand not READY for n cycles, or steps it behind its suit. -/
  | yield (dt : Nat) (p : Fin 5) (h : Fin 16) (ra : Fin 32)
  /-- YIELD_END (R272). A yielding hand's n cycles pass, and it is READY again. -/
  | yieldEnd (dt : Nat) (p : Fin 5) (h : Fin 16)
  /-- HALT (R272). Sends the hand to IDLE, leaving claims and posted stores. -/
  | halt (dt : Nat) (p : Fin 5) (h : Fin 16)
  /-- SUIT (R272). Reads, and optionally changes, the hand's suit. -/
  | suit (dt : Nat) (p : Fin 5) (h : Fin 16) (rd ra : Fin 32) (put : Bool)
  /-- DRAIN (R272). Waits until the hand's earlier stores have completed. -/
  | drain (dt : Nat) (p : Fin 5) (h : Fin 16)
  /-- HSRD (R272). Reads the hand status hs. -/
  | hsrd (dt : Nat) (p : Fin 5) (h : Fin 16) (rd : Fin 32)
  /-- HSWR (R272). Writes the RW fields of hs. -/
  | hswr (dt : Nat) (p : Fin 5) (h : Fin 16) (ra : Fin 32)
  /-- WHO (R272). Returns the physical plough, the logical plough and the hand number. -/
  | who (dt : Nat) (p : Fin 5) (h : Fin 16) (rd : Fin 32)
  /-- CYCRD (R272). Reads the 64-bit fabric cycle counter. -/
  | cycrd (dt : Nat) (p : Fin 5) (h : Fin 16) (rd : Fin 32)
  /-- BRK (R272). Raises the breakpoint exception. -/
  | brk (dt : Nat) (p : Fin 5) (h : Fin 16) (k : Fin 32)
  /-- DREQ_OPEN (R273). Opens a deal owned by the logical plough, with a timeout. -/
  | dreqOpen (dt : Nat) (p : Fin 5) (h : Fin 16) (rd ra : Fin 32)
  /-- DREQ_WRITE (R274). Enters a write into the plough's deal, or refuses it for permissions or arguments. -/
  | dreqWrite (dt : Nat) (p : Fin 5) (h : Fin 16) (rd ra rb : Fin 32)
  /-- DREQ_PLAY (R273). Plays the plough's deal at the instant its play word names. -/
  | dreqPlay (dt : Nat) (p : Fin 5) (h : Fin 16) (rd ra rb : Fin 32)
  /-- DREQ_FOLD (R273). Folds the plough's deal. -/
  | dreqFold (dt : Nat) (p : Fin 5) (h : Fin 16) (rd : Fin 32)
  /-- NVM_PUSH (R282). A write of NVM_WDH pushes an entry into the commit buffer, merging, accepting or refusing it with
  a cause. -/
  | nvmPush (dt : Nat) (o : Orig) (w : Word)
  /-- COMMIT_TIMER_EXPIRY (R286). The commit timer reaches PER × 125 ms on a round boundary and starts a timer commit. -/
  | commitTimerExpiry (dt : Nat)
  /-- COMMIT_NOW (R286). NVM_CMD bit 0 starts a command commit, or holds it until the running commit closes. -/
  | commitNow (dt : Nat)
  /-- SCRUB_NOW (R298). NVM_CMD bit 1 starts a scrub of the barn. -/
  | scrubNow (dt : Nat)
  /-- CRIB_COPY_NOW (R301). NVM_CMD bit 2 starts a crib copy. -/
  | cribCopyNow (dt : Nat)
  /-- COMMIT_CLOSE (R287). A commit writes its commit-close record, DONE is set, and any held start begins. -/
  | commitClose (dt : Nat) (bad : List (Fin 8192))
  /-- CRIB_PAGE_PROGRAM_END (R287). A 4 ms crib page program ends, and the next pending page program begins. -/
  | cribPageProgramEnd (dt : Nat)
  /-- SCRUB_TIMER (R298). The daily scrub reads the whole barn and rewrites corrected words. -/
  | scrubTimer (dt : Nat) (sgl dbl : Scrubbed)
  /-- CRIB_COPY_TIMER (R301). Every CRIBPER minutes, the commit engine starts copying the newest energy, pulse and
  calibration sheaves into the crib. -/
  | cribCopyTimer (dt : Nat)
  /-- CRIB_COPY_END (R301). The 512 page programs of a crib copy complete, with the trailer last. -/
  | cribCopyEnd (dt : Nat)
  /-- PFWARN_ASSERT (R289). PFWARN stable for 2 µs is taken: the running commit stops, pushes are refused, isolation
  begins and the power-fail commit runs. -/
  | pfwarnAssert (dt : Nat)
  /-- POWER_FAIL_COMMIT_CLOSE (R289). The power-fail commit writes its close record within 185 µs of the warning, and
  PFC is set. -/
  | powerFailCommitClose (dt : Nat)
  /-- PFWARN_RELEASE_EXPIRY (R290). PFWARN has been released for 10 ms without a reset, so normal operation resumes. -/
  | pfwarnReleaseExpiry (dt : Nat)
  /-- BACKUP_ISOLATION_END (R331). 1 ms after leaving reset or resuming, the main and backup domains join again. -/
  | backupIsolationEnd (dt : Nat)
  /-- PPS_EDGE (R307). An accepted PPS edge is measured against TB0 and drives the servo, steps and TB0 state changes. -/
  | ppsEdge (dt : Nat) (fall : Bool) (z : Int)
  /-- PPS_EDGE_MISSING (R308). An expected PPS edge does not arrive, and four in a row move a LOCKED TB0 to HOLDOVER. -/
  | ppsEdgeMissing (dt : Nat)
  /-- TB0_LOAD_AT_PPS (R311). RTC_TB0CMD OP 01b schedules a TB0 load at the next accepted PPS edge. -/
  | tb0LoadAtPps (dt : Nat) (o : Orig)
  /-- TB0_LOAD_NOW (R311). RTC_TB0CMD OP 10b loads TB0 in the cycle of the write. -/
  | tb0LoadNow (dt : Nat) (o : Orig)
  /-- CALENDAR_SECOND (R313). The sub-second count completes a UTC second, and the calendars advance with leap seconds,
  follow corrections and range end. -/
  | calendarSecond (dt : Nat)
  /-- DST_SET_CMD (R317). RTC_DSTCMD 01b schedules setting DST, or is rejected as impossible. -/
  | dstSetCmd (dt : Nat) (o : Orig)
  /-- DST_CLEAR_CMD (R317). RTC_DSTCMD 10b schedules clearing DST, or is rejected as impossible. -/
  | dstClearCmd (dt : Nat) (o : Orig)
  /-- FOLD_END (R317). 3600 s after DST is cleared, FOLD clears. -/
  | foldEnd (dt : Nat)
  /-- CALENDAR_WRITE (R318). RTC_WCMD GO checks the staged time and applies it at the next XTAL32 edge, or rejects it
  with BADWR. -/
  | calendarWrite (dt : Nat) (o : Orig) (w : Word)
  /-- CALENDAR_SHIFT (R320). A write to RTC_SHIFT advances the sub-second count or starts a backward hold. -/
  | calendarShift (dt : Nat) (o : Orig) (w : Word)
  /-- SHIFT_HOLD_END (R320). A backward shift's hold of |n| edges ends and SHIFTBUSY clears. -/
  | shiftHoldEnd (dt : Nat)
  /-- CALENDAR_FREEZE_READ (R321). A read of RTC_SUBSEC freezes the calendar registers into the reader's shadow. -/
  | calendarFreezeRead (dt : Nat) (o : Orig)
  /-- CALENDAR_YEAR_READ (R321). A read of RTC_YEAR returns the shadowed year and ends the freeze. -/
  | calendarYearRead (dt : Nat) (o : Orig)
  /-- BACKUP_WRITE_APPLY (R334). A write to a backup register takes effect at the next XTAL32 edge. -/
  | backupWriteApply (dt : Nat)
  /-- XTAL32_STOP (R327). XTAL32 stops for more than 4 ms, so OSF is set and the calendars halt. -/
  | xtal32Stop (dt : Nat)
  /-- SUPPLY_CHANGEOVER (R329). The backup switch changes between VBAT and VDDIO, and SWCNT increments. -/
  | supplyChangeover (dt : Nat)
  /-- CELL_CHECK (R330). The cell check finds VBAT below 2.0 V and latches CELL_LOW. -/
  | cellCheck (dt : Nat) (low : Bool)
  /-- BACKUP_DOMAIN_RESET (R330). VBKP falls below 1.60 V, so the backup domain resets, the calendars restart and the
  backup RAM is invalid. -/
  | backupDomainReset (dt : Nat)
  /-- LINK_SIGNAL_DETECT (R337). A receiver in DOWN detects a signal and enters TRAIN. -/
  | linkSignalDetect (dt : Nat) (r : Fin 2)
  /-- LINK_TRAIN_COMPLETE (R337). Comma alignment is held for 1 ms without a violation, so the receiver enters UP. -/
  | linkTrainComplete (dt : Nat) (r : Fin 2) (valid : Bool) (pos : Fin 64)
  /-- LINK_DOWN (R337). Signal is lost for 1 µs, or 16 violations occur in 1 ms, so the receiver goes DOWN and the event
  is logged. -/
  | linkDown (dt : Nat) (r : Fin 2) (viol : Fin 17)
  /-- FRAME_RECEIVE (R342). A frame is received whole, CRC-checked, forwarded or taken, retry-matched and slot-allocated
  or answered NAK_BUSY. -/
  | frameReceive (dt : Nat) (r : Fin 2) (ok abort : Bool) (w0 w1 w2 : Word) (pay : List Word) (at_ : Fin 64) (k : Fin 5)
  /-- RESPONSE_KEEP_EXPIRY (R345). A sent response's 1 ms keep time expires and it is discarded. -/
  | responseKeepExpiry (dt : Nat)
  /-- ENUM (R351). An ENUM frame assigns or confirms the device's position and chain and is forwarded with the value
  stepped. -/
  | enum (dt : Nat) (r : Fin 2) (w0 w1 w2 : Word)
  /-- READ (R340). A READ request returns 1 to 64 words from consecutive addresses. -/
  | read (dt : Nat) (at_ : Fin 64) (k : Fin 5)
  /-- WRITE (R340). A WRITE request writes 1 to 64 words to consecutive addresses, or enters them into the ledger when
  LED = 1. -/
  | write (dt : Nat) (at_ : Fin 64) (k : Fin 5)
  /-- RMW (R340). An atomic read-modify-write of one word, returning the old value. -/
  | rmw (dt : Nat) (k : Fin 5)
  /-- DEAL_OPEN (R357). Opens a deal owned by the host, with a timeout and an optional SEED flag. -/
  | dealOpen (dt : Nat)
  /-- DEAL_PLAY (R362). Plays the open deal: the instant is judged, then the MAC and the check run. -/
  | dealPlay (dt : Nat)
  /-- DEAL_CHECK_END (R359). The play's MAC verification and check end, so the deal is HELD, stays OPEN with CHECKFAIL,
  or folds with AUTHFAIL. -/
  | dealCheckEnd (dt : Nat)
  /-- DEAL_FOLD (R357). Folds the host's deal and returns the ledger to IDLE. -/
  | dealFold (dt : Nat)
  /-- DEAL_TIMEOUT (R357). An open deal's timeout expires, so the deal folds and TMOFOLD is set. -/
  | dealTimeout (dt : Nat)
  /-- DEAL_APPLICATION (R364). At the application cycle, the check is repeated and every entry is applied in one cycle,
  or the deal fails with LATEFAIL. -/
  | dealApplication (dt : Nat)
  /-- MAILBOX (R349). A MAILBOX frame places a data word in a logical plough's mailbox. -/
  | mailbox (dt : Nat)
  /-- EVENT_SEND (R350). The device sends an EVENT frame for an alarm group that qualifies for target 5. -/
  | eventSend (dt : Nat)
  /-- EVENT_ACK (R350). A host acknowledgement frame for an event's tag ends its retries. -/
  | eventAck (dt : Nat) (tag : Fin 64)
  /-- EVENT_RETRY_TIMEOUT (R350). No acknowledgement arrives within 100 µs, so the event is resent on the other ring, or
  given up after three attempts. -/
  | eventRetryTimeout (dt : Nat)
  /-- SYNC_SEND (R353). A broadcasting device sends a SYNC frame on both rings, RATE times per second. -/
  | syncSend (dt : Nat)
  /-- SYNC (R355). An accepted SYNC frame gives a broadcast angle and, with ADOPT, may step a free-running TB0. -/
  | sync (dt : Nat) (r : Fin 2) (host : Bool) (pos : Fin 64) (pay : List Word)
  /-- HOP_DELAY_MEASURE (R354). Once per second, the delay of each incoming hop is measured with a returned marker. -/
  | hopDelayMeasure (dt : Nat) (r : Fin 2) (d : Fin 65536)
  /-- BULK_READ (R348). A BULK read is answered by data frames of up to 64 words, the last flagged LAST. -/
  | bulkRead (dt : Nat) (at_ : Nat) (k : Fin 5)
  /-- BULK_WRITE (R348). A BULK write of up to 4 KiB in ascending frames is written and answered once after LAST. -/
  | bulkWrite (dt : Nat) (at_ : Fin 1024) (k : Fin 5)
  /-- BOOTCMD_RECOVER (R447). An authenticated RECOVER during the GPIO00 wait enters recovery mode. -/
  | bootcmdRecover (dt : Nat)
  /-- BOOTCMD_LEAVE (R447). LEAVE in recovery mode is answered and then requests a warm reset. -/
  | bootcmdLeave (dt : Nat)
  /-- BEACON_SEND (R376). Every 2000 symbols, a coordinator sends its hardware-built beacon with grants,
  acknowledgements and join answers. -/
  | beaconSend (dt : Nat)
  /-- BEACON_RECEIVE (R378). A node receives a beacon and takes its timing, grants, acknowledgements and join answers. -/
  | beaconReceive (dt : Nat) (bs : List Byte) (er : Fin 18) (snr : Fin 256) (gain : Fin 8)
  /-- BEACON_MISS (R378). A node misses a beacon, so it does not transmit that period, and after 8 misses it leaves the
  domain. -/
  | beaconMiss (dt : Nat)
  /-- JOIN_SEND (R379). A searching node sends a join frame in a chosen join pair with probability ½. -/
  | joinSend (dt : Nat) (pair : Fin 32)
  /-- JOIN_BACKOFF_EXPIRY (R379). An unanswered node's random wait of 1 to 8 periods ends and it begins joining again. -/
  | joinBackoffExpiry (dt : Nat)
  /-- MODEM_FRAME_RECEIVE (R373). A modem frame ends and is decoded or failed for erasures, then accepted, acknowledged
  and written to the receive ring. -/
  | modemFrameReceive (dt : Nat) (mode : Fin 4) (sy er : Fin 113) (fc crc : Bool) (bs : List Byte) (snr : Fin 256) (gain
    : Fin 8)
  /-- MODEM_RUN_START (R383). At the start of its run, the device sends a retry or the oldest fitting descriptor within
  the duty hedge. -/
  | modemRunStart (dt : Nat) (k : Fin 64)
  /-- MODEM_TRANSMIT_END (R387). A transmitted frame ends, DUO_TXEN falls and the receiver is unblanked 50 µs later. -/
  | modemTransmitEnd (dt : Nat)
  /-- MODEM_ACK_TIMEOUT (R381). An acknowledgement falls due and is absent, so the frame is scheduled for retry or fails
  after three retries. -/
  | modemAckTimeout (dt : Nat)
  /-- DUO_TXPOST (R382). A write to DUO_TXPOST queues a transmit descriptor, or refuses it. -/
  | duoTxpost (dt : Nat) (o : Orig) (w : Word)
  /-- DUO_DISABLE (R388). A write of DUO_CTL.EN = 0 withdraws the queued descriptors, unjoins the node and stops the
  modem. -/
  | duoDisable (dt : Nat) (o : Orig) (w : Word)
  /-- DUO_LEVEL_WRITE (R386). A write of DUO_TXCTL.LVL above the capped code is a violation and puts the modem into its
  safe state. -/
  | duoLevelWrite (dt : Nat) (o : Orig) (w : Word)
  /-- TXEN_READBACK_FAULT (R386). DUO_TXEN differs from its driven level for 10 µs, so TXENF is set and the modem safe
  state is forced. -/
  | txenReadbackFault (dt : Nat)
  /-- INTERRUPT_CLAIM (R396). A read of INT_CLAIMt claims the highest-priority offered source for target t, or returns
  0. -/
  | interruptClaim (dt : Nat) (o : Orig) (t : Fin 6)
  /-- INTERRUPT_COMPLETE (R397). A write of an ID to INT_DONEt completes a source claimed by t, or is counted as a bad
  completion. -/
  | interruptComplete (dt : Nat) (t : Fin 6) (w : Word)
  /-- INT_SWSET (R392). A write of 1s to INT_SWSETk sets software sources. -/
  | intSwset (dt : Nat) (k : Fin 2) (w : Word)
  /-- INT_SWCLR (R392). A write of 1s to INT_SWCLRk clears software sources. -/
  | intSwclr (dt : Nat) (k : Fin 2) (w : Word)
  /-- ALARM_RECORD_WRITE (R401). The log engine writes a queued alarm record within 100 µs of its group. -/
  | alarmRecordWrite (dt : Nat)
  /-- ALERT_LATCH_CLEAR (R400). A write of 1 to an INT_ALSTAT latch bit clears that alert latch. -/
  | alertLatchClear (dt : Nat) (o : Orig) (w : Word)
  /-- ALERT_RELEASE_DEFERRED (R400). A deferred alert release takes effect when the minimum assertion time or release
  gap ends. -/
  | alertReleaseDeferred (dt : Nat) (k : Fin 2)
  /-- HEDGE_WRITE (R407). A write to a hedge field takes effect only if it is no looser than the value in force, and
  lock is honoured. -/
  | hedgeWrite (dt : Nat) (o : Orig) (r : Fin 7) (w : Word)
  /-- SAFE_STATE_FORCE (R411). A host write of HDG_CMD.FORCE enters the safe state. -/
  | safeStateForce (dt : Nat) (o : Orig)
  /-- SAFE_STATE_CLEAR (R412). A host write of HDG_CMD.CLR leaves the safe state. -/
  | safeStateClear (dt : Nat) (o : Orig)
  /-- TAMPER_LOOP_EVENT (R414). Two consecutive mismatching loop bits make one enclosure-loop tamper event. -/
  | tamperLoopEvent (dt : Nat) (n : Fin 4) (bs : List Bool)
  /-- MAGNETIC_CHECK (R413). Every 10 ms the magnetic sensor is converted, and three readings beyond the threshold make
  an event. -/
  | magneticCheck (dt : Nat) (code : Fin 4096)
  /-- TEMPERATURE_CHECK (R413). Every 1 ms the die sensors are checked, and three checks outside TMP_TLIM make an event. -/
  | temperatureCheck (dt : Nat) (t0 t1 t2 t3 : Fin 256)
  /-- SUPPLY_EXCURSION (R413). A supply outside its window for 50 ns makes a supply tamper event. -/
  | supplyExcursion (dt : Nat)
  /-- TAP_INSTRUCTION_LOAD (R415). Loading a test-access instruction outside the allowed set while locked is a tamper
  event, and BYPASS executes. -/
  | tapInstructionLoad (dt : Nat) (i : Fin 5)
  /-- TEST_EN_HIGH (R415). TEST_EN high for more than 1 µs with RST_N high is a tamper event. -/
  | testEnHigh (dt : Nat)
  /-- OTP_BURN_DONE (R417). A 200 µs OTP bit burn ends and is verified, or is repeated up to three times. -/
  | otpBurnDone (dt : Nat) (ok : Bool)
  /-- SLOT_SELECTION (R432). Step 2 selects and verifies the boot slot, applying the trial rules. -/
  | slotSelection (dt : Nat)
  /-- IMAGE_LOAD_DONE (R427). Step 3 copies the image segments, writes the start vectors and queues the vector-0 starts. -/
  | imageLoadDone (dt : Nat)
  /-- FURROW_LOCK_WAIT_END (R429). The named furrows lock, or 400 ms pass, and HEALTHY is driven high. -/
  | furrowLockWaitEnd (dt : Nat)
  /-- GPIO00_WAIT_EXPIRY (R445). The 2 s GPIO00 recovery wait ends without a RECOVER, and start-up continues. -/
  | gpio00WaitExpiry (dt : Nat)
  /-- UPD_BEGIN_FULL (R438). UPD_CMD BEGIN full marks the inactive slot INCOMPLETE for a full image. -/
  | updBeginFull (dt : Nat)
  /-- UPD_BEGIN_DELTA (R438). UPD_CMD BEGIN delta marks the inactive slot INCOMPLETE for a delta image. -/
  | updBeginDelta (dt : Nat)
  /-- UPD_RESUME (R438). UPD_CMD RESUME sets UPD_DLBLK to the blocks acknowledged. -/
  | updResume (dt : Nat)
  /-- UPD_VERIFY (R438). UPD_CMD VERIFY starts verification of a DOWNLOADED image. -/
  | updVerify (dt : Nat)
  /-- UPD_VERIFY_DONE (R438). Verification and any bank clearing end, and the marker becomes VERIFIED or REJECTED. -/
  | updVerifyDone (dt : Nat)
  /-- UPD_CANCEL (R440). UPD_CMD CANCEL removes a pending activation. -/
  | updCancel (dt : Nat)
  /-- UPD_REVERT (R443). UPD_CMD REVERT reverts a running trial to the previous image. -/
  | updRevert (dt : Nat)
  /-- UPD_ERASE (R438). UPD_CMD ERASE marks the inactive slot EMPTY. -/
  | updErase (dt : Nat)
  /-- DOWNLOAD_BLOCK (R438). A BULK write to UPD_DLPORT delivers block k, which is written and committed and then
  acknowledged. -/
  | downloadBlock (dt : Nat)
  /-- ACTIVATION_SCHEDULE (R440). A write of UPD_ACTGO = 1 schedules an activation after its checks. -/
  | activationSchedule (dt : Nat)
  /-- ACTIVATION (R441). At the instant, a trial selector is committed, the ploughs stop and the new image is loaded. -/
  | activation (dt : Nat)
  /-- TRIAL_PROGRESS (R442). Every 10 s of a trial, a trial progress record with the elapsed count is pushed. -/
  | trialProgress (dt : Nat)
  /-- TRIAL_CONFIRM (R443). A write of the running hash word to UPD_CONFIRM writes a confirmed selector. -/
  | trialConfirm (dt : Nat) (w : Word)
  /-- TRIAL_WINDOW_EXPIRY (R443). The trial window passes unconfirmed, so the device reverts to the previous image. -/
  | trialWindowExpiry (dt : Nat)
  /-- YIELD_DAY (R452). YLD_DAY increments after 24 h of main power, and projections and history records are updated. -/
  | yieldDay (dt : Nat) (cell vbat cycles osc0 osc1 osc2 osc3 : Word)
  /-- YLD_RUN (R452). YLD_CMD.RUN recomputes every projection within 1 s. -/
  | yldRun (dt : Nat) (o : Orig)
  /-- LOG_RECORD_WRITE (R457). The log engine writes an event record to the slot after the newest valid one. -/
  | logRecordWrite (dt : Nat)
  /-- MISDEAL_STOP (R459). MSD_CMD.STOP stops the misdeal unit. -/
  | misdealStop (dt : Nat) (o : Orig)
  /-- MISDEAL_DURATION_EXPIRY (R459). DUR seconds pass, so the misdeal unit stops. -/
  | misdealDurationExpiry (dt : Nat)
  /-- STREAM_SAMPLE (R120). A coarse, wide, fine or raw gang sample is delivered on a tap, carrying its flags into the
  comparators, the hopper pushes and the silo buffer writes. -/
  | streamSample (dt : Nat) (c : Fin 48) (t : Tap) (xs : List Int) (ps : List Phasor)
  /-- RESAMPLED_SAMPLE (R52). The resampler writes one resampled sample to its ring in field RAM and, with HOPEN, pushes
  it to the hopper. -/
  | resampledSample (dt : Nat) (n : Fin 4) (c : Fin 48) (x : Int) (inv : Bool)
  /-- COEFFICIENT_RETURN (R89). A slice coefficient returns within 90 % of its window, which re-arms its excursion count
  and clears DEGR and CDEG on a channel with no spare. -/
  | coefficientReturn (dt : Nat) (c : Fin 48) (sl : Fin 5) (co : Coefs)
  /-- PLL_LOCK_REGAINED (R25). After REFIN returns, the main PLL regains lock, so HOLD clears and LOCK sets. -/
  | pllLockRegained (dt : Nat)
  /-- XTAL32_RESTART (R327). XTAL32 runs again after a stop, so the calendars resume and XTLOK reads 1 after 16
  consecutive edges. -/
  | xtal32Restart (dt : Nat)
  /-- XTAL32_MEASUREMENT (R326). XTAL32 is measured against TB1, which updates RTC_XMEAS and raises a clock tamper event
  when it is more than 200 ppm off over 1 s. -/
  | xtal32Measurement (dt : Nat) (e : Int) (ovr : Bool)
  /-- REFIN_PERIOD_DEVIATION (R413). One REFIN period lies more than 2 % from the REFSEL frequency, which raises a
  category 3 tamper event. -/
  | refinPeriodDeviation (dt : Nat)
  /-- PFWARN_RELEASE (R290). PFWARN is released at the ball, which starts the 10 ms release timer and re-enables
  detection of a second assertion. -/
  | pfwarnRelease (dt : Nat)
  /-- MODEM_SYMBOL (R372). Each received symbol time, the modem measures in-band energy, updates the noise floor and the
  AGC, and erases and counts symbols above the threshold. -/
  | modemSymbol (dt : Nat) (e : Nat) (gain : Fin 8)
  /-- PULSE_HEDGE_CLEAR (R408). A host write of 1 to PLS_STAT.HEDGE bit n sets r and PENDING to 0 and lets the output
  resume. -/
  | pulseHedgeClear (dt : Nat) (n : Fin 16)
  /-- MODEM_HEDGE_CLEAR (R386). A host write of 1 to DUO_STAT.HEDGE ends the modem safe state, and queued descriptors
  may be sent again. -/
  | modemHedgeClear (dt : Nat) (o : Orig)
  /-- MISDEAL_FRAME_RELEASE (R460). A frame held by the misdeal unit for a delay or reorder is sent when MSD_RDLYr µs or
  100 µs have passed. -/
  | misdealFrameRelease (dt : Nat) (r : Fin 2)
  /-- SHADOW_EXPIRY (R65). A reader's seed, granary, trip-queue, sample-count or calendar shadow lapses after its 10 µs
  or 1 ms, and later reads return the current words. -/
  | shadowExpiry (dt : Nat)
  /-- TAL_SCNTL_READ (R176). A read of TAL_SCNTL latches TAL_SCNTH for that reader for 10 µs. -/
  | talScntlRead (dt : Nat) (o : Orig)
  /-- ENCODER_COUNT_EDGE (R34). An edge on ENCnA or ENCnB moves an encoder furrow's position count, in the direction set
  by DIR. -/
  | encoderCountEdge (dt : Nat) (k : Fin 2) (up : Bool)
  deriving DecidableEq, Repr

end Sys2Proof
end

