-- ==== Sys2Proof/Decode.lean ====
section
/-!
DEFINITION. Commands from table words. No row of spec/opcode_table.json gives its command bits, so no word spells one.
-/
namespace Sys2Proof

/-- The command a word of `nbits` bits spells by the table: none has bits there. -/
def decodeTableWord (_nbits _w : Nat) : Option Instr := none

end Sys2Proof
end

