-- ==== Sys2Proof/Config.lean ====
section
/-!
DEFINITION. What an implementation or a part fixes and the manual does not give: constants without a body, so that
nothing can be proved of their values. A statement that mentions one holds whatever it is.
-/
namespace Sys2Proof.Config

/-- Values that the manual leaves open after an event that goes on: the n-th one drawn. Notes: assumption 3. -/
opaque freeWord : Nat → BitVec 32

/-- The 256-bit device key of R423, which only the deal authenticator reads. -/
opaque deviceKey : List (BitVec 8)

/-- The content of the boot ROM at `0110_0000h` + n (R19); the manual does not print it. -/
opaque bootRom : Nat → BitVec 8

/-- The SHA-256 hash of the public key in OTP slot k (R421), as 32 bytes. -/
opaque keyHash : Nat → List (BitVec 8)

/-- Bin `k` of the discrete Fourier transform of real samples, oldest first, as binary32 (R178, R186, R189): the manual gives
the transform and its accuracy, not the order of its operations. -/
opaque dft : (xs : List Int) → (k : Nat) → BitVec 32 × BitVec 32

/-- The square of a bin's RMS value as binary32: of |X| / L for the bin 0 (`dc`), of √2 |X| / L for another (R186). -/
opaque binSquare : (l : Nat) → (dc : Bool) → (x : BitVec 32 × BitVec 32) → BitVec 32

/-- A component of a phasor as binary32: X / L for the bin 0 (`dc`), √2 X / L for another (R186). -/
opaque phasor : (l : Nat) → (dc : Bool) → (x : BitVec 32) → BitVec 32

/-- A sum of binary32 values in the thresher's order (R178, R186). -/
opaque total : List (BitVec 32) → BitVec 32

/-- The mean of binary32 values in the thresher's arithmetic (R178, R189). -/
opaque mean : List (BitVec 32) → BitVec 32

/-- The output word `i` of a plain transform (R190) of input words: with REAL, and INVS for the inverse. -/
opaque transform : (real inv : Bool) → (data : List Nat) → (i : Nat) → BitVec 32

/-- How the days of a projection of item `i` are rounded (R450 does not say): up where true. -/
opaque yldRound : (i : Nat) → (days : Nat) → Bool

/-- The edges of the 80 % band of item `i`'s projection (R450) from its daily values, newest first: LO, or HI where `hi`.
The manual names the bands, not their arithmetic. -/
opaque yldBand : (i : Nat) → (vals : List (Nat × Int)) → (hi : Bool) → Nat

/-- Whether a fused multiply-add of 0 × ∞ with a quiet NaN addend signals an invalid operation: IEEE 754, which R248
follows, leaves it to the implementation. -/
opaque fmaInvalid : (xa xb xd : BitVec 32) → Bool

/-- NBLK and RLEN in the first 16 bytes of a delta's header (R435 names them and their order, not their places). -/
opaque deltaNblk : (hdr : List (BitVec 8)) → Nat
opaque deltaRlen : (hdr : List (BitVec 8)) → Nat

/-- Whether a corrected sample `x` (in 2^-85 of full scale) that is no multiple of a stage S1 input's LSB is rounded up to
one: R81 and R116 do not say how. -/
opaque inputRound : (x : Int) → Bool

/-- The slice correction's fractional-delay filter (R81, step 4) set to `skew` ps, not 0, on its 16 samples, newest first:
the stage S1 input in 2^-23 of full scale. The manual does not print its coefficients. -/
opaque skewFilter : (skew : Int) → (xs : List Int) → Int

/-- The tap of the Hilbert filter of R144 at distance m from its centre, 1 to 2048: the manual gives the filter's length,
symmetry and accuracy (Table 05-2), not its coefficients. -/
opaque hilbertTap : (m : Nat) → Int

/-- The sum of the Hilbert filter's products, scaled and rounded to a normalised sample × 2^16. -/
opaque hilbertRound : (sum : Int) → Int

/-- The fundamental extractor of R144: from its 4097 normalised samples × 2^16 and the furrow's angles at their input
instants, newest first, the fundamental at the middle sample and the fundamental shifted by −90°. The manual gives its
accuracy (Table 05-2), not its arithmetic. -/
opaque extract : (xs : List Int) → (angles : List Nat) → Int × Int

end Sys2Proof.Config
end

