-- ==== Sys2Proof/Machine/Bits.lean ====
section
/-!
DEFINITION. Bit fields of words, sign extension, saturation, rounding and byte order: the helpers that every
meaning shares.
-/
namespace Sys2Proof

/-- Bits [hi:lo] of a natural number, as a number. -/
def bits (x hi lo : Nat) : Nat := (x >>> lo) % 2 ^ (hi + 1 - lo)

/-- Bit `i` of a natural number, as 0 or 1. -/
def bit (x i : Nat) : Nat := (x >>> i) % 2

/-- 1 for true, 0 for false. -/
def b2n (b : Bool) : Nat := if b then 1 else 0

/-- The two's complement value of the low `w` bits of `x`. -/
def sx (w x : Nat) : Int :=
  let y := x % 2 ^ w
  if y < 2 ^ (w - 1) then (y : Int) else (y : Int) - (2 ^ w : Nat)

/-- The low `w` bits of an integer's two's complement form. -/
def tc (w : Nat) (z : Int) : Nat := (z % (2 ^ w : Nat)).toNat

/-- `z` held inside [lo, hi]. -/
def clampI (lo hi z : Int) : Int := if z < lo then lo else if hi < z then hi else z

/-- `z` held to the signed range of `w` bits. -/
def satS (w : Nat) (z : Int) : Int := clampI (-(2 ^ (w - 1) : Nat)) ((2 ^ (w - 1) : Nat) - 1) z

/-- `n` held to the unsigned range of `w` bits. -/
def satU (w n : Nat) : Nat := if n < 2 ^ w then n else 2 ^ w - 1

/-- `x / 2^k` rounded to nearest, ties to even. -/
def roundShiftEven (x : Int) (k : Nat) : Int :=
  let p : Int := (2 ^ k : Nat)
  let q := x / p
  let r := x % p
  if 2 * r < p then q else if p < 2 * r then q + 1 else if q % 2 = 0 then q else q + 1

/-- `a / b` (b positive) rounded to nearest, a half away from zero. -/
def divRound (a : Int) (b : Nat) : Int :=
  if 0 ≤ a then (2 * a + b) / (2 * b : Nat) else -((2 * (-a) + b) / (2 * b : Nat))

/-- The integer square root by digit recurrence on `fuel` binary digits. -/
def isqrtGo (n : Nat) : Nat → Nat → Nat
  | 0, r => r
  | f + 1, r => let c := r + 2 ^ f; if c * c ≤ n then isqrtGo n f c else isqrtGo n f r

/-- The largest `r` below 2^128 with `r * r ≤ n`. -/
def isqrt (n : Nat) : Nat := isqrtGo n 128 0

/-- Replace bits [hi:lo] of `w` by the low bits of `v`. -/
def putBits (w : Word) (hi lo v : Nat) : Word :=
  let m := BitVec.ofNat 32 ((2 ^ (hi + 1 - lo) - 1) <<< lo)
  (w &&& ~~~m) ||| (BitVec.ofNat 32 (v <<< lo) &&& m)

/-- Byte `i` (0 the lowest) of a natural number. -/
def byteOf (x i : Nat) : Byte := BitVec.ofNat 8 (x >>> (8 * i))

/-- The `n` low bytes of `x`, lowest first (R5: little-endian). -/
def leBytes (n x : Nat) : List Byte := (List.range n).map (byteOf x)

/-- The `n` low bytes of `x`, highest first. -/
def beBytes (n x : Nat) : List Byte := (leBytes n x).reverse

/-- The number that little-endian bytes spell. -/
def ofLe : List Byte → Nat
  | [] => 0
  | b :: bs => b.toNat + 256 * ofLe bs

/-- The number that big-endian bytes spell. -/
def ofBe (bs : List Byte) : Nat := bs.foldl (fun a b => a * 256 + b.toNat) 0

/-- The indices below `n` whose bit of `x` is 1, ascending. -/
def onBits (n x : Nat) : List Nat := (List.range n).filter (fun i => bit x i = 1)

/-- The number whose bit i is 1 exactly when `p i`, for i below `n`. -/
def maskOf (n : Nat) (p : Nat → Bool) : Nat :=
  (List.range n).foldl (fun a i => if p i then a + 2 ^ i else a) 0

/-- The number of 1 bits among the low `n` bits of `x`. -/
def popCount (n x : Nat) : Nat := (onBits n x).length

end Sys2Proof
end

