-- ==== Sys2Proof/Machine/Sparse.lean ====
section
/-!
DEFINITION. Sparse data by key, in one canonical form: a list of (key, value) pairs whose keys strictly rise and
which lists no pair equal to what an unlisted key reads as. Registers, memories and numbered units are held so.
-/
namespace Sys2Proof

/-- Sparse data: pairs of a key and a value. -/
abbrev Sparse (α : Type) := List (Nat × α)

/-- The value at key `k`; `d` says what an unlisted key reads as. -/
def Sparse.get {α : Type} (d : Nat → α) (k : Nat) : Sparse α → α
  | [] => d k
  | (j, v) :: m => if j = k then v else Sparse.get d k m

/-- `m` without its entry for `k`. -/
def Sparse.del {α : Type} (k : Nat) : Sparse α → Sparse α
  | [] => []
  | (j, v) :: m => if j = k then Sparse.del k m else (j, v) :: Sparse.del k m

/-- `m` with the pair `(k, v)` put before the first larger key. -/
def Sparse.ins {α : Type} (k : Nat) (v : α) : Sparse α → Sparse α
  | [] => [(k, v)]
  | (j, w) :: m => if k < j then (k, v) :: (j, w) :: m else (j, w) :: Sparse.ins k v m

/-- `m` with `v` at key `k`, in canonical form: a value equal to the default removes the entry. -/
def Sparse.set {α : Type} [DecidableEq α] (d : Nat → α) (k : Nat) (v : α) (m : Sparse α) : Sparse α :=
  if v = d k then Sparse.del k m else Sparse.ins k v (Sparse.del k m)

/-- Every key of `m` is above `b`, keys strictly rise, and no entry equals its default. -/
def Sparse.wfFrom {α : Type} [DecidableEq α] (d : Nat → α) : Option Nat → Sparse α → Bool
  | _, [] => true
  | b, (j, v) :: m =>
    (match b with | none => true | some x => decide (x < j)) && decide (v ≠ d j) && Sparse.wfFrom d (some j) m

/-- The canonical form of sparse data. -/
abbrev Sparse.wf {α : Type} [DecidableEq α] (d : Nat → α) (m : Sparse α) : Bool := Sparse.wfFrom d none m

end Sys2Proof
end

