-- ==== Sys2Proof/Machine/Regs.lean ====
section
/-!
DEFINITION. The register maps of the manual: where each register stands, its fields, their access types, their
reset values and the resets that load them (R8, R9; the numbered tables of each chapter). An address is a byte
address of Table 01-4.
-/
namespace Sys2Proof

/-- The access types of Table 00-3. -/
inductive Access
  | rw | ro | w1c | w1s | wo | rc | rwl | d
  deriving DecidableEq, Repr

/-- The resets that load a field (R9): `p` power-on only, `pw` power-on and warm, `b` the backup domain's. -/
inductive ResetBy
  | p | pw | b
  deriving DecidableEq, Repr

/-- One field of a register: its bits, its access type, its reset value, and the resets that load it. -/
structure FieldRow where
  hi : Nat
  lo : Nat
  acc : Access
  rst : Nat
  dom : ResetBy
  deriving DecidableEq, Repr

/-- A register, or `count` registers `stride` bytes apart. -/
structure RegRow where
  base : Nat
  stride : Nat
  count : Nat
  fields : List FieldRow
  deriving DecidableEq, Repr

/-- A field at an address: what `State.rd` and `State.wr` take. -/
structure Fld where
  addr : Nat
  hi : Nat
  lo : Nat
  deriving DecidableEq, Repr

/-- The `SYS` registers (tables 00-2, 01-12, 01-5, 01-6, 01-9). -/
def rowsSYS : List RegRow :=
  [ ⟨0x1000000, 0x4, 1, [⟨31, 16, .ro, 0x4848, .p⟩, ⟨15, 12, .ro, 2, .p⟩, ⟨11, 8, .ro, 1, .p⟩, ⟨7, 4, .ro, 0, .p⟩]⟩ /- SYS_ID -/,
    ⟨0x1000008, 0x4, 1, [⟨31, 0, .ro, 0, .pw⟩]⟩ /- SYS_MAPERR -/,
    ⟨0x100000c, 0x4, 1, [⟨31, 16, .rc, 0, .pw⟩, ⟨8, 8, .ro, 0, .pw⟩, ⟨3, 0, .ro, 0, .pw⟩]⟩ /- SYS_MAPSRC -/,
    ⟨0x1000010, 0x4, 1, [⟨15, 0, .wo, 0, .pw⟩]⟩ /- SYS_RSTCMD -/,
    ⟨0x1000004, 0x4, 1, [⟨7, 7, .w1c, 0, .pw⟩, ⟨6, 6, .ro, 0, .p⟩, ⟨5, 5, .ro, 0, .p⟩, ⟨4, 4, .ro, 0, .p⟩, ⟨1, 0, .ro, 0, .p⟩]⟩ /- SYS_CLKSTAT -/ ]

/-- The `ANA` registers (tables 03-15, 03-16, 03-17, 03-18, 03-20, 03-21, 03-22, 03-23, 03-24). -/
def rowsANA : List RegRow :=
  [ ⟨0x1001000, 0x4, 1, [⟨31, 31, .wo, 0, .pw⟩, ⟨30, 30, .wo, 0, .pw⟩, ⟨29, 29, .wo, 0, .pw⟩, ⟨5, 0, .wo, 0, .pw⟩]⟩ /- ANA_CMD -/,
    ⟨0x1001004, 0x4, 1, [⟨5, 5, .w1c, 0, .pw⟩, ⟨4, 4, .w1c, 0, .pw⟩, ⟨3, 3, .w1c, 0, .pw⟩, ⟨2, 2, .w1c, 0, .pw⟩, ⟨1, 1, .w1c, 0, .pw⟩, ⟨0, 0, .ro, 0, .pw⟩]⟩ /- ANA_STAT -/,
    ⟨0x100100c, 0x4, 1, [⟨4, 4, .rw, 0, .pw⟩, ⟨1, 1, .d, 0, .pw⟩, ⟨0, 0, .d, 0, .pw⟩]⟩ /- ANA_REFCTL -/,
    ⟨0x1001010, 0x4, 1, [⟨9, 9, .ro, 0, .p⟩, ⟨8, 8, .ro, 0, .p⟩, ⟨7, 7, .ro, 0, .pw⟩, ⟨6, 6, .ro, 0, .pw⟩, ⟨5, 5, .ro, 0, .pw⟩, ⟨4, 4, .ro, 0, .pw⟩, ⟨3, 2, .ro, 1, .p⟩, ⟨1, 0, .ro, 0, .p⟩]⟩ /- ANA_REFSTAT -/,
    ⟨0x1001014, 0x4, 1, [⟨31, 31, .ro, 0, .pw⟩, ⟨15, 0, .ro, 0, .pw⟩]⟩ /- ANA_REFDAB -/,
    ⟨0x1001018, 0x4, 1, [⟨31, 31, .ro, 0, .pw⟩, ⟨15, 0, .ro, 0, .pw⟩]⟩ /- ANA_REFDCA -/,
    ⟨0x100101c, 0x4, 1, [⟨31, 31, .ro, 0, .pw⟩, ⟨15, 0, .ro, 0, .pw⟩]⟩ /- ANA_REFDCB -/,
    ⟨0x1001020, 0x4, 1, [⟨31, 31, .ro, 0, .pw⟩, ⟨15, 0, .ro, 0, .pw⟩]⟩ /- ANA_REFDXA -/,
    ⟨0x1001024, 0x4, 1, [⟨31, 0, .ro, 0, .pw⟩]⟩ /- ANA_CALFAILL -/,
    ⟨0x1001028, 0x4, 1, [⟨15, 0, .ro, 0, .pw⟩]⟩ /- ANA_CALFAILH -/,
    ⟨0x1001100, 0x4, 48, [⟨7, 7, .rw, 0, .pw⟩, ⟨6, 6, .rw, 0, .pw⟩, ⟨5, 4, .rw, 0, .pw⟩, ⟨3, 1, .rw, 0, .pw⟩, ⟨0, 0, .rw, 1, .pw⟩]⟩ /- ANA_CHCFG -/,
    ⟨0x1001200, 0x4, 24, [⟨1, 0, .rw, 0, .pw⟩]⟩ /- ANA_GANG -/,
    ⟨0x1001400, 0x4, 288, [⟨23, 0, .ro, 0, .pw⟩]⟩ /- ANA_PGACOR -/ ]

/-- The `SLC` registers (tables 03-25, 03-26, 03-27, 03-28, 03-29, 03-30, 03-31, 03-32, 03-33, 03-34). -/
def rowsSLC : List RegRow :=
  [ ⟨0x1002000, 0x4, 1, [⟨3, 1, .rw, 2, .pw⟩, ⟨0, 0, .rw, 1, .pw⟩]⟩ /- SLC_CTL -/,
    ⟨0x1002004, 0x4, 1, [⟨3, 3, .w1c, 0, .pw⟩, ⟨2, 2, .w1c, 0, .pw⟩, ⟨1, 1, .w1c, 0, .pw⟩, ⟨0, 0, .w1c, 0, .pw⟩]⟩ /- SLC_STAT -/,
    ⟨0x1002008, 0x4, 1, [⟨14, 12, .wo, 0, .pw⟩, ⟨10, 8, .wo, 0, .pw⟩, ⟨5, 0, .wo, 0, .pw⟩]⟩ /- SLC_CMD -/,
    ⟨0x100200c, 0x4, 1, [⟨23, 16, .rw, 0x64, .pw⟩, ⟨15, 8, .rw, 0x32, .pw⟩, ⟨7, 0, .rw, 0x19, .pw⟩]⟩ /- SLC_TOL -/,
    ⟨0x1002010, 0x4, 1, [⟨31, 0, .ro, 0, .pw⟩]⟩ /- SLC_NOSPAREL -/,
    ⟨0x1002014, 0x4, 1, [⟨15, 0, .ro, 0, .pw⟩]⟩ /- SLC_NOSPAREH -/,
    ⟨0x1002018, 0x4, 1, [⟨5, 0, .ro, 0, .pw⟩]⟩ /- SLC_RETCNT -/,
    ⟨0x1002100, 0x4, 240, [⟨23, 0, .ro, 0, .pw⟩]⟩ /- SLC_OFS -/,
    ⟨0x1002500, 0x4, 240, [⟨23, 0, .ro, 0, .pw⟩]⟩ /- SLC_GAIN -/,
    ⟨0x1002900, 0x4, 240, [⟨11, 0, .ro, 0, .pw⟩]⟩ /- SLC_SKEW -/,
    ⟨0x1002d00, 0x4, 48, [⟨31, 31, .ro, 0, .pw⟩, ⟨30, 30, .ro, 0, .pw⟩, ⟨29, 29, .ro, 0, .pw⟩, ⟨28, 28, .ro, 0, .pw⟩, ⟨24, 22, .ro, 7, .pw⟩, ⟨21, 19, .ro, 4, .pw⟩, ⟨18, 16, .ro, 6, .pw⟩, ⟨14, 0, .ro, 0, .pw⟩]⟩ /- SLC_CHSTAT -/,
    ⟨0x1002e00, 0x4, 48, [⟨14, 12, .ro, 3, .pw⟩, ⟨10, 8, .ro, 2, .pw⟩, ⟨6, 4, .ro, 1, .pw⟩, ⟨2, 0, .ro, 0, .pw⟩]⟩ /- SLC_PHMAP -/ ]

/-- The `FLT` registers (tables 04-10, 04-11, 04-12, 04-13, 04-14, 04-15, 04-16, 04-17, 04-6, 04-7, 04-8, 04-9). -/
def rowsFLT : List RegRow :=
  [ ⟨0x1003000, 0x4, 1, [⟨2, 2, .w1c, 0, .pw⟩, ⟨1, 1, .w1c, 0, .pw⟩, ⟨0, 0, .ro, 0, .pw⟩]⟩ /- FLT_STAT -/,
    ⟨0x1003004, 0x4, 1, [⟨31, 0, .ro, 0, .pw⟩]⟩ /- FLT_SATL -/,
    ⟨0x1003008, 0x4, 1, [⟨15, 0, .ro, 0, .pw⟩]⟩ /- FLT_SATH -/,
    ⟨0x100300c, 0x4, 1, [⟨31, 0, .ro, 0, .pw⟩]⟩ /- FLT_TRIPL -/,
    ⟨0x1003010, 0x4, 1, [⟨15, 0, .ro, 0, .pw⟩]⟩ /- FLT_TRIPH -/,
    ⟨0x1003040, 0x4, 1, [⟨31, 16, .rc, 0, .pw⟩, ⟨8, 8, .w1c, 0, .pw⟩, ⟨4, 0, .ro, 0, .pw⟩]⟩ /- FLT_TRQSTAT -/,
    ⟨0x1003044, 0x4, 6, [⟨31, 0, .ro, 0, .pw⟩]⟩ /- FLT_TRQW -/,
    ⟨0x1003100, 0x4, 48, [⟨31, 24, .ro, 0, .pw⟩, ⟨23, 16, .ro, 0, .pw⟩, ⟨15, 8, .ro, 0, .pw⟩, ⟨7, 4, .rw, 0, .pw⟩, ⟨2, 2, .rw, 0, .pw⟩, ⟨1, 1, .rw, 0, .pw⟩, ⟨0, 0, .rw, 0, .pw⟩]⟩ /- FLT_CTL -/,
    ⟨0x1003200, 0x4, 48, [⟨27, 24, .rw, 4, .pw⟩, ⟨23, 20, .rw, 4, .pw⟩, ⟨19, 16, .rw, 4, .pw⟩, ⟨15, 12, .rw, 4, .pw⟩, ⟨11, 8, .rw, 4, .pw⟩, ⟨7, 4, .rw, 4, .pw⟩, ⟨3, 0, .rw, 0xc, .pw⟩]⟩ /- FLT_SHIFT -/,
    ⟨0x1003300, 0x4, 48, [⟨10, 10, .ro, 0, .pw⟩, ⟨9, 9, .ro, 0, .pw⟩, ⟨8, 8, .ro, 0, .pw⟩, ⟨6, 0, .w1c, 0, .pw⟩]⟩ /- FLT_CHSTAT -/,
    ⟨0x1003400, 0x20, 96, [⟨31, 31, .rw, 0, .pw⟩, ⟨30, 29, .rw, 0, .pw⟩, ⟨28, 26, .rw, 0, .pw⟩, ⟨25, 25, .rw, 0, .pw⟩, ⟨24, 24, .rw, 0, .pw⟩, ⟨23, 21, .rw, 0, .pw⟩, ⟨20, 20, .rw, 0, .pw⟩, ⟨19, 18, .rw, 0, .pw⟩, ⟨15, 0, .rw, 1, .pw⟩]⟩ /- FLT_CMPCTL -/,
    ⟨0x1003404, 0x20, 96, [⟨23, 0, .rw, 0x800000, .pw⟩]⟩ /- FLT_CMPLO -/,
    ⟨0x1003408, 0x20, 96, [⟨23, 0, .rw, 0x7fffff, .pw⟩]⟩ /- FLT_CMPHI -/,
    ⟨0x100340c, 0x20, 96, [⟨22, 0, .rw, 0, .pw⟩]⟩ /- FLT_CMPHYS -/,
    ⟨0x1003410, 0x20, 96, [⟨31, 24, .rc, 0, .pw⟩, ⟨23, 8, .ro, 0, .pw⟩, ⟨2, 2, .w1c, 0, .pw⟩, ⟨1, 1, .ro, 0, .pw⟩, ⟨0, 0, .w1c, 0, .pw⟩]⟩ /- FLT_CMPSTAT -/ ]

/-- The `FUR` registers (tables 02-10, 02-11, 02-12, 02-13, 02-14, 02-15, 02-16, 02-17, 02-18, 02-19, 02-6, 02-7, 02-8, 02-9, R58). -/
def rowsFUR : List RegRow :=
  [ ⟨0x1004000, 0x40, 4, [⟨3, 3, .rw, 0, .pw⟩, ⟨2, 1, .rw, 1, .pw⟩, ⟨0, 0, .rw, 0, .pw⟩]⟩ /- FUR_CTL -/,
    ⟨0x1004004, 0x40, 4, [⟨29, 24, .rw, 0, .pw⟩, ⟨21, 16, .rw, 0, .pw⟩, ⟨13, 8, .rw, 0, .pw⟩, ⟨5, 4, .rw, 0, .pw⟩, ⟨2, 0, .rw, 0, .pw⟩]⟩ /- FUR_SRC -/,
    ⟨0x1004008, 0x40, 4, [⟨31, 16, .rc, 0, .pw⟩, ⟨12, 12, .w1c, 0, .pw⟩, ⟨11, 11, .w1c, 0, .pw⟩, ⟨10, 10, .w1c, 0, .pw⟩, ⟨9, 9, .w1c, 0, .pw⟩, ⟨3, 3, .ro, 0, .pw⟩, ⟨2, 2, .ro, 0, .pw⟩, ⟨1, 1, .ro, 0, .pw⟩, ⟨0, 0, .ro, 0, .pw⟩]⟩ /- FUR_STAT -/,
    ⟨0x100400c, 0x40, 4, [⟨22, 0, .ro, 0, .pw⟩]⟩ /- FUR_FREQ -/,
    ⟨0x1004010, 0x40, 4, [⟨23, 0, .rw, 0, .pw⟩]⟩ /- FUR_OFS -/,
    ⟨0x1004014, 0x40, 4, [⟨23, 0, .rw, 0, .pw⟩]⟩ /- FUR_NOM -/,
    ⟨0x1004018, 0x40, 4, [⟨24, 24, .rw, 0, .pw⟩, ⟨22, 16, .rw, 1, .pw⟩, ⟨15, 0, .rw, 0x400, .pw⟩]⟩ /- FUR_ENC -/,
    ⟨0x100401c, 0x40, 4, [⟨15, 8, .rw, 0, .pw⟩, ⟨5, 4, .rw, 2, .pw⟩, ⟨1, 1, .rw, 0, .pw⟩, ⟨0, 0, .rw, 0, .pw⟩]⟩ /- FUR_RSCTL -/,
    ⟨0x1004020, 0x40, 4, [⟨31, 0, .rw, 0, .pw⟩]⟩ /- FUR_RSML -/,
    ⟨0x1004024, 0x40, 4, [⟨15, 0, .rw, 0, .pw⟩]⟩ /- FUR_RSMH -/,
    ⟨0x1004028, 0x40, 4, [⟨20, 10, .rw, 0, .pw⟩]⟩ /- FUR_RSBASE -/,
    ⟨0x100402c, 0x40, 4, [⟨31, 0, .rw, 0, .pw⟩]⟩ /- FUR_CYCSETL -/,
    ⟨0x1004030, 0x40, 4, [⟨7, 0, .rw, 0, .pw⟩]⟩ /- FUR_CYCSETH -/,
    ⟨0x1004034, 0x40, 4, [⟨31, 0, .ro, 0, .pw⟩]⟩ /- FUR_HOLDERR -/,
    ⟨0x1004038, 0x40, 4, [⟨15, 0, .ro, 0, .p⟩]⟩ /- FUR_HOLDCNT -/,
    ⟨0x1004100, 0x4, 1, [⟨0, 0, .wo, 0, .pw⟩]⟩ /- FUR_LATCH -/,
    ⟨0x1004120, 0x4, 20, [⟨31, 0, .ro, 0, .pw⟩]⟩ /- FUR_TSW -/ ]

/-- The `SOWC` registers (tables 02-23, 02-24, 02-25, 02-26, 02-27). -/
def rowsSOWC : List RegRow :=
  [ ⟨0x1005000, 0x4, 1, [⟨7, 4, .rw, 0, .pw⟩, ⟨0, 0, .rw, 0, .pw⟩]⟩ /- SOWC_CTL -/,
    ⟨0x1005004, 0x4, 1, [⟨25, 16, .ro, 0, .pw⟩, ⟨4, 4, .w1c, 0, .pw⟩, ⟨3, 3, .w1c, 0, .pw⟩, ⟨2, 2, .w1c, 0, .pw⟩, ⟨1, 1, .w1c, 0, .pw⟩, ⟨0, 0, .w1c, 0, .pw⟩]⟩ /- SOWC_STAT -/,
    ⟨0x1005008, 0x4, 1, [⟨31, 0, .rc, 0, .pw⟩]⟩ /- SOWC_MISS -/,
    ⟨0x100500c, 0x4, 1, [⟨31, 0, .rc, 0, .pw⟩]⟩ /- SOWC_LATE -/,
    ⟨0x1005020, 0x4, 8, [⟨15, 0, .rw, 0, .pw⟩]⟩ /- SOWC_SNAPMASK -/ ]

/-- The `TAL` registers (tables 05-10, 05-11, 05-12, 05-13, 05-14, 05-15, 05-16, 05-17, 05-18, 05-6, 05-7, 05-8, 05-9). -/
def rowsTAL : List RegRow :=
  [ ⟨0x1006000, 0x4, 1, [⟨7, 7, .w1c, 0, .pw⟩, ⟨6, 6, .w1c, 0, .pw⟩, ⟨5, 5, .w1c, 0, .pw⟩, ⟨4, 4, .w1c, 0, .pw⟩, ⟨3, 3, .w1c, 0, .pw⟩, ⟨2, 2, .w1c, 0, .pw⟩, ⟨1, 1, .w1c, 0, .pw⟩, ⟨0, 0, .ro, 0, .pw⟩]⟩ /- TAL_STAT -/,
    ⟨0x1006008, 0x4, 1, [⟨31, 0, .ro, 0, .pw⟩]⟩ /- TAL_SCNTL -/,
    ⟨0x100600c, 0x4, 1, [⟨31, 0, .ro, 0, .pw⟩]⟩ /- TAL_SCNTH -/,
    ⟨0x1006010, 0x4, 1, [⟨7, 0, .rw, 0, .pw⟩]⟩ /- TAL_SNAPCTL -/,
    ⟨0x1006014, 0x4, 1, [⟨31, 31, .wo, 0, .pw⟩, ⟨16, 16, .wo, 0, .pw⟩, ⟨15, 0, .wo, 0, .pw⟩]⟩ /- TAL_SNAPCMD -/,
    ⟨0x1006018, 0x4, 1, [⟨31, 16, .rc, 0, .pw⟩, ⟨15, 0, .ro, 0, .pw⟩]⟩ /- TAL_SNAPSTAT -/,
    ⟨0x100601c, 0x4, 1, [⟨3, 0, .rw, 0, .pw⟩]⟩ /- TAL_SNAPSEL -/,
    ⟨0x1006100, 0x40, 16, [⟨31, 31, .d, 0, .pw⟩, ⟨25, 24, .d, 0, .pw⟩, ⟨22, 20, .d, 0, .pw⟩, ⟨18, 16, .d, 0, .pw⟩, ⟨2, 0, .d, 0, .pw⟩]⟩ /- TAL_FCFG -/,
    ⟨0x1006104, 0x40, 16, [⟨29, 24, .d, 0, .pw⟩, ⟨21, 16, .d, 0, .pw⟩, ⟨13, 8, .d, 0, .pw⟩, ⟨5, 0, .d, 0, .pw⟩]⟩ /- TAL_FCHV -/,
    ⟨0x1006108, 0x40, 16, [⟨29, 24, .d, 0, .pw⟩, ⟨21, 16, .d, 0, .pw⟩, ⟨13, 8, .d, 0, .pw⟩, ⟨5, 0, .d, 0, .pw⟩]⟩ /- TAL_FCHI -/,
    ⟨0x100610c, 0x40, 16, [⟨23, 0, .d, 0, .pw⟩]⟩ /- TAL_START -/,
    ⟨0x1006110, 0x40, 16, [⟨31, 0, .d, 0, .pw⟩]⟩ /- TAL_NOLOAD -/,
    ⟨0x1006114, 0x40, 16, [⟨31, 0, .d, 0, .pw⟩]⟩ /- TAL_LOSSI -/,
    ⟨0x1006118, 0x40, 16, [⟨31, 0, .d, 0, .pw⟩]⟩ /- TAL_LOSSV -/,
    ⟨0x100611c, 0x40, 16, [⟨0, 0, .d, 0, .pw⟩]⟩ /- TAL_FCMD -/,
    ⟨0x1006124, 0x40, 16, [⟨23, 0, .rw, 0, .pw⟩]⟩ /- TAL_DIP -/,
    ⟨0x1006128, 0x40, 16, [⟨23, 0, .rw, 0, .pw⟩]⟩ /- TAL_SWL -/,
    ⟨0x100612c, 0x40, 16, [⟨23, 0, .rw, 0, .pw⟩]⟩ /- TAL_INTR -/,
    ⟨0x1006120, 0x40, 16, [⟨10, 8, .ro, 0, .pw⟩, ⟨3, 3, .ro, 0, .pw⟩, ⟨2, 2, .ro, 0, .pw⟩, ⟨1, 1, .ro, 0, .pw⟩, ⟨0, 0, .w1c, 0, .pw⟩]⟩ /- TAL_FSTAT -/,
    ⟨0x1006130, 0x40, 16, [⟨0, 0, .rw, 0, .pw⟩]⟩ /- TAL_HCCTL -/,
    ⟨0x1006134, 0x40, 16, [⟨18, 16, .w1c, 0, .pw⟩, ⟨22, 20, .w1c, 0, .pw⟩, ⟨26, 24, .w1c, 0, .pw⟩, ⟨30, 28, .w1c, 0, .pw⟩, ⟨2, 0, .ro, 0, .pw⟩, ⟨6, 4, .ro, 0, .pw⟩, ⟨10, 8, .ro, 0, .pw⟩, ⟨14, 12, .ro, 0, .pw⟩]⟩ /- TAL_HCSTAT -/,
    ⟨0x1006600, 0x4, 128, [⟨31, 8, .ro, 0, .pw⟩, ⟨7, 7, .ro, 0, .pw⟩, ⟨6, 6, .ro, 0, .pw⟩, ⟨5, 5, .ro, 0, .pw⟩]⟩ /- TAL_HRMS -/ ]

/-- The `PLS` registers (tables 05-19, 05-20, 05-21, 05-22, 05-23). -/
def rowsPLS : List RegRow :=
  [ ⟨0x1007000, 0x4, 1, [⟨31, 16, .w1c, 0, .pw⟩, ⟨15, 0, .w1c, 0, .pw⟩]⟩ /- PLS_STAT -/,
    ⟨0x1007004, 0x4, 1, [⟨15, 0, .ro, 0, .pw⟩]⟩ /- PLS_LEVEL -/,
    ⟨0x1007010, 0x4, 4, [⟨31, 31, .d, 0, .pw⟩, ⟨3, 0, .d, 0, .pw⟩]⟩ /- PLS_SPARE -/,
    ⟨0x1007100, 0x20, 16, [⟨31, 31, .d, 0, .pw⟩, ⟨30, 30, .d, 0, .pw⟩, ⟨29, 24, .d, 0, .pw⟩, ⟨11, 0, .d, 0, .pw⟩]⟩ /- PLS_CFG -/,
    ⟨0x1007104, 0x20, 16, [⟨31, 0, .d, 0, .pw⟩]⟩ /- PLS_CONSTL -/,
    ⟨0x1007108, 0x20, 16, [⟨15, 0, .d, 0, .pw⟩]⟩ /- PLS_CONSTH -/,
    ⟨0x100710c, 0x20, 16, [⟨31, 16, .ro, 0, .pw⟩, ⟨15, 0, .ro, 0, .pw⟩]⟩ /- PLS_OSTAT -/,
    ⟨0x1007110, 0x20, 16, [⟨31, 0, .ro, 0, .pw⟩]⟩ /- PLS_COUNT -/ ]

/-- The `THR` registers (tables 06-7, 06-8, 06-9). -/
def rowsTHR : List RegRow :=
  [ ⟨0x1008000, 0x4, 1, [⟨5, 5, .w1c, 0, .pw⟩, ⟨4, 4, .w1c, 0, .pw⟩, ⟨3, 3, .w1c, 0, .pw⟩, ⟨2, 2, .w1c, 0, .pw⟩, ⟨1, 1, .w1c, 0, .pw⟩, ⟨0, 0, .ro, 0, .pw⟩]⟩ /- THR_STAT -/,
    ⟨0x1008004, 0x4, 1, [⟨31, 0, .rw, 0, .pw⟩]⟩ /- THR_POST -/,
    ⟨0x1008008, 0x4, 1, [⟨5, 0, .ro, 0, .pw⟩, ⟨12, 8, .ro, 0, .pw⟩]⟩ /- THR_QSTAT -/,
    ⟨0x100800c, 0x4, 1, [⟨31, 0, .wo, 0, .pw⟩]⟩ /- THR_CANCEL -/,
    ⟨0x1008010, 0x4, 1, [⟨31, 0, .rc, 0, .pw⟩]⟩ /- THR_REFUSED -/,
    ⟨0x1008014, 0x4, 1, [⟨31, 0, .rc, 0, .pw⟩]⟩ /- THR_SHED -/,
    ⟨0x1008018, 0x4, 1, [⟨13, 0, .ro, 0, .pw⟩]⟩ /- THR_LOAD -/,
    ⟨0x1008100, 0x4, 16, [⟨31, 31, .ro, 0, .pw⟩, ⟨29, 24, .ro, 0, .pw⟩, ⟨20, 5, .ro, 0, .pw⟩]⟩ /- THR_LANE -/ ]

/-- The `SIL` registers (tables 06-12, 06-13, 06-14). -/
def rowsSIL : List RegRow :=
  [ ⟨0x1009000, 0x4, 1, [⟨23, 16, .w1c, 0, .pw⟩, ⟨15, 8, .w1c, 0, .pw⟩, ⟨1, 1, .w1c, 0, .pw⟩, ⟨0, 0, .w1c, 0, .pw⟩]⟩ /- SIL_STAT -/,
    ⟨0x1009004, 0x4, 1, [⟨31, 29, .wo, 0, .pw⟩, ⟨2, 0, .wo, 0, .pw⟩]⟩ /- SIL_CMD -/,
    ⟨0x1009100, 0x80, 8, [⟨30, 29, .rw, 0, .pw⟩, ⟨28, 28, .rw, 1, .pw⟩, ⟨27, 26, .rw, 0, .pw⟩, ⟨23, 16, .rw, 0, .pw⟩]⟩ /- SIL_CFG -/,
    ⟨0x1009104, 0x80, 8, [⟨31, 0, .rw, 0, .pw⟩]⟩ /- SIL_SRCL -/,
    ⟨0x1009108, 0x80, 8, [⟨15, 0, .rw, 0, .pw⟩]⟩ /- SIL_SRCH -/,
    ⟨0x100910c, 0x80, 8, [⟨21, 6, .rw, 0, .pw⟩]⟩ /- SIL_BASE -/,
    ⟨0x1009110, 0x80, 8, [⟨22, 0, .rw, 0, .pw⟩]⟩ /- SIL_LEN -/,
    ⟨0x1009114, 0x80, 8, [⟨23, 0, .rw, 0, .pw⟩]⟩ /- SIL_PRE -/,
    ⟨0x1009118, 0x80, 8, [⟨23, 0, .rw, 1, .pw⟩]⟩ /- SIL_POST -/,
    ⟨0x1009144, 0x80, 8, [⟨31, 31, .rw, 0, .pw⟩, ⟨15, 0, .rw, 0, .pw⟩]⟩ /- SIL_WFCTL -/,
    ⟨0x1009148, 0x80, 8, [⟨14, 0, .rw, 0, .pw⟩]⟩ /- SIL_WFTHR -/,
    ⟨0x100914c, 0x80, 8, [⟨31, 5, .rw, 0, .pw⟩]⟩ /- SIL_WFADDR -/,
    ⟨0x100911c, 0x80, 8, [⟨31, 24, .rc, 0, .pw⟩, ⟨23, 16, .rc, 0, .pw⟩, ⟨2, 2, .ro, 0, .pw⟩, ⟨1, 0, .ro, 0, .pw⟩]⟩ /- SIL_BSTAT -/,
    ⟨0x1009120, 0x80, 8, [⟨21, 0, .ro, 0, .pw⟩]⟩ /- SIL_WPTR -/,
    ⟨0x1009124, 0x80, 8, [⟨27, 22, .ro, 0, .pw⟩, ⟨21, 0, .ro, 0, .pw⟩]⟩ /- SIL_TRGPOS -/,
    ⟨0x1009128, 0x80, 8, [⟨23, 0, .ro, 0, .pw⟩]⟩ /- SIL_PREACT -/,
    ⟨0x100912c, 0x80, 8, [⟨31, 30, .ro, 0, .pw⟩, ⟨9, 0, .ro, 0, .pw⟩]⟩ /- SIL_TRGSRC -/,
    ⟨0x1009130, 0x80, 8, [⟨31, 0, .ro, 0, .pw⟩]⟩ /- SIL_TSW word 0 -/,
    ⟨0x1009134, 0x80, 8, [⟨31, 0, .ro, 0, .pw⟩]⟩ /- SIL_TSW word 1 -/,
    ⟨0x1009138, 0x80, 8, [⟨31, 0, .ro, 0, .pw⟩]⟩ /- SIL_TSW word 2 -/,
    ⟨0x100913c, 0x80, 8, [⟨31, 0, .ro, 0, .pw⟩]⟩ /- SIL_TSW word 3 -/,
    ⟨0x1009140, 0x80, 8, [⟨31, 0, .ro, 0, .pw⟩]⟩ /- SIL_TSW word 4 -/ ]

/-- The `PLG` registers (tables 07-10, 07-11). -/
def rowsPLG : List RegRow :=
  [ ⟨0x100a000, 0x4, 1, [⟨7, 7, .w1c, 0, .pw⟩, ⟨6, 6, .w1c, 0, .pw⟩, ⟨5, 5, .w1c, 0, .pw⟩, ⟨4, 4, .w1c, 0, .pw⟩, ⟨3, 3, .w1c, 0, .pw⟩, ⟨2, 2, .w1c, 0, .pw⟩, ⟨1, 1, .w1c, 0, .pw⟩]⟩ /- PLG_STAT -/,
    ⟨0x100a004, 0x4, 1, [⟨19, 0, .ro, 0x43210, .pw⟩]⟩ /- PLG_MAP -/,
    ⟨0x100a008, 0x4, 1, [⟨31, 29, .wo, 0, .pw⟩, ⟨2, 0, .wo, 0, .pw⟩]⟩ /- PLG_CMD -/,
    ⟨0x100a00c, 0x4, 1, [⟨31, 31, .wo, 0, .pw⟩, ⟨18, 16, .wo, 0, .pw⟩, ⟨3, 0, .wo, 0, .pw⟩, ⟨1, 0, .ro, 0, .pw⟩]⟩ /- PLG_START -/,
    ⟨0x100a010, 0x4, 1, [⟨31, 0, .rw, 0xa3264ff, .pw⟩]⟩ /- PLG_AGE -/,
    ⟨0x100a014, 0x4, 1, [⟨31, 0, .rc, 0, .pw⟩]⟩ /- PLG_SHED -/,
    ⟨0x100a018, 0x4, 1, [⟨4, 0, .w1c, 0, .pw⟩]⟩ /- PLG_OVSTAT -/,
    ⟨0x100a01c, 0x4, 1, [⟨31, 16, .rc, 0, .pw⟩, ⟨15, 0, .rc, 0, .pw⟩]⟩ /- PLG_ECC -/,
    ⟨0x100a020, 0x8, 4, [⟨31, 0, .ro, 0, .pw⟩]⟩ /- PLG_EXC -/,
    ⟨0x100a024, 0x8, 4, [⟨11, 8, .ro, 0, .pw⟩, ⟨7, 0, .ro, 0, .pw⟩]⟩ /- PLG_EXCC -/,
    ⟨0x100a040, 0x4, 5, [⟨8, 8, .ro, 0, .pw⟩, ⟨3, 0, .ro, 0, .pw⟩]⟩ /- PLG_QSTAT -/,
    ⟨0x100a060, 0x4, 5, [⟨31, 31, .ro, 0, .p⟩, ⟨6, 4, .ro, 0, .pw⟩, ⟨2, 0, .ro, 0, .pw⟩]⟩ /- PLG_PSTAT -/,
    ⟨0x100a080, 0x4, 4, [⟨17, 16, .ro, 0, .pw⟩, ⟨9, 0, .rw, 0x3e8, .pw⟩]⟩ /- PLG_SCTO -/,
    ⟨0x100a090, 0x4, 4, [⟨15, 0, .wo, 0, .pw⟩]⟩ /- PLG_KICK -/,
    ⟨0x100a100, 0x4, 64, [⟨31, 2, .rw, 0, .pw⟩, ⟨1, 0, .rw, 0, .pw⟩]⟩ /- PLG_SVEC -/ ]

/-- The `HOP` registers (tables 07-12). -/
def rowsHOP : List RegRow :=
  [ ⟨0x100b000, 0x4, 1, [⟨1, 1, .w1c, 0, .pw⟩, ⟨0, 0, .w1c, 0, .pw⟩]⟩ /- HOP_STAT -/,
    ⟨0x100b010, 0x4, 4, [⟨27, 16, .ro, 0, .pw⟩, ⟨11, 0, .rw, 0x200, .pw⟩]⟩ /- HOP_QCFG -/,
    ⟨0x100b020, 0x4, 4, [⟨31, 0, .rc, 0, .pw⟩]⟩ /- HOP_DROP -/,
    ⟨0x100b040, 0x4, 10, [⟨9, 8, .rw, 0, .pw⟩, ⟨5, 4, .rw, 0, .pw⟩, ⟨1, 0, .rw, 0, .pw⟩]⟩ /- HOP_ROUTE -/ ]

/-- The `INT` registers (tables 13-3). -/
def rowsINT : List RegRow :=
  [ ⟨0x100c000, 0x4, 1, [⟨1, 0, .rw, 0, .pw⟩]⟩ /- INT_CTL -/,
    ⟨0x100c004, 0x4, 1, [⟨31, 16, .rc, 0, .pw⟩, ⟨10, 8, .ro, 0, .pw⟩, ⟨7, 0, .ro, 0, .pw⟩]⟩ /- INT_BADDONE -/,
    ⟨0x100c008, 0x4, 1, [⟨31, 16, .rc, 0, .pw⟩, ⟨15, 0, .rc, 0, .pw⟩]⟩ /- INT_EVLOST, INT_LOGLOST -/,
    ⟨0x100c00c, 0x4, 1, [⟨3, 3, .w1c, 0, .pw⟩, ⟨2, 2, .w1c, 0, .pw⟩, ⟨1, 1, .ro, 1, .pw⟩, ⟨0, 0, .ro, 1, .pw⟩]⟩ /- INT_ALSTAT -/,
    ⟨0x100c010, 0x4, 2, [⟨31, 0, .w1s, 0, .pw⟩]⟩ /- INT_SWSET -/,
    ⟨0x100c018, 0x4, 2, [⟨31, 0, .w1c, 0, .pw⟩]⟩ /- INT_SWCLR -/,
    ⟨0x100c040, 0x4, 8, [⟨31, 0, .ro, 0, .pw⟩]⟩ /- INT_PEND -/,
    ⟨0x100c060, 0x4, 8, [⟨31, 0, .ro, 0, .pw⟩]⟩ /- INT_ACT -/,
    ⟨0x100c080, 0x4, 32, [⟨3, 0, .rw, 0, .pw⟩, ⟨7, 4, .rw, 0, .pw⟩, ⟨11, 8, .rw, 0, .pw⟩, ⟨15, 12, .rw, 0, .pw⟩, ⟨19, 16, .rw, 0, .pw⟩, ⟨23, 20, .rw, 0, .pw⟩, ⟨27, 24, .rw, 0, .pw⟩, ⟨31, 28, .rw, 0, .pw⟩]⟩ /- INT_PRI -/,
    ⟨0x100c100, 0x20, 6, [⟨31, 0, .rw, 0, .pw⟩]⟩ /- INT_EN word 0 -/,
    ⟨0x100c104, 0x20, 6, [⟨31, 0, .rw, 0, .pw⟩]⟩ /- INT_EN word 1 -/,
    ⟨0x100c108, 0x20, 6, [⟨31, 0, .rw, 0, .pw⟩]⟩ /- INT_EN word 2 -/,
    ⟨0x100c10c, 0x20, 6, [⟨31, 0, .rw, 0, .pw⟩]⟩ /- INT_EN word 3 -/,
    ⟨0x100c110, 0x20, 6, [⟨31, 0, .rw, 0, .pw⟩]⟩ /- INT_EN word 4 -/,
    ⟨0x100c114, 0x20, 6, [⟨31, 0, .rw, 0, .pw⟩]⟩ /- INT_EN word 5 -/,
    ⟨0x100c118, 0x20, 6, [⟨31, 0, .rw, 0, .pw⟩]⟩ /- INT_EN word 6 -/,
    ⟨0x100c11c, 0x20, 6, [⟨31, 0, .rw, 0, .pw⟩]⟩ /- INT_EN word 7 -/,
    ⟨0x100c200, 0x10, 6, [⟨19, 16, .ro, 0, .pw⟩, ⟨7, 0, .ro, 0, .pw⟩]⟩ /- INT_CLAIM -/,
    ⟨0x100c204, 0x10, 6, [⟨7, 0, .wo, 0, .pw⟩]⟩ /- INT_DONE -/,
    ⟨0x100c208, 0x10, 6, [⟨3, 0, .rw, 0, .pw⟩]⟩ /- INT_THR -/,
    ⟨0x100c20c, 0x10, 6, [⟨31, 31, .ro, 0, .pw⟩, ⟨19, 16, .ro, 0, .pw⟩, ⟨7, 0, .ro, 0, .pw⟩]⟩ /- INT_TGTSTAT -/,
    ⟨0x100c400, 0x4, 128, [⟨31, 31, .rw, 0, .pw⟩, ⟨30, 30, .rw, 0, .pw⟩, ⟨26, 24, .rw, 0, .pw⟩, ⟨23, 22, .rw, 0, .pw⟩, ⟨21, 20, .rw, 0, .pw⟩, ⟨16, 16, .rw, 0, .pw⟩]⟩ /- INT_RSP -/,
    ⟨0x100c600, 0x4, 64, [⟨7, 0, .rc, 0, .pw⟩, ⟨15, 8, .rc, 0, .pw⟩, ⟨23, 16, .rc, 0, .pw⟩, ⟨31, 24, .rc, 0, .pw⟩]⟩ /- INT_REP -/ ]

/-- The `NVM` registers (tables 09-7). -/
def rowsNVM : List RegRow :=
  [ ⟨0x100d000, 0x4, 1, [⟨15, 8, .d, 0xf, .pw⟩, ⟨7, 0, .d, 8, .pw⟩]⟩ /- NVM_CTL -/,
    ⟨0x100d004, 0x4, 1, [⟨2, 0, .wo, 0, .pw⟩]⟩ /- NVM_CMD -/,
    ⟨0x100d008, 0x4, 1, [⟨9, 9, .w1c, 0, .pw⟩, ⟨8, 8, .w1c, 0, .pw⟩, ⟨7, 7, .w1c, 0, .pw⟩, ⟨6, 6, .w1c, 0, .pw⟩, ⟨5, 5, .w1c, 0, .pw⟩, ⟨4, 4, .w1c, 0, .pw⟩, ⟨3, 3, .w1c, 0, .pw⟩, ⟨2, 2, .ro, 0, .pw⟩, ⟨1, 1, .ro, 0, .pw⟩, ⟨0, 0, .ro, 0, .pw⟩]⟩ /- NVM_STAT -/,
    ⟨0x100d00c, 0x4, 1, [⟨31, 31, .rwl, 0, .pw⟩, ⟨3, 2, .rwl, 0, .pw⟩, ⟨1, 0, .rwl, 0, .pw⟩]⟩ /- NVM_PROT -/,
    ⟨0x100d010, 0x4, 1, [⟨31, 31, .rw, 0, .pw⟩, ⟨7, 0, .rw, 0xff, .pw⟩]⟩ /- NVM_WCTL -/,
    ⟨0x100d014, 0x4, 1, [⟨21, 3, .rw, 0, .pw⟩]⟩ /- NVM_WADDR -/,
    ⟨0x100d018, 0x4, 1, [⟨31, 0, .wo, 0, .pw⟩]⟩ /- NVM_WDL -/,
    ⟨0x100d01c, 0x4, 1, [⟨31, 0, .wo, 0, .pw⟩]⟩ /- NVM_WDH -/,
    ⟨0x100d020, 0x4, 1, [⟨2, 0, .ro, 0, .pw⟩]⟩ /- NVM_WRES -/,
    ⟨0x100d024, 0x4, 1, [⟨26, 16, .ro, 0, .pw⟩, ⟨10, 0, .ro, 0, .pw⟩]⟩ /- NVM_BUF -/,
    ⟨0x100d028, 0x4, 1, [⟨31, 0, .ro, 0, .pw⟩]⟩ /- NVM_CNUM -/,
    ⟨0x100d02c, 0x4, 1, [⟨31, 16, .ro, 0, .pw⟩, ⟨15, 0, .ro, 0, .pw⟩]⟩ /- NVM_CTIME -/,
    ⟨0x100d030, 0x4, 1, [⟨31, 16, .rc, 0, .pw⟩, ⟨15, 0, .rc, 0, .pw⟩]⟩ /- NVM_ECC -/,
    ⟨0x100d034, 0x4, 1, [⟨31, 0, .rc, 0, .pw⟩]⟩ /- NVM_DROP -/,
    ⟨0x100d038, 0x4, 1, [⟨31, 0, .rc, 0, .pw⟩]⟩ /- NVM_CRIBLOST -/,
    ⟨0x100d03c, 0x4, 1, [⟨2, 0, .ro, 0, .pw⟩]⟩ /- NVM_BOOT -/,
    ⟨0x100d040, 0x4, 8, [⟨25, 16, .ro, 0, .p⟩, ⟨5, 0, .ro, 0, .p⟩]⟩ /- NVM_SPARE -/ ]

/-- The `RTC` registers (tables 10-5, 10-6). -/
def rowsRTC : List RegRow :=
  [ ⟨0x100e000, 0x4, 1, [⟨31, 31, .d, 0, .pw⟩, ⟨30, 30, .d, 0, .pw⟩, ⟨29, 29, .rw, 1, .pw⟩, ⟨15, 0, .d, 0, .pw⟩]⟩ /- RTC_TBCTL -/,
    ⟨0x100e004, 0x4, 1, [⟨31, 24, .rc, 0, .pw⟩, ⟨19, 16, .w1c, 0, .pw⟩, ⟨11, 8, .ro, 0, .pw⟩, ⟨5, 5, .ro, 0, .pw⟩, ⟨4, 4, .ro, 0, .pw⟩, ⟨2, 0, .ro, 0, .pw⟩]⟩ /- RTC_TBSTAT -/,
    ⟨0x100e008, 0x4, 1, [⟨31, 0, .ro, 0, .pw⟩]⟩ /- RTC_PPSERR -/,
    ⟨0x100e00c, 0x4, 1, [⟨17, 0, .ro, 0, .pw⟩]⟩ /- RTC_TB0TRIM -/,
    ⟨0x100e010, 0x4, 1, [⟨17, 0, .d, 0, .pw⟩]⟩ /- RTC_TB0FTRIM -/,
    ⟨0x100e014, 0x4, 1, [⟨17, 0, .d, 0, .pw⟩]⟩ /- RTC_TB1TRIM -/,
    ⟨0x100e018, 0x4, 1, [⟨31, 0, .rw, 0, .pw⟩]⟩ /- RTC_TB0SETL -/,
    ⟨0x100e01c, 0x4, 1, [⟨1, 0, .rw, 0, .pw⟩]⟩ /- RTC_TB0SETH -/,
    ⟨0x100e020, 0x4, 1, [⟨29, 0, .rw, 0, .pw⟩]⟩ /- RTC_TB0SETN -/,
    ⟨0x100e024, 0x4, 1, [⟨1, 0, .wo, 0, .pw⟩]⟩ /- RTC_TB0CMD -/,
    ⟨0x100e028, 0x4, 1, [⟨31, 0, .ro, 0, .pw⟩]⟩ /- RTC_TB1DIFF -/,
    ⟨0x100e02c, 0x4, 1, [⟨31, 31, .ro, 0, .pw⟩, ⟨15, 0, .ro, 0, .pw⟩]⟩ /- RTC_XMEAS -/,
    ⟨0x100e100, 0x4, 1, [⟨5, 0, .rw, 0x20, .b⟩]⟩ /- RTC_CTL -/,
    ⟨0x100e104, 0x4, 1, [⟨7, 7, .w1c, 0, .b⟩, ⟨6, 6, .w1c, 0, .b⟩, ⟨5, 5, .ro, 0, .b⟩, ⟨4, 4, .w1c, 0, .b⟩, ⟨3, 3, .w1c, 0, .b⟩, ⟨2, 2, .w1c, 0, .b⟩, ⟨1, 1, .ro, 0, .b⟩, ⟨0, 0, .w1c, 1, .b⟩]⟩ /- RTC_STAT -/,
    ⟨0x100e108, 0x4, 1, [⟨15, 0, .rc, 0, .b⟩]⟩ /- RTC_BADWR_CNT -/,
    ⟨0x100e10c, 0x4, 1, [⟨17, 0, .rw, 0, .b⟩]⟩ /- RTC_SHIFT -/,
    ⟨0x100e110, 0x4, 1, [⟨14, 0, .ro, 0, .b⟩]⟩ /- RTC_SUBSEC -/,
    ⟨0x100e114, 0x4, 1, [⟨20, 16, .ro, 0, .b⟩, ⟨13, 8, .ro, 0, .b⟩, ⟨5, 0, .ro, 0, .b⟩]⟩ /- RTC_UTIME -/,
    ⟨0x100e118, 0x4, 1, [⟨14, 12, .ro, 6, .b⟩, ⟨11, 8, .ro, 1, .b⟩, ⟨4, 0, .ro, 1, .b⟩]⟩ /- RTC_UDATE -/,
    ⟨0x100e11c, 0x4, 1, [⟨31, 31, .ro, 0, .b⟩, ⟨20, 16, .ro, 0, .b⟩, ⟨13, 8, .ro, 0, .b⟩, ⟨5, 0, .ro, 0, .b⟩]⟩ /- RTC_LTIME -/,
    ⟨0x100e120, 0x4, 1, [⟨14, 12, .ro, 6, .b⟩, ⟨11, 8, .ro, 1, .b⟩, ⟨4, 0, .ro, 1, .b⟩]⟩ /- RTC_LDATE -/,
    ⟨0x100e124, 0x4, 1, [⟨27, 16, .ro, 0x7d0, .b⟩, ⟨11, 0, .ro, 0x7d0, .b⟩]⟩ /- RTC_YEAR -/,
    ⟨0x100e128, 0x4, 1, [⟨8, 8, .ro, 0, .b⟩, ⟨6, 0, .rw, 0, .b⟩]⟩ /- RTC_LOCAL -/,
    ⟨0x100e12c, 0x4, 1, [⟨1, 0, .wo, 0, .b⟩]⟩ /- RTC_DSTCMD -/ ] ++
  [ ⟨0x100e130, 0x4, 1, [⟨9, 8, .rw, 0, .b⟩, ⟨7, 0, .rw, 0, .b⟩]⟩ /- RTC_LEAP -/,
    ⟨0x100e134, 0x4, 1, [⟨20, 16, .rw, 0, .b⟩, ⟨13, 8, .rw, 0, .b⟩, ⟨5, 0, .rw, 0, .b⟩]⟩ /- RTC_WTIME -/,
    ⟨0x100e138, 0x4, 1, [⟨27, 16, .rw, 0, .b⟩, ⟨11, 8, .rw, 0, .b⟩, ⟨4, 0, .rw, 0, .b⟩]⟩ /- RTC_WDATE -/,
    ⟨0x100e13c, 0x4, 1, [⟨31, 31, .wo, 0, .b⟩, ⟨1, 1, .wo, 0, .b⟩, ⟨0, 0, .wo, 0, .b⟩]⟩ /- RTC_WCMD -/,
    ⟨0x100e140, 0x10, 2, [⟨20, 16, .rw, 0, .b⟩, ⟨13, 8, .rw, 0, .b⟩, ⟨5, 0, .rw, 0, .b⟩]⟩ /- RTC_ALMT -/,
    ⟨0x100e144, 0x10, 2, [⟨27, 16, .rw, 0, .b⟩, ⟨14, 12, .rw, 0, .b⟩, ⟨11, 8, .rw, 0, .b⟩, ⟨4, 0, .rw, 0, .b⟩]⟩ /- RTC_ALMD -/,
    ⟨0x100e148, 0x10, 2, [⟨31, 24, .rw, 0, .b⟩, ⟨6, 0, .rw, 0, .b⟩]⟩ /- RTC_ALMCTL -/,
    ⟨0x100e160, 0x4, 1, [⟨31, 16, .ro, 0, .b⟩, ⟨2, 2, .ro, 0, .b⟩, ⟨1, 1, .w1c, 1, .b⟩, ⟨0, 0, .w1c, 0, .b⟩]⟩ /- BKP_STAT -/,
    ⟨0x100e164, 0x4, 1, [⟨3, 0, .w1c, 0, .b⟩]⟩ /- BKP_MISSED -/,
    ⟨0x100e168, 0x4, 1, [⟨31, 0, .ro, 0, .b⟩]⟩ /- BKP_ONBAT -/,
    ⟨0x100e180, 0x4, 16, [⟨31, 0, .rw, 0, .b⟩]⟩ /- BKP_RAM -/,
    ⟨0x100e1c0, 0x4, 1, [⟨15, 0, .ro, 0x2925, .b⟩]⟩ /- BKP_RAMCHK -/ ]

/-- The `BAL` registers (tables 11-8). -/
def rowsBAL : List RegRow :=
  [ ⟨0x100f000, 0x4, 1, [⟨1, 1, .rw, 0, .pw⟩, ⟨0, 0, .rw, 0, .pw⟩]⟩ /- BAL_CTL -/,
    ⟨0x100f004, 0x4, 1, [⟨31, 31, .ro, 0, .pw⟩, ⟨30, 30, .w1c, 0, .pw⟩, ⟨29, 29, .w1c, 0, .pw⟩, ⟨13, 6, .ro, 0, .pw⟩, ⟨5, 0, .ro, 0, .pw⟩]⟩ /- BAL_PLOT -/,
    ⟨0x100f010, 0x4, 2, [⟨23, 23, .ro, 0, .pw⟩, ⟨21, 16, .ro, 0, .pw⟩, ⟨8, 8, .w1c, 0, .pw⟩, ⟨1, 0, .ro, 0, .pw⟩]⟩ /- BAL_LSTAT -/,
    ⟨0x100f020, 0x8, 2, [⟨31, 16, .rc, 0, .pw⟩, ⟨15, 0, .rc, 0, .pw⟩]⟩ /- BAL_ERR -/,
    ⟨0x100f024, 0x8, 2, [⟨31, 0, .rc, 0, .pw⟩]⟩ /- BAL_DROP -/,
    ⟨0x100f030, 0x4, 1, [⟨22, 16, .rc, 0, .pw⟩, ⟨6, 0, .ro, 0, .pw⟩]⟩ /- BAL_SLOT -/,
    ⟨0x100f034, 0x4, 1, [⟨31, 0, .rc, 0, .pw⟩]⟩ /- BAL_NAKCNT -/,
    ⟨0x100f038, 0x4, 1, [⟨31, 16, .rc, 0, .pw⟩, ⟨15, 0, .rc, 0, .pw⟩]⟩ /- BAL_RETRYCNT -/,
    ⟨0x100f040, 0x4, 1, [⟨31, 31, .rw, 0, .pw⟩, ⟨30, 30, .rw, 0, .pw⟩, ⟨29, 29, .rw, 0, .pw⟩, ⟨23, 16, .rw, 0x32, .pw⟩, ⟨5, 0, .rw, 0, .pw⟩]⟩ /- BAL_SYNCCTL -/,
    ⟨0x100f044, 0x4, 1, [⟨31, 16, .rc, 0, .pw⟩, ⟨1, 1, .w1c, 0, .pw⟩, ⟨0, 0, .ro, 0, .pw⟩]⟩ /- BAL_SYNCSTAT -/,
    ⟨0x100f048, 0x4, 1, [⟨31, 0, .ro, 0, .pw⟩]⟩ /- BAL_SYNCERR -/,
    ⟨0x100f050, 0x4, 2, [⟨15, 0, .ro, 0, .pw⟩]⟩ /- BAL_HOPDLY -/ ]

/-- The `DUO` registers (tables 12-6). -/
def rowsDUO : List RegRow :=
  [ ⟨0x1014000, 0x4, 1, [⟨31, 31, .rw, 0, .pw⟩, ⟨30, 30, .rw, 0, .pw⟩, ⟨29, 28, .rw, 0, .pw⟩, ⟨27, 27, .rw, 0, .pw⟩, ⟨15, 0, .rw, 0, .pw⟩]⟩ /- DUO_CTL -/,
    ⟨0x1014004, 0x4, 1, [⟨31, 24, .ro, 0xff, .pw⟩, ⟨21, 20, .ro, 0, .pw⟩, ⟨11, 11, .w1c, 0, .pw⟩, ⟨10, 10, .w1c, 0, .pw⟩, ⟨9, 9, .w1c, 0, .pw⟩, ⟨8, 8, .w1c, 0, .pw⟩, ⟨7, 7, .w1c, 0, .pw⟩, ⟨6, 6, .w1c, 0, .pw⟩, ⟨5, 5, .w1c, 0, .pw⟩, ⟨4, 4, .w1c, 0, .pw⟩, ⟨3, 3, .w1c, 0, .pw⟩, ⟨0, 0, .ro, 0, .pw⟩]⟩ /- DUO_STAT -/,
    ⟨0x1014008, 0x4, 1, [⟨5, 0, .rw, 0, .pw⟩]⟩ /- DUO_TXCTL -/,
    ⟨0x101400c, 0x4, 1, [⟨31, 4, .wo, 0, .pw⟩, ⟨1, 0, .ro, 0, .pw⟩]⟩ /- DUO_TXPOST -/,
    ⟨0x1014010, 0x4, 1, [⟨3, 0, .ro, 0, .pw⟩]⟩ /- DUO_TXQ -/,
    ⟨0x1014014, 0x4, 1, [⟨20, 5, .rw, 0, .pw⟩]⟩ /- DUO_RXBASE -/,
    ⟨0x1014018, 0x4, 1, [⟨20, 5, .rw, 0, .pw⟩]⟩ /- DUO_RXLEN -/,
    ⟨0x101401c, 0x4, 1, [⟨20, 5, .ro, 0, .pw⟩]⟩ /- DUO_RXWPTR -/,
    ⟨0x1014020, 0x4, 1, [⟨20, 5, .rw, 0, .pw⟩]⟩ /- DUO_RXRPTR -/,
    ⟨0x1014024, 0x4, 1, [⟨4, 0, .rw, 0xc, .pw⟩]⟩ /- DUO_IMPCTL -/,
    ⟨0x1014028, 0x4, 1, [⟨31, 31, .rw, 0, .pw⟩, ⟨6, 4, .ro, 0, .pw⟩, ⟨2, 0, .rw, 0, .pw⟩]⟩ /- DUO_AGC -/,
    ⟨0x101402c, 0x4, 1, [⟨13, 0, .ro, 0, .pw⟩]⟩ /- DUO_DUTY -/,
    ⟨0x1014030, 0x4, 1, [⟨15, 0, .ro, 0, .pw⟩]⟩ /- DUO_BCNSEQ -/,
    ⟨0x1014040, 0x4, 16, [⟨31, 0, .rw, 0xffffffff, .pw⟩]⟩ /- DUO_GRANT -/,
    ⟨0x1014080, 0x4, 8, [⟨31, 0, .rw, 0, .pw⟩]⟩ /- DUO_BCNDATA -/,
    ⟨0x10140a0, 0x10, 4, [⟨31, 0, .rw, 0, .pw⟩]⟩ /- DUO_JOINL -/,
    ⟨0x10140a4, 0x10, 4, [⟨31, 0, .rw, 0, .pw⟩]⟩ /- DUO_JOINH -/,
    ⟨0x10140a8, 0x10, 4, [⟨31, 31, .rw, 0, .pw⟩, ⟨7, 0, .rw, 0, .pw⟩]⟩ /- DUO_JOINC -/,
    ⟨0x1014100, 0x4, 1, [⟨31, 0, .rc, 0, .pw⟩]⟩ /- DUO_IMPCNT -/,
    ⟨0x1014104, 0x4, 1, [⟨31, 0, .rc, 0, .pw⟩]⟩ /- DUO_ERSYM -/,
    ⟨0x1014108, 0x4, 1, [⟨31, 0, .rc, 0, .pw⟩]⟩ /- DUO_CRCFAIL -/,
    ⟨0x101410c, 0x4, 1, [⟨31, 0, .rc, 0, .pw⟩]⟩ /- DUO_ERFAIL -/,
    ⟨0x1014110, 0x4, 1, [⟨31, 0, .rc, 0, .pw⟩]⟩ /- DUO_RETRY -/,
    ⟨0x1014114, 0x4, 1, [⟨31, 0, .rc, 0, .pw⟩]⟩ /- DUO_TXLOST -/ ] ++
  [ ⟨0x1014118, 0x4, 1, [⟨31, 0, .rc, 0, .pw⟩]⟩ /- DUO_RXDROPCNT -/,
    ⟨0x101411c, 0x4, 1, [⟨31, 0, .rc, 0, .pw⟩]⟩ /- DUO_BCNMISSCNT -/,
    ⟨0x1014120, 0x4, 1, [⟨31, 0, .rc, 0, .pw⟩]⟩ /- DUO_HOLDCNT -/ ]

/-- The `GLN` registers (tables 07-13). -/
def rowsGLN : List RegRow :=
  [ ⟨0x1015000, 0x4, 1, [⟨31, 31, .rw, 0, .pw⟩, ⟨29, 28, .rw, 0, .pw⟩, ⟨27, 24, .rw, 0, .pw⟩, ⟨21, 20, .rw, 0, .pw⟩, ⟨15, 0, .rw, 0, .pw⟩]⟩ /- GLN_CTL -/,
    ⟨0x1015004, 0x4, 1, [⟨15, 0, .rw, 0, .pw⟩]⟩ /- GLN_DLY -/,
    ⟨0x1015008, 0x4, 1, [⟨4, 4, .w1c, 0, .pw⟩, ⟨3, 3, .w1c, 0, .pw⟩, ⟨2, 2, .w1c, 0, .pw⟩, ⟨1, 1, .ro, 0, .pw⟩, ⟨0, 0, .ro, 0, .pw⟩]⟩ /- GLN_STAT -/,
    ⟨0x101500c, 0x4, 1, [⟨1, 0, .wo, 0, .pw⟩]⟩ /- GLN_CMD -/,
    ⟨0x1015010, 0x4, 1, [⟨31, 0, .rc, 0, .pw⟩]⟩ /- GLN_INJLOST -/,
    ⟨0x1015040, 0x4, 16, [⟨7, 7, .rw, 0, .pw⟩, ⟨5, 0, .rw, 0, .pw⟩]⟩ /- GLN_RSEQ -/,
    ⟨0x1015080, 0x4, 4, [⟨7, 7, .rw, 0, .pw⟩, ⟨5, 0, .rw, 0, .pw⟩]⟩ /- GLN_ISEQ -/,
    ⟨0x10150c0, 0x4, 16, [⟨31, 16, .ro, 0, .pw⟩, ⟨11, 0, .ro, 0, .pw⟩]⟩ /- GLN_RRES -/,
    ⟨0x1015100, 0x4, 4, [⟨31, 16, .ro, 0, .pw⟩, ⟨11, 0, .ro, 0, .pw⟩]⟩ /- GLN_IRES -/,
    ⟨0x1015140, 0x10, 4, [⟨31, 31, .rw, 0, .pw⟩, ⟨30, 30, .rw, 0, .pw⟩, ⟨21, 16, .rw, 0, .pw⟩, ⟨7, 0, .rw, 0, .pw⟩]⟩ /- GLN_WCTL -/,
    ⟨0x1015144, 0x10, 4, [⟨27, 16, .rw, 0xfff, .pw⟩, ⟨11, 0, .rw, 0, .pw⟩]⟩ /- GLN_WBAND -/,
    ⟨0x1015148, 0x10, 4, [⟨11, 0, .rw, 0, .pw⟩]⟩ /- GLN_WHYS -/,
    ⟨0x101514c, 0x10, 4, [⟨31, 24, .rc, 0, .pw⟩, ⟨1, 1, .ro, 0, .pw⟩, ⟨0, 0, .w1c, 0, .pw⟩]⟩ /- GLN_WSTAT -/ ]

/-- The `HDG` registers (tables 14-6). -/
def rowsHDG : List RegRow :=
  [ ⟨0x1016000, 0x4, 1, [⟨9, 9, .ro, 0, .pw⟩, ⟨8, 8, .w1c, 0, .pw⟩, ⟨6, 0, .w1c, 0, .pw⟩]⟩ /- HDG_STAT -/,
    ⟨0x1016004, 0x4, 1, [⟨0, 0, .rwl, 0, .pw⟩]⟩ /- HDG_CTL -/,
    ⟨0x1016008, 0x4, 1, [⟨1, 1, .wo, 0, .pw⟩, ⟨0, 0, .wo, 0, .pw⟩]⟩ /- HDG_CMD -/,
    ⟨0x101600c, 0x4, 1, [⟨31, 0, .rc, 0, .pw⟩]⟩ /- HDG_VCNT -/,
    ⟨0x1016010, 0x4, 1, [⟨31, 28, .ro, 0, .pw⟩, ⟨27, 24, .ro, 0, .pw⟩, ⟨7, 0, .ro, 0, .pw⟩]⟩ /- HDG_VLAST -/,
    ⟨0x1016014, 0x4, 1, [⟨31, 0, .ro, 0, .pw⟩]⟩ /- HDG_VADDR -/,
    ⟨0x1016018, 0x4, 1, [⟨15, 0, .rc, 0, .pw⟩]⟩ /- HDG_SAFECNT -/,
    ⟨0x1016020, 0x4, 1, [⟨14, 0, .rwl, 0, .pw⟩]⟩ /- HDG_PLS -/,
    ⟨0x1016024, 0x4, 1, [⟨23, 16, .rwl, 0, .pw⟩, ⟨7, 0, .rwl, 0, .pw⟩]⟩ /- HDG_ALERT -/,
    ⟨0x1016028, 0x4, 1, [⟨13, 8, .rwl, 0, .pw⟩, ⟨6, 0, .rwl, 0, .pw⟩]⟩ /- HDG_DUO -/,
    ⟨0x101602c, 0x4, 1, [⟨31, 24, .rwl, 0, .pw⟩, ⟨23, 16, .rwl, 0, .pw⟩, ⟨1, 1, .rwl, 0, .pw⟩, ⟨0, 0, .rwl, 0, .pw⟩]⟩ /- HDG_NVMP -/,
    ⟨0x1016030, 0x4, 1, [⟨4, 0, .rwl, 0, .pw⟩]⟩ /- HDG_CLK -/,
    ⟨0x1016034, 0x4, 1, [⟨31, 0, .rwl, 0, .pw⟩]⟩ /- HDG_DGRANT -/,
    ⟨0x1016038, 0x4, 1, [⟨0, 0, .rwl, 0, .pw⟩]⟩ /- HDG_MSD -/,
    ⟨0x1016040, 0x4, 1, [⟨7, 4, .ro, 0, .p⟩, ⟨3, 0, .ro, 0, .p⟩]⟩ /- HDG_KEYSTAT -/,
    ⟨0x1016044, 0x4, 1, [⟨3, 0, .d, 0, .pw⟩]⟩ /- HDG_KEYREV -/,
    ⟨0x1016120, 0x4, 1, [⟨14, 0, .ro, 0, .p⟩]⟩ /- HDG_PLSC -/,
    ⟨0x1016124, 0x4, 1, [⟨23, 16, .ro, 0, .p⟩, ⟨7, 0, .ro, 0, .p⟩]⟩ /- HDG_ALERTC -/,
    ⟨0x1016128, 0x4, 1, [⟨13, 8, .ro, 0, .p⟩, ⟨6, 0, .ro, 0, .p⟩]⟩ /- HDG_DUOC -/,
    ⟨0x101612c, 0x4, 1, [⟨31, 24, .ro, 0, .p⟩, ⟨23, 16, .ro, 0, .p⟩, ⟨1, 1, .ro, 0, .p⟩, ⟨0, 0, .ro, 0, .p⟩]⟩ /- HDG_NVMPC -/,
    ⟨0x1016130, 0x4, 1, [⟨4, 0, .ro, 0, .p⟩]⟩ /- HDG_CLKC -/,
    ⟨0x1016134, 0x4, 1, [⟨31, 0, .ro, 0, .p⟩]⟩ /- HDG_DGRANTC -/,
    ⟨0x1016138, 0x4, 1, [⟨0, 0, .ro, 0, .p⟩]⟩ /- HDG_MSDC -/ ]

/-- The `TMP` registers (tables 14-7). -/
def rowsTMP : List RegRow :=
  [ ⟨0x1017000, 0x4, 1, [⟨23, 16, .ro, 0, .pw⟩, ⟨8, 8, .w1c, 0, .pw⟩, ⟨7, 0, .w1c, 0, .pw⟩]⟩ /- TMP_STAT -/,
    ⟨0x1017004, 0x4, 1, [⟨31, 31, .rwl, 0, .b⟩, ⟨7, 0, .rwl, 0, .b⟩]⟩ /- TMP_CTL -/,
    ⟨0x1017008, 0x4, 1, [⟨1, 1, .rw, 1, .pw⟩, ⟨0, 0, .rw, 0, .pw⟩]⟩ /- TMP_MCTL -/,
    ⟨0x101700c, 0x4, 1, [⟨10, 0, .rw, 0xc8, .pw⟩]⟩ /- TMP_MAGTHR -/,
    ⟨0x1017010, 0x4, 1, [⟨15, 8, .rw, 0xc2, .pw⟩, ⟨7, 0, .rw, 0x13, .pw⟩]⟩ /- TMP_TLIM -/,
    ⟨0x1017014, 0x4, 1, [⟨3, 0, .ro, 0, .b⟩]⟩ /- TMP_LOOP -/,
    ⟨0x1017018, 0x4, 1, [⟨15, 8, .ro, 0, .b⟩, ⟨7, 0, .ro, 0, .b⟩]⟩ /- TMP_BKCNT -/,
    ⟨0x101701c, 0x4, 1, [⟨7, 0, .ro, 0, .b⟩]⟩ /- TMP_BURNPEND -/,
    ⟨0x1017020, 0x4, 8, [⟨31, 0, .rc, 0, .pw⟩]⟩ /- TMP_EVCNT -/,
    ⟨0x1017040, 0x4, 8, [⟨6, 0, .ro, 0, .p⟩]⟩ /- TMP_OTP -/,
    ⟨0x1017060, 0x4, 1, [⟨31, 16, .rc, 0, .pw⟩, ⟨15, 15, .ro, 0, .pw⟩, ⟨11, 8, .ro, 0, .pw⟩, ⟨7, 0, .ro, 0, .pw⟩]⟩ /- TMP_BIC -/,
    ⟨0x1017064, 0x4, 1, [⟨31, 0, .ro, 0, .pw⟩]⟩ /- TMP_BICADDR -/,
    ⟨0x1017068, 0x4, 1, [⟨3, 0, .ro, 0, .pw⟩]⟩ /- TMP_BICWIN -/,
    ⟨0x101706c, 0x4, 1, [⟨8, 8, .d, 0, .p⟩, ⟨0, 0, .ro, 0, .p⟩]⟩ /- TMP_TAP -/ ]

/-- The `YLD` registers (tables 16-6). -/
def rowsYLD : List RegRow :=
  [ ⟨0x1018000, 0x4, 1, [⟨2, 2, .w1c, 0, .pw⟩, ⟨1, 1, .w1c, 0, .pw⟩, ⟨0, 0, .ro, 0, .pw⟩]⟩ /- YLD_STAT -/,
    ⟨0x1018004, 0x4, 1, [⟨15, 0, .rw, 0x16d, .pw⟩]⟩ /- YLD_CTL -/,
    ⟨0x1018008, 0x4, 1, [⟨31, 31, .w1c, 0, .pw⟩, ⟨15, 0, .ro, 0, .pw⟩]⟩ /- YLD_REFDIS -/,
    ⟨0x101800c, 0x4, 1, [⟨31, 0, .ro, 0, .p⟩]⟩ /- YLD_SWAPCNT -/,
    ⟨0x1018010, 0x4, 1, [⟨31, 0, .ro, 0, .p⟩]⟩ /- YLD_DAY -/,
    ⟨0x1018014, 0x4, 1, [⟨15, 0, .rw, 0, .pw⟩]⟩ /- YLD_CELLCAP -/,
    ⟨0x1018018, 0x4, 1, [⟨31, 0, .ro, 0, .pw⟩]⟩ /- YLD_LOGSEQ -/,
    ⟨0x101801c, 0x4, 1, [⟨11, 0, .ro, 0, .pw⟩]⟩ /- YLD_LOGSLOT -/,
    ⟨0x1018020, 0x4, 1, [⟨0, 0, .wo, 0, .pw⟩]⟩ /- YLD_CMD -/,
    ⟨0x1018030, 0x4, 3, [⟨31, 0, .w1c, 0, .pw⟩]⟩ /- YLD_ALERT -/,
    ⟨0x1018100, 0x8, 77, [⟨31, 16, .ro, 0xffff, .pw⟩, ⟨15, 0, .ro, 0xffff, .pw⟩]⟩ /- YLD_EOL -/,
    ⟨0x1018104, 0x8, 77, [⟨31, 31, .ro, 0, .pw⟩, ⟨30, 30, .ro, 0, .pw⟩, ⟨15, 0, .ro, 0xffff, .pw⟩]⟩ /- YLD_BAND -/,
    ⟨0x1018400, 0x4, 77, [⟨31, 0, .ro, 0, .pw⟩]⟩ /- YLD_USE -/ ]

/-- The `MSD` registers (tables 16-7). -/
def rowsMSD : List RegRow :=
  [ ⟨0x1019000, 0x4, 1, [⟨31, 31, .d, 0, .pw⟩, ⟨11, 0, .d, 0x3c, .pw⟩]⟩ /- MSD_CTL -/,
    ⟨0x1019004, 0x4, 1, [⟨3, 2, .ro, 0, .pw⟩, ⟨1, 1, .w1c, 0, .pw⟩, ⟨0, 0, .ro, 0, .pw⟩]⟩ /- MSD_STAT -/,
    ⟨0x1019008, 0x4, 1, [⟨0, 0, .wo, 0, .pw⟩]⟩ /- MSD_CMD -/,
    ⟨0x101900c, 0x4, 1, [⟨11, 0, .ro, 0, .pw⟩]⟩ /- MSD_REM -/,
    ⟨0x1019010, 0x10, 2, [⟨31, 31, .d, 0, .pw⟩, ⟨29, 28, .d, 0, .pw⟩, ⟨27, 27, .d, 0, .pw⟩, ⟨15, 0, .d, 0, .pw⟩]⟩ /- MSD_RING -/,
    ⟨0x1019014, 0x10, 2, [⟨9, 0, .d, 1, .pw⟩]⟩ /- MSD_RDLY -/,
    ⟨0x1019018, 0x10, 2, [⟨31, 0, .rc, 0, .pw⟩]⟩ /- MSD_RCNT -/,
    ⟨0x1019040, 0x4, 1, [⟨31, 31, .d, 0, .pw⟩, ⟨30, 30, .d, 0, .pw⟩, ⟨22, 16, .d, 1, .pw⟩, ⟨15, 0, .d, 0, .pw⟩]⟩ /- MSD_DUO -/,
    ⟨0x1019044, 0x4, 1, [⟨6, 0, .d, 0, .pw⟩]⟩ /- MSD_DUOOFS -/,
    ⟨0x1019048, 0x4, 1, [⟨31, 0, .rc, 0, .pw⟩]⟩ /- MSD_DUOCNT -/,
    ⟨0x1019060, 0x4, 1, [⟨31, 31, .d, 0, .pw⟩, ⟨15, 8, .d, 1, .pw⟩, ⟨7, 0, .d, 0, .pw⟩]⟩ /- MSD_BIC -/,
    ⟨0x1019064, 0x4, 1, [⟨31, 0, .rc, 0, .pw⟩]⟩ /- MSD_BICCNT -/ ]

/-- The `DEAL` registers (tables 11-9). -/
def rowsDEAL : List RegRow :=
  [ ⟨0x101a000, 0x4, 1, [⟨25, 16, .ro, 0, .pw⟩, ⟨14, 14, .w1c, 0, .pw⟩, ⟨13, 13, .w1c, 0, .pw⟩, ⟨12, 12, .w1c, 0, .pw⟩, ⟨11, 11, .w1c, 0, .pw⟩, ⟨10, 10, .w1c, 0, .pw⟩, ⟨9, 9, .ro, 0, .pw⟩, ⟨8, 8, .ro, 0, .pw⟩, ⟨7, 4, .ro, 0, .pw⟩, ⟨1, 0, .ro, 0, .pw⟩]⟩ /- DEAL_STAT -/,
    ⟨0x101a004, 0x4, 1, [⟨7, 0, .ro, 0, .pw⟩]⟩ /- DEAL_TMO -/,
    ⟨0x101a008, 0x4, 1, [⟨31, 28, .ro, 0, .pw⟩, ⟨24, 16, .ro, 0, .pw⟩]⟩ /- DEAL_RES -/,
    ⟨0x101a00c, 0x4, 1, [⟨31, 0, .ro, 0, .p⟩]⟩ /- DEAL_ANONCE -/,
    ⟨0x101a010, 0x4, 1, [⟨31, 0, .ro, 0, .p⟩]⟩ /- DEAL_UIDL -/,
    ⟨0x101a014, 0x4, 1, [⟨31, 0, .ro, 0, .p⟩]⟩ /- DEAL_UIDH -/,
    ⟨0x101a018, 0x4, 1, [⟨31, 16, .rc, 0, .pw⟩, ⟨3, 0, .ro, 0, .pw⟩]⟩ /- DEAL_DWR -/,
    ⟨0x101a01c, 0x4, 1, [⟨31, 0, .ro, 0, .pw⟩]⟩ /- DEAL_DWRADDR -/,
    ⟨0x101a020, 0x4, 1, [⟨31, 0, .ro, 0, .pw⟩]⟩ /- DEAL_APPCNT -/,
    ⟨0x101a040, 0x4, 5, [⟨31, 0, .ro, 0, .pw⟩]⟩ /- DEAL_ATS -/ ]

/-- The `UPD` registers (tables 15-9). -/
def rowsUPD : List RegRow :=
  [ ⟨0x101b000, 0x4, 1, [⟨31, 31, .ro, 0, .pw⟩, ⟨30, 30, .ro, 0, .pw⟩, ⟨29, 29, .ro, 0, .pw⟩, ⟨28, 28, .ro, 0, .pw⟩, ⟨27, 27, .ro, 0, .pw⟩, ⟨26, 26, .ro, 0, .pw⟩, ⟨6, 6, .w1c, 0, .pw⟩, ⟨5, 5, .w1c, 0, .pw⟩, ⟨4, 4, .w1c, 0, .pw⟩, ⟨3, 3, .w1c, 0, .pw⟩, ⟨2, 2, .w1c, 0, .pw⟩, ⟨1, 1, .w1c, 0, .pw⟩, ⟨0, 0, .w1c, 0, .pw⟩]⟩ /- UPD_STAT -/,
    ⟨0x101b004, 0x4, 1, [⟨31, 28, .wo, 0, .pw⟩]⟩ /- UPD_CMD -/,
    ⟨0x101b008, 0x4, 1, [⟨20, 3, .rw, 0, .pw⟩]⟩ /- UPD_LEN -/,
    ⟨0x101b00c, 0x4, 1, [⟨31, 28, .ro, 0, .pw⟩, ⟨27, 27, .ro, 0, .pw⟩, ⟨8, 0, .ro, 0, .pw⟩]⟩ /- UPD_DLSTAT -/,
    ⟨0x101b010, 0x4, 1, [⟨8, 0, .rw, 0, .pw⟩]⟩ /- UPD_DLBLK -/,
    ⟨0x101b014, 0x4, 1, [⟨25, 24, .ro, 0, .pw⟩, ⟨16, 0, .ro, 0, .pw⟩]⟩ /- UPD_TRIALSTAT -/,
    ⟨0x101b018, 0x4, 1, [⟨31, 0, .ro, 0, .pw⟩]⟩ /- UPD_ACTVER -/,
    ⟨0x101b01c, 0x4, 1, [⟨31, 0, .ro, 0, .pw⟩]⟩ /- UPD_INACTVER -/,
    ⟨0x101b020, 0x4, 1, [⟨5, 0, .ro, 0, .pw⟩]⟩ /- UPD_BOOT -/,
    ⟨0x101b040, 0x4, 8, [⟨31, 0, .ro, 0, .pw⟩]⟩ /- UPD_HASH -/,
    ⟨0x101b100, 0x4, 1, [⟨31, 0, .rw, 0, .pw⟩]⟩ /- UPD_ACTID -/,
    ⟨0x101b104, 0x4, 1, [⟨9, 8, .rw, 0, .pw⟩, ⟨5, 4, .rw, 0, .pw⟩, ⟨1, 0, .rw, 0, .pw⟩]⟩ /- UPD_ACTWHEN -/,
    ⟨0x101b108, 0x4, 1, [⟨31, 0, .rw, 0, .pw⟩]⟩ /- UPD_ACTT0 -/,
    ⟨0x101b10c, 0x4, 1, [⟨31, 0, .rw, 0, .pw⟩]⟩ /- UPD_ACTT1 -/,
    ⟨0x101b110, 0x4, 1, [⟨10, 0, .rw, 0x3c, .pw⟩]⟩ /- UPD_TRIALWIN -/,
    ⟨0x101b114, 0x4, 1, [⟨0, 0, .wo, 0, .pw⟩]⟩ /- UPD_ACTGO -/,
    ⟨0x101b118, 0x4, 1, [⟨31, 0, .wo, 0, .pw⟩]⟩ /- UPD_CONFIRM -/ ]

/-- The rows of the 4 KiB register block whose number is `b` (address / 1000h; Table 01-4). -/
def blockRows (b : Nat) : List RegRow :=
  match b with
  | 0x1000 => rowsSYS
  | 0x1001 => rowsANA
  | 0x1002 => rowsSLC
  | 0x1003 => rowsFLT
  | 0x1004 => rowsFUR
  | 0x1005 => rowsSOWC
  | 0x1006 => rowsTAL
  | 0x1007 => rowsPLS
  | 0x1008 => rowsTHR
  | 0x1009 => rowsSIL
  | 0x100a => rowsPLG
  | 0x100b => rowsHOP
  | 0x100c => rowsINT
  | 0x100d => rowsNVM
  | 0x100e => rowsRTC
  | 0x100f => rowsBAL
  | 0x1014 => rowsDUO
  | 0x1015 => rowsGLN
  | 0x1016 => rowsHDG
  | 0x1017 => rowsTMP
  | 0x1018 => rowsYLD
  | 0x1019 => rowsMSD
  | 0x101a => rowsDEAL
  | 0x101b => rowsUPD
  | _ => []

/-- Whether a row holds a register at byte address `a`. -/
def RegRow.has (r : RegRow) (a : Nat) : Bool :=
  decide (r.base ≤ a) && decide ((a - r.base) % r.stride = 0) && decide ((a - r.base) / r.stride < r.count)

/-- The row of the register at byte address `a`, if a register stands there (R20: elsewhere in a block reads 0). -/
def regRow? (a : Nat) : Option RegRow := (blockRows (a / 4096)).find? (·.has a)

/-- The fields of the register at `a`. -/
def regFields (a : Nat) : List FieldRow :=
  match regRow? a with
  | some r => r.fields
  | none => []

/-- A word built of the reset values of the given fields. -/
def fieldsReset (fs : List FieldRow) : Word :=
  fs.foldl (fun w f => putBits w f.hi f.lo f.rst) 0

/-- The reset value of the register at `a`: its fields' values, but for the registers whose Reset column gives a
rule instead of a number: `FUR_SRCn` (3n, 1 + 3n, 2 + 3n), `PLG_PSTATp` (R207: logical p on plough p, P4 fallow),
the hedge registers, which the -FB ceilings of Table 14-1 load (a -FX part loads its own; R406), and `HDG_KEYSTAT`
(R421: slot 0 valid; no customer key registered). Values that
come from the barn, the OTP, the image or the selector stand at 0 until start-up reads them. -/
def regReset (a : Nat) : Word :=
  if a / 4096 = 0x1004 ∧ a % 64 = 4 ∧ a < 0x1004100 then
    let n := (a - 0x1004000) / 64
    putBits (putBits (putBits 0 29 24 (2 + 3 * n)) 21 16 (1 + 3 * n)) 13 8 (3 * n)
  else if 0x100A060 ≤ a ∧ a ≤ 0x100A070 ∧ a % 4 = 0 then
    let p := (a - 0x100A060) / 4
    if p < 4 then putBits 0 6 4 p else putBits (putBits 0 6 4 4) 2 0 1
  else if a = 0x1016020 ∨ a = 0x1016120 then 25000
  else if a = 0x1016024 ∨ a = 0x1016124 then putBits 10 23 16 5
  else if a = 0x1016028 ∨ a = 0x1016128 then putBits 100 13 8 63
  else if a = 0x101602C ∨ a = 0x101612C then putBits (putBits 3 31 24 207) 23 16 0
  else if a = 0x1016030 ∨ a = 0x1016130 then 20
  else if a = 0x1016034 ∨ a = 0x1016134 then 0x003F1F3E
  else if a = 0x1016038 ∨ a = 0x1016138 then 1
  else if a = 0x1016040 then 1
  else fieldsReset (regFields a)

/-! ### The registers' addresses and fields, by name -/

/-- The first byte of the sowing table (Table 01-4). -/
abbrev SEEDS : Nat := 0x1010000

/-- Word `w` of seed `i`. -/
abbrev seedWord (i w : Nat) : Nat := SEEDS + 16 * i + 4 * w

abbrev SYS_ID : Nat := 0x1000000
def SYS_ID_PART : Fld := ⟨SYS_ID, 31, 16⟩
def SYS_ID_STEPL : Fld := ⟨SYS_ID, 15, 12⟩
def SYS_ID_STEPN : Fld := ⟨SYS_ID, 11, 8⟩
def SYS_ID_VARIANT : Fld := ⟨SYS_ID, 7, 4⟩
abbrev SYS_MAPERR : Nat := 0x1000008
def SYS_MAPERR_ADDR : Fld := ⟨SYS_MAPERR, 31, 0⟩
abbrev SYS_MAPSRC : Nat := 0x100000c
def SYS_MAPSRC_COUNT : Fld := ⟨SYS_MAPSRC, 31, 16⟩
def SYS_MAPSRC_WR : Fld := ⟨SYS_MAPSRC, 8, 8⟩
def SYS_MAPSRC_ORIG : Fld := ⟨SYS_MAPSRC, 3, 0⟩
abbrev SYS_RSTCMD : Nat := 0x1000010
def SYS_RSTCMD_KEY : Fld := ⟨SYS_RSTCMD, 15, 0⟩
abbrev SYS_CLKSTAT : Nat := 0x1000004
def SYS_CLKSTAT_REFLOSS : Fld := ⟨SYS_CLKSTAT, 7, 7⟩
def SYS_CLKSTAT_HOLD : Fld := ⟨SYS_CLKSTAT, 6, 6⟩
def SYS_CLKSTAT_LOCK : Fld := ⟨SYS_CLKSTAT, 5, 5⟩
def SYS_CLKSTAT_XTLOK : Fld := ⟨SYS_CLKSTAT, 4, 4⟩
def SYS_CLKSTAT_REFSEL : Fld := ⟨SYS_CLKSTAT, 1, 0⟩
abbrev FUR_CTL (n : Nat) : Nat := 0x1004000 + 0x40 * n
def FUR_CTL_FORCEH (n : Nat) : Fld := ⟨(FUR_CTL n), 3, 3⟩
def FUR_CTL_SLEWR (n : Nat) : Fld := ⟨(FUR_CTL n), 2, 1⟩
def FUR_CTL_EN (n : Nat) : Fld := ⟨(FUR_CTL n), 0, 0⟩
abbrev FUR_SRC (n : Nat) : Nat := 0x1004004 + 0x40 * n
def FUR_SRC_CHC (n : Nat) : Fld := ⟨(FUR_SRC n), 29, 24⟩
def FUR_SRC_CHB (n : Nat) : Fld := ⟨(FUR_SRC n), 21, 16⟩
def FUR_SRC_CHA (n : Nat) : Fld := ⟨(FUR_SRC n), 13, 8⟩
def FUR_SRC_RFW (n : Nat) : Fld := ⟨(FUR_SRC n), 5, 4⟩
def FUR_SRC_SRC (n : Nat) : Fld := ⟨(FUR_SRC n), 2, 0⟩
abbrev FUR_STAT (n : Nat) : Nat := 0x1004008 + 0x40 * n
def FUR_STAT_GLITCH (n : Nat) : Fld := ⟨(FUR_STAT n), 31, 16⟩
def FUR_STAT_CYCERR (n : Nat) : Fld := ⟨(FUR_STAT n), 12, 12⟩
def FUR_STAT_ENCERR (n : Nat) : Fld := ⟨(FUR_STAT n), 11, 11⟩
def FUR_STAT_LOSS (n : Nat) : Fld := ⟨(FUR_STAT n), 10, 10⟩
def FUR_STAT_CFGERR (n : Nat) : Fld := ⟨(FUR_STAT n), 9, 9⟩
def FUR_STAT_RANGE (n : Nat) : Fld := ⟨(FUR_STAT n), 3, 3⟩
def FUR_STAT_SLEW (n : Nat) : Fld := ⟨(FUR_STAT n), 2, 2⟩
def FUR_STAT_HOLD (n : Nat) : Fld := ⟨(FUR_STAT n), 1, 1⟩
def FUR_STAT_LOCK (n : Nat) : Fld := ⟨(FUR_STAT n), 0, 0⟩
abbrev FUR_FREQ (n : Nat) : Nat := 0x100400c + 0x40 * n
def FUR_FREQ_FREQ (n : Nat) : Fld := ⟨(FUR_FREQ n), 22, 0⟩
abbrev FUR_OFS (n : Nat) : Nat := 0x1004010 + 0x40 * n
def FUR_OFS_OFS (n : Nat) : Fld := ⟨(FUR_OFS n), 23, 0⟩
abbrev FUR_NOM (n : Nat) : Nat := 0x1004014 + 0x40 * n
def FUR_NOM_NOM (n : Nat) : Fld := ⟨(FUR_NOM n), 23, 0⟩
abbrev FUR_ENC (n : Nat) : Nat := 0x1004018 + 0x40 * n
def FUR_ENC_DIR (n : Nat) : Fld := ⟨(FUR_ENC n), 24, 24⟩
def FUR_ENC_PP (n : Nat) : Fld := ⟨(FUR_ENC n), 22, 16⟩
def FUR_ENC_LINES (n : Nat) : Fld := ⟨(FUR_ENC n), 15, 0⟩
abbrev FUR_RSCTL (n : Nat) : Nat := 0x100401c + 0x40 * n
def FUR_RSCTL_RSCYC (n : Nat) : Fld := ⟨(FUR_RSCTL n), 15, 8⟩
def FUR_RSCTL_N (n : Nat) : Fld := ⟨(FUR_RSCTL n), 5, 4⟩
def FUR_RSCTL_HOPEN (n : Nat) : Fld := ⟨(FUR_RSCTL n), 1, 1⟩
def FUR_RSCTL_EN (n : Nat) : Fld := ⟨(FUR_RSCTL n), 0, 0⟩
abbrev FUR_RSML (n : Nat) : Nat := 0x1004020 + 0x40 * n
def FUR_RSML_MASK (n : Nat) : Fld := ⟨(FUR_RSML n), 31, 0⟩
abbrev FUR_RSMH (n : Nat) : Nat := 0x1004024 + 0x40 * n
def FUR_RSMH_MASK (n : Nat) : Fld := ⟨(FUR_RSMH n), 15, 0⟩
abbrev FUR_RSBASE (n : Nat) : Nat := 0x1004028 + 0x40 * n
def FUR_RSBASE_BASE (n : Nat) : Fld := ⟨(FUR_RSBASE n), 20, 10⟩
abbrev FUR_CYCSETL (n : Nat) : Nat := 0x100402c + 0x40 * n
def FUR_CYCSETL_CYCLO (n : Nat) : Fld := ⟨(FUR_CYCSETL n), 31, 0⟩
abbrev FUR_CYCSETH (n : Nat) : Nat := 0x1004030 + 0x40 * n
def FUR_CYCSETH_CYCHI (n : Nat) : Fld := ⟨(FUR_CYCSETH n), 7, 0⟩
abbrev FUR_HOLDERR (n : Nat) : Nat := 0x1004034 + 0x40 * n
def FUR_HOLDERR_ERR (n : Nat) : Fld := ⟨(FUR_HOLDERR n), 31, 0⟩
abbrev FUR_HOLDCNT (n : Nat) : Nat := 0x1004038 + 0x40 * n
def FUR_HOLDCNT_COUNT (n : Nat) : Fld := ⟨(FUR_HOLDCNT n), 15, 0⟩
abbrev FUR_LATCH : Nat := 0x1004100
def FUR_LATCH_GO : Fld := ⟨FUR_LATCH, 0, 0⟩
abbrev FUR_TSW (n : Nat) : Nat := 0x1004120 + 0x4 * n
def FUR_TSW_TS (n : Nat) : Fld := ⟨(FUR_TSW n), 31, 0⟩
abbrev SOWC_CTL : Nat := 0x1005000
def SOWC_CTL_GATE : Fld := ⟨SOWC_CTL, 7, 4⟩
def SOWC_CTL_EN : Fld := ⟨SOWC_CTL, 0, 0⟩
abbrev SOWC_STAT : Nat := 0x1005004
def SOWC_STAT_SEED : Fld := ⟨SOWC_STAT, 25, 16⟩
def SOWC_STAT_MISS : Fld := ⟨SOWC_STAT, 4, 4⟩
def SOWC_STAT_LATE : Fld := ⟨SOWC_STAT, 3, 3⟩
def SOWC_STAT_BUSYWR : Fld := ⟨SOWC_STAT, 2, 2⟩
def SOWC_STAT_BADSEED : Fld := ⟨SOWC_STAT, 1, 1⟩
def SOWC_STAT_PAST : Fld := ⟨SOWC_STAT, 0, 0⟩
abbrev SOWC_MISS : Nat := 0x1005008
def SOWC_MISS_COUNT : Fld := ⟨SOWC_MISS, 31, 0⟩
abbrev SOWC_LATE : Nat := 0x100500c
def SOWC_LATE_COUNT : Fld := ⟨SOWC_LATE, 31, 0⟩
abbrev SOWC_SNAPMASK (n : Nat) : Nat := 0x1005020 + 0x4 * n
def SOWC_SNAPMASK_FIELDS (n : Nat) : Fld := ⟨(SOWC_SNAPMASK n), 15, 0⟩
abbrev ANA_CMD : Nat := 0x1001000
def ANA_CMD_CAL : Fld := ⟨ANA_CMD, 31, 31⟩
def ANA_CMD_ONE : Fld := ⟨ANA_CMD, 30, 30⟩
def ANA_CMD_REFCHK : Fld := ⟨ANA_CMD, 29, 29⟩
def ANA_CMD_CH : Fld := ⟨ANA_CMD, 5, 0⟩
abbrev ANA_STAT : Nat := 0x1001004
def ANA_STAT_REFSWAP : Fld := ⟨ANA_STAT, 5, 5⟩
def ANA_STAT_CFGERR : Fld := ⟨ANA_STAT, 4, 4⟩
def ANA_STAT_CALFAIL : Fld := ⟨ANA_STAT, 3, 3⟩
def ANA_STAT_CMDERR : Fld := ⟨ANA_STAT, 2, 2⟩
def ANA_STAT_DONE : Fld := ⟨ANA_STAT, 1, 1⟩
def ANA_STAT_BUSY : Fld := ⟨ANA_STAT, 0, 0⟩
abbrev ANA_REFCTL : Nat := 0x100100c
def ANA_REFCTL_EXTEN : Fld := ⟨ANA_REFCTL, 4, 4⟩
def ANA_REFCTL_RETB : Fld := ⟨ANA_REFCTL, 1, 1⟩
def ANA_REFCTL_RETA : Fld := ⟨ANA_REFCTL, 0, 0⟩
abbrev ANA_REFSTAT : Nat := 0x1001010
def ANA_REFSTAT_BRET : Fld := ⟨ANA_REFSTAT, 9, 9⟩
def ANA_REFSTAT_ARET : Fld := ⟨ANA_REFSTAT, 8, 8⟩
def ANA_REFSTAT_NOMAJ : Fld := ⟨ANA_REFSTAT, 7, 7⟩
def ANA_REFSTAT_DIS : Fld := ⟨ANA_REFSTAT, 6, 6⟩
def ANA_REFSTAT_ARB : Fld := ⟨ANA_REFSTAT, 5, 5⟩
def ANA_REFSTAT_CON : Fld := ⟨ANA_REFSTAT, 4, 4⟩
def ANA_REFSTAT_HI : Fld := ⟨ANA_REFSTAT, 3, 2⟩
def ANA_REFSTAT_LO : Fld := ⟨ANA_REFSTAT, 1, 0⟩
abbrev ANA_REFDAB : Nat := 0x1001014
def ANA_REFDAB_VALID : Fld := ⟨ANA_REFDAB, 31, 31⟩
def ANA_REFDAB_D : Fld := ⟨ANA_REFDAB, 15, 0⟩
abbrev ANA_REFDCA : Nat := 0x1001018
def ANA_REFDCA_VALID : Fld := ⟨ANA_REFDCA, 31, 31⟩
def ANA_REFDCA_D : Fld := ⟨ANA_REFDCA, 15, 0⟩
abbrev ANA_REFDCB : Nat := 0x100101c
def ANA_REFDCB_VALID : Fld := ⟨ANA_REFDCB, 31, 31⟩
def ANA_REFDCB_D : Fld := ⟨ANA_REFDCB, 15, 0⟩
abbrev ANA_REFDXA : Nat := 0x1001020
def ANA_REFDXA_VALID : Fld := ⟨ANA_REFDXA, 31, 31⟩
def ANA_REFDXA_D : Fld := ⟨ANA_REFDXA, 15, 0⟩
abbrev ANA_CALFAILL : Nat := 0x1001024
def ANA_CALFAILL_MASK : Fld := ⟨ANA_CALFAILL, 31, 0⟩
abbrev ANA_CALFAILH : Nat := 0x1001028
def ANA_CALFAILH_MASK : Fld := ⟨ANA_CALFAILH, 15, 0⟩
abbrev ANA_CHCFG (n : Nat) : Nat := 0x1001100 + 0x4 * n
def ANA_CHCFG_RFREF (n : Nat) : Fld := ⟨(ANA_CHCFG n), 7, 7⟩
def ANA_CHCFG_ROGO (n : Nat) : Fld := ⟨(ANA_CHCFG n), 6, 6⟩
def ANA_CHCFG_INSEL (n : Nat) : Fld := ⟨(ANA_CHCFG n), 5, 4⟩
def ANA_CHCFG_GAIN (n : Nat) : Fld := ⟨(ANA_CHCFG n), 3, 1⟩
def ANA_CHCFG_EN (n : Nat) : Fld := ⟨(ANA_CHCFG n), 0, 0⟩
abbrev ANA_GANG (n : Nat) : Nat := 0x1001200 + 0x4 * n
def ANA_GANG_MODE (n : Nat) : Fld := ⟨(ANA_GANG n), 1, 0⟩
abbrev ANA_PGACOR (n : Nat) : Nat := 0x1001400 + 0x4 * n
def ANA_PGACOR_COR (n : Nat) : Fld := ⟨(ANA_PGACOR n), 23, 0⟩
abbrev SLC_CTL : Nat := 0x1002000
def SLC_CTL_ROTPER : Fld := ⟨SLC_CTL, 3, 1⟩
def SLC_CTL_ROTEN : Fld := ⟨SLC_CTL, 0, 0⟩
abbrev SLC_STAT : Nat := 0x1002004
def SLC_STAT_LIMIT : Fld := ⟨SLC_STAT, 3, 3⟩
def SLC_STAT_DEFER : Fld := ⟨SLC_STAT, 2, 2⟩
def SLC_STAT_RETIRE : Fld := ⟨SLC_STAT, 1, 1⟩
def SLC_STAT_CMDERR : Fld := ⟨SLC_STAT, 0, 0⟩
abbrev SLC_CMD : Nat := 0x1002008
def SLC_CMD_OP : Fld := ⟨SLC_CMD, 14, 12⟩
def SLC_CMD_SLICE : Fld := ⟨SLC_CMD, 10, 8⟩
def SLC_CMD_CH : Fld := ⟨SLC_CMD, 5, 0⟩
abbrev SLC_TOL : Nat := 0x100200c
def SLC_TOL_SKEW : Fld := ⟨SLC_TOL, 23, 16⟩
def SLC_TOL_GAIN : Fld := ⟨SLC_TOL, 15, 8⟩
def SLC_TOL_OFS : Fld := ⟨SLC_TOL, 7, 0⟩
abbrev SLC_NOSPAREL : Nat := 0x1002010
def SLC_NOSPAREL_MASK : Fld := ⟨SLC_NOSPAREL, 31, 0⟩
abbrev SLC_NOSPAREH : Nat := 0x1002014
def SLC_NOSPAREH_MASK : Fld := ⟨SLC_NOSPAREH, 15, 0⟩
abbrev SLC_RETCNT : Nat := 0x1002018
def SLC_RETCNT_COUNT : Fld := ⟨SLC_RETCNT, 5, 0⟩
abbrev SLC_OFS (n : Nat) : Nat := 0x1002100 + 0x4 * n
def SLC_OFS_OFS (n : Nat) : Fld := ⟨(SLC_OFS n), 23, 0⟩
abbrev SLC_GAIN (n : Nat) : Nat := 0x1002500 + 0x4 * n
def SLC_GAIN_GAIN (n : Nat) : Fld := ⟨(SLC_GAIN n), 23, 0⟩
abbrev SLC_SKEW (n : Nat) : Nat := 0x1002900 + 0x4 * n
def SLC_SKEW_SKEW (n : Nat) : Fld := ⟨(SLC_SKEW n), 11, 0⟩
abbrev SLC_CHSTAT (n : Nat) : Nat := 0x1002d00 + 0x4 * n
def SLC_CHSTAT_NOSPARE (n : Nat) : Fld := ⟨(SLC_CHSTAT n), 31, 31⟩
def SLC_CHSTAT_DEGR (n : Nat) : Fld := ⟨(SLC_CHSTAT n), 30, 30⟩
def SLC_CHSTAT_LIMIT (n : Nat) : Fld := ⟨(SLC_CHSTAT n), 29, 29⟩
def SLC_CHSTAT_FAIL (n : Nat) : Fld := ⟨(SLC_CHSTAT n), 28, 28⟩
def SLC_CHSTAT_RET (n : Nat) : Fld := ⟨(SLC_CHSTAT n), 24, 22⟩
def SLC_CHSTAT_FAL (n : Nat) : Fld := ⟨(SLC_CHSTAT n), 21, 19⟩
def SLC_CHSTAT_STEP (n : Nat) : Fld := ⟨(SLC_CHSTAT n), 18, 16⟩
def SLC_CHSTAT_EXC (n : Nat) : Fld := ⟨(SLC_CHSTAT n), 14, 0⟩
abbrev SLC_PHMAP (n : Nat) : Nat := 0x1002e00 + 0x4 * n
def SLC_PHMAP_PH3 (n : Nat) : Fld := ⟨(SLC_PHMAP n), 14, 12⟩
def SLC_PHMAP_PH2 (n : Nat) : Fld := ⟨(SLC_PHMAP n), 10, 8⟩
def SLC_PHMAP_PH1 (n : Nat) : Fld := ⟨(SLC_PHMAP n), 6, 4⟩
def SLC_PHMAP_PH0 (n : Nat) : Fld := ⟨(SLC_PHMAP n), 2, 0⟩
abbrev FLT_STAT : Nat := 0x1003000
def FLT_STAT_CFGERR : Fld := ⟨FLT_STAT, 2, 2⟩
def FLT_STAT_SAT : Fld := ⟨FLT_STAT, 1, 1⟩
def FLT_STAT_TRIP : Fld := ⟨FLT_STAT, 0, 0⟩
abbrev FLT_SATL : Nat := 0x1003004
def FLT_SATL_MASK : Fld := ⟨FLT_SATL, 31, 0⟩
abbrev FLT_SATH : Nat := 0x1003008
def FLT_SATH_MASK : Fld := ⟨FLT_SATH, 15, 0⟩
abbrev FLT_TRIPL : Nat := 0x100300c
def FLT_TRIPL_MASK : Fld := ⟨FLT_TRIPL, 31, 0⟩
abbrev FLT_TRIPH : Nat := 0x1003010
def FLT_TRIPH_MASK : Fld := ⟨FLT_TRIPH, 15, 0⟩
abbrev FLT_TRQSTAT : Nat := 0x1003040
def FLT_TRQSTAT_LOST : Fld := ⟨FLT_TRQSTAT, 31, 16⟩
def FLT_TRQSTAT_OVF : Fld := ⟨FLT_TRQSTAT, 8, 8⟩
def FLT_TRQSTAT_COUNT : Fld := ⟨FLT_TRQSTAT, 4, 0⟩
abbrev FLT_TRQW (n : Nat) : Nat := 0x1003044 + 0x4 * n
def FLT_TRQW_V (n : Nat) : Fld := ⟨(FLT_TRQW n), 31, 0⟩
abbrev FLT_CTL (n : Nat) : Nat := 0x1003100 + 0x4 * n
def FLT_CTL_EF (n : Nat) : Fld := ⟨(FLT_CTL n), 31, 24⟩
def FLT_CTL_EW (n : Nat) : Fld := ⟨(FLT_CTL n), 23, 16⟩
def FLT_CTL_EC (n : Nat) : Fld := ⟨(FLT_CTL n), 15, 8⟩
def FLT_CTL_HOPDIV (n : Nat) : Fld := ⟨(FLT_CTL n), 7, 4⟩
def FLT_CTL_HOPF (n : Nat) : Fld := ⟨(FLT_CTL n), 2, 2⟩
def FLT_CTL_HOPW (n : Nat) : Fld := ⟨(FLT_CTL n), 1, 1⟩
def FLT_CTL_HOPC (n : Nat) : Fld := ⟨(FLT_CTL n), 0, 0⟩
abbrev FLT_SHIFT (n : Nat) : Nat := 0x1003200 + 0x4 * n
def FLT_SHIFT_SH7 (n : Nat) : Fld := ⟨(FLT_SHIFT n), 27, 24⟩
def FLT_SHIFT_SH6 (n : Nat) : Fld := ⟨(FLT_SHIFT n), 23, 20⟩
def FLT_SHIFT_SH5 (n : Nat) : Fld := ⟨(FLT_SHIFT n), 19, 16⟩
def FLT_SHIFT_SH4 (n : Nat) : Fld := ⟨(FLT_SHIFT n), 15, 12⟩
def FLT_SHIFT_SH3 (n : Nat) : Fld := ⟨(FLT_SHIFT n), 11, 8⟩
def FLT_SHIFT_SH2 (n : Nat) : Fld := ⟨(FLT_SHIFT n), 7, 4⟩
def FLT_SHIFT_SH1 (n : Nat) : Fld := ⟨(FLT_SHIFT n), 3, 0⟩
abbrev FLT_CHSTAT (n : Nat) : Nat := 0x1003300 + 0x4 * n
def FLT_CHSTAT_VALF (n : Nat) : Fld := ⟨(FLT_CHSTAT n), 10, 10⟩
def FLT_CHSTAT_VALW (n : Nat) : Fld := ⟨(FLT_CHSTAT n), 9, 9⟩
def FLT_CHSTAT_VALC (n : Nat) : Fld := ⟨(FLT_CHSTAT n), 8, 8⟩
def FLT_CHSTAT_SAT (n : Nat) : Fld := ⟨(FLT_CHSTAT n), 6, 0⟩
abbrev FLT_CMPCTL (n : Nat) : Nat := 0x1003400 + 0x20 * n
def FLT_CMPCTL_EN (n : Nat) : Fld := ⟨(FLT_CMPCTL n), 31, 31⟩
def FLT_CMPCTL_MODE (n : Nat) : Fld := ⟨(FLT_CMPCTL n), 30, 29⟩
def FLT_CMPCTL_SLOPED (n : Nat) : Fld := ⟨(FLT_CMPCTL n), 28, 26⟩
def FLT_CMPCTL_IRQ (n : Nat) : Fld := ⟨(FLT_CMPCTL n), 25, 25⟩
def FLT_CMPCTL_CAP (n : Nat) : Fld := ⟨(FLT_CMPCTL n), 24, 24⟩
def FLT_CMPCTL_BUF (n : Nat) : Fld := ⟨(FLT_CMPCTL n), 23, 21⟩
def FLT_CMPCTL_GLN (n : Nat) : Fld := ⟨(FLT_CMPCTL n), 20, 20⟩
def FLT_CMPCTL_FW (n : Nat) : Fld := ⟨(FLT_CMPCTL n), 19, 18⟩
def FLT_CMPCTL_N (n : Nat) : Fld := ⟨(FLT_CMPCTL n), 15, 0⟩
abbrev FLT_CMPLO (n : Nat) : Nat := 0x1003404 + 0x20 * n
def FLT_CMPLO_LO (n : Nat) : Fld := ⟨(FLT_CMPLO n), 23, 0⟩
abbrev FLT_CMPHI (n : Nat) : Nat := 0x1003408 + 0x20 * n
def FLT_CMPHI_HI (n : Nat) : Fld := ⟨(FLT_CMPHI n), 23, 0⟩
abbrev FLT_CMPHYS (n : Nat) : Nat := 0x100340c + 0x20 * n
def FLT_CMPHYS_HYS (n : Nat) : Fld := ⟨(FLT_CMPHYS n), 22, 0⟩
abbrev FLT_CMPSTAT (n : Nat) : Nat := 0x1003410 + 0x20 * n
def FLT_CMPSTAT_TRIPS (n : Nat) : Fld := ⟨(FLT_CMPSTAT n), 31, 24⟩
def FLT_CMPSTAT_CNT (n : Nat) : Fld := ⟨(FLT_CMPSTAT n), 23, 8⟩
def FLT_CMPSTAT_OVR (n : Nat) : Fld := ⟨(FLT_CMPSTAT n), 2, 2⟩
def FLT_CMPSTAT_STATE (n : Nat) : Fld := ⟨(FLT_CMPSTAT n), 1, 1⟩
def FLT_CMPSTAT_TRIP (n : Nat) : Fld := ⟨(FLT_CMPSTAT n), 0, 0⟩
abbrev TAL_STAT : Nat := 0x1006000
def TAL_STAT_SNAPLOST : Fld := ⟨TAL_STAT, 7, 7⟩
def TAL_STAT_SNAPDONE : Fld := ⟨TAL_STAT, 6, 6⟩
def TAL_STAT_SEALWR : Fld := ⟨TAL_STAT, 5, 5⟩
def TAL_STAT_HCEV : Fld := ⟨TAL_STAT, 4, 4⟩
def TAL_STAT_OVF : Fld := ⟨TAL_STAT, 3, 3⟩
def TAL_STAT_INVAL : Fld := ⟨TAL_STAT, 2, 2⟩
def TAL_STAT_SUBST : Fld := ⟨TAL_STAT, 1, 1⟩
def TAL_STAT_PEND : Fld := ⟨TAL_STAT, 0, 0⟩
abbrev TAL_SCNTL : Nat := 0x1006008
def TAL_SCNTL_CNT : Fld := ⟨TAL_SCNTL, 31, 0⟩
abbrev TAL_SCNTH : Nat := 0x100600c
def TAL_SCNTH_CNT : Fld := ⟨TAL_SCNTH, 31, 0⟩
abbrev TAL_SNAPCTL : Nat := 0x1006010
def TAL_SNAPCTL_ALIGN : Fld := ⟨TAL_SNAPCTL, 7, 0⟩
abbrev TAL_SNAPCMD : Nat := 0x1006014
def TAL_SNAPCMD_GO : Fld := ⟨TAL_SNAPCMD, 31, 31⟩
def TAL_SNAPCMD_ALIGN : Fld := ⟨TAL_SNAPCMD, 16, 16⟩
def TAL_SNAPCMD_FIELDS : Fld := ⟨TAL_SNAPCMD, 15, 0⟩
abbrev TAL_SNAPSTAT : Nat := 0x1006018
def TAL_SNAPSTAT_LOST : Fld := ⟨TAL_SNAPSTAT, 31, 16⟩
def TAL_SNAPSTAT_BUSY : Fld := ⟨TAL_SNAPSTAT, 15, 0⟩
abbrev TAL_SNAPSEL : Nat := 0x100601c
def TAL_SNAPSEL_FIELD : Fld := ⟨TAL_SNAPSEL, 3, 0⟩
abbrev TAL_FCFG (n : Nat) : Nat := 0x1006100 + 0x40 * n
def TAL_FCFG_EN (n : Nat) : Fld := ⟨(TAL_FCFG n), 31, 31⟩
def TAL_FCFG_FW (n : Nat) : Fld := ⟨(TAL_FCFG n), 25, 24⟩
def TAL_FCFG_IGA (n : Nat) : Fld := ⟨(TAL_FCFG n), 22, 20⟩
def TAL_FCFG_VGA (n : Nat) : Fld := ⟨(TAL_FCFG n), 18, 16⟩
def TAL_FCFG_WIRE (n : Nat) : Fld := ⟨(TAL_FCFG n), 2, 0⟩
abbrev TAL_FCHV (n : Nat) : Nat := 0x1006104 + 0x40 * n
def TAL_FCHV_CH3 (n : Nat) : Fld := ⟨(TAL_FCHV n), 29, 24⟩
def TAL_FCHV_CH2 (n : Nat) : Fld := ⟨(TAL_FCHV n), 21, 16⟩
def TAL_FCHV_CH1 (n : Nat) : Fld := ⟨(TAL_FCHV n), 13, 8⟩
def TAL_FCHV_CH0 (n : Nat) : Fld := ⟨(TAL_FCHV n), 5, 0⟩
abbrev TAL_FCHI (n : Nat) : Nat := 0x1006108 + 0x40 * n
def TAL_FCHI_CH3 (n : Nat) : Fld := ⟨(TAL_FCHI n), 29, 24⟩
def TAL_FCHI_CH2 (n : Nat) : Fld := ⟨(TAL_FCHI n), 21, 16⟩
def TAL_FCHI_CH1 (n : Nat) : Fld := ⟨(TAL_FCHI n), 13, 8⟩
def TAL_FCHI_CH0 (n : Nat) : Fld := ⟨(TAL_FCHI n), 5, 0⟩
abbrev TAL_START (n : Nat) : Nat := 0x100610c + 0x40 * n
def TAL_START_V (n : Nat) : Fld := ⟨(TAL_START n), 23, 0⟩
abbrev TAL_NOLOAD (n : Nat) : Nat := 0x1006110 + 0x40 * n
def TAL_NOLOAD_V (n : Nat) : Fld := ⟨(TAL_NOLOAD n), 31, 0⟩
abbrev TAL_LOSSI (n : Nat) : Nat := 0x1006114 + 0x40 * n
def TAL_LOSSI_V (n : Nat) : Fld := ⟨(TAL_LOSSI n), 31, 0⟩
abbrev TAL_LOSSV (n : Nat) : Nat := 0x1006118 + 0x40 * n
def TAL_LOSSV_V (n : Nat) : Fld := ⟨(TAL_LOSSV n), 31, 0⟩
abbrev TAL_FCMD (n : Nat) : Nat := 0x100611c + 0x40 * n
def TAL_FCMD_V (n : Nat) : Fld := ⟨(TAL_FCMD n), 0, 0⟩
abbrev TAL_DIP (n : Nat) : Nat := 0x1006124 + 0x40 * n
def TAL_DIP_V (n : Nat) : Fld := ⟨(TAL_DIP n), 23, 0⟩
abbrev TAL_SWL (n : Nat) : Nat := 0x1006128 + 0x40 * n
def TAL_SWL_V (n : Nat) : Fld := ⟨(TAL_SWL n), 23, 0⟩
abbrev TAL_INTR (n : Nat) : Nat := 0x100612c + 0x40 * n
def TAL_INTR_V (n : Nat) : Fld := ⟨(TAL_INTR n), 23, 0⟩
abbrev TAL_FSTAT (n : Nat) : Nat := 0x1006120 + 0x40 * n
def TAL_FSTAT_NPEND (n : Nat) : Fld := ⟨(TAL_FSTAT n), 10, 8⟩
def TAL_FSTAT_FWH (n : Nat) : Fld := ⟨(TAL_FSTAT n), 3, 3⟩
def TAL_FSTAT_INVAL (n : Nat) : Fld := ⟨(TAL_FSTAT n), 2, 2⟩
def TAL_FSTAT_SUBST (n : Nat) : Fld := ⟨(TAL_FSTAT n), 1, 1⟩
def TAL_FSTAT_CFGD (n : Nat) : Fld := ⟨(TAL_FSTAT n), 0, 0⟩
abbrev TAL_HCCTL (n : Nat) : Nat := 0x1006130 + 0x40 * n
def TAL_HCCTL_HOPEN (n : Nat) : Fld := ⟨(TAL_HCCTL n), 0, 0⟩
abbrev TAL_HCSTAT (n : Nat) : Nat := 0x1006134 + 0x40 * n
def TAL_HCSTAT_EV0 (n : Nat) : Fld := ⟨(TAL_HCSTAT n), 18, 16⟩
def TAL_HCSTAT_EV1 (n : Nat) : Fld := ⟨(TAL_HCSTAT n), 22, 20⟩
def TAL_HCSTAT_EV2 (n : Nat) : Fld := ⟨(TAL_HCSTAT n), 26, 24⟩
def TAL_HCSTAT_EV3 (n : Nat) : Fld := ⟨(TAL_HCSTAT n), 30, 28⟩
def TAL_HCSTAT_ST0 (n : Nat) : Fld := ⟨(TAL_HCSTAT n), 2, 0⟩
def TAL_HCSTAT_ST1 (n : Nat) : Fld := ⟨(TAL_HCSTAT n), 6, 4⟩
def TAL_HCSTAT_ST2 (n : Nat) : Fld := ⟨(TAL_HCSTAT n), 10, 8⟩
def TAL_HCSTAT_ST3 (n : Nat) : Fld := ⟨(TAL_HCSTAT n), 14, 12⟩
abbrev TAL_HRMS (n : Nat) : Nat := 0x1006600 + 0x4 * n
def TAL_HRMS_RMS (n : Nat) : Fld := ⟨(TAL_HRMS n), 31, 8⟩
def TAL_HRMS_INV (n : Nat) : Fld := ⟨(TAL_HRMS n), 7, 7⟩
def TAL_HRMS_HOLD (n : Nat) : Fld := ⟨(TAL_HRMS n), 6, 6⟩
def TAL_HRMS_FIX (n : Nat) : Fld := ⟨(TAL_HRMS n), 5, 5⟩
abbrev PLS_STAT : Nat := 0x1007000
def PLS_STAT_FAULT : Fld := ⟨PLS_STAT, 31, 16⟩
def PLS_STAT_HEDGE : Fld := ⟨PLS_STAT, 15, 0⟩
abbrev PLS_LEVEL : Nat := 0x1007004
def PLS_LEVEL_LEVEL : Fld := ⟨PLS_LEVEL, 15, 0⟩
abbrev PLS_SPARE (n : Nat) : Nat := 0x1007010 + 0x4 * n
def PLS_SPARE_EN (n : Nat) : Fld := ⟨(PLS_SPARE n), 31, 31⟩
def PLS_SPARE_SRC (n : Nat) : Fld := ⟨(PLS_SPARE n), 3, 0⟩
abbrev PLS_CFG (n : Nat) : Nat := 0x1007100 + 0x20 * n
def PLS_CFG_EN (n : Nat) : Fld := ⟨(PLS_CFG n), 31, 31⟩
def PLS_CFG_POL (n : Nat) : Fld := ⟨(PLS_CFG n), 30, 30⟩
def PLS_CFG_SCALE (n : Nat) : Fld := ⟨(PLS_CFG n), 29, 24⟩
def PLS_CFG_BIN (n : Nat) : Fld := ⟨(PLS_CFG n), 11, 0⟩
abbrev PLS_CONSTL (n : Nat) : Nat := 0x1007104 + 0x20 * n
def PLS_CONSTL_CONSTL (n : Nat) : Fld := ⟨(PLS_CONSTL n), 31, 0⟩
abbrev PLS_CONSTH (n : Nat) : Nat := 0x1007108 + 0x20 * n
def PLS_CONSTH_CONSTH (n : Nat) : Fld := ⟨(PLS_CONSTH n), 15, 0⟩
abbrev PLS_OSTAT (n : Nat) : Nat := 0x100710c + 0x20 * n
def PLS_OSTAT_PENDING (n : Nat) : Fld := ⟨(PLS_OSTAT n), 31, 16⟩
def PLS_OSTAT_RATE (n : Nat) : Fld := ⟨(PLS_OSTAT n), 15, 0⟩
abbrev PLS_COUNT (n : Nat) : Nat := 0x1007110 + 0x20 * n
def PLS_COUNT_COUNT (n : Nat) : Fld := ⟨(PLS_COUNT n), 31, 0⟩
abbrev THR_STAT : Nat := 0x1008000
def THR_STAT_POSTERR : Fld := ⟨THR_STAT, 5, 5⟩
def THR_STAT_SHED : Fld := ⟨THR_STAT, 4, 4⟩
def THR_STAT_FULL : Fld := ⟨THR_STAT, 3, 3⟩
def THR_STAT_ERR : Fld := ⟨THR_STAT, 2, 2⟩
def THR_STAT_DONE : Fld := ⟨THR_STAT, 1, 1⟩
def THR_STAT_BUSY : Fld := ⟨THR_STAT, 0, 0⟩
abbrev THR_POST : Nat := 0x1008004
def THR_POST_V : Fld := ⟨THR_POST, 31, 0⟩
abbrev THR_QSTAT : Nat := 0x1008008
def THR_QSTAT_JOBS : Fld := ⟨THR_QSTAT, 5, 0⟩
def THR_QSTAT_LANES : Fld := ⟨THR_QSTAT, 12, 8⟩
abbrev THR_CANCEL : Nat := 0x100800c
def THR_CANCEL_V : Fld := ⟨THR_CANCEL, 31, 0⟩
abbrev THR_REFUSED : Nat := 0x1008010
def THR_REFUSED_V : Fld := ⟨THR_REFUSED, 31, 0⟩
abbrev THR_SHED : Nat := 0x1008014
def THR_SHED_V : Fld := ⟨THR_SHED, 31, 0⟩
abbrev THR_LOAD : Nat := 0x1008018
def THR_LOAD_V : Fld := ⟨THR_LOAD, 13, 0⟩
abbrev THR_LANE (n : Nat) : Nat := 0x1008100 + 0x4 * n
def THR_LANE_BOUND (n : Nat) : Fld := ⟨(THR_LANE n), 31, 31⟩
def THR_LANE_CH (n : Nat) : Fld := ⟨(THR_LANE n), 29, 24⟩
def THR_LANE_DESC (n : Nat) : Fld := ⟨(THR_LANE n), 20, 5⟩
abbrev SIL_STAT : Nat := 0x1009000
def SIL_STAT_WF : Fld := ⟨SIL_STAT, 23, 16⟩
def SIL_STAT_FRZ : Fld := ⟨SIL_STAT, 15, 8⟩
def SIL_STAT_ARMERR : Fld := ⟨SIL_STAT, 1, 1⟩
def SIL_STAT_CFGERR : Fld := ⟨SIL_STAT, 0, 0⟩
abbrev SIL_CMD : Nat := 0x1009004
def SIL_CMD_OP : Fld := ⟨SIL_CMD, 31, 29⟩
def SIL_CMD_BUF : Fld := ⟨SIL_CMD, 2, 0⟩
abbrev SIL_CFG (n : Nat) : Nat := 0x1009100 + 0x80 * n
def SIL_CFG_KIND (n : Nat) : Fld := ⟨(SIL_CFG n), 30, 29⟩
def SIL_CFG_PACK (n : Nat) : Fld := ⟨(SIL_CFG n), 28, 28⟩
def SIL_CFG_FW (n : Nat) : Fld := ⟨(SIL_CFG n), 27, 26⟩
def SIL_CFG_LINK (n : Nat) : Fld := ⟨(SIL_CFG n), 23, 16⟩
abbrev SIL_SRCL (n : Nat) : Nat := 0x1009104 + 0x80 * n
def SIL_SRCL_V (n : Nat) : Fld := ⟨(SIL_SRCL n), 31, 0⟩
abbrev SIL_SRCH (n : Nat) : Nat := 0x1009108 + 0x80 * n
def SIL_SRCH_V (n : Nat) : Fld := ⟨(SIL_SRCH n), 15, 0⟩
abbrev SIL_BASE (n : Nat) : Nat := 0x100910c + 0x80 * n
def SIL_BASE_V (n : Nat) : Fld := ⟨(SIL_BASE n), 21, 6⟩
abbrev SIL_LEN (n : Nat) : Nat := 0x1009110 + 0x80 * n
def SIL_LEN_V (n : Nat) : Fld := ⟨(SIL_LEN n), 22, 0⟩
abbrev SIL_PRE (n : Nat) : Nat := 0x1009114 + 0x80 * n
def SIL_PRE_V (n : Nat) : Fld := ⟨(SIL_PRE n), 23, 0⟩
abbrev SIL_POST (n : Nat) : Nat := 0x1009118 + 0x80 * n
def SIL_POST_V (n : Nat) : Fld := ⟨(SIL_POST n), 23, 0⟩
abbrev SIL_WFCTL (n : Nat) : Nat := 0x1009144 + 0x80 * n
def SIL_WFCTL_WFEN (n : Nat) : Fld := ⟨(SIL_WFCTL n), 31, 31⟩
def SIL_WFCTL_SCAN (n : Nat) : Fld := ⟨(SIL_WFCTL n), 15, 0⟩
abbrev SIL_WFTHR (n : Nat) : Nat := 0x1009148 + 0x80 * n
def SIL_WFTHR_V (n : Nat) : Fld := ⟨(SIL_WFTHR n), 14, 0⟩
abbrev SIL_WFADDR (n : Nat) : Nat := 0x100914c + 0x80 * n
def SIL_WFADDR_V (n : Nat) : Fld := ⟨(SIL_WFADDR n), 31, 5⟩
abbrev SIL_BSTAT (n : Nat) : Nat := 0x100911c + 0x80 * n
def SIL_BSTAT_TRIGMISS (n : Nat) : Fld := ⟨(SIL_BSTAT n), 31, 24⟩
def SIL_BSTAT_RETRIG (n : Nat) : Fld := ⟨(SIL_BSTAT n), 23, 16⟩
def SIL_BSTAT_WFDONE (n : Nat) : Fld := ⟨(SIL_BSTAT n), 2, 2⟩
def SIL_BSTAT_STATE (n : Nat) : Fld := ⟨(SIL_BSTAT n), 1, 0⟩
abbrev SIL_WPTR (n : Nat) : Nat := 0x1009120 + 0x80 * n
def SIL_WPTR_V (n : Nat) : Fld := ⟨(SIL_WPTR n), 21, 0⟩
abbrev SIL_TRGPOS (n : Nat) : Nat := 0x1009124 + 0x80 * n
def SIL_TRGPOS_INST (n : Nat) : Fld := ⟨(SIL_TRGPOS n), 27, 22⟩
def SIL_TRGPOS_BLK (n : Nat) : Fld := ⟨(SIL_TRGPOS n), 21, 0⟩
abbrev SIL_PREACT (n : Nat) : Nat := 0x1009128 + 0x80 * n
def SIL_PREACT_V (n : Nat) : Fld := ⟨(SIL_PREACT n), 23, 0⟩
abbrev SIL_TRGSRC (n : Nat) : Nat := 0x100912c + 0x80 * n
def SIL_TRGSRC_CAUSE (n : Nat) : Fld := ⟨(SIL_TRGSRC n), 31, 30⟩
def SIL_TRGSRC_NUM (n : Nat) : Fld := ⟨(SIL_TRGSRC n), 9, 0⟩
abbrev SIL_TSW (n : Nat) (m : Nat) : Nat := 0x1009130 + 0x80 * n + 0x4 * m
def SIL_TSW_V (n : Nat) (m : Nat) : Fld := ⟨(SIL_TSW n m), 31, 0⟩
abbrev PLG_STAT : Nat := 0x100a000
def PLG_STAT_DBLEXC : Fld := ⟨PLG_STAT, 7, 7⟩
def PLG_STAT_NOSWAP : Fld := ⟨PLG_STAT, 6, 6⟩
def PLG_STAT_SWAP : Fld := ⟨PLG_STAT, 5, 5⟩
def PLG_STAT_EXPIRE : Fld := ⟨PLG_STAT, 4, 4⟩
def PLG_STAT_EXC : Fld := ⟨PLG_STAT, 3, 3⟩
def PLG_STAT_SHED : Fld := ⟨PLG_STAT, 2, 2⟩
def PLG_STAT_CFGERR : Fld := ⟨PLG_STAT, 1, 1⟩
abbrev PLG_MAP : Nat := 0x100a004
def PLG_MAP_V : Fld := ⟨PLG_MAP, 19, 0⟩
abbrev PLG_CMD : Nat := 0x100a008
def PLG_CMD_OP : Fld := ⟨PLG_CMD, 31, 29⟩
def PLG_CMD_L : Fld := ⟨PLG_CMD, 2, 0⟩
abbrev PLG_START : Nat := 0x100a00c
def PLG_START_GO : Fld := ⟨PLG_START, 31, 31⟩
def PLG_START_L : Fld := ⟨PLG_START, 18, 16⟩
def PLG_START_V : Fld := ⟨PLG_START, 3, 0⟩
def PLG_START_RES : Fld := ⟨PLG_START, 1, 0⟩
abbrev PLG_AGE : Nat := 0x100a010
def PLG_AGE_V : Fld := ⟨PLG_AGE, 31, 0⟩
abbrev PLG_SHED : Nat := 0x100a014
def PLG_SHED_V : Fld := ⟨PLG_SHED, 31, 0⟩
abbrev PLG_OVSTAT : Nat := 0x100a018
def PLG_OVSTAT_V : Fld := ⟨PLG_OVSTAT, 4, 0⟩
abbrev PLG_ECC : Nat := 0x100a01c
def PLG_ECC_DBL : Fld := ⟨PLG_ECC, 31, 16⟩
def PLG_ECC_SGL : Fld := ⟨PLG_ECC, 15, 0⟩
abbrev PLG_EXC (n : Nat) : Nat := 0x100a020 + 0x8 * n
def PLG_EXC_V (n : Nat) : Fld := ⟨(PLG_EXC n), 31, 0⟩
abbrev PLG_EXCC (n : Nat) : Nat := 0x100a024 + 0x8 * n
def PLG_EXCC_HAND (n : Nat) : Fld := ⟨(PLG_EXCC n), 11, 8⟩
def PLG_EXCC_CAUSE (n : Nat) : Fld := ⟨(PLG_EXCC n), 7, 0⟩
abbrev PLG_QSTAT (n : Nat) : Nat := 0x100a040 + 0x4 * n
def PLG_QSTAT_V15 (n : Nat) : Fld := ⟨(PLG_QSTAT n), 8, 8⟩
def PLG_QSTAT_CNT (n : Nat) : Fld := ⟨(PLG_QSTAT n), 3, 0⟩
abbrev PLG_PSTAT (n : Nat) : Nat := 0x100a060 + 0x4 * n
def PLG_PSTAT_PASS (n : Nat) : Fld := ⟨(PLG_PSTAT n), 31, 31⟩
def PLG_PSTAT_LOG (n : Nat) : Fld := ⟨(PLG_PSTAT n), 6, 4⟩
def PLG_PSTAT_STATE (n : Nat) : Fld := ⟨(PLG_PSTAT n), 2, 0⟩
abbrev PLG_SCTO (n : Nat) : Nat := 0x100a080 + 0x4 * n
def PLG_SCTO_EXP (n : Nat) : Fld := ⟨(PLG_SCTO n), 17, 16⟩
def PLG_SCTO_TMO (n : Nat) : Fld := ⟨(PLG_SCTO n), 9, 0⟩
abbrev PLG_KICK (n : Nat) : Nat := 0x100a090 + 0x4 * n
def PLG_KICK_V (n : Nat) : Fld := ⟨(PLG_KICK n), 15, 0⟩
abbrev PLG_SVEC (n : Nat) : Nat := 0x100a100 + 0x4 * n
def PLG_SVEC_ADDR (n : Nat) : Fld := ⟨(PLG_SVEC n), 31, 2⟩
def PLG_SVEC_SUIT (n : Nat) : Fld := ⟨(PLG_SVEC n), 1, 0⟩
abbrev HOP_STAT : Nat := 0x100b000
def HOP_STAT_CFGERR : Fld := ⟨HOP_STAT, 1, 1⟩
def HOP_STAT_DROP : Fld := ⟨HOP_STAT, 0, 0⟩
abbrev HOP_QCFG (n : Nat) : Nat := 0x100b010 + 0x4 * n
def HOP_QCFG_COUNT (n : Nat) : Fld := ⟨(HOP_QCFG n), 27, 16⟩
def HOP_QCFG_QUOTA (n : Nat) : Fld := ⟨(HOP_QCFG n), 11, 0⟩
abbrev HOP_DROP (n : Nat) : Nat := 0x100b020 + 0x4 * n
def HOP_DROP_V (n : Nat) : Fld := ⟨(HOP_DROP n), 31, 0⟩
abbrev HOP_ROUTE (n : Nat) : Nat := 0x100b040 + 0x4 * n
def HOP_ROUTE_FW (n : Nat) : Fld := ⟨(HOP_ROUTE n), 9, 8⟩
def HOP_ROUTE_L (n : Nat) : Fld := ⟨(HOP_ROUTE n), 5, 4⟩
def HOP_ROUTE_SUIT (n : Nat) : Fld := ⟨(HOP_ROUTE n), 1, 0⟩
abbrev GLN_CTL : Nat := 0x1015000
def GLN_CTL_EN : Fld := ⟨GLN_CTL, 31, 31⟩
def GLN_CTL_FW : Fld := ⟨GLN_CTL, 29, 28⟩
def GLN_CTL_NREG : Fld := ⟨GLN_CTL, 27, 24⟩
def GLN_CTL_NINJ : Fld := ⟨GLN_CTL, 21, 20⟩
def GLN_CTL_RPER : Fld := ⟨GLN_CTL, 15, 0⟩
abbrev GLN_DLY : Nat := 0x1015004
def GLN_DLY_V : Fld := ⟨GLN_DLY, 15, 0⟩
abbrev GLN_STAT : Nat := 0x1015008
def GLN_STAT_CFGERR : Fld := ⟨GLN_STAT, 4, 4⟩
def GLN_STAT_INJLOST : Fld := ⟨GLN_STAT, 3, 3⟩
def GLN_STAT_RSKIP : Fld := ⟨GLN_STAT, 2, 2⟩
def GLN_STAT_TRIP : Fld := ⟨GLN_STAT, 1, 1⟩
def GLN_STAT_BUSY : Fld := ⟨GLN_STAT, 0, 0⟩
abbrev GLN_CMD : Nat := 0x101500c
def GLN_CMD_V : Fld := ⟨GLN_CMD, 1, 0⟩
abbrev GLN_INJLOST : Nat := 0x1015010
def GLN_INJLOST_V : Fld := ⟨GLN_INJLOST, 31, 0⟩
abbrev GLN_RSEQ (n : Nat) : Nat := 0x1015040 + 0x4 * n
def GLN_RSEQ_HOP (n : Nat) : Fld := ⟨(GLN_RSEQ n), 7, 7⟩
def GLN_RSEQ_CODE (n : Nat) : Fld := ⟨(GLN_RSEQ n), 5, 0⟩
abbrev GLN_ISEQ (n : Nat) : Nat := 0x1015080 + 0x4 * n
def GLN_ISEQ_HOP (n : Nat) : Fld := ⟨(GLN_ISEQ n), 7, 7⟩
def GLN_ISEQ_CODE (n : Nat) : Fld := ⟨(GLN_ISEQ n), 5, 0⟩
abbrev GLN_RRES (n : Nat) : Nat := 0x10150c0 + 0x4 * n
def GLN_RRES_CNT (n : Nat) : Fld := ⟨(GLN_RRES n), 31, 16⟩
def GLN_RRES_RES (n : Nat) : Fld := ⟨(GLN_RRES n), 11, 0⟩
abbrev GLN_IRES (n : Nat) : Nat := 0x1015100 + 0x4 * n
def GLN_IRES_CNT (n : Nat) : Fld := ⟨(GLN_IRES n), 31, 16⟩
def GLN_IRES_RES (n : Nat) : Fld := ⟨(GLN_IRES n), 11, 0⟩
abbrev GLN_WCTL (n : Nat) : Nat := 0x1015140 + 0x10 * n
def GLN_WCTL_EN (n : Nat) : Fld := ⟨(GLN_WCTL n), 31, 31⟩
def GLN_WCTL_IRQ (n : Nat) : Fld := ⟨(GLN_WCTL n), 30, 30⟩
def GLN_WCTL_CODE (n : Nat) : Fld := ⟨(GLN_WCTL n), 21, 16⟩
def GLN_WCTL_N (n : Nat) : Fld := ⟨(GLN_WCTL n), 7, 0⟩
abbrev GLN_WBAND (n : Nat) : Nat := 0x1015144 + 0x10 * n
def GLN_WBAND_HI (n : Nat) : Fld := ⟨(GLN_WBAND n), 27, 16⟩
def GLN_WBAND_LO (n : Nat) : Fld := ⟨(GLN_WBAND n), 11, 0⟩
abbrev GLN_WHYS (n : Nat) : Nat := 0x1015148 + 0x10 * n
def GLN_WHYS_HYS (n : Nat) : Fld := ⟨(GLN_WHYS n), 11, 0⟩
abbrev GLN_WSTAT (n : Nat) : Nat := 0x101514c + 0x10 * n
def GLN_WSTAT_TRIPS (n : Nat) : Fld := ⟨(GLN_WSTAT n), 31, 24⟩
def GLN_WSTAT_STATE (n : Nat) : Fld := ⟨(GLN_WSTAT n), 1, 1⟩
def GLN_WSTAT_TRIP (n : Nat) : Fld := ⟨(GLN_WSTAT n), 0, 0⟩
abbrev NVM_CTL : Nat := 0x100d000
def NVM_CTL_CRIBPER : Fld := ⟨NVM_CTL, 15, 8⟩
def NVM_CTL_PER : Fld := ⟨NVM_CTL, 7, 0⟩
abbrev NVM_CMD : Nat := 0x100d004
def NVM_CMD_V : Fld := ⟨NVM_CMD, 2, 0⟩
abbrev NVM_STAT : Nat := 0x100d008
def NVM_STAT_NOREPAIR : Fld := ⟨NVM_STAT, 9, 9⟩
def NVM_STAT_TAKEOVER : Fld := ⟨NVM_STAT, 8, 8⟩
def NVM_STAT_REMAP : Fld := ⟨NVM_STAT, 7, 7⟩
def NVM_STAT_DBL : Fld := ⟨NVM_STAT, 6, 6⟩
def NVM_STAT_PFC : Fld := ⟨NVM_STAT, 5, 5⟩
def NVM_STAT_REFUSED : Fld := ⟨NVM_STAT, 4, 4⟩
def NVM_STAT_DONE : Fld := ⟨NVM_STAT, 3, 3⟩
def NVM_STAT_PFHOLD : Fld := ⟨NVM_STAT, 2, 2⟩
def NVM_STAT_CRIBBUSY : Fld := ⟨NVM_STAT, 1, 1⟩
def NVM_STAT_BUSY : Fld := ⟨NVM_STAT, 0, 0⟩
abbrev NVM_PROT : Nat := 0x100d00c
def NVM_PROT_LOCK : Fld := ⟨NVM_PROT, 31, 31⟩
def NVM_PROT_BPC : Fld := ⟨NVM_PROT, 3, 2⟩
def NVM_PROT_BPB : Fld := ⟨NVM_PROT, 1, 0⟩
abbrev NVM_WCTL : Nat := 0x100d010
def NVM_WCTL_ARRAY : Fld := ⟨NVM_WCTL, 31, 31⟩
def NVM_WCTL_MASK : Fld := ⟨NVM_WCTL, 7, 0⟩
abbrev NVM_WADDR : Nat := 0x100d014
def NVM_WADDR_V : Fld := ⟨NVM_WADDR, 21, 3⟩
abbrev NVM_WDL : Nat := 0x100d018
def NVM_WDL_V : Fld := ⟨NVM_WDL, 31, 0⟩
abbrev NVM_WDH : Nat := 0x100d01c
def NVM_WDH_V : Fld := ⟨NVM_WDH, 31, 0⟩
abbrev NVM_WRES : Nat := 0x100d020
def NVM_WRES_V : Fld := ⟨NVM_WRES, 2, 0⟩
abbrev NVM_BUF : Nat := 0x100d024
def NVM_BUF_SEALED : Fld := ⟨NVM_BUF, 26, 16⟩
def NVM_BUF_USED : Fld := ⟨NVM_BUF, 10, 0⟩
abbrev NVM_CNUM : Nat := 0x100d028
def NVM_CNUM_V : Fld := ⟨NVM_CNUM, 31, 0⟩
abbrev NVM_CTIME : Nat := 0x100d02c
def NVM_CTIME_PF : Fld := ⟨NVM_CTIME, 31, 16⟩
def NVM_CTIME_LAST : Fld := ⟨NVM_CTIME, 15, 0⟩
abbrev NVM_ECC : Nat := 0x100d030
def NVM_ECC_DBL : Fld := ⟨NVM_ECC, 31, 16⟩
def NVM_ECC_SGL : Fld := ⟨NVM_ECC, 15, 0⟩
abbrev NVM_DROP : Nat := 0x100d034
def NVM_DROP_V : Fld := ⟨NVM_DROP, 31, 0⟩
abbrev NVM_CRIBLOST : Nat := 0x100d038
def NVM_CRIBLOST_V : Fld := ⟨NVM_CRIBLOST, 31, 0⟩
abbrev NVM_BOOT : Nat := 0x100d03c
def NVM_BOOT_V : Fld := ⟨NVM_BOOT, 2, 0⟩
abbrev NVM_SPARE (n : Nat) : Nat := 0x100d040 + 0x4 * n
def NVM_SPARE_TAKE (n : Nat) : Fld := ⟨(NVM_SPARE n), 25, 16⟩
def NVM_SPARE_USED (n : Nat) : Fld := ⟨(NVM_SPARE n), 5, 0⟩
abbrev RTC_TBCTL : Nat := 0x100e000
def RTC_TBCTL_DISC : Fld := ⟨RTC_TBCTL, 31, 31⟩
def RTC_TBCTL_EDGE : Fld := ⟨RTC_TBCTL, 30, 30⟩
def RTC_TBCTL_FOLLOW : Fld := ⟨RTC_TBCTL, 29, 29⟩
def RTC_TBCTL_PPSOFS : Fld := ⟨RTC_TBCTL, 15, 0⟩
abbrev RTC_TBSTAT : Nat := 0x100e004
def RTC_TBSTAT_OUTCNT : Fld := ⟨RTC_TBSTAT, 31, 24⟩
def RTC_TBSTAT_FLAGS : Fld := ⟨RTC_TBSTAT, 19, 16⟩
def RTC_TBSTAT_EPOCH : Fld := ⟨RTC_TBSTAT, 11, 8⟩
def RTC_TBSTAT_TIMEVALID : Fld := ⟨RTC_TBSTAT, 5, 5⟩
def RTC_TBSTAT_RANGE : Fld := ⟨RTC_TBSTAT, 4, 4⟩
def RTC_TBSTAT_STATE : Fld := ⟨RTC_TBSTAT, 2, 0⟩
abbrev RTC_PPSERR : Nat := 0x100e008
def RTC_PPSERR_V : Fld := ⟨RTC_PPSERR, 31, 0⟩
abbrev RTC_TB0TRIM : Nat := 0x100e00c
def RTC_TB0TRIM_V : Fld := ⟨RTC_TB0TRIM, 17, 0⟩
abbrev RTC_TB0FTRIM : Nat := 0x100e010
def RTC_TB0FTRIM_V : Fld := ⟨RTC_TB0FTRIM, 17, 0⟩
abbrev RTC_TB1TRIM : Nat := 0x100e014
def RTC_TB1TRIM_V : Fld := ⟨RTC_TB1TRIM, 17, 0⟩
abbrev RTC_TB0SETL : Nat := 0x100e018
def RTC_TB0SETL_V : Fld := ⟨RTC_TB0SETL, 31, 0⟩
abbrev RTC_TB0SETH : Nat := 0x100e01c
def RTC_TB0SETH_V : Fld := ⟨RTC_TB0SETH, 1, 0⟩
abbrev RTC_TB0SETN : Nat := 0x100e020
def RTC_TB0SETN_V : Fld := ⟨RTC_TB0SETN, 29, 0⟩
abbrev RTC_TB0CMD : Nat := 0x100e024
def RTC_TB0CMD_OP : Fld := ⟨RTC_TB0CMD, 1, 0⟩
abbrev RTC_TB1DIFF : Nat := 0x100e028
def RTC_TB1DIFF_TB1 : Fld := ⟨RTC_TB1DIFF, 31, 0⟩
abbrev RTC_XMEAS : Nat := 0x100e02c
def RTC_XMEAS_VALID : Fld := ⟨RTC_XMEAS, 31, 31⟩
def RTC_XMEAS_ERR : Fld := ⟨RTC_XMEAS, 15, 0⟩
abbrev RTC_CTL : Nat := 0x100e100
def RTC_CTL_XTRIM : Fld := ⟨RTC_CTL, 5, 0⟩
abbrev RTC_STAT : Nat := 0x100e104
def RTC_STAT_HEDGE : Fld := ⟨RTC_STAT, 7, 7⟩
def RTC_STAT_RESYNC : Fld := ⟨RTC_STAT, 6, 6⟩
def RTC_STAT_SHIFTBUSY : Fld := ⟨RTC_STAT, 5, 5⟩
def RTC_STAT_ALM1 : Fld := ⟨RTC_STAT, 4, 4⟩
def RTC_STAT_ALM0 : Fld := ⟨RTC_STAT, 3, 3⟩
def RTC_STAT_BADWR : Fld := ⟨RTC_STAT, 2, 2⟩
def RTC_STAT_RANGE : Fld := ⟨RTC_STAT, 1, 1⟩
def RTC_STAT_OSF : Fld := ⟨RTC_STAT, 0, 0⟩
abbrev RTC_BADWR_CNT : Nat := 0x100e108
def RTC_BADWR_CNT_V : Fld := ⟨RTC_BADWR_CNT, 15, 0⟩
abbrev RTC_SHIFT : Nat := 0x100e10c
def RTC_SHIFT_V : Fld := ⟨RTC_SHIFT, 17, 0⟩
abbrev RTC_SUBSEC : Nat := 0x100e110
def RTC_SUBSEC_V : Fld := ⟨RTC_SUBSEC, 14, 0⟩
abbrev RTC_UTIME : Nat := 0x100e114
def RTC_UTIME_H : Fld := ⟨RTC_UTIME, 20, 16⟩
def RTC_UTIME_M : Fld := ⟨RTC_UTIME, 13, 8⟩
def RTC_UTIME_S : Fld := ⟨RTC_UTIME, 5, 0⟩
abbrev RTC_UDATE : Nat := 0x100e118
def RTC_UDATE_WD : Fld := ⟨RTC_UDATE, 14, 12⟩
def RTC_UDATE_MON : Fld := ⟨RTC_UDATE, 11, 8⟩
def RTC_UDATE_D : Fld := ⟨RTC_UDATE, 4, 0⟩
abbrev RTC_LTIME : Nat := 0x100e11c
def RTC_LTIME_FOLD : Fld := ⟨RTC_LTIME, 31, 31⟩
def RTC_LTIME_H : Fld := ⟨RTC_LTIME, 20, 16⟩
def RTC_LTIME_M : Fld := ⟨RTC_LTIME, 13, 8⟩
def RTC_LTIME_S : Fld := ⟨RTC_LTIME, 5, 0⟩
abbrev RTC_LDATE : Nat := 0x100e120
def RTC_LDATE_WD : Fld := ⟨RTC_LDATE, 14, 12⟩
def RTC_LDATE_MON : Fld := ⟨RTC_LDATE, 11, 8⟩
def RTC_LDATE_D : Fld := ⟨RTC_LDATE, 4, 0⟩
abbrev RTC_YEAR : Nat := 0x100e124
def RTC_YEAR_LY : Fld := ⟨RTC_YEAR, 27, 16⟩
def RTC_YEAR_UY : Fld := ⟨RTC_YEAR, 11, 0⟩
abbrev RTC_LOCAL : Nat := 0x100e128
def RTC_LOCAL_DST : Fld := ⟨RTC_LOCAL, 8, 8⟩
def RTC_LOCAL_OFS : Fld := ⟨RTC_LOCAL, 6, 0⟩
abbrev RTC_DSTCMD : Nat := 0x100e12c
def RTC_DSTCMD_V : Fld := ⟨RTC_DSTCMD, 1, 0⟩
abbrev RTC_LEAP : Nat := 0x100e130
def RTC_LEAP_PEND : Fld := ⟨RTC_LEAP, 9, 8⟩
def RTC_LEAP_LS : Fld := ⟨RTC_LEAP, 7, 0⟩
abbrev RTC_WTIME : Nat := 0x100e134
def RTC_WTIME_H : Fld := ⟨RTC_WTIME, 20, 16⟩
def RTC_WTIME_M : Fld := ⟨RTC_WTIME, 13, 8⟩
def RTC_WTIME_S : Fld := ⟨RTC_WTIME, 5, 0⟩
abbrev RTC_WDATE : Nat := 0x100e138
def RTC_WDATE_Y : Fld := ⟨RTC_WDATE, 27, 16⟩
def RTC_WDATE_MON : Fld := ⟨RTC_WDATE, 11, 8⟩
def RTC_WDATE_D : Fld := ⟨RTC_WDATE, 4, 0⟩
abbrev RTC_WCMD : Nat := 0x100e13c
def RTC_WCMD_GO : Fld := ⟨RTC_WCMD, 31, 31⟩
def RTC_WCMD_LOCAL : Fld := ⟨RTC_WCMD, 1, 1⟩
def RTC_WCMD_FOLD : Fld := ⟨RTC_WCMD, 0, 0⟩
abbrev RTC_ALMT (n : Nat) : Nat := 0x100e140 + 0x10 * n
def RTC_ALMT_H (n : Nat) : Fld := ⟨(RTC_ALMT n), 20, 16⟩
def RTC_ALMT_M (n : Nat) : Fld := ⟨(RTC_ALMT n), 13, 8⟩
def RTC_ALMT_S (n : Nat) : Fld := ⟨(RTC_ALMT n), 5, 0⟩
abbrev RTC_ALMD (n : Nat) : Nat := 0x100e144 + 0x10 * n
def RTC_ALMD_Y (n : Nat) : Fld := ⟨(RTC_ALMD n), 27, 16⟩
def RTC_ALMD_WD (n : Nat) : Fld := ⟨(RTC_ALMD n), 14, 12⟩
def RTC_ALMD_MON (n : Nat) : Fld := ⟨(RTC_ALMD n), 11, 8⟩
def RTC_ALMD_D (n : Nat) : Fld := ⟨(RTC_ALMD n), 4, 0⟩
abbrev RTC_ALMCTL (n : Nat) : Nat := 0x100e148 + 0x10 * n
def RTC_ALMCTL_EN (n : Nat) : Fld := ⟨(RTC_ALMCTL n), 31, 24⟩
def RTC_ALMCTL_MASK (n : Nat) : Fld := ⟨(RTC_ALMCTL n), 6, 0⟩
abbrev BKP_STAT : Nat := 0x100e160
def BKP_STAT_SWCNT : Fld := ⟨BKP_STAT, 31, 16⟩
def BKP_STAT_RAMOK : Fld := ⟨BKP_STAT, 2, 2⟩
def BKP_STAT_BRST : Fld := ⟨BKP_STAT, 1, 1⟩
def BKP_STAT_CELL_LOW : Fld := ⟨BKP_STAT, 0, 0⟩
abbrev BKP_MISSED : Nat := 0x100e164
def BKP_MISSED_V : Fld := ⟨BKP_MISSED, 3, 0⟩
abbrev BKP_ONBAT : Nat := 0x100e168
def BKP_ONBAT_V : Fld := ⟨BKP_ONBAT, 31, 0⟩
abbrev BKP_RAM (n : Nat) : Nat := 0x100e180 + 0x4 * n
def BKP_RAM_V (n : Nat) : Fld := ⟨(BKP_RAM n), 31, 0⟩
abbrev BKP_RAMCHK : Nat := 0x100e1c0
def BKP_RAMCHK_V : Fld := ⟨BKP_RAMCHK, 15, 0⟩
abbrev BAL_CTL : Nat := 0x100f000
def BAL_CTL_EVRING : Fld := ⟨BAL_CTL, 1, 1⟩
def BAL_CTL_EVEN : Fld := ⟨BAL_CTL, 0, 0⟩
abbrev BAL_PLOT : Nat := 0x100f004
def BAL_PLOT_POSVALID : Fld := ⟨BAL_PLOT, 31, 31⟩
def BAL_PLOT_POSCONF : Fld := ⟨BAL_PLOT, 30, 30⟩
def BAL_PLOT_OVER : Fld := ⟨BAL_PLOT, 29, 29⟩
def BAL_PLOT_CHAIN : Fld := ⟨BAL_PLOT, 13, 6⟩
def BAL_PLOT_POS : Fld := ⟨BAL_PLOT, 5, 0⟩
abbrev BAL_LSTAT (n : Nat) : Nat := 0x100f010 + 0x4 * n
def BAL_LSTAT_NBV (n : Nat) : Fld := ⟨(BAL_LSTAT n), 23, 23⟩
def BAL_LSTAT_NB (n : Nat) : Fld := ⟨(BAL_LSTAT n), 21, 16⟩
def BAL_LSTAT_WENTDOWN (n : Nat) : Fld := ⟨(BAL_LSTAT n), 8, 8⟩
def BAL_LSTAT_STATE (n : Nat) : Fld := ⟨(BAL_LSTAT n), 1, 0⟩
abbrev BAL_ERR (n : Nat) : Nat := 0x100f020 + 0x8 * n
def BAL_ERR_CRC (n : Nat) : Fld := ⟨(BAL_ERR n), 31, 16⟩
def BAL_ERR_VIOL (n : Nat) : Fld := ⟨(BAL_ERR n), 15, 0⟩
abbrev BAL_DROP (n : Nat) : Nat := 0x100f024 + 0x8 * n
def BAL_DROP_V (n : Nat) : Fld := ⟨(BAL_DROP n), 31, 0⟩
abbrev BAL_SLOT : Nat := 0x100f030
def BAL_SLOT_MAX : Fld := ⟨BAL_SLOT, 22, 16⟩
def BAL_SLOT_USED : Fld := ⟨BAL_SLOT, 6, 0⟩
abbrev BAL_NAKCNT : Nat := 0x100f034
def BAL_NAKCNT_V : Fld := ⟨BAL_NAKCNT, 31, 0⟩
abbrev BAL_RETRYCNT : Nat := 0x100f038
def BAL_RETRYCNT_EVFAIL : Fld := ⟨BAL_RETRYCNT, 31, 16⟩
def BAL_RETRYCNT_RETRY : Fld := ⟨BAL_RETRYCNT, 15, 0⟩
abbrev BAL_SYNCCTL : Nat := 0x100f040
def BAL_SYNCCTL_BCST : Fld := ⟨BAL_SYNCCTL, 31, 31⟩
def BAL_SYNCCTL_ADOPT : Fld := ⟨BAL_SYNCCTL, 30, 30⟩
def BAL_SYNCCTL_HOST : Fld := ⟨BAL_SYNCCTL, 29, 29⟩
def BAL_SYNCCTL_RATE : Fld := ⟨BAL_SYNCCTL, 23, 16⟩
def BAL_SYNCCTL_RPOS : Fld := ⟨BAL_SYNCCTL, 5, 0⟩
abbrev BAL_SYNCSTAT : Nat := 0x100f044
def BAL_SYNCSTAT_CNT : Fld := ⟨BAL_SYNCSTAT, 31, 16⟩
def BAL_SYNCSTAT_STEP : Fld := ⟨BAL_SYNCSTAT, 1, 1⟩
def BAL_SYNCSTAT_VALID : Fld := ⟨BAL_SYNCSTAT, 0, 0⟩
abbrev BAL_SYNCERR : Nat := 0x100f048
def BAL_SYNCERR_V : Fld := ⟨BAL_SYNCERR, 31, 0⟩
abbrev BAL_HOPDLY (n : Nat) : Nat := 0x100f050 + 0x4 * n
def BAL_HOPDLY_V (n : Nat) : Fld := ⟨(BAL_HOPDLY n), 15, 0⟩
abbrev DEAL_STAT : Nat := 0x101a000
def DEAL_STAT_ENTRIES : Fld := ⟨DEAL_STAT, 25, 16⟩
def DEAL_STAT_SEEDIGN : Fld := ⟨DEAL_STAT, 14, 14⟩
def DEAL_STAT_AUTHFAIL : Fld := ⟨DEAL_STAT, 13, 13⟩
def DEAL_STAT_LATEFAIL : Fld := ⟨DEAL_STAT, 12, 12⟩
def DEAL_STAT_TMOFOLD : Fld := ⟨DEAL_STAT, 11, 11⟩
def DEAL_STAT_APPLIED : Fld := ⟨DEAL_STAT, 10, 10⟩
def DEAL_STAT_SEED : Fld := ⟨DEAL_STAT, 9, 9⟩
def DEAL_STAT_AUTH : Fld := ⟨DEAL_STAT, 8, 8⟩
def DEAL_STAT_OWNER : Fld := ⟨DEAL_STAT, 7, 4⟩
def DEAL_STAT_STATE : Fld := ⟨DEAL_STAT, 1, 0⟩
abbrev DEAL_TMO : Nat := 0x101a004
def DEAL_TMO_V : Fld := ⟨DEAL_TMO, 7, 0⟩
abbrev DEAL_RES : Nat := 0x101a008
def DEAL_RES_OUT : Fld := ⟨DEAL_RES, 31, 28⟩
def DEAL_RES_IDX : Fld := ⟨DEAL_RES, 24, 16⟩
abbrev DEAL_ANONCE : Nat := 0x101a00c
def DEAL_ANONCE_V : Fld := ⟨DEAL_ANONCE, 31, 0⟩
abbrev DEAL_UIDL : Nat := 0x101a010
def DEAL_UIDL_V : Fld := ⟨DEAL_UIDL, 31, 0⟩
abbrev DEAL_UIDH : Nat := 0x101a014
def DEAL_UIDH_V : Fld := ⟨DEAL_UIDH, 31, 0⟩
abbrev DEAL_DWR : Nat := 0x101a018
def DEAL_DWR_COUNT : Fld := ⟨DEAL_DWR, 31, 16⟩
def DEAL_DWR_ORIG : Fld := ⟨DEAL_DWR, 3, 0⟩
abbrev DEAL_DWRADDR : Nat := 0x101a01c
def DEAL_DWRADDR_V : Fld := ⟨DEAL_DWRADDR, 31, 0⟩
abbrev DEAL_APPCNT : Nat := 0x101a020
def DEAL_APPCNT_V : Fld := ⟨DEAL_APPCNT, 31, 0⟩
abbrev DEAL_ATS (n : Nat) : Nat := 0x101a040 + 0x4 * n
def DEAL_ATS_V (n : Nat) : Fld := ⟨(DEAL_ATS n), 31, 0⟩
abbrev DUO_CTL : Nat := 0x1014000
def DUO_CTL_EN : Fld := ⟨DUO_CTL, 31, 31⟩
def DUO_CTL_ROLE : Fld := ⟨DUO_CTL, 30, 30⟩
def DUO_CTL_FW : Fld := ⟨DUO_CTL, 29, 28⟩
def DUO_CTL_BCNREC : Fld := ⟨DUO_CTL, 27, 27⟩
def DUO_CTL_DOMAIN : Fld := ⟨DUO_CTL, 15, 0⟩
abbrev DUO_STAT : Nat := 0x1014004
def DUO_STAT_NODE : Fld := ⟨DUO_STAT, 31, 24⟩
def DUO_STAT_LINK : Fld := ⟨DUO_STAT, 21, 20⟩
def DUO_STAT_TXENF : Fld := ⟨DUO_STAT, 11, 11⟩
def DUO_STAT_HEDGE : Fld := ⟨DUO_STAT, 10, 10⟩
def DUO_STAT_RXDROP : Fld := ⟨DUO_STAT, 9, 9⟩
def DUO_STAT_TXFAIL : Fld := ⟨DUO_STAT, 8, 8⟩
def DUO_STAT_TXDONE : Fld := ⟨DUO_STAT, 7, 7⟩
def DUO_STAT_RXDONE : Fld := ⟨DUO_STAT, 6, 6⟩
def DUO_STAT_BCNMISS : Fld := ⟨DUO_STAT, 5, 5⟩
def DUO_STAT_LINKCHG : Fld := ⟨DUO_STAT, 4, 4⟩
def DUO_STAT_DUTYHOLD : Fld := ⟨DUO_STAT, 3, 3⟩
def DUO_STAT_TXON : Fld := ⟨DUO_STAT, 0, 0⟩
abbrev DUO_TXCTL : Nat := 0x1014008
def DUO_TXCTL_V : Fld := ⟨DUO_TXCTL, 5, 0⟩
abbrev DUO_TXPOST : Nat := 0x101400c
def DUO_TXPOST_ADDR : Fld := ⟨DUO_TXPOST, 31, 4⟩
def DUO_TXPOST_RES : Fld := ⟨DUO_TXPOST, 1, 0⟩
abbrev DUO_TXQ : Nat := 0x1014010
def DUO_TXQ_V : Fld := ⟨DUO_TXQ, 3, 0⟩
abbrev DUO_RXBASE : Nat := 0x1014014
def DUO_RXBASE_V : Fld := ⟨DUO_RXBASE, 20, 5⟩
abbrev DUO_RXLEN : Nat := 0x1014018
def DUO_RXLEN_V : Fld := ⟨DUO_RXLEN, 20, 5⟩
abbrev DUO_RXWPTR : Nat := 0x101401c
def DUO_RXWPTR_V : Fld := ⟨DUO_RXWPTR, 20, 5⟩
abbrev DUO_RXRPTR : Nat := 0x1014020
def DUO_RXRPTR_V : Fld := ⟨DUO_RXRPTR, 20, 5⟩
abbrev DUO_IMPCTL : Nat := 0x1014024
def DUO_IMPCTL_V : Fld := ⟨DUO_IMPCTL, 4, 0⟩
abbrev DUO_AGC : Nat := 0x1014028
def DUO_AGC_FIX : Fld := ⟨DUO_AGC, 31, 31⟩
def DUO_AGC_GAIN : Fld := ⟨DUO_AGC, 6, 4⟩
def DUO_AGC_GFIX : Fld := ⟨DUO_AGC, 2, 0⟩
abbrev DUO_DUTY : Nat := 0x101402c
def DUO_DUTY_V : Fld := ⟨DUO_DUTY, 13, 0⟩
abbrev DUO_BCNSEQ : Nat := 0x1014030
def DUO_BCNSEQ_V : Fld := ⟨DUO_BCNSEQ, 15, 0⟩
abbrev DUO_GRANT (n : Nat) : Nat := 0x1014040 + 0x4 * n
def DUO_GRANT_V (n : Nat) : Fld := ⟨(DUO_GRANT n), 31, 0⟩
abbrev DUO_BCNDATA (n : Nat) : Nat := 0x1014080 + 0x4 * n
def DUO_BCNDATA_V (n : Nat) : Fld := ⟨(DUO_BCNDATA n), 31, 0⟩
abbrev DUO_JOINL (n : Nat) : Nat := 0x10140a0 + 0x10 * n
def DUO_JOINL_V (n : Nat) : Fld := ⟨(DUO_JOINL n), 31, 0⟩
abbrev DUO_JOINH (n : Nat) : Nat := 0x10140a4 + 0x10 * n
def DUO_JOINH_V (n : Nat) : Fld := ⟨(DUO_JOINH n), 31, 0⟩
abbrev DUO_JOINC (n : Nat) : Nat := 0x10140a8 + 0x10 * n
def DUO_JOINC_VALID (n : Nat) : Fld := ⟨(DUO_JOINC n), 31, 31⟩
def DUO_JOINC_NODE (n : Nat) : Fld := ⟨(DUO_JOINC n), 7, 0⟩
abbrev DUO_IMPCNT : Nat := 0x1014100
def DUO_IMPCNT_V : Fld := ⟨DUO_IMPCNT, 31, 0⟩
abbrev DUO_ERSYM : Nat := 0x1014104
def DUO_ERSYM_V : Fld := ⟨DUO_ERSYM, 31, 0⟩
abbrev DUO_CRCFAIL : Nat := 0x1014108
def DUO_CRCFAIL_V : Fld := ⟨DUO_CRCFAIL, 31, 0⟩
abbrev DUO_ERFAIL : Nat := 0x101410c
def DUO_ERFAIL_V : Fld := ⟨DUO_ERFAIL, 31, 0⟩
abbrev DUO_RETRY : Nat := 0x1014110
def DUO_RETRY_V : Fld := ⟨DUO_RETRY, 31, 0⟩
abbrev DUO_TXLOST : Nat := 0x1014114
def DUO_TXLOST_V : Fld := ⟨DUO_TXLOST, 31, 0⟩
abbrev DUO_RXDROPCNT : Nat := 0x1014118
def DUO_RXDROPCNT_V : Fld := ⟨DUO_RXDROPCNT, 31, 0⟩
abbrev DUO_BCNMISSCNT : Nat := 0x101411c
def DUO_BCNMISSCNT_V : Fld := ⟨DUO_BCNMISSCNT, 31, 0⟩
abbrev DUO_HOLDCNT : Nat := 0x1014120
def DUO_HOLDCNT_V : Fld := ⟨DUO_HOLDCNT, 31, 0⟩
abbrev INT_CTL : Nat := 0x100c000
def INT_CTL_FW : Fld := ⟨INT_CTL, 1, 0⟩
abbrev INT_BADDONE : Nat := 0x100c004
def INT_BADDONE_COUNT : Fld := ⟨INT_BADDONE, 31, 16⟩
def INT_BADDONE_TGT : Fld := ⟨INT_BADDONE, 10, 8⟩
def INT_BADDONE_ID : Fld := ⟨INT_BADDONE, 7, 0⟩
abbrev INT_EVLOST : Nat := 0x100c008
def INT_EVLOST_V : Fld := ⟨INT_EVLOST, 15, 0⟩
abbrev INT_LOGLOST : Nat := 0x100c008
def INT_LOGLOST_V : Fld := ⟨INT_LOGLOST, 31, 16⟩
abbrev INT_ALSTAT : Nat := 0x100c00c
def INT_ALSTAT_LATCH1 : Fld := ⟨INT_ALSTAT, 3, 3⟩
def INT_ALSTAT_LATCH0 : Fld := ⟨INT_ALSTAT, 2, 2⟩
def INT_ALSTAT_LOW1 : Fld := ⟨INT_ALSTAT, 1, 1⟩
def INT_ALSTAT_LOW0 : Fld := ⟨INT_ALSTAT, 0, 0⟩
abbrev INT_SWSET (n : Nat) : Nat := 0x100c010 + 0x4 * n
def INT_SWSET_V (n : Nat) : Fld := ⟨(INT_SWSET n), 31, 0⟩
abbrev INT_SWCLR (n : Nat) : Nat := 0x100c018 + 0x4 * n
def INT_SWCLR_V (n : Nat) : Fld := ⟨(INT_SWCLR n), 31, 0⟩
abbrev INT_PEND (n : Nat) : Nat := 0x100c040 + 0x4 * n
def INT_PEND_V (n : Nat) : Fld := ⟨(INT_PEND n), 31, 0⟩
abbrev INT_ACT (n : Nat) : Nat := 0x100c060 + 0x4 * n
def INT_ACT_V (n : Nat) : Fld := ⟨(INT_ACT n), 31, 0⟩
abbrev INT_PRI (n : Nat) : Nat := 0x100c080 + 0x4 * n
def INT_PRI_N0 (n : Nat) : Fld := ⟨(INT_PRI n), 3, 0⟩
def INT_PRI_N1 (n : Nat) : Fld := ⟨(INT_PRI n), 7, 4⟩
def INT_PRI_N2 (n : Nat) : Fld := ⟨(INT_PRI n), 11, 8⟩
def INT_PRI_N3 (n : Nat) : Fld := ⟨(INT_PRI n), 15, 12⟩
def INT_PRI_N4 (n : Nat) : Fld := ⟨(INT_PRI n), 19, 16⟩
def INT_PRI_N5 (n : Nat) : Fld := ⟨(INT_PRI n), 23, 20⟩
def INT_PRI_N6 (n : Nat) : Fld := ⟨(INT_PRI n), 27, 24⟩
def INT_PRI_N7 (n : Nat) : Fld := ⟨(INT_PRI n), 31, 28⟩
abbrev INT_EN (n : Nat) (m : Nat) : Nat := 0x100c100 + 0x20 * n + 0x4 * m
def INT_EN_V (n : Nat) (m : Nat) : Fld := ⟨(INT_EN n m), 31, 0⟩
abbrev INT_CLAIM (n : Nat) : Nat := 0x100c200 + 0x10 * n
def INT_CLAIM_PRI (n : Nat) : Fld := ⟨(INT_CLAIM n), 19, 16⟩
def INT_CLAIM_ID (n : Nat) : Fld := ⟨(INT_CLAIM n), 7, 0⟩
abbrev INT_DONE (n : Nat) : Nat := 0x100c204 + 0x10 * n
def INT_DONE_V (n : Nat) : Fld := ⟨(INT_DONE n), 7, 0⟩
abbrev INT_THR (n : Nat) : Nat := 0x100c208 + 0x10 * n
def INT_THR_V (n : Nat) : Fld := ⟨(INT_THR n), 3, 0⟩
abbrev INT_TGTSTAT (n : Nat) : Nat := 0x100c20c + 0x10 * n
def INT_TGTSTAT_REQ (n : Nat) : Fld := ⟨(INT_TGTSTAT n), 31, 31⟩
def INT_TGTSTAT_PRI (n : Nat) : Fld := ⟨(INT_TGTSTAT n), 19, 16⟩
def INT_TGTSTAT_ID (n : Nat) : Fld := ⟨(INT_TGTSTAT n), 7, 0⟩
abbrev INT_RSP (n : Nat) : Nat := 0x100c400 + 0x4 * n
def INT_RSP_SAFE (n : Nat) : Fld := ⟨(INT_RSP n), 31, 31⟩
def INT_RSP_CAP (n : Nat) : Fld := ⟨(INT_RSP n), 30, 30⟩
def INT_RSP_BUF (n : Nat) : Fld := ⟨(INT_RSP n), 26, 24⟩
def INT_RSP_AL1 (n : Nat) : Fld := ⟨(INT_RSP n), 23, 22⟩
def INT_RSP_AL0 (n : Nat) : Fld := ⟨(INT_RSP n), 21, 20⟩
def INT_RSP_LOG (n : Nat) : Fld := ⟨(INT_RSP n), 16, 16⟩
abbrev HDG_STAT : Nat := 0x1016000
def HDG_STAT_SAFE : Fld := ⟨HDG_STAT, 9, 9⟩
def HDG_STAT_CFGERR : Fld := ⟨HDG_STAT, 8, 8⟩
def HDG_STAT_VIOL : Fld := ⟨HDG_STAT, 6, 0⟩
abbrev HDG_CTL : Nat := 0x1016004
def HDG_CTL_LOCK : Fld := ⟨HDG_CTL, 0, 0⟩
abbrev HDG_CMD : Nat := 0x1016008
def HDG_CMD_FORCE : Fld := ⟨HDG_CMD, 1, 1⟩
def HDG_CMD_CLR : Fld := ⟨HDG_CMD, 0, 0⟩
abbrev HDG_VCNT : Nat := 0x101600c
def HDG_VCNT_V : Fld := ⟨HDG_VCNT, 31, 0⟩
abbrev HDG_VLAST : Nat := 0x1016010
def HDG_VLAST_CLASS : Fld := ⟨HDG_VLAST, 31, 28⟩
def HDG_VLAST_ORIG : Fld := ⟨HDG_VLAST, 27, 24⟩
def HDG_VLAST_NUM : Fld := ⟨HDG_VLAST, 7, 0⟩
abbrev HDG_VADDR : Nat := 0x1016014
def HDG_VADDR_V : Fld := ⟨HDG_VADDR, 31, 0⟩
abbrev HDG_SAFECNT : Nat := 0x1016018
def HDG_SAFECNT_V : Fld := ⟨HDG_SAFECNT, 15, 0⟩
abbrev HDG_PLS : Nat := 0x1016020
def HDG_PLS_MAXHZ : Fld := ⟨HDG_PLS, 14, 0⟩
abbrev HDG_ALERT : Nat := 0x1016024
def HDG_ALERT_GAP : Fld := ⟨HDG_ALERT, 23, 16⟩
def HDG_ALERT_MINAS : Fld := ⟨HDG_ALERT, 7, 0⟩
abbrev HDG_DUO : Nat := 0x1016028
def HDG_DUO_LVLMAX : Fld := ⟨HDG_DUO, 13, 8⟩
def HDG_DUO_DUTY : Fld := ⟨HDG_DUO, 6, 0⟩
abbrev HDG_NVMP : Nat := 0x101602c
def HDG_NVMP_LAST : Fld := ⟨HDG_NVMP, 31, 24⟩
def HDG_NVMP_FIRST : Fld := ⟨HDG_NVMP, 23, 16⟩
def HDG_NVMP_CRIB : Fld := ⟨HDG_NVMP, 1, 1⟩
def HDG_NVMP_SET : Fld := ⟨HDG_NVMP, 0, 0⟩
abbrev HDG_CLK : Nat := 0x1016030
def HDG_CLK_BUD : Fld := ⟨HDG_CLK, 4, 0⟩
abbrev HDG_DGRANT : Nat := 0x1016034
def HDG_DGRANT_V : Fld := ⟨HDG_DGRANT, 31, 0⟩
abbrev HDG_MSD : Nat := 0x1016038
def HDG_MSD_PERMIT : Fld := ⟨HDG_MSD, 0, 0⟩
abbrev HDG_KEYSTAT : Nat := 0x1016040
def HDG_KEYSTAT_REV : Fld := ⟨HDG_KEYSTAT, 7, 4⟩
def HDG_KEYSTAT_VALID : Fld := ⟨HDG_KEYSTAT, 3, 0⟩
abbrev HDG_KEYREV : Nat := 0x1016044
def HDG_KEYREV_V : Fld := ⟨HDG_KEYREV, 3, 0⟩
abbrev TMP_STAT : Nat := 0x1017000
def TMP_STAT_FULL : Fld := ⟨TMP_STAT, 23, 16⟩
def TMP_STAT_BIC : Fld := ⟨TMP_STAT, 8, 8⟩
def TMP_STAT_EV : Fld := ⟨TMP_STAT, 7, 0⟩
abbrev TMP_CTL : Nat := 0x1017004
def TMP_CTL_LOCK : Fld := ⟨TMP_CTL, 31, 31⟩
def TMP_CTL_MODE : Fld := ⟨TMP_CTL, 7, 0⟩
abbrev TMP_MCTL : Nat := 0x1017008
def TMP_MCTL_TEMPEN : Fld := ⟨TMP_MCTL, 1, 1⟩
def TMP_MCTL_MAGEN : Fld := ⟨TMP_MCTL, 0, 0⟩
abbrev TMP_MAGTHR : Nat := 0x101700c
def TMP_MAGTHR_V : Fld := ⟨TMP_MAGTHR, 10, 0⟩
abbrev TMP_TLIM : Nat := 0x1017010
def TMP_TLIM_HI : Fld := ⟨TMP_TLIM, 15, 8⟩
def TMP_TLIM_LO : Fld := ⟨TMP_TLIM, 7, 0⟩
abbrev TMP_LOOP : Nat := 0x1017014
def TMP_LOOP_V : Fld := ⟨TMP_LOOP, 3, 0⟩
abbrev TMP_BKCNT : Nat := 0x1017018
def TMP_BKCNT_CAT3 : Fld := ⟨TMP_BKCNT, 15, 8⟩
def TMP_BKCNT_CAT0 : Fld := ⟨TMP_BKCNT, 7, 0⟩
abbrev TMP_BURNPEND : Nat := 0x101701c
def TMP_BURNPEND_V : Fld := ⟨TMP_BURNPEND, 7, 0⟩
abbrev TMP_EVCNT (n : Nat) : Nat := 0x1017020 + 0x4 * n
def TMP_EVCNT_V (n : Nat) : Fld := ⟨(TMP_EVCNT n), 31, 0⟩
abbrev TMP_OTP (n : Nat) : Nat := 0x1017040 + 0x4 * n
def TMP_OTP_V (n : Nat) : Fld := ⟨(TMP_OTP n), 6, 0⟩
abbrev TMP_BIC : Nat := 0x1017060
def TMP_BIC_COUNT : Fld := ⟨TMP_BIC, 31, 16⟩
def TMP_BIC_INJ : Fld := ⟨TMP_BIC, 15, 15⟩
def TMP_BIC_ORIG : Fld := ⟨TMP_BIC, 11, 8⟩
def TMP_BIC_TGT : Fld := ⟨TMP_BIC, 7, 0⟩
abbrev TMP_BICADDR : Nat := 0x1017064
def TMP_BICADDR_V : Fld := ⟨TMP_BICADDR, 31, 0⟩
abbrev TMP_BICWIN : Nat := 0x1017068
def TMP_BICWIN_V : Fld := ⟨TMP_BICWIN, 3, 0⟩
abbrev TMP_TAP : Nat := 0x101706c
def TMP_TAP_UNL : Fld := ⟨TMP_TAP, 8, 8⟩
def TMP_TAP_UNLOCKED : Fld := ⟨TMP_TAP, 0, 0⟩
abbrev UPD_STAT : Nat := 0x101b000
def UPD_STAT_RECOV : Fld := ⟨UPD_STAT, 31, 31⟩
def UPD_STAT_ACTPEND : Fld := ⟨UPD_STAT, 30, 30⟩
def UPD_STAT_TRIAL : Fld := ⟨UPD_STAT, 29, 29⟩
def UPD_STAT_SLOT : Fld := ⟨UPD_STAT, 28, 28⟩
def UPD_STAT_SBANK : Fld := ⟨UPD_STAT, 27, 27⟩
def UPD_STAT_BUSY : Fld := ⟨UPD_STAT, 26, 26⟩
def UPD_STAT_REVERT : Fld := ⟨UPD_STAT, 6, 6⟩
def UPD_STAT_ACTDONE : Fld := ⟨UPD_STAT, 5, 5⟩
def UPD_STAT_VFAIL : Fld := ⟨UPD_STAT, 4, 4⟩
def UPD_STAT_VDONE : Fld := ⟨UPD_STAT, 3, 3⟩
def UPD_STAT_DLERR : Fld := ⟨UPD_STAT, 2, 2⟩
def UPD_STAT_CMDERR : Fld := ⟨UPD_STAT, 1, 1⟩
def UPD_STAT_CONF : Fld := ⟨UPD_STAT, 0, 0⟩
abbrev UPD_CMD : Nat := 0x101b004
def UPD_CMD_V : Fld := ⟨UPD_CMD, 31, 28⟩
abbrev UPD_LEN : Nat := 0x101b008
def UPD_LEN_V : Fld := ⟨UPD_LEN, 20, 3⟩
abbrev UPD_DLSTAT : Nat := 0x101b00c
def UPD_DLSTAT_STATE : Fld := ⟨UPD_DLSTAT, 31, 28⟩
def UPD_DLSTAT_KIND : Fld := ⟨UPD_DLSTAT, 27, 27⟩
def UPD_DLSTAT_BLOCKS : Fld := ⟨UPD_DLSTAT, 8, 0⟩
abbrev UPD_DLBLK : Nat := 0x101b010
def UPD_DLBLK_V : Fld := ⟨UPD_DLBLK, 8, 0⟩
abbrev UPD_TRIALSTAT : Nat := 0x101b014
def UPD_TRIALSTAT_BOOTS : Fld := ⟨UPD_TRIALSTAT, 25, 24⟩
def UPD_TRIALSTAT_SECS : Fld := ⟨UPD_TRIALSTAT, 16, 0⟩
abbrev UPD_ACTVER : Nat := 0x101b018
def UPD_ACTVER_V : Fld := ⟨UPD_ACTVER, 31, 0⟩
abbrev UPD_INACTVER : Nat := 0x101b01c
def UPD_INACTVER_V : Fld := ⟨UPD_INACTVER, 31, 0⟩
abbrev UPD_BOOT : Nat := 0x101b020
def UPD_BOOT_V : Fld := ⟨UPD_BOOT, 5, 0⟩
abbrev UPD_HASH (n : Nat) : Nat := 0x101b040 + 0x4 * n
def UPD_HASH_V (n : Nat) : Fld := ⟨(UPD_HASH n), 31, 0⟩
abbrev UPD_ACTID : Nat := 0x101b100
def UPD_ACTID_V : Fld := ⟨UPD_ACTID, 31, 0⟩
abbrev UPD_ACTWHEN : Nat := 0x101b104
def UPD_ACTWHEN_SECHI : Fld := ⟨UPD_ACTWHEN, 9, 8⟩
def UPD_ACTWHEN_FW : Fld := ⟨UPD_ACTWHEN, 5, 4⟩
def UPD_ACTWHEN_WHEN : Fld := ⟨UPD_ACTWHEN, 1, 0⟩
abbrev UPD_ACTT0 : Nat := 0x101b108
def UPD_ACTT0_V : Fld := ⟨UPD_ACTT0, 31, 0⟩
abbrev UPD_ACTT1 : Nat := 0x101b10c
def UPD_ACTT1_V : Fld := ⟨UPD_ACTT1, 31, 0⟩
abbrev UPD_TRIALWIN : Nat := 0x101b110
def UPD_TRIALWIN_V : Fld := ⟨UPD_TRIALWIN, 10, 0⟩
abbrev UPD_ACTGO : Nat := 0x101b114
def UPD_ACTGO_V : Fld := ⟨UPD_ACTGO, 0, 0⟩
abbrev UPD_CONFIRM : Nat := 0x101b118
def UPD_CONFIRM_V : Fld := ⟨UPD_CONFIRM, 31, 0⟩
abbrev YLD_STAT : Nat := 0x1018000
def YLD_STAT_SWAP : Fld := ⟨YLD_STAT, 2, 2⟩
def YLD_STAT_ALERT : Fld := ⟨YLD_STAT, 1, 1⟩
def YLD_STAT_VALID : Fld := ⟨YLD_STAT, 0, 0⟩
abbrev YLD_CTL : Nat := 0x1018004
def YLD_CTL_ALDAYS : Fld := ⟨YLD_CTL, 15, 0⟩
abbrev YLD_REFDIS : Nat := 0x1018008
def YLD_REFDIS_DIS : Fld := ⟨YLD_REFDIS, 31, 31⟩
def YLD_REFDIS_D : Fld := ⟨YLD_REFDIS, 15, 0⟩
abbrev YLD_SWAPCNT : Nat := 0x101800c
def YLD_SWAPCNT_V : Fld := ⟨YLD_SWAPCNT, 31, 0⟩
abbrev YLD_DAY : Nat := 0x1018010
def YLD_DAY_V : Fld := ⟨YLD_DAY, 31, 0⟩
abbrev YLD_CELLCAP : Nat := 0x1018014
def YLD_CELLCAP_V : Fld := ⟨YLD_CELLCAP, 15, 0⟩
abbrev YLD_LOGSEQ : Nat := 0x1018018
def YLD_LOGSEQ_V : Fld := ⟨YLD_LOGSEQ, 31, 0⟩
abbrev YLD_LOGSLOT : Nat := 0x101801c
def YLD_LOGSLOT_V : Fld := ⟨YLD_LOGSLOT, 11, 0⟩
abbrev YLD_CMD : Nat := 0x1018020
def YLD_CMD_RUN : Fld := ⟨YLD_CMD, 0, 0⟩
abbrev YLD_ALERT (n : Nat) : Nat := 0x1018030 + 0x4 * n
def YLD_ALERT_V (n : Nat) : Fld := ⟨(YLD_ALERT n), 31, 0⟩
abbrev YLD_EOL (n : Nat) : Nat := 0x1018100 + 0x8 * n
def YLD_EOL_LO (n : Nat) : Fld := ⟨(YLD_EOL n), 31, 16⟩
def YLD_EOL_EOL (n : Nat) : Fld := ⟨(YLD_EOL n), 15, 0⟩
abbrev YLD_BAND (n : Nat) : Nat := 0x1018104 + 0x8 * n
def YLD_BAND_VALID (n : Nat) : Fld := ⟨(YLD_BAND n), 31, 31⟩
def YLD_BAND_NOW (n : Nat) : Fld := ⟨(YLD_BAND n), 30, 30⟩
def YLD_BAND_HI (n : Nat) : Fld := ⟨(YLD_BAND n), 15, 0⟩
abbrev YLD_USE (n : Nat) : Nat := 0x1018400 + 0x4 * n
def YLD_USE_V (n : Nat) : Fld := ⟨(YLD_USE n), 31, 0⟩
abbrev MSD_CTL : Nat := 0x1019000
def MSD_CTL_EN : Fld := ⟨MSD_CTL, 31, 31⟩
def MSD_CTL_DUR : Fld := ⟨MSD_CTL, 11, 0⟩
abbrev MSD_STAT : Nat := 0x1019004
def MSD_STAT_CAUSE : Fld := ⟨MSD_STAT, 3, 2⟩
def MSD_STAT_DONE : Fld := ⟨MSD_STAT, 1, 1⟩
def MSD_STAT_ACT : Fld := ⟨MSD_STAT, 0, 0⟩
abbrev MSD_CMD : Nat := 0x1019008
def MSD_CMD_STOP : Fld := ⟨MSD_CMD, 0, 0⟩
abbrev MSD_REM : Nat := 0x101900c
def MSD_REM_V : Fld := ⟨MSD_REM, 11, 0⟩
abbrev MSD_RING (n : Nat) : Nat := 0x1019010 + 0x10 * n
def MSD_RING_EN (n : Nat) : Fld := ⟨(MSD_RING n), 31, 31⟩
def MSD_RING_ACT (n : Nat) : Fld := ⟨(MSD_RING n), 29, 28⟩
def MSD_RING_OWN (n : Nat) : Fld := ⟨(MSD_RING n), 27, 27⟩
def MSD_RING_P (n : Nat) : Fld := ⟨(MSD_RING n), 15, 0⟩
abbrev MSD_RDLY (n : Nat) : Nat := 0x1019014 + 0x10 * n
def MSD_RDLY_V (n : Nat) : Fld := ⟨(MSD_RDLY n), 9, 0⟩
abbrev MSD_RCNT (n : Nat) : Nat := 0x1019018 + 0x10 * n
def MSD_RCNT_V (n : Nat) : Fld := ⟨(MSD_RCNT n), 31, 0⟩
abbrev MSD_DUO : Nat := 0x1019040
def MSD_DUO_EN : Fld := ⟨MSD_DUO, 31, 31⟩
def MSD_DUO_KIND : Fld := ⟨MSD_DUO, 30, 30⟩
def MSD_DUO_N : Fld := ⟨MSD_DUO, 22, 16⟩
def MSD_DUO_P : Fld := ⟨MSD_DUO, 15, 0⟩
abbrev MSD_DUOOFS : Nat := 0x1019044
def MSD_DUOOFS_OFS : Fld := ⟨MSD_DUOOFS, 6, 0⟩
abbrev MSD_DUOCNT : Nat := 0x1019048
def MSD_DUOCNT_V : Fld := ⟨MSD_DUOCNT, 31, 0⟩
abbrev MSD_BIC : Nat := 0x1019060
def MSD_BIC_EN : Fld := ⟨MSD_BIC, 31, 31⟩
def MSD_BIC_N : Fld := ⟨MSD_BIC, 15, 8⟩
def MSD_BIC_TGT : Fld := ⟨MSD_BIC, 7, 0⟩
abbrev MSD_BICCNT : Nat := 0x1019064
def MSD_BICCNT_V : Fld := ⟨MSD_BICCNT, 31, 0⟩
abbrev INT_REP (n : Nat) : Nat := 0x100c600 + 0x4 * n
def INT_REP_N0 (n : Nat) : Fld := ⟨(INT_REP n), 7, 0⟩
def INT_REP_N1 (n : Nat) : Fld := ⟨(INT_REP n), 15, 8⟩
def INT_REP_N2 (n : Nat) : Fld := ⟨(INT_REP n), 23, 16⟩
def INT_REP_N3 (n : Nat) : Fld := ⟨(INT_REP n), 31, 24⟩
abbrev HDG_PLSC : Nat := 0x1016120
def HDG_PLSC_MAXHZ : Fld := ⟨HDG_PLSC, 14, 0⟩
abbrev HDG_ALERTC : Nat := 0x1016124
def HDG_ALERTC_GAP : Fld := ⟨HDG_ALERTC, 23, 16⟩
def HDG_ALERTC_MINAS : Fld := ⟨HDG_ALERTC, 7, 0⟩
abbrev HDG_DUOC : Nat := 0x1016128
def HDG_DUOC_LVLMAX : Fld := ⟨HDG_DUOC, 13, 8⟩
def HDG_DUOC_DUTY : Fld := ⟨HDG_DUOC, 6, 0⟩
abbrev HDG_NVMPC : Nat := 0x101612c
def HDG_NVMPC_LAST : Fld := ⟨HDG_NVMPC, 31, 24⟩
def HDG_NVMPC_FIRST : Fld := ⟨HDG_NVMPC, 23, 16⟩
def HDG_NVMPC_CRIB : Fld := ⟨HDG_NVMPC, 1, 1⟩
def HDG_NVMPC_SET : Fld := ⟨HDG_NVMPC, 0, 0⟩
abbrev HDG_CLKC : Nat := 0x1016130
def HDG_CLKC_BUD : Fld := ⟨HDG_CLKC, 4, 0⟩
abbrev HDG_DGRANTC : Nat := 0x1016134
def HDG_DGRANTC_V : Fld := ⟨HDG_DGRANTC, 31, 0⟩
abbrev HDG_MSDC : Nat := 0x1016138
def HDG_MSDC_PERMIT : Fld := ⟨HDG_MSDC, 0, 0⟩

/-- The priority of interrupt source `s` (R395). -/
def INT_PRI_of (s : Nat) : Fld := ⟨INT_PRI (s / 8), 4 * (s % 8) + 3, 4 * (s % 8)⟩

/-- The repeat count of interrupt source `s` (R403). -/
def INT_REP_of (s : Nat) : Fld := ⟨INT_REP (s / 4), 8 * (s % 4) + 7, 8 * (s % 4)⟩

/-- A single bit of a register. -/
def bitFld (a i : Nat) : Fld := ⟨a, i, i⟩

end Sys2Proof
end

