-- ==== Sys2Proof/Machine/State.lean ====
section
/-!
DEFINITION. The state of the LYS-4848 as a block: plain data. Registers are one sparse map over their byte
addresses; what the manual gives the device beside its registers (angle words, queues, pipelines of pending work,
hands, frames, arrays) is held under names of its own. A structure's default values are its values at reset.
State.reset is the device at the release of its first power-on reset, before the boot ROM has run.
-/
namespace Sys2Proof.Machine

/-- The reasons a command can stop the model. -/
inductive Fault
  /-- Raised by a command whose operands `Instr.wf` refuses (a payload of the wrong length, and so on): no such
  command can reach the device. Safe. -/
  | illFormed
  deriving DecidableEq, Repr

/-- The reasons the model has no meaning for a command. -/
inductive Refusal
  /-- Raised by an arm of exec that has no meaning yet, by the command's mnemonic. Safe. -/
  | notModelled (mnemonic : String)
  deriving DecidableEq, Repr

/-- What every meaning answers. -/
abbrev Res (σ : Type) := Host.Outcome σ Fault Refusal

/-! ### Furrows, timebases, sowing (chapters 02 and 10) -/

/-- A stretch of a furrow's history in which its rate and flags are constant (R49). -/
structure Seg where
  /-- fabric cycle of its start -/
  t0 : Nat
  /-- angle word at `t0`, not yet wrapped -/
  ang : Nat
  /-- tine fraction at `t0`, in 1/4,915,200,000,000 -/
  rem : Nat
  /-- rate in 0.1 mHz -/
  rate : Nat
  hold : Bool
  slew : Bool
  unlk : Bool
  deriving DecidableEq, Repr

/-- What a furrow holds beside its registers (R28 to R54, R481, R482). -/
structure Furrow where
  /-- history of the angle word, newest first (R49); a stretch that starts after the present cycle ends a running
  correction of the tracking loop (R481) -/
  segs : List Seg := []
  /-- past the first lock since the enable (R45) -/
  run : Bool := false
  /-- the source is present (R482) -/
  present : Bool := false
  /-- last tracked frequency, 0.1 mHz (R41) -/
  rate : Nat := 0
  /-- the running slew adds to the rate (R42) -/
  up : Bool := false
  /-- cycle of the enable or of the last change of source (R482) -/
  cfgClk : Nat := 0
  /-- cycle since which the frequency is held at a range limit (R40) -/
  rangeClk : Nat := 0
  /-- the source's last fix since `cfgClk` (R31 to R36): its angle in tines, without `FUR_OFSn`; the cycle at which it
  had that angle; and its frequency in 0.1 mHz, 0 while none can be measured -/
  sAng : Nat := 0
  sClk : Nat := 0
  sRate : Nat := 0
  /-- a channel source's fundamental amplitude at its last phasor, in fine-stream LSB, and that phasor's cycle -/
  sAmp : Nat := 0
  ampClk : Nat := 0
  /-- how long the amplitude had then been below 5 %, and at or above 10 %, of `FUR_NOMn`: in 1/`angDen` of a cycle
  of the source (R33, R482) -/
  lowAcc : Nat := 0
  highAcc : Nat := 0
  /-- since when the phase error has been below 2^12 tines (R39) -/
  okClk : Option Nat := none
  /-- the tracking loop's correction of the frequency, in 0.1 mHz; the cycle by which it has closed the phase error,
  and the error it started from (R481) -/
  adj : Int := 0
  adjEnd : Nat := 0
  adjErr : Nat := 0
  /-- last positive zero crossing: fabric cycle, cycle count, what the angle had passed it by at the end of that fabric
  cycle and at which rate, and whether there was one since the first lock (Table 02-9) -/
  zcClk : Nat := 0
  zcCyc : Nat := 0
  zcPast : Nat := 0
  zcRate : Nat := 0
  zcSeen : Bool := false
  /-- encoder position from the index, in counts, whether an index was seen, cycle of the last count in the counting
  direction and whether there was one (R34) -/
  pos : Int := 0
  idx : Bool := false
  cntClk : Nat := 0
  cntSeen : Bool := false
  /-- accepted pulse edges (counted to 3), cycle of the last, last interval, whether three agreed (R35) -/
  edges : Nat := 0
  edgeClk : Nat := 0
  edgePer : Nat := 0
  agree : Bool := false
  /-- whether there was a valid broadcast angle (R36) -/
  bSeen : Bool := false
  /-- the last load of the angle word (R29): its cycle, and the angle from which the loaded one advanced in it -/
  jump : Option (Nat × Nat) := none
  /-- cycle of the last change to the resampler's registers or its stop (R47, R185) -/
  rsClk : Nat := 0
  /-- number of the last sample written to the rings, and whether one was since `rsClk` (R51) -/
  rsNum : Nat := 0
  rsSeen : Bool := false
  /-- the angle word at `rsClk` -/
  rsAng : Nat := 0
  deriving DecidableEq, Repr

/-- A timebase counter: its ticks at fabric cycle `t0`, and its trim in 0.001 ppm (R303, R305). -/
structure TB where
  t0 : Nat := 0
  ticks : Nat := 0
  trim : Int := 0
  deriving DecidableEq, Repr

/-- TB0 as it has run from cycle `t0`: the counter, the step count, and whether it was not disciplined (R48). -/
structure TbSeg where
  t0 : Nat
  tb : TB := {}
  epoch : Nat := 0
  free : Bool := true
  deriving DecidableEq, Repr

/-- A seed that waits for dispatch (R67): its number, word 3 and furrow action, the cycle it fell due, and whether
its wait is counted. -/
structure SeedWait where
  seed : Nat
  w3 : Nat
  due : Nat
  late : Bool
  deriving DecidableEq, Repr

/-- A dispatched seed whose DELAY runs (R64). -/
structure SeedPend where
  seed : Nat
  w3 : Nat
  /-- fabric cycle of the issue -/
  at_ : Nat
  deriving DecidableEq, Repr

/-- A read shadow: what it stands for, its words, and the cycle it was taken (R65, R135, R157, R176, R321). -/
structure Shadow where
  key : Nat
  words : List Word
  at_ : Nat
  deriving DecidableEq, Repr

/-! ### Alarms, logs, hedges (chapters 13, 14, 16) -/

/-- A record that waits for the log engine: its sheaf type and payload words (R401, R458). -/
structure LogRec where
  type : Nat
  payload : List DWord
  deriving DecidableEq, Repr

/-- An EVENT frame prepared for an alarm group (R402). -/
structure EventFrame where
  arg1 : Nat
  words : List Word
  deriving DecidableEq, Repr

/-- One alert ball beside its latch: driven low, since when, last release, and a release that is deferred (R400). -/
structure Alert where
  low : Bool := true
  since : Nat := 0
  released : Option Nat := none
  deferred : Bool := false
  deriving DecidableEq, Repr

/-! ### Channels and references (chapters 03 and 04) -/

/-- The supply of a channel (R75): off, powering up for 50 µs, waiting for or in its enable calibration, on. -/
inductive Power
  | off | up | wait | on
  deriving DecidableEq, Repr

/-- A delivered fine sample with what the tally needs of its instant (R142). -/
structure FineRec where
  at_ : Nat
  word : Word
  gain : Nat
  ef : Int
  deriving DecidableEq, Repr

/-- A slice's conversion: its value after steps 1 to 3 of R81, exact, in 2^-85 of full scale; the skew of its slice in ps;
and whether its input lay beyond full scale (R73). -/
structure Conv where
  val : Int := 0
  skew : Int := 0
  beyond : Bool := false
  deriving DecidableEq, Repr

/-- What a channel holds beside its registers (chapters 03 and 04). -/
structure Chan where
  /-- the configuration that the converter uses: the last `ANA_CHCFGc` that took effect (R76) -/
  cfg : Nat := 1
  power : Power := .on
  /-- end of the 50 µs power-up -/
  upAt : Nat := 0
  /-- the PGA settling times, newest first: first cycle, and the first after it (R76) -/
  pga : List (Nat × Nat) := []
  /-- gain codes, newest first, each with the cycle from which it was in use (R76, R142) -/
  gains : List (Nat × Nat) := []
  /-- the last change of the phase map: its cycle, and the map before it as `SLC_PHMAPc` shows it (R84) -/
  phAt : Nat × Nat := (0, 0x3210)
  /-- held as in calibration from the release of reset until the start-up calibration begins (R99) -/
  held : Bool := true
  /-- shadow extensions made (R85, R92) -/
  ext : Nat := 0
  /-- cycle of the last step change, and cycle from which the shadow counts (R83, R86) -/
  stepClk : Nat := 0
  shadowClk : Nat := 0
  /-- a rotate-now command skips the slot (Table 03-8) -/
  rotNow : Bool := false
  /-- the `ROTPER` in force for the channel's slots, the slot at which another comes into force (Table 03-25), and the
  cycle before which no slot is used (Table 03-8) -/
  per : Nat := 2
  perNext : Option (Nat × Nat) := none
  slotMin : Nat := 0
  /-- the slice being retired, and its cause code (R91, R92) -/
  retiring : Option Nat := none
  retCause : Nat := 0
  /-- excursions: slice and cycle, newest first (R89) -/
  exc : List (Nat × Nat) := []
  /-- bit 3s + q: coefficient q (0 offset, 1 gain, 2 skew) of slice s has left its window and is not re-armed (R89) -/
  outMask : Nat := 0
  /-- bit 3s + q: that coefficient is at its hard limit (R90) -/
  hardMask : Nat := 0
  /-- cycle at which slice s last took coefficients (R87) -/
  coefClk : Sparse Nat := []
  /-- conversions, newest first (R81, R115); the converter flags since the first of them, newest first: the cycle from
  which they held, and bit 0 CINV but for PGA settling, 1 CDEG, 2 CNSP, 3 CINV of the channel's slices alone (R97) -/
  adc : List Conv := []
  flg : List (Nat × Nat) := []
  /-- saturations of the last 2.81 ms, newest first: cycle, and stages as bits of `FLT_CHSTATc.SAT` (R116, R122) -/
  sats : List (Nat × Nat) := []
  /-- cycles of the last sample of C, W and F; wide samples, counted modulo 16, for the stages S3 to S6 -/
  lastC : Nat := 0
  lastW : Nat := 0
  lastF : Nat := 0
  wideN : Nat := 0
  /-- samples left in the open settling windows of C, W and F, and the cycle at which the last event of another kind than
  CINV enters stage S1 (R126) -/
  setC : Nat := 0
  setW : Nat := 0
  setF : Nat := 0
  setAt : Nat := 0
  /-- stages, as bits 0 to 6, whose shift has changed and that have made no result under the new one; and whether W (bit 0)
  and F (bit 1) have a result under a new shift to take (R119, R126) -/
  shNew : Nat := 0
  shOut : Nat := 0
  /-- the last nine coarse stream words, newest first (R130) -/
  hist : List Word := []
  /-- C and W samples since the last hopper push (HOPDIV) -/
  divC : Nat := 0
  divW : Nat := 0
  /-- fine samples delivered, newest first: cycle, stream word, gain code and exponent then in force (R142) -/
  fineQ : List FineRec := []
  /-- the raw gang group in progress: samples, OR of flags (R125) -/
  rawN : Nat := 0
  rawFlags : Nat := 0
  deriving DecidableEq, Repr

/-- A running foreground calibration (R98): of all channels, or of one (a ganged pair counts as one). -/
structure Cal where
  all : Bool
  ch : Nat
  start : Nat
  /-- it is the enable calibration of `ch` (R75) -/
  enable : Bool
  deriving DecidableEq, Repr

/-- The references' arbitration (R107 to R111). -/
structure RefArb where
  /-- consecutive 1 s averages in disagreement: the pair in service, C against A, C against B -/
  dis : Nat := 0
  disA : Nat := 0
  disB : Nat := 0
  /-- consecutive averages in agreement while NOMAJ -/
  agree : Nat := 0
  /-- cycle at which C was powered up -/
  cUp : Nat := 0
  /-- arbitration runs -/
  run : Bool := false
  /-- a host retirement waits for C to settle (0 A, 1 B), and a swap is due (R109, R110) -/
  retReq : Option Nat := none
  swapDue : Option Nat := none
  /-- cycle of the start of the external reference measurement (R111) -/
  chk : Option Nat := none
  deriving DecidableEq, Repr

/-! ### The tally (chapter 05) -/

/-- One phase row's sums in an open direction interval (R151, R153); `l` is the exact loss sum with 24 fraction
bits. -/
structure IvRow where
  p : Int := 0
  q : Int := 0
  v2 : Int := 0
  i2 : Int := 0
  pf : Int := 0
  qf : Int := 0
  ph : Int := 0
  l : Int := 0
  deriving DecidableEq, Repr

/-- An open direction interval: accumulated periods, all periods, and the rows 1 to 3 (R150, R151). -/
structure Iv where
  n : Nat := 0
  age : Nat := 0
  r1 : IvRow := {}
  r2 : IvRow := {}
  r3 : IvRow := {}
  deriving DecidableEq, Repr

/-- A field configuration in force or pending (R164): the words FCFG, FCHV, FCHI, START, NOLOAD, LOSSI and LOSSV, the
application cycle, and a clear. -/
structure FieldCfg where
  fcfg : Nat := 0
  fchv : Nat := 0
  fchi : Nat := 0
  start : Nat := 0
  noload : Nat := 0
  lossi : Nat := 0
  lossv : Nat := 0
  at_ : Nat := 0
  clear : Bool := false
  deriving DecidableEq, Repr

/-- A sample that a channel feeds to a field's filters (R147): its slot, 0 to 2 for V0 to V2 and 3 to 6 for I0 to I3; the
channel and its accumulation gain; the normalised sample or its substitute × 2^16, none where there is neither; whether it
is a substitute, with how many in a row; and DEG or NSP. -/
structure FeedSlot where
  slot : Nat
  ch : Nat
  ca : Nat
  value : Option Int
  sub : Bool
  deg : Bool
  run : Nat
  deriving DecidableEq, Repr

/-- What a field's filters are fed for one sample index, and whether that period is invalid (R148). -/
structure Feed where
  idx : Nat
  slots : List FeedSlot
  inval : Bool
  deriving DecidableEq, Repr

/-- What a tally field holds beside its registers and bins. -/
structure Field where
  cfg : FieldCfg := {}
  cfgQ : List FieldCfg := []
  iv : Iv := {}
  /-- what the filters have been fed, newest first, one entry a period: a filter length of 4097 (R144, R147, R148) -/
  feed : List Feed := []
  /-- valid periods left whose filter span holds zeros (R148) -/
  zeros : Nat := 0
  /-- metadata flags [30:23] of the live bins, as bits of the metadata word (Table 05-4) -/
  flags : Nat := 0
  /-- bins held at a limit, by offset (R146) -/
  ovf : Nat := 0
  /-- snapshot sequence number (R161) -/
  seq : Nat := 0
  /-- cycle count of the furrow at the last sample's input instant (R150) -/
  cyc : Option Nat := none
  /-- the next update fails for good, and updates so lost since the last good one (R419) -/
  skip : Bool := false
  lostN : Nat := 0
  deriving DecidableEq, Repr

/-- A snapshot that waits for its boundary (R159 to R162): fields, alignment, the index of the first sample after the
boundary, the request's cycle and its timestamps on the four furrows. -/
structure SnapReq where
  fields : Nat
  aligned : Bool
  bnd : Nat
  at_ : Nat
  stamps : List (List Word)
  deriving DecidableEq, Repr

/-- What a pulse output holds beside its registers (R169 to R174). -/
structure Pulse where
  /-- the signed remainder and the last provisional value -/
  r : Int := 0
  prov : Int := 0
  /-- a pulse is on; its end; the last start -/
  on : Bool := false
  endAt : Nat := 0
  startAt : Option Nat := none
  /-- starts in the last 32 ms, newest first -/
  starts : List Nat := []
  deriving DecidableEq, Repr

/-! ### Thresher and silo (chapter 06) -/

/-- A thresher job (R179 to R192). -/
structure Job where
  /-- the model's number of the post -/
  id : Nat
  addr : Nat
  suit : Nat
  /-- logical plough of the posting hand; none for the host -/
  poster : Option Nat
  /-- 1 queued, 2 waiting for its window, 3 running -/
  state : Nat := 1
  /-- descriptor words 0 to 6, once it is taken -/
  words : List Nat := []
  /-- channels whose records are not yet written, ascending -/
  chans : List Nat := []
  /-- the job ends at the next channel boundary with this STATE and ERR -/
  stop : Option (Nat × Nat) := none
  deriving DecidableEq, Repr

/-- A supraharmonic lane (R188, R189). -/
structure Lane where
  addr : Nat
  suit : Nat
  poster : Option Nat
  words : List Nat
  ch : Nat
  /-- words of the block that fills, newest first, and the timestamp of its first sample -/
  fill : List Nat := []
  fillStamp : List Word := []
  /-- a full block that is due, with its timestamp -/
  due : Option (List Nat × List Word) := none
  /-- blocks gathered for the present record, their number, and the record's timestamp -/
  acc : List Nat := []
  blocks : Nat := 0
  stamp : List Word := []
  /-- record sequence number -/
  seq : Nat := 0
  deriving DecidableEq, Repr

/-- The transform in progress: of lane `lane`, or of job `job`; its end and its input. -/
structure ThrRun where
  lane : Option Nat
  job : Nat
  endAt : Nat
  data : List Nat
  deriving DecidableEq, Repr

/-- One source of a silo buffer: samples written since the arm and the cycle of the first. -/
structure SilSrc where
  cnt : Nat := 0
  begun : Nat := 0
  deriving DecidableEq, Repr

/-- What a silo buffer holds beside its registers (R197 to R202). -/
structure Silo where
  /-- cycle at which the first block began -/
  start : Option Nat := none
  src : Sparse SilSrc := []
  /-- trigger instant, the cycle in which it came, its source (cause, number) and BACK -/
  inst : Nat := 0
  hit : Nat := 0
  cause : Nat := 0
  num : Nat := 0
  back : Bool := false
  /-- the timestamp taken at the trigger (R200) -/
  stamp : List Word := []
  /-- triggers (source, number, instant, BACK) ignored in the cycle `missAt`, and TRIGMISS before them (R201) -/
  missed : List (Nat × Nat × Nat × Bool) := []
  missAt : Nat := 0
  missWas : Nat := 0
  /-- instants that were held at the trigger -/
  held : Nat := 0
  /-- the record registers before the trigger, restored by a stop in POST -/
  saved : List Word := []
  /-- end of the wavefront unit's run -/
  wf : Option Nat := none
  deriving DecidableEq, Repr

/-! ### The Tchiez engine (chapters 07 and 08) -/

/-- A hopper entry: value, tag, suit and the key of its source (R227 to R230). -/
structure HopE where
  val : Word
  tag : Word
  suit : Nat
  src : Nat
  deriving DecidableEq, Repr

/-- An entry that has arrived for the hopper in the present cycle: its place in the order of Table 07-6, the queue it goes
to, and whether its source marks gaps (R229, R230). -/
structure HopArr where
  rank : Nat
  q : Nat
  e : HopE
  gapped : Bool
  deriving DecidableEq, Repr

/-- A conversion of the gleaner: of which sequence, which entry, its start. -/
structure GlnConv where
  inj : Bool
  entry : Nat
  /-- the microsecond tick of its start -/
  start : Nat
  deriving DecidableEq, Repr

/-- The gleaner's sequencer (R233, R234). -/
structure Gln where
  /-- a regular sequence runs; its next entry -/
  reg : Bool := false
  regIdx : Nat := 0
  /-- a regular start waits for the end of an injected sequence (R234); the entries of the sequences that run (R241) -/
  regWait : Bool := false
  regSeq : List Nat := []
  injSeq : List Nat := []
  /-- an injected sequence is pending or running; its trigger's cycle; its conversions have begun -/
  inj : Bool := false
  injClk : Nat := 0
  injRun : Bool := false
  conv : Option GlnConv := none
  /-- powered up: the tick at which the start-up ends; the tick at which it was powered down -/
  pwr : Option Nat := none
  offTick : Nat := 0
  /-- the tick at which the current RPER period began -/
  perTick : Nat := 0
  /-- counts of the four comparators -/
  cnt : Sparse Nat := []
  deriving DecidableEq, Repr

/-- A start request (R213): vector, start cause word, cycle of its arrival. -/
structure StartReq where
  vec : Nat
  word : Nat
  at_ : Nat
  deriving DecidableEq, Repr

/-- What belongs to a logical plough (R207, R213, R221 to R223). -/
structure Logi where
  q : List StartReq := []
  /-- a vector-15 request waits outside the full queue (R216) -/
  v15 : Bool := false
  /-- requests of exceptions, restarts, swaps and start-up that wait outside the full queue, oldest first -/
  wait : List StartReq := []
  /-- mailbox: data and sender words, oldest first -/
  mail : List (Word × Word) := []
  /-- start of the scarecrow's timer; expiries in the rolling 10 min -/
  kick : Nat := 0
  exps : List Nat := []
  deriving DecidableEq, Repr

/-- A posted store (R218, R253), with the hand that posted it. -/
inductive Post
  | mem (h : Nat) (a : Nat) (bs : List Byte)
  | bin (h : Nat) (b : Nat) (set : Bool) (z : Int)
  | idone (h : Nat) (w : Word)
  deriving DecidableEq, Repr

/-- What a physical plough holds beside its hands (R206, R211, R214, R218, R220). -/
structure Plough where
  /-- the store buffer, oldest first -/
  sb : List Post := []
  /-- end of a restart or of a self-test -/
  until_ : Nat := 0
  /-- its store buffer drains before it restarts (0), stops (1) or is swapped to plough f (2 + f), for a logical number
  (R223, R225, R441) -/
  drain : Option (Nat × Nat) := none
  /-- instruction cache: the words of line n -/
  cache : Sparse (List Nat) := []
  /-- cycle of the last issue; last hand to issue in each suit (R211) -/
  issued : Option Nat := none
  last : Sparse Nat := []
  /-- cycle of the last dispatch -/
  disp : Option Nat := none
  deriving DecidableEq, Repr

/-- What a waiting hand waits for (Table 07-2, R252). -/
inductive Wait
  /-- +D: its earlier stores; the instruction issues again -/
  | drain
  /-- room in the store buffer; the instruction issues again -/
  | room
  /-- a load's data: kind 0 `LDB`, 1 `LDBU`, 2 `LDH`, 3 `LDHU`, 4 `LDW`, 5 `LDV`, 6 `GRD`; destination, address, issue -/
  | load (kind rd a at_ : Nat)
  | hpop (rd rt at_ : Nat)
  | mrcv (rd rt at_ : Nat)
  | iclm (rd : Nat)
  /-- `AWAIT`: destination, furrow, target, microsecond tick of the timeout -/
  | await (rd fw target : Nat) (tmo : Option Nat)
  /-- `DREQ` play: its checks; destination -/
  | deal (rd : Nat)
  deriving DecidableEq, Repr

/-- The state of a hand (Table 07-2). -/
inductive HandSt
  | idle
  /-- READY from this cycle on -/
  | ready (at_ : Nat)
  | wait (w : Wait)
  deriving DecidableEq, Repr

/-- A hand (Table 08-1). -/
structure Hand where
  st : HandSt := .idle
  x : Sparse Word := []
  /-- lane l of `vn` at 8n + l -/
  v : Sparse Word := []
  k : Sparse (BitVec 80) := []
  pc : Nat := 0
  hs : Nat := 0
  suit : Nat := 0
  /-- the vector that started it -/
  vec : Nat := 0
  deriving DecidableEq, Repr

/-! ### Barn and crib (chapter 09) -/

/-- An originator's copies of the banked push registers (R282). -/
structure NvBank where
  ctl : Nat := 0xFF
  addr : Nat := 0
  dl : Nat := 0
  res : Nat := 0
  deriving DecidableEq, Repr

/-- An entry of the commit buffer (R282 to R284). -/
structure NvEntry where
  crib : Bool
  addr : Nat
  mask : Nat
  data : Nat
  seal_ : Bool
  deriving DecidableEq, Repr

/-- A barn word that a commit will write: of an entry of the buffer or of a record; the last of its record. -/
structure NvWord where
  addr : Nat
  data : Nat
  entry : Bool
  last : Bool
  deriving DecidableEq, Repr

/-- A running commit (R287): its number and kind (0 timer, 1 command, 2 power-fail, 3 reset), its start, the cycle of
its energy boundary, the words still to write, the cycle from which they are written and how many were since, and
the map and configuration records that it carries. Where a warning came while the commit before it wrote its close record:
that one's number, its start, and how many words end it (R289). -/
structure Commit where
  num : Nat
  kind : Nat
  start : Nat
  bnd : Option Nat := none
  todo : List NvWord := []
  t0 : Nat
  done : Nat := 0
  map : Bool := false
  rev : Option (List Nat) := none
  owed : Option (Nat × Nat × Nat) := none
  deriving DecidableEq, Repr

/-- Words that the log engine or the yield forecast writes (R457): since when, how many were, and those left. -/
structure NvRun where
  t0 : Nat := 0
  done : Nat := 0
  todo : List NvWord := []
  deriving DecidableEq, Repr

/-- A crib page program: its page, the bytes it changes, and how many entries it holds. -/
structure CribPage where
  page : Nat
  bytes : List (Nat × Nat)
  entries : Nat
  deriving DecidableEq, Repr

/-- A crib copy in progress (R301): its start and the page programs still to be made. -/
structure CribCopy where
  t0 : Nat
  todo : List CribPage
  deriving DecidableEq, Repr

/-! ### Calendars and backup domain (chapter 10) -/

/-- A write to a backup register that waits for the next XTAL32 edge (R334): originator, address, word. -/
structure BkWrite where
  orig : Nat
  addr : Nat
  word : Word
  deriving DecidableEq, Repr

/-- A TB0 load that waits for the next accepted PPS edge (R311): originator, seconds, nanoseconds. -/
structure TbLoad where
  orig : Nat
  sec : Nat
  ns : Nat
  deriving DecidableEq, Repr

/-- One enclosure loop (R414): its consecutive mismatching and matching bits, and whether it may give an event. -/
structure Loop where
  bad : Nat := 0
  good : Nat := 0
  armed : Bool := true
  deriving DecidableEq, Repr

/-! ### Modem (chapter 12) -/

/-- A queued transmit descriptor (R381 to R383): the model's number of its post, its address and words 0 and 1, its SEQ
once used, attempts, whether it awaits an acknowledgement, when that is due and at the latest, whether it is to be
retried, and the consecutive periods in which it fitted no run. -/
structure TxDesc where
  id : Nat
  addr : Nat
  w0 : Nat
  pay : Nat
  seq : Nat := 0
  att : Nat := 0
  sent : Bool := false
  due : Option Nat := none
  lim : Nat := 0
  retry : Bool := false
  miss : Nat := 0
  deriving DecidableEq, Repr

/-- A transmission in progress: its first preamble sample, its symbols, its MAC frame without the CRC, and the
descriptor it carries. -/
structure ModTx where
  start : Nat
  syms : Nat
  bytes : List Byte
  desc : Option Nat
  deriving DecidableEq, Repr

/-- The modem (chapter 12). -/
structure ModemSt where
  /-- descriptors, oldest first; `DUO_TXPOST` results by originator -/
  duoQ : List TxDesc := []
  duoId : Nat := 0
  duoRes : Sparse Nat := []
  /-- next SEQ by destination; 1 + SEQ last accepted by source -/
  duoSeq : Sparse Nat := []
  duoLast : Sparse Nat := []
  /-- acknowledgements for the next beacon (node, SEQ); SEQ that a node owes the coordinator -/
  duoAcks : List (Nat × Nat) := []
  duoOwe : Option Nat := none
  /-- first symbol of the current beacon period; beacons run; its grants are valid; slot owners -/
  bcnClk : Nat := 0
  bcnRun : Bool := false
  bcnOk : Bool := false
  grants : List Nat := []
  /-- consecutive missed beacons; the domain joined or heard -/
  duoMiss : Nat := 0
  duoDom : Nat := 0
  duoTx : Option ModTx := none
  /-- frames sent: start and symbols, newest first (R385) -/
  duoDuty : List (Nat × Nat) := []
  /-- energies of the last 32 symbols not erased, newest first; the last symbol was erased; end of the blanking -/
  duoE : List Nat := []
  duoEr : Bool := false
  duoBlank : Nat := 0
  /-- beacons that carried join answer j; beacons since a join was sent; beacons waited since; the last join frame -/
  joinBc : Sparse Nat := []
  joinN : Option Nat := none
  joinWait : Option Nat := none
  joinAt : Option Nat := none
  /-- the cycle at which the misdeal unit last stopped -/
  msdOff : Option Nat := none
  deriving DecidableEq, Repr

/-! ### Rings and deals (chapter 11) -/

/-- A frame between its delimiters (R339): the header words and the payload. -/
structure Frame where
  w0 : Nat
  w1 : Nat
  w2 : Nat
  pay : List Word
  deriving DecidableEq, Repr

/-- A request slot (R346): the model's number of the request, its ring and frame; of a BULK write, its data frames and
whether the last has come; and whether it is executed and only its response waits. -/
structure Request where
  id : Nat
  ring : Nat
  frame : Frame
  data : List Frame := []
  last : Bool := true
  busy : Bool := false
  deriving DecidableEq, Repr

/-- A kept response (R345): the ring and tag of its request, when it was sent, its frames. -/
structure Kept where
  ring : Nat
  tag : Nat
  at_ : Nat
  frames : List Frame
  deriving DecidableEq, Repr

/-- A frame that leaves a transmitter: its ring, and 0 good, 1 with a bit inverted after its CRC was formed, 2 ended by
the abort delimiter. -/
structure TxFrame where
  ring : Nat
  frame : Frame
  bad : Nat := 0
  deriving DecidableEq, Repr

/-- A frame that the misdeal unit holds (R460): until when, and whether the next frame lets it go. -/
structure HeldFrame where
  tx : TxFrame
  due : Nat
  reorder : Bool
  deriving DecidableEq, Repr

/-- The unacknowledged EVENT frame (R350, R402): tag, frame fields, attempt, the cycle and ring it was last sent. -/
structure EvOut where
  tag : Nat
  ev : EventFrame
  att : Nat
  at_ : Nat
  ring : Nat
  deriving DecidableEq, Repr

/-- The ring interfaces (chapter 11). -/
structure RingSt where
  /-- request slots in arrival order (R346) -/
  reqs : List Request := []
  reqId : Nat := 0
  kept : List Kept := []
  /-- frames sent in the present cycle; frames held by the misdeal unit -/
  txNow : List TxFrame := []
  txHeld : List HeldFrame := []
  evOut : Option EvOut := none
  /-- cycles of the last SYNC frame sent and accepted (R353, R355) -/
  syncTx : Option Nat := none
  syncRx : Option Nat := none
  /-- per ring: 1 + the cycle of the last hop measurement (R354); the cycle at which training began (R337) -/
  hopAt : Sparse Nat := []
  trainAt : Sparse Nat := []
  deriving DecidableEq, Repr

/-- A play (R359 to R362): its words, its MAC, its arrival, what the verification found, and who is answered: a host
request, or a hand and its destination register. -/
structure Play where
  word : Nat
  nsec : Nat
  sec : Nat
  mac : Option (List Byte)
  at_ : Nat
  ok : Option Bool := none
  req : Option Nat := none
  hand : Option (Nat × Nat × Nat) := none
  deriving DecidableEq, Repr

/-- An open or held deal (R357): its owner (0 to 3 a logical plough, 8 the host), entries, SEED, opening and timeout, the
play being checked, the play held, the end of its checks, and the cycle of the seed play request it takes. -/
structure Deal where
  owner : Nat
  entries : List (Nat × Word) := []
  seed : Bool := false
  openAt : Nat
  tmo : Nat
  checking : Option Play := none
  play : Option Play := none
  chkEnd : Nat := 0
  trig : Option Nat := none
  deriving DecidableEq, Repr

/-- The deal ledger: its deal, the committed ceiling of `DEAL_ANONCE`, and a ceiling whose commit has not closed
(R361). -/
structure DealSt where
  deal : Option Deal := none
  dealCeil : Nat := 0
  dealCeilNew : Option Nat := none
  deriving DecidableEq, Repr

/-! ### Start-up and update (chapter 15) -/

/-- What follows when the records of an update job are committed (R438 to R443). -/
inductive UpdFin
  /-- nothing -/
  | done
  /-- a block's bytes: the marker that acknowledges it, of slot `slot`, and the BULK request -/
  | block (slot : Nat) (mark : List Nat) (req : Nat)
  /-- a block's marker: the request is answered OK -/
  | acked (slot : Nat) (mark : List Nat) (req : Nat)
  /-- a marker after verification: VDONE, or VFAIL -/
  | verified (slot : Nat) (mark : List Nat) (ok : Bool)
  /-- the settings bank is cleared: then the marker is written -/
  | bank (slot : Nat) (mark : List Nat)
  /-- an activation's selector (R441) -/
  | activate (sel : List Nat)
  /-- a confirmation's selector, and the request that waits (R443) -/
  | confirm (sel : List Nat) (req : Option Nat) (words : Nat)
  /-- a reversion's selector (R443) -/
  | revert (sel : List Nat)
  deriving DecidableEq, Repr

/-- A job of the update engine: words still to push, records to make when it starts (their place in Table 15-2 and
payload), the addresses pushed and not yet committed, and what follows. -/
structure UpdJob where
  words : List (Nat × Nat) := []
  recs : List (Nat × List Nat) := []
  sent : List Nat := []
  live : Bool := false
  fin : UpdFin := .done
  deriving DecidableEq, Repr

/-- A pending activation (R440): WHEN, furrow, the target (an angle word, or seconds and nanoseconds), the window. -/
structure UpdAct where
  when_ : Nat
  fw : Nat
  t0 : Nat
  t1 : Nat
  win : Nat
  deriving DecidableEq, Repr

/-- Start-up and the update engine. -/
structure UpdSt where
  /-- start-up: 0 before a release, 1 `GPIO00` wait, 2 slot selection, 3 image load, 4 calibration, settling and furrow
  lock, 5 recovery mode, 6 done; the cycle the wait began; `HEALTHY` -/
  boot : Nat := 0
  bootAt : Nat := 0
  healthy : Bool := false
  /-- payloads of the selector (none: empty) and of the two markers in force; the slot step 2 has chosen -/
  updSel : List Nat := []
  updMark : Sparse (List Nat) := []
  bootSlot : Option Nat := none
  /-- jobs, oldest first; pending activation; verification in progress since; NBLK of the delta being received; bytes of
  its current block's output -/
  updQ : List UpdJob := []
  updAct : Option UpdAct := none
  updVer : Option Nat := none
  updNblk : Nat := 0
  /-- an image is being loaded after an activation or a reversion (R441) -/
  updLoad : Bool := false
  /-- the ploughs stop for it, and the registers of Table 15-7 have yet to return to reset (R441) -/
  updStop : Bool := false
  /-- trial: seconds counted by the cycle `trialClk`, progress records pushed since (R442) -/
  trialBase : Nat := 0
  trialClk : Nat := 0
  trialN : Nat := 0
  deriving DecidableEq, Repr

/-! ### The whole state -/

/-- The clocks and resets as they run (chapter 01). -/
structure ClockSt where
  /-- main PLL locked, in holdover; REFIN present; XTAL32 runs, since (R24, R25, R327, R483) -/
  pllLock : Bool := true
  pllHold : Bool := false
  /-- the cycle in which the present holdover began, and recent ones that are over (R25, T_CLKH) -/
  pllAt : Nat := 0
  pllWas : List (Nat × Nat) := []
  refin : Bool := true
  xtlRun : Bool := true
  xtlAt : Nat := 0
  /-- an accepted software reset waits: the cycle of the write (R22); the cause of the last reset: 0 power-on, 1 `RST_N`,
  2 software (Table 16-4) -/
  rstReq : Option Nat := none
  rstCause : Nat := 0
  /-- cycle count at the last release of reset: `CYCRD` counts from it (R272) -/
  clk0 : Nat := 0
  deriving DecidableEq, Repr

/-- Furrows, timebase counters and the sowing engine (chapters 02 and 10). -/
structure FurrowSt where
  /-- the four furrows -/
  fur : Sparse Furrow := []
  tb0 : TB := {}
  tb1 : TB := {}
  /-- TB0's history, newest first: how it ran from the cycles in which it was changed (R48, R49) -/
  tbH : List TbSeg := []
  /-- seeds waiting for dispatch, and dispatched seeds whose DELAY runs -/
  seedQ : List SeedWait := []
  seedD : List SeedPend := []
  /-- the cycle of the last dispatch and the receiving blocks it has served (R67) -/
  dispClk : Nat := 0
  dispUsed : List Nat := []
  /-- levels of SYNCOUT0 and SYNCOUT1 -/
  sync0 : Bool := false
  sync1 : Bool := false
  /-- each reader's seed shadow (R65) -/
  shSeed : Sparse (Option Shadow) := []
  deriving DecidableEq, Repr

/-- Interrupts, alarms, hedges and tamper evidence (chapters 13 and 14). -/
structure AlarmSt where
  /-- levels of the interrupt sources at the end of the last cycle, as a bit mask (R399) -/
  lvl : Nat := 0
  /-- claimed sources with their claimants (R396) -/
  claims : List (Nat × Nat) := []
  alert0 : Alert := {}
  alert1 : Alert := {}
  /-- alarm records and event records that wait for the log engine (R401, R457) -/
  alq : List LogRec := []
  evl : List LogRec := []
  /-- EVENT frames that wait (R402) -/
  evWait : List EventFrame := []
  /-- causes that enter the safe state in the next cycle, and the cycle of the last entry (R411, R412) -/
  safeQ : List Nat := []
  safeClk : Nat := 0
  /-- cycles of the last integrity mismatches, newest first (R420) -/
  bicT : List Nat := []
  /-- per tamper category: the cycle its last OTP bit fell due in this power-up (R417) -/
  otpDue : Sparse (Option Nat) := []
  /-- the category whose OTP bit is being burned, and the repetitions made; categories whose bit waits for the next
  power-up (R417) -/
  burnCat : Option Nat := none
  burnTry : Nat := 0
  burnFail : Nat := 0
  /-- the four enclosure loops; consecutive readings beyond the magnetic and the temperature limits (R413, R414) -/
  loops : Sparse Loop := []
  magN : Nat := 0
  tempN : Nat := 0
  /-- the cycles from which the next magnetic and temperature readings are made (R413) -/
  magDue : Nat := 0
  tempDue : Nat := 0
  /-- addresses of words that a fixed-function writer fails to write in the present cycle (R419) -/
  ffDrop : List Nat := []
  /-- start of the OTP burn in progress (R417); the test-access instruction in force: 0 BYPASS, 1 IDCODE,
  2 SAMPLE/PRELOAD, 3 EXTEST, 4 another (R415) -/
  burnAt : Nat := 0
  tap : Nat := 1
  deriving DecidableEq, Repr

/-- Channels, references and comparators (chapters 03 and 04). -/
structure ChanSt where
  /-- the 48 channels -/
  chan : Sparse Chan := []
  /-- the gang mode in force of each pair (R105) -/
  gang : Sparse Nat := []
  cal : Option Cal := none
  /-- channels whose enable calibration waits for a running one (R75) -/
  calWait : List Nat := []
  /-- start of the rotation timer: the end of the last all-channel calibration (R82) -/
  rotT0 : Option Nat := none
  refs : RefArb := {}
  /-- the retirement map has changed since the last commit (R94) -/
  mapDirty : Bool := false
  /-- the trip queue: comparator and timestamp, oldest first (R135); each reader's shadow -/
  tripQ : List (Nat × List Word) := []
  shTrip : Sparse (Option Shadow) := []
  /-- delivery cycle of the sample that completed each comparator's count (R134) -/
  cmpClk : Sparse Nat := []
  deriving DecidableEq, Repr

/-- The tally, the granary and the pulse outputs (chapter 05). -/
structure TallySt where
  /-- granary accumulators (R156, bins 0 to 4095), metadata of the program bins 1024 to 4095 -/
  bins : Sparse Acc96 := []
  binMeta : Sparse Word := []
  field : Sparse Field := []
  /-- rounds completed since reset, and the cycle of the last round's end (R143) -/
  rounds : Nat := 0
  roundClk : Nat := 0
  snaps : List SnapReq := []
  /-- the snapshot bank: word w of offset o of field f at 256 f + 4 o + w (R163) -/
  snapBank : Sparse Word := []
  /-- `TAL_SNAPSEL` of each originator (R163) -/
  snapSel : Sparse Nat := []
  /-- granary shadows of each reader, live bins and snapshot window; the sample-count shadow (R157, R176) -/
  shBin : Sparse (Option Shadow) := []
  shSnap : Sparse (Option Shadow) := []
  shScnt : Sparse (Option Shadow) := []
  /-- the half cycle each half-cycle RMS value was last published for (R167) -/
  hcLast : Sparse Nat := []
  pulse : Sparse Pulse := []
  /-- spare hand-overs in force: the output that ball 12 + k carries (R174) -/
  plsSpare : Sparse (Option Nat) := []
  /-- the cycle since which each ball `PLSn` has been driven as it is (R171); levels that failed readback, by ball (R173) -/
  plsAt : Sparse Nat := []
  plsBack : Nat := 0
  deriving DecidableEq, Repr

/-- Thresher, silo, hopper, gleaner and ploughs (chapters 06 to 08). -/
structure EngineSt where
  /-- thresher: queued and running jobs, oldest first; lanes; the transform in progress; results of posts by originator;
  busy intervals of the last two seconds; the completion request (R393) -/
  thrQ : List Job := []
  thrId : Nat := 0
  lanes : Sparse (Option Lane) := []
  thrRun : Option ThrRun := none
  thrRes : Sparse Nat := []
  thrBusy : List (Nat × Nat) := []
  thrIrq : Bool := false
  /-- resampler: 1 + the number of the last sample written of furrow n, channel c, at 64n + c -/
  rsPos : Sparse Nat := []
  silo : Sparse Silo := []
  /-- hopper queues, and sources whose last entry was dropped (R227, R230) -/
  hop : Sparse (List HopE) := []
  hopGap : Sparse Bool := []
  /-- the present cycle's arrivals in the order in which they are taken, and queues and gaps before them (R230); queues
  whose quota was lowered below their count (R227) -/
  hopNow : List HopArr := []
  hopWas : Sparse (List HopE) := []
  hopGapWas : Sparse Bool := []
  hopShut : Sparse Bool := []
  gln : Gln := {}
  hand : Sparse Hand := []
  plough : Sparse Plough := []
  logi : Sparse Logi := []
  /-- `PLG_START` results by originator -/
  startRes : Sparse Nat := []
  /-- counters of `PLG_OVSTAT` that have advanced since the last second boundary, and that second (R238) -/
  ovEv : Nat := 0
  ovSec : Nat := 0
  /-- the last scrub of field RAM (R219) -/
  ramScrub : Nat := 0
  deriving DecidableEq, Repr

/-- Commit buffer, barn and crib (chapter 09). -/
structure NvmSt where
  /-- banked push registers by originator: ploughs 0 to 4, rings 5 and 6, deal ledger 14, update engine 15 (R282) -/
  nvBank : Sparse NvBank := []
  /-- the commit buffer in push order; the running commit; held starts (bit 0 timer, bit 1 command) -/
  nvBuf : List NvEntry := []
  nvC : Option Commit := none
  nvHeld : Nat := 0
  /-- number of the last commit started; rounds counted at the last timer start -/
  nvNum : Nat := 0
  nvT0 : Nat := 0
  /-- crib page programs, the first in progress since -/
  cribQ : List CribPage := []
  cribAt : Nat := 0
  cribCopy : Option CribCopy := none
  cribNext : Nat := 0
  /-- a register of the revenue configuration has changed since the last commit that closed (R287) -/
  revDirty : Bool := false
  /-- words written outside a commit (R457); power was lost, or `RST_N` fell, without a warning (R290) -/
  engRun : NvRun := {}
  noPf : Bool := false
  /-- `PFWARN` low at the ball, taken, the cycle it was taken, and the cycle of its release (R289, R290) -/
  pfBall : Bool := false
  pfTaken : Bool := false
  pfClk : Nat := 0
  pfRel : Option Nat := none
  /-- taken-over barn rows: 1 + the crib takeover row; failed rows (R300) -/
  nvTaken : Sparse Nat := []
  nvFailed : List Nat := []
  /-- rows with corrected words at a scrub, with its cycle; a commanded scrub; the last scrub (R298, R299) -/
  nvScrubs : List (Nat × Nat) := []
  scrubReq : Bool := false
  scrubClk : Nat := 0
  deriving DecidableEq, Repr

/-- Calendars, timebase servo and backup domain (chapter 10). -/
structure CalSt where
  /-- UTC calendar: seconds since 2000-01-01 in calendar seconds, and the inserted second 60 (R313, R315) -/
  utc : Nat := 0
  cal60 : Bool := false
  /-- sub-second count at a cycle, and the edges of a backward hold from it (R320) -/
  subN : Nat := 0
  subAt : Nat := 0
  holdN : Nat := 0
  /-- FOLD since DST was cleared, and the seconds since (R317); a DST command that waits for the second (1 set, 2 clear) -/
  fold : Bool := false
  foldN : Nat := 0
  dstReq : Nat := 0
  /-- the UTC second at which DST last changed: its hour of local time is the skipped or the repeated one (R317) -/
  dstAt : Option Nat := none
  /-- writes to the backup domain that wait for an XTAL32 edge (R334); calendar shadows by reader (R321) -/
  bkQ : List BkWrite := []
  shCal : Sparse (Option Shadow) := []
  /-- plough adjustments of the last 24 h: cycle and magnitude in 1/32,768 ns (R328) -/
  adj : List (Nat × Nat) := []
  /-- TB0 servo (R307, R308): pending load, last accepted edge, consecutive good edges, consecutive missing or outlying
  ones, and whether this ACQUIRE has stepped -/
  tbLoad : Option TbLoad := none
  ppsClk : Option Nat := none
  ppsDue : Nat := 0
  ppsGood : Nat := 0
  ppsBad : Nat := 0
  ppsStep : Bool := false
  /-- the domains are isolated, and when that ends (R331); VBAT supplies the backup domain (R329) -/
  iso : Bool := false
  isoEnd : Option Nat := none
  onVbat : Bool := false
  deriving DecidableEq, Repr

/-- Yield forecast and misdeal unit (chapter 16). -/
structure HealthSt where
  /-- yield forecast (R449 to R454): programs of each crib page; lifetime excursions of slice s of channel c at 5c + s;
  daily values, newest first; daily VBAT in mV; items in alert; ring errors of the day; modem symbols of the day,
  received and erased; the cycle at which the day began -/
  cribProg : Sparse Nat := []
  lifeExc : Sparse Nat := []
  yldHist : List (Nat × List Nat) := []
  yldVbat : List (Nat × Int) := []
  yldIn : Nat := 0
  ringErr : Sparse Nat := []
  symRx : Nat := 0
  symEr : Nat := 0
  dayClk : Nat := 0
  /-- plough swaps, lifetime (R454) -/
  lifeSwap : Nat := 0
  /-- misdeal unit (R459, R460): the cycle at which its time ends; the mismatches injected in a second, and that second -/
  msdEnd : Nat := 0
  msdBicN : Nat := 0
  msdBicSec : Nat := 0
  deriving DecidableEq, Repr

/-- The device. Times are fabric cycles since the release of the first power-on reset. -/
structure State extends
    ClockSt, FurrowSt, AlarmSt, ChanSt, TallySt, EngineSt, NvmSt, CalSt, HealthSt, ModemSt, RingSt, DealSt, UpdSt
    where
  /-- the commands that wait, first in, first out -/
  pending : List Instr := []
  /-- the model's own clock: fabric cycles since the first release -/
  clk : Nat := 0
  /-- the model's own count of values drawn from `Config.freeWord` -/
  fresh : Nat := 0
  /-- every register and the sowing table, by byte address -/
  regs : Sparse Word := []
  /-- every byte array: field RAM, silo, barn, crib, tiles (at their host aliases) -/
  mem : List Host.Cell := []
  /-- the word each reader's last read returned, by originator code (Table 01-7) -/
  rdata : Sparse Word := []
  /-- flags that software cleared in the present cycle, by register address and bit (R403) -/
  clrNow : List (Nat × Nat) := []
  /-- flags that hardware set in the present cycle (R403); full counters that an event reached in it (R404), their bit
  numbered from 32 -/
  setNow : List (Nat × Nat) := []
  /-- the ordered requests carried out in the present cycle, each as the object it went to and its place in that
  object's order (R17, R66, R136, R208, R216, R230, R276) -/
  taken : List (Nat × Nat) := []
  /-- the registers as they stood when the present cycle began (R240); a counter that a read of it has cleared is 0 (R404) -/
  regsWas : Sparse Word := []
  /-- the internal reset is held (R468, R469) -/
  inReset : Bool := false
  deriving DecidableEq, Repr

/-- The device at the release of its first power-on reset: every field at its default, which is the value the manual
gives, or the one an entry of the assumption log names. -/
def State.reset : State := {}

end Sys2Proof.Machine
end

