-- ==== Sys2Proof/Machine/Time.lean ====
section
/-!
DEFINITION. The clock arithmetic of Table 01-8: how many fabric cycles a time takes, and which microsecond tick a
fabric cycle lies in. The fabric clock runs at 491.52 MHz.
-/
namespace Sys2Proof

/-- Fabric cycles in one second (Table 01-8). -/
abbrev cySec : Nat := 491520000

/-- Fabric cycles in one millisecond. -/
abbrev cyMs : Nat := 491520

/-- Fabric cycles of `n` microseconds, rounded up: a time of n µs has passed when this many cycles have. -/
def cyUs (n : Nat) : Nat := (n * 12288 + 24) / 25

/-- Fabric cycles of `n` nanoseconds, rounded up. -/
def cyNs (n : Nat) : Nat := (n * 12288 + 24999) / 25000

/-- The number of microsecond ticks up to fabric cycle `c`: 25 ticks take 12,288 cycles, evenly spread (Table 01-8). -/
def usTick (c : Nat) : Nat := c * 25 / 12288

/-- Fabric cycles of 24 hours. -/
abbrev cyDay : Nat := 86400 * cySec

/-- The period of the fine stream in fabric cycles: 32 kS/s (Table 01-2). -/
abbrev cyFine : Nat := 15360

/-- The period of the coarse and wide streams: 1.024 MS/s. -/
abbrev cyCoarse : Nat := 480

/-- The frame period of a channel's slices: 2.048 MHz (Table 01-8). -/
abbrev cyFrame : Nat := 240

end Sys2Proof
end

