-- ==== Sys2Proof/Machine/Ops.lean ====
section
/-!
DEFINITION. The named operations over the state: registers and their fields, flags and counters (R8, R403), memory,
furrow angles and timestamps (R28 to R50), the event log's queue (R457), hedge violations (R408), tamper events
(R416) and integrity mismatches (R418).
-/
namespace Sys2Proof.Machine

/-! ### Registers -/

/-- The word stored for the register at byte address `a`. -/
def State.rdW (s : State) (a : Nat) : Word := Sparse.get regReset a s.regs

/-- `s` with word `w` stored for the register at `a`. -/
def State.wrW (s : State) (a : Nat) (w : Word) : State := { s with regs := Sparse.set regReset a w s.regs }

/-- The value of a field. -/
def State.rd (s : State) (f : Fld) : Nat := bits (s.rdW f.addr).toNat f.hi f.lo

/-- The value that a field had when the present cycle began. -/
def State.rdWas (s : State) (f : Fld) : Nat := bits (Sparse.get regReset f.addr s.regsWas).toNat f.hi f.lo

/-- `s` with `v` in a field; the register's other bits keep their values. -/
def State.wr (s : State) (f : Fld) (v : Nat) : State := s.wrW f.addr (putBits (s.rdW f.addr) f.hi f.lo v)

/-- The field is not 0. -/
def State.on (s : State) (f : Fld) : Bool := decide (s.rd f ≠ 0)

/-- The part is a -FX (R1, Table 00-2): its misdeal unit does not exist and its port is not unlocked (R424). -/
def State.fx (s : State) : Bool := decide (s.rd SYS_ID_VARIANT = 1)

/-- The two's complement value of a field. -/
def State.rdS (s : State) (f : Fld) : Int := sx (f.hi + 1 - f.lo) (s.rd f)

/-- `s` with the two's complement form of `z` in a field. -/
def State.wrS (s : State) (f : Fld) (z : Int) : State := s.wr f (tc (f.hi + 1 - f.lo) z)

/-- A counter field advanced by `n`, saturating at its largest value. An event that a full counter no longer shows is
noted for a read of the same cycle (R404). -/
def State.add (s : State) (f : Fld) (n : Nat) : State :=
  { s.wr f (satU (f.hi + 1 - f.lo) (s.rd f + n)) with
    setNow := if s.rd f + n < 2 ^ (f.hi + 1 - f.lo) then s.setNow else (f.addr, 32 + f.lo) :: s.setNow }

/-- A counter field advanced by 1, saturating (R404). -/
def State.inc (s : State) (f : Fld) : State := s.add f 1

/-- The interrupt source that a W1C flag at register `a`, bit `i`, holds (Table 13-1), if any. -/
def flagSource (a i : Nat) : Option Nat :=
  if a = SYS_CLKSTAT then some 1
  else if a = ANA_STAT then some (if i = 1 then 2 else 3)
  else if a = SLC_STAT then some 4
  else if a = FLT_STAT then some 5
  else if a = FLT_TRQSTAT then some 6
  else if FLT_CMPSTAT 0 ≤ a ∧ a ≤ FLT_CMPSTAT 95 ∧ (a - FLT_CMPSTAT 0) % (FLT_CMPSTAT 1 - FLT_CMPSTAT 0) = 0 then
    some (8 + (a - FLT_CMPSTAT 0) / (FLT_CMPSTAT 1 - FLT_CMPSTAT 0) / 2)
  else if a = FUR_STAT 0 then some 56
  else if a = FUR_STAT 1 then some 57
  else if a = FUR_STAT 2 then some 58
  else if a = FUR_STAT 3 then some 59
  else if a = SOWC_STAT then some 60
  else if a = TAL_STAT then
    some (if i = TAL_STAT_HCEV.lo then 61 else if i = TAL_STAT_SNAPDONE.lo then 62 else 63)
  else if a = PLS_STAT then some (if i < 16 then 64 else 65)
  else if a = THR_STAT then some (if i = THR_STAT_DONE.lo then 66 else 67)
  else if a = SIL_STAT then
    some (if SIL_STAT_FRZ.lo ≤ i ∧ i ≤ SIL_STAT_FRZ.hi then 68 + (i - SIL_STAT_FRZ.lo)
      else if SIL_STAT_WF.lo ≤ i ∧ i ≤ SIL_STAT_WF.hi then 76 + (i - SIL_STAT_WF.lo) else 84)
  else if a = PLG_STAT then some 85
  else if a = PLG_OVSTAT then some 86
  else if a = HOP_STAT then some 87
  else if a = GLN_WSTAT 0 then some 88
  else if a = GLN_WSTAT 1 then some 89
  else if a = GLN_WSTAT 2 then some 90
  else if a = GLN_WSTAT 3 then some 91
  else if a = GLN_STAT then some 92
  else if a = NVM_STAT then
    some (if i = NVM_STAT_DONE.lo then 93 else if i = NVM_STAT_PFC.lo then 94 else 95)
  else if a = RTC_STAT then
    some (if i = RTC_STAT_ALM0.lo then 96 else if i = RTC_STAT_ALM1.lo then 97 else 98)
  else if a = RTC_TBSTAT then some 99
  else if a = BKP_STAT then some 100
  else if a = BKP_MISSED then some 100
  else if a = BAL_LSTAT 0 then some 101
  else if a = BAL_LSTAT 1 then some 102
  else if a = BAL_PLOT then some 103
  else if a = BAL_SYNCSTAT then some 103
  else if a = DEAL_STAT then some (if i = DEAL_STAT_APPLIED.lo then 104 else 105)
  else if a = DUO_STAT then
    some (if i = DUO_STAT_RXDONE.lo then 106
      else if i = DUO_STAT_TXDONE.lo ∨ i = DUO_STAT_TXFAIL.lo then 107 else 108)
  else if a = HDG_STAT then some 109
  else if a = TMP_STAT then some (if i = TMP_STAT_BIC.lo then 111 else 110)
  else if a = YLD_STAT then some (if i = YLD_STAT_SWAP.lo then 113 else 112)
  else if a = MSD_STAT then some 114
  else none

/-- The repeat counter of the source of the flag at `a`, bit `i`, advances (R403). -/
def State.repeatFlag (s : State) (a i : Nat) : State :=
  match flagSource a i with
  | some n => s.inc (INT_REP_of n)
  | none => s

/-- Hardware sets the flag at register `a`, bit `i`; where software cleared it in the same cycle the set wins and the
source's repeat counter advances (R403). -/
def State.setBit (s : State) (a i : Nat) : State :=
  let s1 := { s.wr (bitFld a i) 1 with setNow := (a, i) :: s.setNow }
  if s.clrNow.contains (a, i) then s1.repeatFlag a i else s1

/-- Hardware sets a one-bit flag. -/
def State.flag (s : State) (f : Fld) : State := s.setBit f.addr f.lo

/-- Software clears the flag at register `a`, bit `i`, unless hardware set it in the same cycle (R403). -/
def State.clrBit (s : State) (a i : Nat) : State :=
  if s.setNow.contains (a, i) then s.repeatFlag a i
  else { s.wr (bitFld a i) 0 with clrNow := (a, i) :: s.clrNow }

/-- A value that the manual leaves open: the next free value, and the state that has drawn it. -/
def State.draw (s : State) : Word × State := (Config.freeWord s.fresh, { s with fresh := s.fresh + 1 })

/-- The originator code of a register access (Table 01-7). -/
def origCode : Orig → Nat
  | .plough p _ => p
  | .host r => 5 + r

/-- The key of a reader's shadows: each hand is a reader of its own (R262), and so is the host on each ring. -/
def readerOf : Orig → Nat
  | .plough p h => 16 + 16 * p + h
  | .host r => 5 + r

/-- `s` with `w` as the word that reader `o`'s read returned. -/
def State.setRdata (s : State) (o : Nat) (w : Word) : State :=
  { s with rdata := Sparse.set (fun _ => 0) o w s.rdata }

/-! ### Memory -/

/-- What an unlisted byte of memory reads as. DESIGN CHOICE (unsafe): 0; notes: assumption 2. -/
def memDefault (_ : Nat) : Byte := 0

/-- Memory in its canonical form. -/
abbrev Memory.wf (m : List Host.Cell) : Bool := Sparse.wf memDefault m

/-- One byte of memory. -/
def State.byte (s : State) (a : Nat) : Byte := Sparse.get memDefault a s.mem

/-- `s` with byte `b` at `a`. -/
def State.setByte (s : State) (a : Nat) (b : Byte) : State := { s with mem := Sparse.set memDefault a b s.mem }

/-- `n` bytes from `a`, ascending. -/
def State.bytes (s : State) (a n : Nat) : List Byte := (List.range n).map fun i => s.byte (a + i)

/-- The bytes `bs` stored from `a`, ascending. -/
def memPut : List Byte → Nat → List Host.Cell → List Host.Cell
  | [], _, m => m
  | b :: bs, a, m => memPut bs (a + 1) (Sparse.set memDefault a b m)

/-- `s` with the bytes `bs` stored from `a`. -/
def State.setBytes (s : State) (a : Nat) (bs : List Byte) : State := { s with mem := memPut bs a s.mem }

/-- The little-endian number in the `n` bytes at `a` (R5). -/
def State.load (s : State) (a n : Nat) : Nat := ofLe (s.bytes a n)

/-- The low `n` bytes of `v` stored at `a`, little-endian (R5). -/
def State.store (s : State) (a n v : Nat) : State := s.setBytes a (leBytes n v)

/-- A fixed-function writer stores the low `n` bytes of `v` at `a`, within one word; a word whose write fails in this cycle
keeps its content (R419). -/
def State.ffStore (s : State) (a n v : Nat) : State := if s.ffDrop.contains (a / 4 * 4) then s else s.store a n v

/-- The 32-bit word at `a`. -/
def State.load32 (s : State) (a : Nat) : Nat := s.load a 4

/-- `v` stored as a 32-bit word at `a`. -/
def State.store32 (s : State) (a v : Nat) : State := s.store a 4 v

/-- The first byte of the host's alias of plough `p`'s tile (R19). -/
def tileBase (p : Nat) : Nat := 0x1200000 + 0x10000 * p

/-! ### Time and angle -/

/-- Ticks of a timebase at fabric cycle `c` (R303, R305: trims spread evenly). -/
def TB.at (t : TB) (c : Nat) : Nat :=
  let n := (c - t.t0) / 2
  ((t.ticks : Int) + n + (n : Int) * t.trim / 1000000000).toNat

/-- A timebase running on from cycle `c` with trim `z`. -/
def TB.retrim (t : TB) (c : Nat) (z : Int) : TB := { t0 := c, ticks := t.at c, trim := z }

/-- Ticks of TB0 in one second. -/
abbrev tickSec : Nat := 245760000

/-- Seconds of a tick count. -/
def secOf (ticks : Nat) : Nat := ticks / tickSec

/-- Nanoseconds within the second of a tick count, rounded to nearest (R303). -/
def nsecOf (ticks : Nat) : Nat := (2 * (ticks % tickSec) * 3125 + 768) / (2 * 768)

/-- Ticks that stand for `sec` seconds and `ns` nanoseconds, rounded to nearest. -/
def ticksOf (sec ns : Nat) : Nat := sec * tickSec + (2 * ns * 768 + 3125) / (2 * 3125)

/-- What a furrow holds. -/
def State.furrow (s : State) (n : Nat) : Furrow := Sparse.get (fun _ => {}) n s.fur

/-- `s` with furrow `n` holding `f`. -/
def State.setFurrow (s : State) (n : Nat) (f : Furrow) : State :=
  { s with fur := Sparse.set (fun _ => ({} : Furrow)) n f s.fur }

/-- Denominator of the angle's advance: fabric cycles per second times 0.1 mHz per Hz (R29). -/
abbrev angDen : Nat := 4915200000000

/-- Angle and tine fraction of a stretch at cycle `c`, not wrapped (R29). -/
def Seg.at (g : Seg) (c : Nat) : Nat × Nat :=
  let x := g.rem + g.rate * 16777216 * (c - g.t0)
  (g.ang + x / angDen, x % angDen)

/-- The stretch of a history in which cycle `c` lies: the newest that does not start after it. -/
def segAt (c : Nat) : List Seg → Option Seg
  | [] => none
  | g :: gs => if g.t0 ≤ c then some g else match segAt c gs with
    | some h => some h
    | none => some g

/-- The angle word a furrow held at cycle `c` (R28, R30, R49); 0 before its first enable. -/
def Furrow.angle (f : Furrow) (c : Nat) : Nat :=
  match segAt c f.segs with
  | some g => (g.at c).1 % 2 ^ 64
  | none => 0

/-- The angle word of furrow `n` now. -/
def State.angle (s : State) (n : Nat) : Nat := (s.furrow n).angle s.clk

/-- How far angle `a` stands past angle `t`: the signed 64-bit difference (R30, R61). -/
def angDiff (a t : Nat) : Int := sx 64 (tc 64 ((a : Int) - t))

/-- The angle from which a furrow's angle came to its value of cycle `c` by advancing: that of the cycle before, or, where
the word was loaded in `c`, the one its load names (R29, R61). -/
def Furrow.before (f : Furrow) (c : Nat) : Nat :=
  match f.jump with
  | some (t, a) => if t = c then a else f.angle (c - 1)
  | none => f.angle (c - 1)

/-- The first cycle in which a stretch's angle word, carried on, has reached `a`; `a` is ahead of its start. -/
def Seg.reach (g : Seg) (a : Nat) : Nat :=
  let need := (angDiff a g.ang).toNat * angDen - g.rem
  let step := g.rate * 16777216
  g.t0 + (need + step - 1) / step

/-- The cycle, up to cycle `e`, in which the angle of a history last came to or past the angle word `a`. -/
def crossAt (a e : Nat) : List Seg → Option Nat
  | [] => none
  | g :: gs =>
    if e < g.t0 then crossAt a e gs
    else if angDiff g.ang a < 0 then
      if g.rate ≠ 0 ∧ g.reach a ≤ e then some (g.reach a) else none
    else match crossAt a g.t0 gs with
      | some c => some c
      | none => some g.t0

/-- The span of the angle history that the model keeps: 600 s, which holds the 128 ms of R49 and every window in a ring
of 255 cycles (R187). -/
abbrev cyHist : Nat := 600 * 491520000

/-- Drop the stretches that end before cycle `c`. -/
def pruneSegs (c : Nat) : List Seg → List Seg
  | [] => []
  | g :: gs => if g.t0 ≤ c then [g] else g :: pruneSegs c gs

/-- Whether furrow `n` follows its source with its tracking loop (R481): past its first lock, neither in holdover nor
slewing, nor held at a range limit. -/
def State.tracks (s : State) (n : Nat) : Bool :=
  s.on (FUR_CTL_EN n) && (s.furrow n).run && !s.on (FUR_STAT_HOLD n) && !s.on (FUR_STAT_RANGE n)

/-- A correction of the tracking loop runs in furrow `n` (R481). -/
def State.corrects (s : State) (n : Nat) : Bool := s.tracks n && decide (s.clk < (s.furrow n).adjEnd)

/-- The rate at which furrow `n`'s angle advances now, in 0.1 mHz: 0 before the first lock (R29), the slewed rate in a
slew (R42, Table 02-4), the last tracked frequency (R41) with the loop's correction while one runs (R481). -/
def State.furRate (s : State) (n : Nat) : Nat :=
  let f := s.furrow n
  if s.rd (FUR_CTL_EN n) = 0 ∨ f.run = false then 0
  else if s.on (FUR_STAT_SLEW n) then
    let k := match s.rd (FUR_CTL_SLEWR n) with
      | 0 => 1
      | 1 => 5
      | 2 => 20
      | _ => 50
    if f.up then f.rate * (1000 + k) / 1000 else f.rate * (1000 - k) / 1000
  else if s.corrects n then ((f.rate : Int) + f.adj).toNat
  else f.rate

/-- Furrow `n`'s history goes on from this cycle at angle `a` and tine fraction `r` with the present rate and flags; where
a correction of the tracking loop runs, at the tracked frequency from the correction's end. -/
def State.segPut (s : State) (n a r : Nat) : State :=
  let f := s.furrow n
  let g : Seg :=
    { t0 := s.clk, ang := a, rem := r, rate := s.furRate n,
      hold := s.on (FUR_STAT_HOLD n), slew := s.on (FUR_STAT_SLEW n),
      unlk := s.rd (FUR_STAT_LOCK n) = 0 || s.rd (FUR_CTL_EN n) = 0 }
  let e := g.at f.adjEnd
  let next := if s.corrects n then [{ g with t0 := f.adjEnd, ang := e.1 % 2 ^ 64, rem := e.2, rate := f.rate }] else []
  let old := f.segs.filter (fun h => h.t0 < s.clk)
  s.setFurrow n { f with segs := next ++ g :: pruneSegs (s.clk - cyHist) old }

/-- Begin a new stretch of furrow `n`'s history at this cycle, with the present rate and flags; the angle goes on. -/
def State.segNow (s : State) (n : Nat) : State :=
  let a := match segAt s.clk (s.furrow n).segs with
    | some g => g.at s.clk
    | none => (0, 0)
  s.segPut n (a.1 % 2 ^ 64) a.2

/-- Load furrow `n`'s angle word with `a` in this cycle (the two loads of R29); `prev` is the angle from which `a` has
advanced in it. -/
def State.loadAngle (s : State) (n a prev : Nat) : State :=
  (s.setFurrow n { s.furrow n with jump := some (s.clk, prev) }).segPut n a 0

/-- The cycle, up to now, in which furrow `n`'s angle came to or past the angle word `a`. -/
def State.crossed (s : State) (n a : Nat) : Option Nat := crossAt a s.clk (s.furrow n).segs

/-- TB0 as it runs in this cycle. -/
def State.tbNow (s : State) : TbSeg :=
  { t0 := s.clk, tb := s.tb0, epoch := s.rd RTC_TBSTAT_EPOCH, free := decide (s.rd RTC_TBSTAT_STATE ≠ 2) }

/-- TB0 as a history says it ran in cycle `c`; before its first entry as it is reset. -/
def tbFind (c : Nat) : List TbSeg → TbSeg
  | [] => { t0 := 0 }
  | g :: gs => if g.t0 ≤ c then g else tbFind c gs

/-- TB0 as it ran in cycle `c` (R48). -/
def State.tbAt (s : State) (c : Nat) : TbSeg := if s.clk ≤ c then s.tbNow else tbFind c s.tbH

/-- At the end of a cycle in which TB0 was changed, its history gains an entry. -/
def State.tbKeep (s : State) : State :=
  let g := s.tbNow
  let h := tbFind s.clk s.tbH
  if h.tb = g.tb ∧ h.epoch = g.epoch ∧ h.free = g.free then s else { s with tbH := g :: s.tbH }

/-- The timestamp of cycle `c` on furrow `fw`: five words (R48, Table 02-5), with TB0, its step count and its discipline
as they were in that cycle; `back` marks one formed from a stream's latency (R49). -/
def State.stampAt (s : State) (fw c : Nat) (back : Bool) : List Word :=
  let tb := s.tbAt c
  let ticks := tb.tb.at c
  let f := s.furrow fw
  let ang := f.angle c
  let g := segAt c f.segs
  let unlk := match g with | some g => g.unlk | none => true
  let slew := match g with | some g => g.slew | none => false
  let hold := match g with | some g => g.hold | none => false
  let sec := secOf ticks
  [ BitVec.ofNat 32 ang, BitVec.ofNat 32 (ang / 2 ^ 32),
    BitVec.ofNat 32 (bits sec 33 32 * 2 ^ 30 + nsecOf ticks), BitVec.ofNat 32 sec,
    BitVec.ofNat 32 (tb.epoch * 256 + b2n back * 128 + b2n (s.on MSD_STAT_ACT) * 64
      + b2n tb.free * 32 + b2n unlk * 16 + b2n slew * 8 + b2n hold * 4 + fw % 4) ]

/-- The timestamp of the present cycle on furrow `fw`. -/
def State.stamp (s : State) (fw : Nat) : List Word := s.stampAt fw s.clk false

/-- A register's word address written from a list, upward in steps of 4. -/
def State.wrWords (s : State) : Nat → List Word → State
  | _, [] => s
  | a, w :: ws => (s.wrW a w).wrWords (a + 4) ws

/-- Two 32-bit words as one 64-bit word, the low one first. -/
def dw (lo hi : Nat) : DWord := BitVec.ofNat 64 (lo % 2 ^ 32 + (hi % 2 ^ 32) * 2 ^ 32)

/-- A timestamp packed as payload words 1 to 3 of a log sheaf (R401): low word first, the last high half 0. -/
def packStamp : List Word → List DWord
  | [a, b, c, d, e] => [dw a.toNat b.toNat, dw c.toNat d.toNat, dw e.toNat 0]
  | _ => [0, 0, 0]

/-! ### The log engine's queue, hedges, tamper evidence -/

/-- An event record of Table 16-4 joins the log engine's queue (R458), stamped on `INT_CTL.FW`. -/
def State.logEv (s : State) (code a0 a1 a2 : Nat) : State :=
  { s with evl := s.evl ++
      [{ type := 0x0101, payload := packStamp (s.stamp (s.rd INT_CTL_FW)) ++ [dw code a0, dw a1 a2] }] }

/-- A spare is brought in (R455): counted, flagged and, by the caller, logged. -/
def State.swapIn (s : State) : State := (s.inc YLD_SWAPCNT_V).flag YLD_STAT_SWAP

/-- A hedge violation of class `cls` (R408): the flag, the count, the record and the log. -/
def State.violate (s : State) (cls orig num addr : Nat) : State :=
  let s := s.setBit HDG_STAT cls
  let s := s.inc HDG_VCNT_V
  let s := s.wrW HDG_VLAST (BitVec.ofNat 32 (cls * 2 ^ 28 + orig * 2 ^ 24 + num % 256))
  let s := s.wrW HDG_VADDR (BitVec.ofNat 32 addr)
  s.logEv 0x000C cls orig addr

/-- A cause of the safe state: it enters in the next cycle, each cause once for one cycle (R411). -/
def State.safeCause (s : State) (cause : Nat) : State :=
  if s.safeQ.contains cause then s else { s with safeQ := s.safeQ ++ [cause] }

/-- The lowest category with a bit that is due and does not wait for the next power-up (R417). -/
def State.burnDue (s : State) : Option Nat :=
  (List.range 8).find? fun c => decide (bit (s.rd TMP_BURNPEND_V) c = 1) && decide (bit s.burnFail c = 0)

/-- Unless a bit is being burned or `PFWARN` is taken, the burn of the next due bit begins (R417). -/
def State.burnNext (s : State) : State :=
  if s.burnCat.isSome || s.pfTaken || s.burnDue.isNone then s
  else { s with burnCat := s.burnDue, burnTry := 0, burnAt := s.clk }

/-- An OTP bit of category `c` falls due unless one did in this power-up within 24 h, or the category is full
(R417). -/
def State.otpBitDue (s : State) (c : Nat) : State :=
  let last := Sparse.get (fun _ => none) c s.otpDue
  let due := match last with
    | none => true
    | some t => decide (t + cyDay ≤ s.clk)
  if due && decide (s.rd (TMP_OTP_V c) < 64) then
    ({ s.wr (bitFld TMP_BURNPEND c) 1 with otpDue := Sparse.set (fun _ => none) c (some s.clk) s.otpDue } : State).burnNext
  else s

/-- A tamper event of category `c` with main power present, counted `n` times (R416). -/
def State.tamperN (s : State) (c n : Nat) : State :=
  let s := s.setBit TMP_STAT c
  let s := s.add (TMP_EVCNT_V c) n
  let s := s.otpBitDue c
  s.logEv 0x0013 c (s.rd (TMP_EVCNT_V c)) 0

/-- A tamper event of category `c` with main power present (R416). -/
def State.tamper (s : State) (c : Nat) : State := s.tamperN c 1

/-- The target code of `TMP_BIC` for an address (Table 14-7). -/
def bicTarget (a : Nat) : Nat :=
  if a < 0x200000 then 0
  else if a < 0x400000 then 1
  else if a < 0x800000 then 2
  else if a < 0xC00000 then 3
  else if a < 0xF00000 then 4
  else if a < 0x1000000 then 5
  else if a < 0x1100000 then 0x20 + (a - 0x1000000) / 0x1000
  else if a < 0x1200000 then 6
  else 5

/-- An integrity mismatch (R418), with the escalation of R420: the eighth within 1 s forces the safe state. -/
def State.bicMismatch (s : State) (orig addr : Nat) (inj : Bool) : State :=
  let s := s.flag TMP_STAT_BIC
  let s := s.inc TMP_BIC_COUNT
  let s := s.wr TMP_BIC_INJ (b2n inj)
  let s := s.wr TMP_BIC_ORIG orig
  let s := s.wr TMP_BIC_TGT (bicTarget addr)
  let s := s.wrW TMP_BICADDR (BitVec.ofNat 32 addr)
  let s := if inj then s else s.tamper 7
  let ts := ((s.clk :: s.bicT).filter (fun t => usTick s.clk < usTick t + 1000000)).take 8
  let s := { s with bicT := ts }
  if ts.length = 8 then s.safeCause 1 else s

/-- A refused access (R21): recorded with its originator code (Table 01-7). -/
def State.refuse (s : State) (orig addr : Nat) (isWrite : Bool) : State :=
  let s := s.wrW SYS_MAPERR (BitVec.ofNat 32 addr)
  let s := s.inc SYS_MAPSRC_COUNT
  let s := s.wr SYS_MAPSRC_WR (b2n isWrite)
  s.wr SYS_MAPSRC_ORIG orig

/-! ### Requests that meet in one cycle -/

/-- The registers as the object of requests: direct writes come before a deal (R364). -/
def objRegs : Nat := 122

/-- A request of place `p` in the order of object `o` is carried out in this cycle (log 118). -/
def State.took (s : State) (o p : Nat) : State := { s with taken := s.taken ++ [(o, p)] }

/-! ### The revenue configuration (R437) -/

/-- The registers of the revenue configuration record, in its order (R437). -/
def revRegs : List Nat :=
  (List.range 16).flatMap (fun f =>
    [TAL_FCFG f, TAL_FCHV f, TAL_FCHI f, TAL_START f, TAL_NOLOAD f, TAL_LOSSI f, TAL_LOSSV f])
  ++ (List.range 16).flatMap (fun n => [PLS_CFG n, PLS_CONSTL n, PLS_CONSTH n])
  ++ (List.range 4).map PLS_SPARE ++ (List.range 48).map ANA_CHCFG ++ (List.range 24).map ANA_GANG
  ++ (List.range 48).map FLT_SHIFT
  ++ (List.range 4).flatMap (fun n =>
    [FUR_SRC n, FUR_OFS n, FUR_NOM n, FUR_ENC n, FUR_CYCSETL n, FUR_CYCSETH n, FUR_CTL n])
  ++ [NVM_CTL]

/-- The register at `a`, which held `was`, has been written: where the revenue configuration record holds it and it has
changed, the next commit writes that record (R287). -/
def State.revMark (s : State) (a : Nat) (was : Word) : State :=
  { s with revDirty := s.revDirty || (decide (s.rdW a ≠ was) && revRegs.contains a) }

end Sys2Proof.Machine
end

