-- ==== Sys2Proof/Machine/Seeds.lean ====
section
/-!
DEFINITION. The sowing table: seed words, arming, disarming and re-evaluation (R59 to R65, R70).
-/
namespace Sys2Proof.Machine

/-- Word `w` of seed `i`. -/
def State.seedW (s : State) (i w : Nat) : Nat := (s.rdW (seedWord i w)).toNat

/-- Seed `i` is armed. -/
def State.seedArmed (s : State) (i : Nat) : Bool := decide (bit (s.seedW i 3) 31 = 1)

/-- The target angle of seed `i` (Table 02-20). -/
def State.seedTarget (s : State) (i : Nat) : Nat := s.seedW i 0 + s.seedW i 1 * 2 ^ 32

/-- `s` with target `a` in seed `i`. -/
def State.setSeedTarget (s : State) (i a : Nat) : State :=
  (s.wrW (seedWord i 0) (BitVec.ofNat 32 a)).wrW (seedWord i 1) (BitVec.ofNat 32 (a / 2 ^ 32))

/-- `s` with EN of seed `i` cleared. -/
def State.seedSpent (s : State) (i : Nat) : State :=
  s.wrW (seedWord i 3) (BitVec.ofNat 32 (s.seedW i 3 % 2 ^ 31))

/-- ARG is one that Table 02-21 allows for the action (R60). -/
def argOk (action arg : Nat) : Bool :=
  match action with
  | 0 => decide (bits arg 6 4 ≤ 4) && decide (bits arg 3 0 ≤ 13)
  | 1 => decide (arg = 0)
  | 2 => decide (arg ≤ 7)
  | 3 => decide (arg ≤ 7)
  | 4 => decide (arg ≤ 7)
  | 5 => decide (arg ≤ 7) && decide (bits arg 2 1 ≠ 3)
  | 6 => decide (arg = 0)
  | _ => false

/-- ACTION, ARG, DELAY and PERIOD are all valid (R62). -/
def seedOk (w3 period : Nat) : Bool :=
  argOk (bits w3 28 26) (bits w3 6 0) && decide (bits w3 25 7 ≤ 500000) && decide (period = 0 ∨ 65536 ≤ period)

/-- `SOWC_STAT.SEED` records seed `i` with a flag of `SOWC_STAT` (Table 02-24). -/
def State.sowFlag (s : State) (f : Fld) (i : Nat) : State := (s.wr SOWC_STAT_SEED i).flag f

/-- An armed seed is evaluated as if armed now (R46, R61, R62): a target ahead waits, and one that passes in this very
cycle is due; a once seed whose target is not ahead is disarmed with PAST; a periodic seed advances by whole periods to
the first occurrence ahead. -/
def State.seedEval (s : State) (i : Nat) : State :=
  let f := s.furrow (bits (s.seedW i 3) 30 29)
  let d := angDiff (f.angle s.clk) (s.seedTarget i)
  if d < 0 ∨ angDiff (f.before s.clk) (s.seedTarget i) < 0 then s
  else
    let p := s.seedW i 2
    if p = 0 then (s.seedSpent i).sowFlag SOWC_STAT_PAST i
    else s.setSeedTarget i ((s.seedTarget i + (d.toNat / p + 1) * p) % 2 ^ 64)

/-- Every armed seed of a furrow that `sel` selects is evaluated again, in ascending number (R46, R70). -/
def State.seedsReeval (s : State) (sel : Nat → Bool) : State :=
  (List.range 1024).foldl (fun s i =>
    if s.seedArmed i && sel (bits (s.seedW i 3) 30 29) then s.seedEval i else s) s

/-- A write of word 3 with EN = 1 to a disarmed seed (R62). -/
def State.seedArm (s : State) (i : Nat) (w : Word) : State :=
  if seedOk w.toNat (s.seedW i 2) then (s.wrW (seedWord i 3) w).seedEval i
  else (s.wrW (seedWord i 3) (BitVec.ofNat 32 (w.toNat % 2 ^ 31))).sowFlag SOWC_STAT_BADSEED i

/-- A write of word 3 with EN = 0: the seed is disarmed at once, with a delayed action still pending (R63). An occurrence that
waits for dispatch is dropped with it: R63 names the delayed action only, and R67's "never dropped" is read as of the
engine's own passing over. DESIGN CHOICE (log 116). -/
def State.seedDisarm (s : State) (i : Nat) (w : Word) : State :=
  { s.wrW (seedWord i 3) w with
    seedQ := s.seedQ.filter (fun q => q.seed ≠ i)
    seedD := s.seedD.filter (fun q => q.seed ≠ i) }

/-- A write to a seed's word by whatever originator (R62, R63). -/
def State.seedWrite (s : State) (i k : Nat) (w : Word) : State :=
  let en := decide (bit w.toNat 31 = 1)
  if k = 3 then
    if en = false then s.seedDisarm i w
    else if s.seedArmed i then s.sowFlag SOWC_STAT_BUSYWR i
    else s.seedArm i w
  else if s.seedArmed i then s.sowFlag SOWC_STAT_BUSYWR i
  else s.wrW (seedWord i k) w

/-- The seed shadow of reader `o`, while it lasts: 10 µs (R65). -/
def State.seedShadow (s : State) (o : Nat) : Option Shadow :=
  match Sparse.get (fun _ => none) o s.shSeed with
  | some h => if s.clk ≤ h.at_ + 4915 then some h else none
  | none => none

/-- `s` with the seed shadow of reader `o`. -/
def State.setSeedShadow (s : State) (o : Nat) (h : Option Shadow) : State :=
  { s with shSeed := Sparse.set (fun _ => none) o h s.shSeed }

/-- A read of word `k` of seed `i` by reader `o` (R65): word 0 latches words 1 to 3; word 3 of the same seed ends the
shadow. -/
def State.seedRead (s : State) (o i k : Nat) : Word × State :=
  if k = 0 then
    (s.rdW (seedWord i 0), s.setSeedShadow o
      (some { key := i, words := [s.rdW (seedWord i 1), s.rdW (seedWord i 2), s.rdW (seedWord i 3)], at_ := s.clk }))
  else
    match s.seedShadow o with
    | some h =>
      if h.key = i then
        (h.words.getD (k - 1) 0, if k = 3 then s.setSeedShadow o none else s)
      else (s.rdW (seedWord i k), s)
    | none => (s.rdW (seedWord i k), s)

/-! ### The rows of the table -/

/-- SEED_ARM (R62): a write of word 3 with EN = 1 to a disarmed seed. -/
def opSeedArm (i : Fin 1024) (w : Word) (s : State) : State :=
  if s.seedArmed i then s else s.seedArm i (w ||| 0x80000000#32)

/-- SEED_DISARM (R63): a write of word 3 with EN = 0. -/
def opSeedDisarm (i : Fin 1024) (w : Word) (s : State) : State := s.seedDisarm i (w &&& 0x7FFFFFFF#32)

/-- SEED_BUSY_WRITE (R63): a write to words 0 to 2, or of word 3 with EN = 1, of an armed seed is discarded. -/
def opSeedBusyWrite (i : Fin 1024) (k : Fin 4) (w : Word) (s : State) : State :=
  if s.seedArmed i && (decide (k.val ≠ 3) || decide (bit w.toNat 31 = 1)) then s.sowFlag SOWC_STAT_BUSYWR i else s

/-- SOWC_ENABLE (R70): EN returns to 1 and every armed seed is evaluated again. -/
def opSowcEnable (s : State) : State :=
  if s.on SOWC_CTL_EN then s else (s.wr SOWC_CTL_EN 1).seedsReeval (fun _ => true)

/-- SOWC_DISABLE (R70): no seed falls due; waiting and delayed actions still issue. -/
def opSowcDisable (s : State) : State := s.wr SOWC_CTL_EN 0

end Sys2Proof.Machine
end

