-- ==== Sys2Proof/Machine/Furrow.lean ====
section
/-!
DEFINITION. The furrows: enable, first lock, lock, range, holdover, slew, changes of source, encoder and pulse inputs,
zero crossings and the timestamp latch (R31 to R58, R481, R482). What a furrow's disable does to the other blocks
stands in RegWrite.lean.
-/
namespace Sys2Proof.Machine

/-- Fabric cycles of `k` cycles at `rate` (0.1 mHz); a cycle counts as 1 s while no frequency is known (R482). -/
def cyclesAt (k rate : Nat) : Nat := if rate = 0 then k * cySec else k * angDen / rate

/-- Fabric cycles of two cycles at `rate`. -/
def twoCycles (rate : Nat) : Nat := cyclesAt 2 rate

/-- A tracked frequency held to 1 Hz to 400 Hz (R40), in 0.1 mHz. -/
def inRange (rate : Nat) : Nat := if rate < 10000 then 10000 else if 4000000 < rate then 4000000 else rate

/-- A frequency inside the tracking range (R37, R40). -/
def freqOk (rate : Nat) : Bool := decide (10000 ≤ rate) && decide (rate ≤ 4000000)

/-- Furrow `n` discards a write to its registers (R57). -/
def State.furCfgErr (s : State) (n : Nat) : State := s.flag (FUR_STAT_CFGERR n)

/-- The presence criteria start again from this cycle, with no history (R482). -/
def State.furRestart (s : State) (n : Nat) : State :=
  s.setFurrow n { s.furrow n with
    present := false, cfgClk := s.clk, sAng := 0, sClk := s.clk, sRate := 0, sAmp := 0, ampClk := s.clk, lowAcc := 0
    highAcc := 0, okClk := none, adj := 0, adjEnd := s.clk, adjErr := 0, pos := 0, idx := false, cntClk := s.clk
    cntSeen := false, edges := 0, edgeClk := s.clk, edgePer := 0, agree := false, bSeen := false }

/-- The resampler of furrow `n` starts anew: its rings hold nothing of the present settings (R47, R185). -/
def State.rsMark (s : State) (n : Nat) : State :=
  let s := { s with rsPos := s.rsPos.filter (fun p => p.1 / 64 ≠ n) }
  s.setFurrow n { s.furrow n with rsClk := s.clk, rsAng := s.angle n, rsSeen := false }

/-! ### The source (R31 to R36, R482) -/

/-- The source's angle plus `FUR_OFSn` in cycle `c`, not wrapped: the last fix carried on at the source's frequency
(R31, R38). -/
def State.srcAngle (s : State) (n c : Nat) : Nat :=
  let f := s.furrow n
  f.sAng + s.rd (FUR_OFS_OFS n) + f.sRate * 16777216 * (c - f.sClk) / angDen

/-- The phase error e of furrow `n`: the source's angle less the furrow's, wrapped to half a cycle (R42). -/
def State.phaseErr (s : State) (n : Nat) : Int := sx 24 (tc 24 ((s.srcAngle n s.clk : Int) - s.angle n))

/-- The source's angle plus `FUR_OFSn` passes 0 in this cycle: the positive zero crossing (R31, R45). -/
def State.srcPass (s : State) (n : Nat) : Bool :=
  let f := s.furrow n
  let u := s.srcAngle n s.clk
  if f.sClk < s.clk then decide (s.srcAngle n (s.clk - 1) / 16777216 ≠ u / 16777216)
  else decide (u % 16777216 ≤ f.sRate * 16777216 / angDen)

/-- A fundamental amplitude below 5 % of `FUR_NOMn` (Table 02-2). -/
def State.ampLow (s : State) (n a : Nat) : Bool := decide (20 * a < s.rd (FUR_NOM_NOM n))

/-- A fundamental amplitude at or above 10 % of `FUR_NOMn` (R33). -/
def State.ampHigh (s : State) (n a : Nat) : Bool := decide (s.rd (FUR_NOM_NOM n) ≤ 10 * a)

/-- How much of the source's cycle, in 1/`angDen`, has passed since its last phasor; a cycle counts as 1 s while no
frequency is measured (R482). -/
def State.ampSpan (s : State) (n : Nat) : Nat :=
  let f := s.furrow n
  (if f.sRate = 0 then 10000 else f.sRate) * (s.clk - f.ampClk)

/-- For how long the amplitude has been below 5 %, in 1/`angDen` of a cycle. -/
def State.lowFor (s : State) (n : Nat) : Nat :=
  let f := s.furrow n
  if s.ampLow n f.sAmp then f.lowAcc + s.ampSpan n else 0

/-- For how long the amplitude has been at or above 10 %. -/
def State.highFor (s : State) (n : Nat) : Nat :=
  let f := s.furrow n
  if s.ampHigh n f.sAmp then f.highAcc + s.ampSpan n else 0

/-- The source meets its lost condition (Table 02-2, R33, R482): a channel's amplitude below 5 % for 2 cycles, unless
`FUR_NOMn` = 0; no count edge for 100 ms; no accepted edge for 2 expected periods; no broadcast angle for 100 ms. The
expected period of a pulse input is its last edge interval; before there is one the manual names none, and it is 1 s, the
period at the lower end of the tracking range: DESIGN CHOICE (log 114). -/
def State.srcLost (s : State) (n : Nat) : Bool :=
  let f := s.furrow n
  match s.rd (FUR_SRC_SRC n) with
  | 0 => s.on (FUR_NOM_NOM n) && decide (2 * angDen ≤ s.lowFor n)
  | 1 => s.on (FUR_NOM_NOM n) && decide (2 * angDen ≤ s.lowFor n)
  | 2 => decide (f.cntClk + 100 * cyMs ≤ s.clk)
  | 3 => decide (f.cntClk + 100 * cyMs ≤ s.clk)
  | 4 => decide (f.edgeClk + 2 * (if f.edgePer = 0 then cySec else f.edgePer) ≤ s.clk)
  | 5 => decide (f.edgeClk + 2 * (if f.edgePer = 0 then cySec else f.edgePer) ≤ s.clk)
  | _ => decide ((if f.bSeen then f.sClk else f.cfgClk) + 100 * cyMs ≤ s.clk)

/-- The source meets its presence criterion (R33 to R36, R482) and not its lost condition: a channel at or above 10 % for
2 cycles, or with a frequency in the tracking range where `FUR_NOMn` = 0; an encoder past its first index pulse; three
agreeing edges; a valid broadcast angle. -/
def State.srcPresent (s : State) (n : Nat) : Bool :=
  let f := s.furrow n
  !s.srcLost n && match s.rd (FUR_SRC_SRC n) with
    | 0 => if s.on (FUR_NOM_NOM n) then decide (2 * angDen ≤ s.highFor n) else freqOk f.sRate
    | 1 => if s.on (FUR_NOM_NOM n) then decide (2 * angDen ≤ s.highFor n) else freqOk f.sRate
    | 2 => f.idx
    | 3 => f.idx
    | 4 => f.agree
    | 5 => f.agree
    | _ => f.bSeen

/-! ### The tracking loop (R39, R40, R481) -/

/-- The loop's tracked frequency moves to the source's by at most ±20 % at a time, inside the tracking range (R40,
R481). -/
def trackRate (old new : Nat) : Nat :=
  inRange (if new * 10 < old * 8 then old * 8 / 10 else if old * 12 < new * 10 then old * 12 / 10 else new)

/-- The most fabric cycles in which the loop closes a phase error of `m` tines at frequency `rate`: 4 cycles below
2^14 tines, 6 up to 30°, 12 up to half a cycle (R481). -/
def closeMax (m rate : Nat) : Nat := cyclesAt (if m < 16384 then 4 else if m ≤ 1398101 then 6 else 12) rate

/-- The fewest, with the rate of advance changed by 20 % (R481). -/
def closeMin (m rate : Nat) : Nat := 5 * m * angDen / (16777216 * rate) + 1

/-- The loop measures the phase error `e` and sets its correction. One that runs and whose error does not grow keeps its
end; another ends after a free time within the bounds of R481. -/
def State.loopSet (s : State) (n : Nat) (e : Int) : State :=
  let f := s.furrow n
  let m := e.natAbs
  let put (s : State) (stop : Nat) : State :=
    let x := divRound (e * (angDen : Int)) (16777216 * (stop - s.clk))
    let lim : Int := ((f.rate / 5 : Nat) : Int)
    s.setFurrow n { f with adj := clampI (-lim) lim x, adjEnd := stop, adjErr := m }
  if m = 0 then s.setFurrow n { f with adj := 0, adjEnd := s.clk, adjErr := 0 }
  else if s.clk < f.adjEnd ∧ m ≤ f.adjErr then put s f.adjEnd
  else
    let r := s.draw
    let lo := closeMin m f.rate
    put r.2 (s.clk + lo + r.1.toNat % (closeMax m f.rate - lo + 1))

/-- The loop does not correct: before the first lock, in holdover, in a slew, at a range limit. -/
def State.loopOff (s : State) (n : Nat) : State :=
  s.setFurrow n { s.furrow n with adj := 0, adjEnd := s.clk, adjErr := 0 }

/-- Since when the phase error has been below 2^12 tines (R39). -/
def State.lockWatch (s : State) (n : Nat) : State :=
  let f := s.furrow n
  s.setFurrow n { f with
    okClk := if (s.phaseErr n).natAbs < 4096 then (match f.okClk with | some t => some t | none => some s.clk) else none }

/-- What furrow `n` makes of a new fix of its source: before the first lock, and in holdover, nothing, but a frequency back
in range ends a limit before the first lock; in a slew the source's frequency and the sign that closes e (R42); otherwise
the loop follows, and a frequency back in range ends the limit (R40, R481). -/
def State.furFollow (s : State) (n : Nat) : State :=
  let f := s.furrow n
  let back := freqOk f.sRate && !s.on (FUR_STAT_HOLD n)
  let s := if back then s.wr (FUR_STAT_RANGE n) 0 else s
  if !s.on (FUR_CTL_EN n) || !f.run || f.sRate = 0 then s
  else if s.on (FUR_STAT_SLEW n) then
    ((s.lockWatch n).setFurrow n { (s.lockWatch n).furrow n with
      rate := inRange f.sRate, up := decide (0 < s.phaseErr n) }).segNow n
  else if s.on (FUR_STAT_HOLD n) then s
  else if s.on (FUR_STAT_RANGE n) then (s.setFurrow n { f with rate := inRange f.sRate }).segNow n
  else if freqOk f.sRate then
    let s := s.lockWatch n
    let s := s.setFurrow n { s.furrow n with rate := trackRate f.rate f.sRate }
    (s.loopSet n (s.phaseErr n)).segNow n
  else s

/-- Furrow `n` takes a fix of its source: angle `ang` now, frequency `rate`. -/
def State.srcFix (s : State) (n ang rate : Nat) : State :=
  (s.setFurrow n { s.furrow n with sAng := ang, sClk := s.clk, sRate := rate }).furFollow n

/-- Furrow `n` takes the phasor of its channel source (R32): amplitude, angle and frequency of the positive sequence or of
the fundamental, as they are at the input balls now (R38). -/
def State.srcPhasor (s : State) (n amp ang rate : Nat) : State :=
  let f := s.furrow n
  let s1 := s.setFurrow n { f with
    lowAcc := if s.ampLow n amp then s.lowFor n else 0
    highAcc := if s.ampHigh n amp then s.highFor n else 0
    sAmp := amp, ampClk := s.clk }
  s1.srcFix n ang rate

/-! ### Holdover (R41 to R44) -/

/-- Holdover entry (R41), also from a running slew; a furrow already in holdover stays in it. -/
def State.holdEnter (s : State) (n : Nat) : State :=
  if s.on (FUR_STAT_HOLD n) && !s.on (FUR_STAT_SLEW n) then s
  else
    let s := (s.wr (FUR_STAT_HOLD n) 1).wr (FUR_STAT_SLEW n) 0
    let s := (s.flag (FUR_STAT_LOSS n)).inc (FUR_HOLDCNT_COUNT n)
    let s := (s.loopOff n).setFurrow n { (s.loopOff n).furrow n with okClk := none }
    s.segNow n

/-- `FUR_CTLn.EN` from 0 to 1 (R45): the angle is held one tine before the preset cycle, LOCK = 0; presence is judged
from now (R482); FORCEH = 1 enters holdover (R41). -/
def State.furEnable (s : State) (n : Nat) : State :=
  let s := (s.wr (FUR_CTL_EN n) 1).revMark (FUR_CTL n) (s.rdW (FUR_CTL n))
  let s := s.wr (FUR_STAT_LOCK n) 0
  let s := s.furRestart n
  let s := s.setFurrow n { s.furrow n with run := false, rate := 0, zcSeen := false }
  let cyc := s.rd (FUR_CYCSETL_CYCLO n) + s.rd (FUR_CYCSETH_CYCHI n) * 2 ^ 32
  let s := s.wr (FUR_FREQ_FREQ n) 0
  let a := (cyc * 16777216 + 2 ^ 64 - 1) % 2 ^ 64
  let s := (s.loadAngle n a a).rsMark n
  if s.on (FUR_CTL_FORCEH n) then s.holdEnter n else s

/-- `FUR_CTLn.EN` from 1 to 0 in the furrow itself (R47): the angle word holds, the resampler stops, timestamps carry
UNLK. -/
def State.furStop (s : State) (n : Nat) : State :=
  let s := (s.wr (FUR_CTL_EN n) 0).revMark (FUR_CTL n) (s.rdW (FUR_CTL n))
  let s := ((s.wr (FUR_STAT_LOCK n) 0).wr (FUR_STAT_HOLD n) 0).wr (FUR_STAT_SLEW n) 0
  let s := s.wr (FUR_STAT_RANGE n) 0
  let s := s.setFurrow n { s.furrow n with run := false, present := false }
  (s.rsMark n).segNow n

/-- A ring-broadcast furrow whose cycle count differs from the broadcaster's sets CYCERR (R44). -/
def State.cycCheck (s : State) (n : Nat) : State :=
  if s.rd (FUR_SRC_SRC n) = 6 then
    let d := angDiff (s.angle n) (s.srcAngle n s.clk % 2 ^ 64)
    if d < -8388608 ∨ 8388608 ≤ d then s.flag (FUR_STAT_CYCERR n) else s
  else s

/-- SLEW and HOLD clear, and the loop follows the source again (R42, R44). -/
def State.holdEnd (s : State) (n : Nat) : State :=
  let s := (s.wr (FUR_STAT_HOLD n) 0).wr (FUR_STAT_SLEW n) 0
  let s := s.setFurrow n { s.furrow n with rate := inRange (s.furrow n).sRate }
  let s := (s.lockWatch n).loopSet n (s.phaseErr n)
  (s.segNow n).cycCheck n

/-- The exit from holdover (R42): the phase error e is measured and stored; HOLD clears at once within 256 tines, otherwise
the furrow slews with the sign that closes e. -/
def State.holdExit (s : State) (n : Nat) : State :=
  let e := s.phaseErr n
  let s := s.wrS (FUR_HOLDERR_ERR n) e
  let s := s.wr (FUR_STAT_RANGE n) 0
  if -256 ≤ e ∧ e ≤ 256 then s.holdEnd n
  else
    let s := s.wr (FUR_STAT_SLEW n) 1
    let s := s.setFurrow n { s.furrow n with rate := inRange (s.furrow n).sRate, up := decide (0 < e) }
    (s.lockWatch n).segNow n

/-- The source is present, with a frequency in range, and holdover is not forced: a furrow in holdover leaves it (R40 to
R42). -/
def State.holdDone (s : State) (n : Nat) : State :=
  let f := s.furrow n
  if f.run && f.present && freqOk f.sRate && s.on (FUR_STAT_HOLD n) && !s.on (FUR_STAT_SLEW n)
      && !s.on (FUR_CTL_FORCEH n) then s.holdExit n else s

/-- A write to `FUR_SRCn` (R32, R43, Table 02-7): SRC = 111b or a channel above 47 is discarded with CFGERR; while
enabled, the source changes and the furrow enters holdover. -/
def State.furSrcWrite (s : State) (n : Nat) (w : Word) : State :=
  let x := w.toNat
  if bits x 2 0 = 7 ∨ 47 < bits x 13 8 ∨ 47 < bits x 21 16 ∨ 47 < bits x 29 24 then s.furCfgErr n
  else
    let s := (s.wrW (FUR_SRC n) (w &&& 0x3F3F3F37#32)).revMark (FUR_SRC n) (s.rdW (FUR_SRC n))
    if s.on (FUR_CTL_EN n) then (s.furRestart n).holdEnter n else s

/-- An edge on the pulse input of furrow `n` is accepted or ignored (R35). An accepted edge is angle 0 (R31); the frequency
is taken from the edge interval. -/
def State.pulseEdge (s : State) (n : Nat) : State :=
  let f := s.furrow n
  let d := s.clk - f.edgeClk
  if f.edges ≠ 0 ∧ f.edgePer ≠ 0 ∧ 2 * d < f.edgePer then s.inc (FUR_STAT_GLITCH n)
  else
    let near := decide (10 * d ≤ 11 * f.edgePer) && decide (9 * f.edgePer ≤ 10 * d)
    let s := s.setFurrow n { f with
      edges := if f.edges < 3 then f.edges + 1 else 3
      edgeClk := s.clk
      edgePer := if f.edges = 0 then 0 else d
      agree := f.agree || (decide (2 ≤ f.edges) && near) }
    s.srcFix n 0 (if f.edges = 0 then f.sRate else angDen / d)

/-- The electrical angle of an encoder's position `pos`, in tines, without OFS (R34): position / (4 × LINES) × PP
cycles. -/
def State.encAngle (s : State) (n : Nat) (pos : Int) : Nat :=
  tc 24 (pos * (s.rd (FUR_ENC_PP n) : Int) * 16777216 / (4 * (s.rd (FUR_ENC_LINES n) : Int)))

/-- The encoder furrow `n` at an index pulse (R34): the count is checked against 4 × LINES and corrected. -/
def State.indexPulse (s : State) (n : Nat) : State :=
  let f := s.furrow n
  let s1 := (s.setFurrow n { f with idx := true, pos := 0 }).srcFix n 0 f.sRate
  if f.idx ∧ 2 < (f.pos - 4 * (s.rd (FUR_ENC_LINES n) : Int)).natAbs then s1.flag (FUR_STAT_ENCERR n) else s1

/-- A count edge of encoder furrow `n` (R34): the position moves in the direction that DIR sets; only counts in the
counting direction keep the source, and the frequency is their rate × PP. -/
def State.countEdge (s : State) (n : Nat) (up : Bool) : State :=
  let f := s.furrow n
  let on := up != s.on (FUR_ENC_DIR n)
  let pos := if on then f.pos + 1 else f.pos - 1
  let d := if f.cntClk < s.clk then s.clk - f.cntClk else 1
  let rate := if on && f.cntSeen then s.rd (FUR_ENC_PP n) * angDen / (4 * s.rd (FUR_ENC_LINES n) * d) else f.sRate
  let f := if on then { f with pos := pos, cntClk := s.clk, cntSeen := true } else { f with pos := pos }
  (s.setFurrow n f).srcFix n (s.encAngle n pos) rate

/-- Apply `f` to every enabled furrow whose source is `src`, in ascending number. -/
def State.furWithSrc (s : State) (src : Nat) (f : State → Nat → State) : State :=
  (List.range 4).foldl (fun s n => if s.on (FUR_CTL_EN n) && decide (s.rd (FUR_SRC_SRC n) = src) then f s n else s) s

/-! ### The rows of the table -/

/-- FUR_ENABLE (R45). -/
def opFurEnable (n : Fin 4) (s : State) : State := if s.on (FUR_CTL_EN n) then s else s.furEnable n

/-- FIRST_LOCK (R45, R46): the source is present and its angle plus OFS passes 0, so the angle starts to advance at cycle
`FUR_CYCSETn`; a ring-broadcast furrow takes the broadcaster's angle. HOLD clears with no slew; the furrow's seeds are
evaluated again. -/
def opFirstLock (n : Fin 4) (s : State) : State :=
  let f := s.furrow n
  let bc := decide (s.rd (FUR_SRC_SRC n) = 6)
  if s.on (FUR_CTL_EN n) && !f.run && s.srcPresent n && freqOk f.sRate && !s.on (FUR_CTL_FORCEH n)
      && (bc || s.srcPass n) then
    let s := s.setFurrow n { f with run := true, present := true, rate := f.sRate, okClk := some s.clk }
    let s := ((s.wr (FUR_STAT_LOCK n) 1).wr (FUR_STAT_HOLD n) 0).wr (FUR_STAT_SLEW n) 0
    let s := s.wr (FUR_STAT_RANGE n) 0
    let cyc := s.rd (FUR_CYCSETL_CYCLO n) + s.rd (FUR_CYCSETH_CYCHI n) * 2 ^ 32
    let s := if bc then
        let a := s.srcAngle n s.clk % 2 ^ 64
        let s := (s.loadAngle n a (s.srcAngle n (s.clk - 1) % 2 ^ 64)).rsMark n
        s.setFurrow n { s.furrow n with zcClk := s.clk, zcCyc := a / 16777216, zcSeen := false }
      else
        let s := s.loadAngle n (cyc * 16777216 % 2 ^ 64) (f.before s.clk)
        s.setFurrow n { s.furrow n with
          zcClk := s.clk, zcCyc := cyc, zcPast := 0, zcRate := f.sRate, zcSeen := true }
    s.seedsReeval (fun k => k == n.val)
  else s

/-- LOCK_SET (R39): the phase error has stayed below 2^12 tines for 2 cycles. -/
def opLockSet (n : Fin 4) (s : State) : State :=
  let f := s.furrow n
  if s.on (FUR_CTL_EN n) && f.run && f.present && !s.on (FUR_STAT_RANGE n)
      && !(s.on (FUR_STAT_HOLD n) && !s.on (FUR_STAT_SLEW n)) && !s.on (FUR_STAT_LOCK n)
      && decide ((s.phaseErr n).natAbs < 4096) && f.okClk.any (fun t => decide (t + twoCycles f.rate ≤ s.clk)) then
    (s.wr (FUR_STAT_LOCK n) 1).segNow n
  else s

/-- LOCK_CLEAR (R39): the phase error exceeds 2^14 tines. -/
def opLockClear (n : Fin 4) (s : State) : State :=
  if s.on (FUR_STAT_LOCK n) && decide (16384 < (s.phaseErr n).natAbs) then
    ((s.wr (FUR_STAT_LOCK n) 0).lockWatch n).segNow n
  else s

/-- SOURCE_LOST (R41, Table 02-2): LOCK clears and the furrow enters holdover. -/
def opSourceLost (n : Fin 4) (s : State) : State :=
  if s.on (FUR_CTL_EN n) && s.srcLost n then
    let s := s.wr (FUR_STAT_LOCK n) 0
    let f := s.furrow n
    let s := s.setFurrow n { f with present := false, agree := false, edges := 0, edgePer := 0 }
    (s.holdEnter n).segNow n
  else s

/-- FREQ_OUT_OF_RANGE (R40): the source's frequency has left 1 Hz to 400 Hz, so the frequency is held at the nearer limit,
RANGE reads 1, LOCK clears. -/
def opFreqOutOfRange (n : Fin 4) (s : State) : State :=
  let f := s.furrow n
  if s.on (FUR_CTL_EN n) && decide (f.sRate ≠ 0) && !freqOk f.sRate && !s.on (FUR_STAT_RANGE n)
      && !(s.on (FUR_STAT_HOLD n) && !s.on (FUR_STAT_SLEW n)) then
    let s := (s.wr (FUR_STAT_RANGE n) 1).wr (FUR_STAT_LOCK n) 0
    let s := (s.loopOff n).setFurrow n { (s.loopOff n).furrow n with
      rate := inRange f.sRate, rangeClk := s.clk, okClk := none }
    s.segNow n
  else s

/-- RANGE_HOLDOVER_EXPIRY (R40): 2 cycles out of range at the held limit, and the furrow enters holdover. -/
def opRangeHoldoverExpiry (n : Fin 4) (s : State) : State :=
  let f := s.furrow n
  if s.on (FUR_STAT_RANGE n) && decide (f.rangeClk + twoCycles (inRange f.sRate) ≤ s.clk) then
    (s.setFurrow n { f with present := false }).holdEnter n
  else s

/-- SOURCE_RETURN (R42): the source is present again and in range, and e is measured; before the first lock only the
presence is noted (R41), and a forced holdover stays (R41). -/
def opSourceReturn (n : Fin 4) (s : State) : State :=
  if s.on (FUR_CTL_EN n) && s.srcPresent n && freqOk (s.furrow n).sRate then
    let s := s.setFurrow n { s.furrow n with present := true }
    if (s.furrow n).run then s.holdDone n else s.wr (FUR_STAT_RANGE n) 0
  else s

/-- SLEW_END (R42, R44): |e| is 256 tines or less, so SLEW and HOLD clear. -/
def opSlewEnd (n : Fin 4) (s : State) : State :=
  let e := s.phaseErr n
  if s.on (FUR_STAT_SLEW n) && decide (-256 ≤ e ∧ e ≤ 256) then s.holdEnd n else s

/-- A write of FORCEH = 1 (R41): an enabled furrow enters holdover. -/
def State.forcehSet (s : State) (n : Nat) : State :=
  let s := (s.wr (FUR_CTL_FORCEH n) 1).revMark (FUR_CTL n) (s.rdW (FUR_CTL n))
  if s.on (FUR_CTL_EN n) then s.holdEnter n else s

/-- A write of FORCEH = 0 (R42): a forced holdover ends as a return of the source, if it is present. -/
def State.forcehClear (s : State) (n : Nat) : State :=
  let s := (s.wr (FUR_CTL_FORCEH n) 0).revMark (FUR_CTL n) (s.rdW (FUR_CTL n))
  if s.on (FUR_CTL_EN n) && s.srcPresent n then s.holdDone n else s

/-- FORCEH_SET (R41). -/
def opForcehSet (n : Fin 4) (s : State) : State := s.forcehSet n

/-- FORCEH_CLEAR (R42). -/
def opForcehClear (n : Fin 4) (s : State) : State := s.forcehClear n

/-- SOURCE_CHANGE (R43): a write to `FUR_SRCn`. -/
def opSourceChange (n : Fin 4) (w : Word) (s : State) : State := s.furSrcWrite n w

/-- ENCODER_INDEX (R34): an index pulse on encoder `k`. -/
def opEncoderIndex (k : Fin 2) (s : State) : State := s.furWithSrc (2 + k) State.indexPulse

/-- ENCODER_COUNT_EDGE (R34): a count edge on encoder `k`. -/
def opEncoderCountEdge (k : Fin 2) (up : Bool) (s : State) : State :=
  s.furWithSrc (2 + k) (fun s n => s.countEdge n up)

/-- ANGIN_EDGE (R35): a rising edge on `ANGIN0` or `ANGIN1`. -/
def opAnginEdge (k : Fin 2) (s : State) : State := s.furWithSrc (4 + k) State.pulseEdge

/-- ZERO_CROSSING (R31, Table 02-9): the fraction passes 0 in this cycle. FREQ takes the mean over the cycle that ends: 2^24
tines, by the time the angle took to pass through them, each end placed inside its fabric cycle. -/
def opZeroCrossing (n : Fin 4) (s : State) : State :=
  let f := s.furrow n
  let cyc := s.angle n / 16777216
  if s.on (FUR_CTL_EN n) && f.run && decide (cyc ≠ f.zcCyc) && decide (f.before s.clk / 16777216 ≠ cyc) then
    match segAt s.clk f.segs with
    | some g =>
      let x := g.at s.clk
      let past := x.1 % 16777216 * angDen + x.2
      let t : Int := ((s.clk - f.zcClk) * (f.zcRate * g.rate * 16777216) + f.zcPast * g.rate : Nat) - (past * f.zcRate : Nat)
      let num : Int := ((angDen * tc 40 ((cyc : Int) - f.zcCyc) * (f.zcRate * g.rate * 16777216) : Nat) : Int)
      let s := if f.zcSeen then s.wr (FUR_FREQ_FREQ n) (satU 23 (divRound num t.toNat).toNat) else s
      s.setFurrow n { f with zcClk := s.clk, zcCyc := cyc, zcPast := past, zcRate := g.rate, zcSeen := true }
    | none => s
  else s

/-- FUR_LATCH (R58): one timestamp per furrow, all at this cycle. -/
def opFurLatch (s : State) : State :=
  s.wrWords (FUR_TSW 0) (s.stamp 0 ++ s.stamp 1 ++ s.stamp 2 ++ s.stamp 3)

end Sys2Proof.Machine
end

