-- ==== Sys2Proof/Machine/Int.lean ====
section
/-!
DEFINITION. The interrupt controller: source levels, offers, claims and completions, software sources (R390 to R398).
-/
namespace Sys2Proof.Machine

/-- The W1C bits of the register at `a`. -/
def w1cMask (a : Nat) : Nat :=
  (regFields a).foldl (fun m f => if f.acc = .w1c then m ||| ((2 ^ (f.hi + 1 - f.lo) - 1) * 2 ^ f.lo) else m) 0

/-- Some bit of `mask` is set in the register at `a`. -/
def State.anyBit (s : State) (a mask : Nat) : Bool := decide ((s.rdW a).toNat &&& mask ≠ 0)

/-- Some W1C flag of the register at `a` is set. -/
def State.anyFlag (s : State) (a : Nat) : Bool := s.anyBit a (w1cMask a)

/-- TRIP of comparator `k`, where it requests interrupts. -/
def State.tripIrq (s : State) (k : Nat) : Bool := s.on (FLT_CMPSTAT_TRIP k) && s.on (FLT_CMPCTL_IRQ k)

/-- The level of interrupt source `i` (Table 13-1). -/
def State.level (s : State) (i : Nat) : Bool :=
  if 8 ≤ i ∧ i < 56 then s.tripIrq (2 * (i - 8)) || s.tripIrq (2 * (i - 8) + 1)
  else if 56 ≤ i ∧ i < 60 then s.anyFlag (FUR_STAT (i - 56))
  else if 68 ≤ i ∧ i < 76 then s.on (bitFld SIL_STAT (8 + (i - 68)))
  else if 76 ≤ i ∧ i < 84 then s.on (bitFld SIL_STAT (16 + (i - 76)))
  else if 88 ≤ i ∧ i < 92 then s.on (GLN_WSTAT_TRIP (i - 88)) && s.on (GLN_WCTL_IRQ (i - 88))
  else if 128 ≤ i ∧ i < 192 then s.on (bitFld (INT_SWSET ((i - 128) / 32)) ((i - 128) % 32))
  else match i with
    | 1 => s.on SYS_CLKSTAT_REFLOSS
    | 2 => s.on ANA_STAT_DONE
    | 3 => s.on ANA_STAT_CMDERR || s.on ANA_STAT_CFGERR || s.on ANA_STAT_CALFAIL || s.on ANA_STAT_REFSWAP
    | 4 => s.anyFlag SLC_STAT
    | 5 => s.on FLT_STAT_CFGERR || s.on FLT_STAT_SAT
    | 6 => s.on FLT_TRQSTAT_OVF
    | 60 => s.anyFlag SOWC_STAT
    | 61 => s.on TAL_STAT_HCEV
    | 62 => s.on TAL_STAT_SNAPDONE
    | 63 => s.on TAL_STAT_SNAPLOST || s.on TAL_STAT_SEALWR || s.on TAL_STAT_OVF || s.on TAL_STAT_INVAL
        || s.on TAL_STAT_SUBST
    | 64 => s.anyBit PLS_STAT 0x0000FFFF
    | 65 => s.anyBit PLS_STAT 0xFFFF0000
    | 66 => s.thrIrq
    | 67 => s.on THR_STAT_ERR || s.on THR_STAT_FULL || s.on THR_STAT_SHED || s.on THR_STAT_POSTERR
    | 84 => s.on SIL_STAT_ARMERR || s.on SIL_STAT_CFGERR
    | 85 => s.anyFlag PLG_STAT
    | 86 => s.on PLG_OVSTAT_V
    | 87 => s.anyFlag HOP_STAT
    | 92 => s.on GLN_STAT_CFGERR || s.on GLN_STAT_INJLOST || s.on GLN_STAT_RSKIP
    | 93 => s.on NVM_STAT_DONE
    | 94 => s.on NVM_STAT_PFC
    | 95 => s.on NVM_STAT_REFUSED || s.on NVM_STAT_DBL || s.on NVM_STAT_REMAP || s.on NVM_STAT_TAKEOVER
        || s.on NVM_STAT_NOREPAIR
    | 96 => s.on RTC_STAT_ALM0 && s.on (bitFld (RTC_ALMCTL 0) 28)
    | 97 => s.on RTC_STAT_ALM1 && s.on (bitFld (RTC_ALMCTL 1) 28)
    | 98 => s.on RTC_STAT_BADWR || s.on RTC_STAT_RESYNC || s.on RTC_STAT_HEDGE || s.on RTC_STAT_OSF
    | 99 => s.on RTC_TBSTAT_FLAGS
    | 100 => s.on BKP_STAT_CELL_LOW || s.on BKP_STAT_BRST || s.on BKP_MISSED_V
    | 101 => s.on (BAL_LSTAT_WENTDOWN 0)
    | 102 => s.on (BAL_LSTAT_WENTDOWN 1)
    | 103 => s.on BAL_PLOT_POSCONF || s.on BAL_PLOT_OVER || s.on BAL_SYNCSTAT_STEP
    | 104 => s.on DEAL_STAT_APPLIED
    | 105 => s.on DEAL_STAT_SEEDIGN || s.on DEAL_STAT_AUTHFAIL || s.on DEAL_STAT_LATEFAIL || s.on DEAL_STAT_TMOFOLD
    | 106 => s.on DUO_STAT_RXDONE
    | 107 => s.on DUO_STAT_TXDONE || s.on DUO_STAT_TXFAIL
    | 108 => s.on DUO_STAT_BCNMISS || s.on DUO_STAT_LINKCHG || s.on DUO_STAT_DUTYHOLD || s.on DUO_STAT_RXDROP
        || s.on DUO_STAT_HEDGE || s.on DUO_STAT_TXENF
    | 109 => s.on HDG_STAT_VIOL || s.on HDG_STAT_CFGERR
    | 110 => s.on TMP_STAT_EV
    | 111 => s.on TMP_STAT_BIC
    | 112 => s.on (YLD_ALERT_V 0) || s.on (YLD_ALERT_V 1) || s.on (YLD_ALERT_V 2) || s.on YLD_REFDIS_DIS
    | 113 => s.on YLD_STAT_SWAP
    | 114 => !s.fx && (s.on MSD_STAT_ACT || s.on MSD_STAT_DONE)
    | _ => false

/-- The levels of all 256 sources as a bit mask. -/
def State.levels (s : State) : Nat := maskOf 192 s.level

/-- Source `i` is active: claimed and not completed. -/
def State.active (s : State) (i : Nat) : Bool := s.claims.any (·.1 = i)

/-- Source `i` is enabled for target `t` with a priority above its threshold. -/
def State.qualifies (s : State) (t i : Nat) : Bool :=
  s.on (bitFld (INT_EN t (i / 32)) (i % 32)) && decide (s.rd (INT_THR_V t) < s.rd (INT_PRI_of i))

/-- The sources of a mask that are offered to target `t` (R395). -/
def State.offers (s : State) (t mask : Nat) : List Nat :=
  (onBits 192 mask).filter fun i => !s.active i && s.qualifies t i

/-- The source of highest priority, and among equals the lowest ID (R396). -/
def State.topOf (s : State) (is : List Nat) : Option Nat :=
  is.foldl (fun (b : Option Nat) i => match b with
    | some j => if s.rd (INT_PRI_of j) < s.rd (INT_PRI_of i) then some i else b
    | none => some i) none

/-- The source that a claim for target `t` would return now. -/
def State.offered (s : State) (t : Nat) : Option Nat := s.topOf (s.offers t s.levels)

/-- Target `t`'s request line (R395). -/
def State.reqLine (s : State) (t : Nat) : Bool := (s.offered t).isSome

/-- The word of a claimed source: priority and ID. -/
def State.claimWord (s : State) (i : Nat) : Word := BitVec.ofNat 32 (s.rd (INT_PRI_of i) * 65536 + i)

/-- A claim for target `t` (R396): the word, and the state in which the source is active and claimed by `t`. -/
def State.claim (s : State) (t : Nat) : Word × State :=
  match s.offered t with
  | some i => (s.claimWord i, { s with claims := s.claims ++ [(i, t)] })
  | none => (0, s)

/-- A completion of source `i` by target `t` (R397). -/
def State.complete (s : State) (t i : Nat) : State :=
  if s.claims.contains (i, t) then { s with claims := s.claims.filter (· ≠ (i, t)) }
  else ((s.inc INT_BADDONE_COUNT).wr INT_BADDONE_TGT t).wr INT_BADDONE_ID i

/-- The sources that target `t` had claimed are completed (R223, R398). -/
def State.completeAll (s : State) (t : Nat) : State := { s with claims := s.claims.filter (·.2 ≠ t) }

/-! ### The rows of the table -/

/-- INTERRUPT_CLAIM (R396): a read of `INT_CLAIMt`. -/
def opInterruptClaim (o : Orig) (t : Fin 6) (s : State) : State :=
  let r := s.claim t
  r.2.setRdata (readerOf o) r.1

/-- INTERRUPT_COMPLETE (R397): a write of an ID to `INT_DONEt`. -/
def opInterruptComplete (t : Fin 6) (w : Word) (s : State) : State := s.complete t (w.toNat % 256)

/-- INT_SWSET (R392): a write of 1s to `INT_SWSETk`. -/
def opIntSwset (k : Fin 2) (w : Word) (s : State) : State := s.wrW (INT_SWSET k) (s.rdW (INT_SWSET k) ||| w)

/-- INT_SWCLR (R392): a write of 1s to `INT_SWCLRk`. -/
def opIntSwclr (k : Fin 2) (w : Word) (s : State) : State := s.wrW (INT_SWSET k) (s.rdW (INT_SWSET k) &&& ~~~w)

end Sys2Proof.Machine
end

