-- ==== Sys2Proof/Machine/Fp.lean ====
section
/-!
DEFINITION. Binary32 arithmetic (R248): decoding, rounding in the four modes of `hs.RM`, and the operations of Table
08-9. Results come with the sticky flags they set, as bits of `hs` (Table 08-2).
-/
namespace Sys2Proof

/-- `hs` flag bits: invalid, division by zero, overflow, underflow, inexact, and the integer Q. -/
abbrev fIVO : Nat := 2 ^ 8
abbrev fDVZ : Nat := 2 ^ 9
abbrev fOVF : Nat := 2 ^ 10
abbrev fUNF : Nat := 2 ^ 11
abbrev fINX : Nat := 2 ^ 12
abbrev fQ : Nat := 2 ^ 16

/-- A result word and the flags it sets. -/
abbrev FpRes := Word × Nat

/-- What a binary32 word stands for: a NaN, an infinity, or ±m × 2^e. -/
inductive Fv
  | nan
  | inf (neg : Bool)
  | fin (neg : Bool) (m : Nat) (e : Int)
  deriving DecidableEq, Repr

/-- The value of a binary32 word. -/
def fpVal (w : Word) : Fv :=
  let x := w.toNat
  let neg := decide (bit x 31 = 1)
  let ex := bits x 30 23
  let fr := bits x 22 0
  if ex = 255 then (if fr = 0 then .inf neg else .nan)
  else if ex = 0 then .fin neg fr (-149)
  else .fin neg (2 ^ 23 + fr) ((ex : Int) - 150)

/-- The word is a signalling NaN. -/
def fpSnan (w : Word) : Bool := fpVal w == .nan && bit w.toNat 22 == 0

/-- The default NaN. -/
abbrev fpDefault : Word := 0x7FFFFFFF#32

/-- A NaN made quiet. -/
def fpQuiet (w : Word) : Word := w ||| 0x00400000#32

/-- The NaN result of operands in order, if one is a NaN: the first, quiet; IVO when any is signalling (R248). -/
def fpNan (ws : List Word) : Option FpRes :=
  match ws.find? (fun w => fpVal w == .nan) with
  | some w => some (fpQuiet w, if ws.any fpSnan then fIVO else 0)
  | none => none

/-- A signed zero, and a signed infinity. -/
def fpZero (neg : Bool) : Word := if neg then 0x80000000#32 else 0#32
def fpInf (neg : Bool) : Word := if neg then 0xFF800000#32 else 0x7F800000#32

/-- Rounding of quotient `q` with remainder `r` of divisor `d` goes away from zero in mode `rm`. -/
def fpAway (rm : Nat) (neg : Bool) (q r d : Nat) : Bool :=
  match rm with
  | 0 => decide (d < 2 * r) || (decide (2 * r = d) && decide (q % 2 = 1))
  | 1 => neg && decide (r ≠ 0)
  | 2 => !neg && decide (r ≠ 0)
  | _ => false

/-- `num / den × 2^k` as a numerator and a denominator of naturals. -/
def scale2 (num den : Nat) (k : Int) : Nat × Nat :=
  if 0 ≤ k then (num * 2 ^ k.toNat, den) else (num, den * 2 ^ (-k).toNat)

/-- ±(num / den) × 2^e rounded to binary32 in mode `rm`, with OVF, UNF and INX (R248). -/
def fpRound (rm : Nat) (neg : Bool) (num den : Nat) (e : Int) : FpRes :=
  if num = 0 then (fpZero neg, 0)
  else
    let l0 : Int := (num.log2 : Int) - den.log2 + e
    let v0 := scale2 num den (e - l0)
    let l := if v0.2 ≤ v0.1 then l0 else l0 - 1
    let t := if l - 23 < -149 then -149 else l - 23
    let v := scale2 num den (e - t)
    let q := v.1 / v.2
    let r := v.1 % v.2
    let q1 := if fpAway rm neg q r v.2 then q + 1 else q
    let q2 := if q1 = 2 ^ 24 then 2 ^ 23 else q1
    let t2 := if q1 = 2 ^ 24 then t + 1 else t
    let s := if neg then 2 ^ 31 else 0
    let inx := if r = 0 then 0 else fINX
    if 104 < t2 then
      let top := match rm with
        | 0 => true
        | 1 => neg
        | 2 => !neg
        | _ => false
      (if top then fpInf neg else BitVec.ofNat 32 (s + 0x7F7FFFFF), fOVF + fINX)
    else
      let u := scale2 num den (e - (l - 23))
      let qu := u.1 / u.2
      let up := fpAway rm neg qu (u.1 % u.2) u.2 && decide (qu + 1 = 2 ^ 24)
      let tiny := decide (l < -127) || (decide (l = -127) && !up)
      let w := if q2 < 2 ^ 23 then q2 else (t2 + 150).toNat * 2 ^ 23 + (q2 - 2 ^ 23)
      (BitVec.ofNat 32 (s + w), inx + if tiny ∧ r ≠ 0 then fUNF else 0)

/-- A signed integer × 2^e rounded to binary32; a zero has sign `zneg`. -/
def fpOfInt (rm : Nat) (z : Int) (e : Int) (zneg : Bool) : FpRes :=
  if z = 0 then (fpZero zneg, 0) else fpRound rm (decide (z < 0)) z.natAbs 1 e

/-- ±m as an integer. -/
def signed (neg : Bool) (m : Nat) : Int := if neg then -(m : Int) else m

/-- The exact sum of two finite values as an integer × 2^e. -/
def fpSumExact (na : Bool) (ma : Nat) (ea : Int) (nb : Bool) (mb : Nat) (eb : Int) : Int × Int :=
  let e := if ea ≤ eb then ea else eb
  (signed na (ma * 2 ^ (ea - e).toNat) + signed nb (mb * 2 ^ (eb - e).toNat), e)

/-- The sum of two values that are no NaN; a zero sum of unlike signs is +0, or −0 toward −∞. -/
def fpSumV (rm : Nat) (a b : Fv) : FpRes :=
  match a, b with
  | .inf na, .inf nb => if na = nb then (fpInf na, 0) else (fpDefault, fIVO)
  | .inf na, _ => (fpInf na, 0)
  | _, .inf nb => (fpInf nb, 0)
  | .fin na ma ea, .fin nb mb eb =>
    let x := fpSumExact na ma ea nb mb eb
    fpOfInt rm x.1 x.2 (if ma = 0 ∧ mb = 0 ∧ na = nb then na else decide (rm = 1))
  | _, _ => (fpDefault, fIVO)

/-- xa + xb. -/
def fpAdd (rm : Nat) (a b : Word) : FpRes := (fpNan [a, b]).getD (fpSumV rm (fpVal a) (fpVal b))

/-- A value with its sign inverted. -/
def Fv.neg : Fv → Fv
  | .nan => .nan
  | .inf n => .inf !n
  | .fin n m e => .fin (!n) m e

/-- xa − xb. -/
def fpSub (rm : Nat) (a b : Word) : FpRes := (fpNan [a, b]).getD (fpSumV rm (fpVal a) (fpVal b).neg)

/-- The exact product of two values that are no NaN; none where the product is invalid (0 × ∞). -/
def fpProd : Fv → Fv → Option Fv
  | .inf na, .inf nb => some (.inf (na != nb))
  | .inf na, .fin nb mb _ => if mb = 0 then none else some (.inf (na != nb))
  | .fin na ma _, .inf nb => if ma = 0 then none else some (.inf (na != nb))
  | .fin na ma ea, .fin nb mb eb => some (.fin (na != nb) (ma * mb) (ea + eb))
  | _, _ => none

/-- A value rounded to binary32. -/
def fpOfV (rm : Nat) : Fv → FpRes
  | .nan => (fpDefault, 0)
  | .inf n => (fpInf n, 0)
  | .fin n m e => fpRound rm n m 1 e

/-- xa × xb. -/
def fpMul (rm : Nat) (a b : Word) : FpRes :=
  (fpNan [a, b]).getD (match fpProd (fpVal a) (fpVal b) with
    | some v => fpOfV rm v
    | none => (fpDefault, fIVO))

/-- xa / xb. -/
def fpDiv (rm : Nat) (a b : Word) : FpRes :=
  (fpNan [a, b]).getD (match fpVal a, fpVal b with
    | .inf _, .inf _ => (fpDefault, fIVO)
    | .inf na, .fin nb _ _ => (fpInf (na != nb), 0)
    | .fin na _ _, .inf nb => (fpZero (na != nb), 0)
    | .fin na ma ea, .fin nb mb eb =>
      if mb = 0 then (if ma = 0 then (fpDefault, fIVO) else (fpInf (na != nb), fDVZ))
      else fpRound rm (na != nb) ma mb (ea - eb)
    | _, _ => (fpDefault, fIVO))

/-- √xa; −0 gives −0. -/
def fpSqrt (rm : Nat) (a : Word) : FpRes :=
  (fpNan [a]).getD (match fpVal a with
    | .inf n => if n then (fpDefault, fIVO) else (fpInf false, 0)
    | .fin n m e =>
      if m = 0 then (a, 0)
      else if n then (fpDefault, fIVO)
      else
        let odd := decide (e % 2 = 1)
        let x := (if odd then 2 * m else m) * 2 ^ 80
        let h := ((if odd then e - 1 else e) - 80) / 2
        let r := isqrt x
        fpRound rm false (2 * r + b2n (decide (r * r ≠ x))) 1 (h - 1)
    | .nan => (fpDefault, fIVO))

/-- xd + xa × xb with one rounding. IEEE 754 leaves open whether 0 × ∞ + a quiet NaN is invalid: a free value. -/
def fpMac (rm : Nat) (d a b : Word) : FpRes :=
  let p := fpProd (fpVal a) (fpVal b)
  match fpNan [a, b, d] with
  | some (w, f) =>
    if fpVal a ≠ .nan ∧ fpVal b ≠ .nan ∧ p = none ∧ f = 0 ∧ Config.fmaInvalid a b d then (w, fIVO) else (w, f)
  | none => match p with
    | some v => fpSumV rm v (fpVal d)
    | none => (fpDefault, fIVO)

/-- A finite or infinite order: a < b on values that are no NaN, with −0 = +0. -/
def fpLtV : Fv → Fv → Bool
  | .inf na, .inf nb => na && !nb
  | .inf na, .fin _ _ _ => na
  | .fin _ _ _, .inf nb => !nb
  | .fin na ma ea, .fin nb mb eb =>
    let e := if ea ≤ eb then ea else eb
    decide (signed na (ma * 2 ^ (ea - e).toNat) < signed nb (mb * 2 ^ (eb - e).toNat))
  | _, _ => false

/-- xa = xb as values: quiet (R248). -/
def fpEq (a b : Word) : FpRes :=
  if fpVal a = .nan ∨ fpVal b = .nan then (0, if fpSnan a ∨ fpSnan b then fIVO else 0)
  else (if fpLtV (fpVal a) (fpVal b) || fpLtV (fpVal b) (fpVal a) then 0 else 1, 0)

/-- xa < xb: any NaN sets IVO (R248). -/
def fpLt (a b : Word) : FpRes :=
  if fpVal a = .nan ∨ fpVal b = .nan then (0, fIVO) else (if fpLtV (fpVal a) (fpVal b) then 1 else 0, 0)

/-- xa ≤ xb: any NaN sets IVO (R248). -/
def fpLe (a b : Word) : FpRes :=
  if fpVal a = .nan ∨ fpVal b = .nan then (0, fIVO) else (if fpLtV (fpVal b) (fpVal a) then 0 else 1, 0)

/-- xa is the smaller, −0 below +0. -/
def fpBelow (a b : Word) : Bool :=
  fpLtV (fpVal a) (fpVal b) || (!fpLtV (fpVal b) (fpVal a) && decide (bit a.toNat 31 = 1))

/-- Minimum and maximum of IEEE 754-2019. -/
def fpMin (a b : Word) : FpRes := (fpNan [a, b]).getD (if fpBelow a b then a else b, 0)
def fpMax (a b : Word) : FpRes := (fpNan [a, b]).getD (if fpBelow a b then b else a, 0)

/-- Sign bit cleared, inverted. -/
def fpAbs (a : Word) : FpRes := (a &&& 0x7FFFFFFF#32, 0)
def fpNeg (a : Word) : FpRes := (a ^^^ 0x80000000#32, 0)

/-- xa × 2^k as an int32, rounded in mode `rm` and held at the limits (R248). -/
def fpToInt (rm : Nat) (a : Word) (k : Int) : FpRes :=
  match fpVal a with
  | .nan => (0, fIVO)
  | .inf n => (if n then 0x80000000#32 else 0x7FFFFFFF#32, fIVO)
  | .fin n m e =>
    let v := scale2 m 1 (e + k)
    let q := v.1 / v.2
    let r := v.1 % v.2
    let z := signed n (if fpAway rm n q r v.2 then q + 1 else q)
    if z < -(2 ^ 31 : Nat) then (0x80000000#32, fIVO)
    else if (2 ^ 31 : Nat) ≤ z then (0x7FFFFFFF#32, fIVO)
    else (BitVec.ofInt 32 z, if r = 0 then 0 else fINX)

/-- Int32 × 2^k to binary32. -/
def fpFromInt (rm : Nat) (a : Word) (k : Int) : FpRes := fpOfInt rm a.toInt k false

/-- A binary32 value × 2^k rounded to an integer, half away from zero (R191); none for a NaN or an infinity. -/
def fpToBin (a : Word) (k : Int) : Option Int :=
  match fpVal a with
  | .fin n m e =>
    let v := scale2 m 1 (e + k)
    some (signed n ((2 * v.1 + v.2) / (2 * v.2)))
  | _ => none

end Sys2Proof
end

