-- ==== Sys2Proof/Machine/Chain.lean ====
section
/-!
DEFINITION. The decimation chain's shifts (R118, R119), and the window comparators'
configuration, states and trip queue (R130 to R137). The samples themselves stand in Streams.lean.
-/
namespace Sys2Proof.Machine

/-- What channel `c` holds. -/
def State.chan1 (s : State) (c : Nat) : Chan := Sparse.get (fun _ => {}) c s.chan

/-- `s` with channel `c` holding `h`. -/
def State.setChan (s : State) (c : Nat) (h : Chan) : State :=
  { s with chan := Sparse.set (fun _ => ({} : Chan)) c h s.chan }

/-- The gang mode in force of pair `k` (Table 03-11). -/
def State.gangMode (s : State) (k : Nat) : Nat := Sparse.get (fun _ => 0) k s.gang

/-- Channel `c` is the odd channel of a ganged pair (R103). -/
def State.oddGanged (s : State) (c : Nat) : Bool := decide (c % 2 = 1) && decide (s.gangMode (c / 2) ≠ 0)

/-- The gain exponents of channel `c` from its shifts (R118), as they read in `FLT_CTLc`. -/
def State.putExponents (s : State) (c : Nat) : State :=
  let ec : Int := 12 - s.rd (FLT_SHIFT_SH1 c)
  let ew : Int := ec + 4 - s.rd (FLT_SHIFT_SH2 c)
  let ef : Int := ew + 20 - s.rd (FLT_SHIFT_SH3 c) - s.rd (FLT_SHIFT_SH4 c) - s.rd (FLT_SHIFT_SH5 c)
    - s.rd (FLT_SHIFT_SH6 c) - s.rd (FLT_SHIFT_SH7 c)
  ((s.wrS (FLT_CTL_EC c) ec).wrS (FLT_CTL_EW c) ew).wrS (FLT_CTL_EF c) ef

/-- A write to `FLT_SHIFTc` (R119): each stage whose shift changed takes the new one with its next result; no change, no
effect. -/
def State.shiftWrite (s : State) (c : Nat) (w : Word) : State :=
  let old := (s.rdW (FLT_SHIFT c)).toNat
  let new := w.toNat % 2 ^ 28
  let m := maskOf 7 fun i => decide (bits old (4 * i + 3) (4 * i) ≠ bits new (4 * i + 3) (4 * i))
  let s := (s.wrW (FLT_SHIFT c) (BitVec.ofNat 32 new)).revMark (FLT_SHIFT c) (s.rdW (FLT_SHIFT c))
  let s := s.putExponents c
  s.setChan c { s.chan1 c with shNew := (s.chan1 c).shNew ||| m }

/-! ### Comparators -/

/-- The lower re-entry edge of a comparator (R131). -/
def reLo (mode lo hys : Int) : Int := if lo = -8388608 ∨ (mode = 1 ∧ lo = 0) then lo else lo + hys

/-- The upper re-entry edge of a comparator (R131). -/
def reHi (hi hys : Int) : Int := if hi = 8388607 then hi else hi - hys

/-- The configuration words CTL, LO, HI and HYS are ones that R130 and R131 accept. -/
def cmpOk (ctl lo hi hys : Nat) : Bool :=
  let mode := bits ctl 30 29
  let l := sx 24 lo
  let h := sx 24 hi
  let y : Int := hys % 2 ^ 23
  decide (mode ≠ 3) && decide (l ≤ h) && decide (reLo mode l y ≤ reHi h y) && decide (bits ctl 15 0 ≠ 0)

/-- A write to a comparator register (R137): `r` 0 CTL, 1 LO, 2 HI, 3 HYS. It is checked, stored, and resets the
comparator to IN with count 0, or it is discarded with CFGERR (R130, R131). -/
def State.cmpWrite (s : State) (k r : Nat) (w : Word) : State :=
  let pick (i a : Nat) : Nat := if r = i then w.toNat else (s.rdW a).toNat
  if cmpOk (pick 0 (FLT_CMPCTL k)) (pick 1 (FLT_CMPLO k)) (pick 2 (FLT_CMPHI k)) (pick 3 (FLT_CMPHYS k)) then
    let s := match r with
      | 0 => s.wrW (FLT_CMPCTL k) (w &&& 0xFFFCFFFF#32)
      | 1 => s.wrW (FLT_CMPLO k) (w &&& 0x00FFFFFF#32)
      | 2 => s.wrW (FLT_CMPHI k) (w &&& 0x00FFFFFF#32)
      | _ => s.wrW (FLT_CMPHYS k) (w &&& 0x007FFFFF#32)
    (s.wr (FLT_CMPSTAT_STATE k) 0).wr (FLT_CMPSTAT_CNT k) 0
  else s.flag FLT_STAT_CFGERR

/-- The value a comparator forms from channel history `h` (newest first, R130), and whether a sample it uses carries
INV. -/
def cmpValue (ctl : Nat) (h : List Word) : Int × Bool :=
  let smp (i : Nat) : Int := sx 24 (bits (h.getD i 0).toNat 31 8)
  let inv (i : Nat) : Bool := decide (bit (h.getD i 0x80#32).toNat 7 = 1)
  match bits ctl 30 29 with
  | 0 => (smp 0, inv 0)
  | 1 => (clampI 0 8388607 (smp 0).natAbs, inv 0)
  | _ =>
    let d := bits ctl 28 26 + 1
    (satS 24 (smp 0 - smp d), (List.range (d + 1)).any inv)

/-- One coarse sample at comparator `k` (R132): the count advances or resets; reaching N is left to the trip or the
return. -/
def State.cmpSample (s : State) (k : Nat) (h : List Word) : State :=
  let ctl := (s.rdW (FLT_CMPCTL k)).toNat
  if bit ctl 31 = 0 then s
  else
    let (x, inv) := cmpValue ctl h
    let lo := s.rdS (FLT_CMPLO_LO k)
    let hi := s.rdS (FLT_CMPHI_HI k)
    let y : Int := s.rd (FLT_CMPHYS_HYS k)
    let q :=
      if s.rd (FLT_CMPSTAT_STATE k) = 0 then decide (x < lo ∨ hi < x)
      else decide (reLo (bits ctl 30 29) lo y ≤ x ∧ x ≤ reHi hi y)
    if inv || !q then s.wr (FLT_CMPSTAT_CNT k) 0
    else
      let n := s.rd (FLT_CMPSTAT_CNT k) + 1
      let s := s.wr (FLT_CMPSTAT_CNT k) (satU 16 n)
      if n = bits ctl 15 0 then { s with cmpClk := Sparse.set (fun _ => 0) k s.clk s.cmpClk } else s

/-- Comparator `k` has reached its count (R132). -/
def State.cmpDue (s : State) (k : Nat) : Bool :=
  s.on (FLT_CMPCTL_EN k) && decide (s.rd (FLT_CMPCTL_N k) ≤ s.rd (FLT_CMPSTAT_CNT k))

/-- The comparator returns to IN without action (R132). -/
def State.cmpReturn (s : State) (k : Nat) : State :=
  if s.cmpDue k && s.on (FLT_CMPSTAT_STATE k) then (s.wr (FLT_CMPSTAT_STATE k) 0).wr (FLT_CMPSTAT_CNT k) 0 else s

/-- A trip record put among the others of its cycle, in ascending comparator number (R136). -/
def tripIns (e : Nat × List Word) : List (Nat × List Word) → List (Nat × List Word)
  | [] => [e]
  | r :: rs => if e.1 < r.1 then e :: r :: rs else r :: tripIns e rs

/-- The trip queue as the object of requests (R136). -/
def objTrips : Nat := 124

/-- A trip record joins the queue of 16; one is dropped and counted where it is full (R135). The records of one cycle stand,
and are dropped, by their comparators' numbers, whichever was formed first (R136). -/
def State.tripPush (s : State) (k : Nat) (ts : List Word) : State :=
  let n := s.tripQ.length - (s.taken.filter (·.1 = objTrips)).length
  let q := s.tripQ.take n ++ tripIns (k, ts) (s.tripQ.drop n)
  if q.length ≤ 16 then { s with tripQ := q }.took objTrips k
  else ({ s with tripQ := q.take 16 }.flag FLT_TRQSTAT_OVF).inc FLT_TRQSTAT_LOST

/-- A read of `FLT_TRQWk` by reader `o` (R135): word 0 removes the oldest record into the reader's shadow, words 1 to 5
read the shadow for 10 µs, and word 5 ends it. -/
def State.tripRead (s : State) (o k : Nat) : Word × State :=
  let put (h : Option Shadow) (s : State) : State := { s with shTrip := Sparse.set (fun _ => none) o h s.shTrip }
  if k = 0 then
    match s.tripQ with
    | [] => (0, s)
    | (n, ts) :: q =>
      (BitVec.ofNat 32 (2 ^ 31 + n), put (some { key := n, words := ts, at_ := s.clk }) { s with tripQ := q })
  else
    match Sparse.get (fun _ => none) o s.shTrip with
    | some h =>
      if s.clk ≤ h.at_ + 4915 then (h.words.getD (k - 1) 0, if k = 5 then put none s else s) else (0, s)
    | none => (0, s)

/-! ### The rows of the table -/

/-- COMPARATOR_WRITE (R137). -/
def opComparatorWrite (k : Fin 96) (r : Fin 4) (w : Word) (s : State) : State := s.cmpWrite k r w

/-- COMPARATOR_RETURN (R132). -/
def opComparatorReturn (k : Fin 96) (s : State) : State := s.cmpReturn k

end Sys2Proof.Machine
end

