-- ==== Sys2Proof/Machine/Granary.lean ====
section
/-!
DEFINITION. The granary: bins and their metadata, read shadows, the snapshot bank (R155 to R157, R163), and snapshot
requests (R159, R160, R162).
-/
namespace Sys2Proof.Machine

/-- What field `f` holds. -/
def State.fieldOf (s : State) (f : Nat) : Field := Sparse.get (fun _ => {}) f s.field

/-- `s` with field `f` holding `x`. -/
def State.setField (s : State) (f : Nat) (x : Field) : State :=
  { s with field := Sparse.set (fun _ => ({} : Field)) f x s.field }

/-- The signed value of bin `b`. -/
def State.bin (s : State) (b : Nat) : Int := (Sparse.get (fun _ => (0 : Acc96)) b s.bins).toInt

/-- `s` with value `z` in bin `b`, taken as 96-bit two's complement. -/
def State.setBin (s : State) (b : Nat) (z : Int) : State :=
  { s with bins := Sparse.set (fun _ => (0 : Acc96)) b (BitVec.ofInt 96 z) s.bins }

/-- PHASE and QCODE of a field's bin by offset (Table 05-3). -/
def binKind (o : Nat) : Nat × Nat :=
  if o < 36 then (o / 12 + 1, [1, 2, 3, 4, 5, 6, 7, 9, 10, 11, 12, 13].getD (o % 12) 0)
  else if o = 47 then (4, 12)
  else if o < 57 then (0, [1, 2, 3, 4, 5, 6, 7, 8, 9, 10, 11, 0, 14, 15, 16, 17, 18, 19, 20, 21, 22].getD (o - 36) 0)
  else (0, 0)

/-- The metadata word of bin `b` (Table 05-4; for program bins R267). Bins 57 to 63 of a field read 0. -/
def State.binMetaWord (s : State) (b : Nat) : Word :=
  if b < 1024 then
    let o := b % 64
    if 57 ≤ o then 0
    else
      let f := s.fieldOf (b / 64)
      let k := binKind o
      BitVec.ofNat 32 (bit f.ovf o * 2 ^ 31 + f.flags % 2 ^ 31 + b / 64 * 65536 + k.1 * 8192 + k.2)
  else Sparse.get (fun _ => 0) b s.binMeta

/-- The accumulator of bin `b` as a reader and a snapshot see it: row 2 of an enabled field in 3P3W reads 0 (Table 05-1). The
accumulator itself is kept; notes: assumption 136. -/
def State.binSeen (s : State) (b : Nat) : Nat :=
  let g := (s.fieldOf (b / 64)).cfg
  if b < 1024 ∧ 12 ≤ b % 64 ∧ b % 64 < 24 ∧ bit g.fcfg 31 = 1 ∧ bits g.fcfg 2 0 = 1 then 0
  else (Sparse.get (fun _ => (0 : Acc96)) b s.bins).toNat

/-- The four words of bin `b` (R156). -/
def State.binWords (s : State) (b : Nat) : List Word :=
  let v := s.binSeen b
  [BitVec.ofNat 32 v, BitVec.ofNat 32 (v / 2 ^ 32), BitVec.ofNat 32 (v / 2 ^ 64), s.binMetaWord b]

/-- Word `w` of offset `o` of field `f`'s snapshot bank (R163). -/
def State.snapWord (s : State) (f o w : Nat) : Word := Sparse.get (fun _ => 0) (256 * f + 4 * o + w) s.snapBank

/-- The field that originator `o` has selected for the snapshot window (R163: banked). -/
def State.snapField (s : State) (o : Nat) : Nat := Sparse.get (fun _ => 0) o s.snapSel

/-- A shadow that is still alive: 10 µs (R157). -/
def liveShadow (now : Nat) (h : Option Shadow) : Option Shadow :=
  match h with
  | some x => if now ≤ x.at_ + 4915 then some x else none
  | none => none

/-- A read of word `w` of a four-word bin with the shadow rule of R157: `cur` are its current words, `h` the reader's
shadow; the answer and the shadow after. -/
def shadowRead (now key w : Nat) (cur : List Word) (h : Option Shadow) : Word × Option Shadow :=
  if w = 0 then (cur.getD 0 0, some { key := key, words := cur, at_ := now })
  else
    match liveShadow now h with
    | some x => if x.key = key then (x.words.getD w 0, if w = 3 then none else some x) else (cur.getD w 0, some x)
    | none => (cur.getD w 0, none)

/-- A read of word `w` of granary bin `b` by reader `o` (R157). -/
def State.granaryRead (s : State) (o b w : Nat) : Word × State :=
  let r := shadowRead s.clk b w (s.binWords b) (Sparse.get (fun _ => none) o s.shBin)
  (r.1, { s with shBin := Sparse.set (fun _ => none) o r.2 s.shBin })

/-- A read of word `w` of offset `k` in the snapshot window by reader `o` of originator code `c` (R157, R163). -/
def State.snapRead (s : State) (c o k w : Nat) : Word × State :=
  let f := s.snapField c
  let cur := [s.snapWord f k 0, s.snapWord f k 1, s.snapWord f k 2, s.snapWord f k 3]
  let r := shadowRead s.clk (64 * f + k) w cur (Sparse.get (fun _ => none) o s.shSnap)
  (r.1, { s with shSnap := Sparse.set (fun _ => none) o r.2 s.shSnap })

/-- A read of `TAL_SCNTL` (k = 0) or `TAL_SCNTH` (k = 1) by reader `o` (Table 05-7): the index of the last completed
round; the low word latches the high one for 10 µs. -/
def State.scntRead (s : State) (o k : Nat) : Word × State :=
  let idx := s.rounds - 1
  let hi := BitVec.ofNat 32 (idx / 2 ^ 32)
  if k = 0 then
    (BitVec.ofNat 32 idx, { s with
      shScnt := Sparse.set (fun _ => none) o (some { key := 0, words := [hi], at_ := s.clk }) s.shScnt })
  else
    match liveShadow s.clk (Sparse.get (fun _ => none) o s.shScnt) with
    | some x => (x.words.getD 0 0, s)
    | none => (hi, s)

/-! ### Program bins -/

/-- A write to program bin `b` (1024 to 4095) by originator `orig`: a set or an add of `z`, by the thresher or a
`GADD` (R146, R266, R267). -/
def State.progWrite (s : State) (b orig : Nat) (set thr : Bool) (z : Int) : State :=
  let m := (Sparse.get (fun _ => 0) b s.binMeta).toNat
  let v := if set then z else s.bin b + z
  let held := decide (satS 96 v ≠ v)
  let old (i : Nat) : Bool := !set && decide (bit m i = 1)
  let cnt := if set then 1 else satU 16 (bits m 15 0 + 1)
  let w := b2n (held || old 31) * 2 ^ 31 + b2n (s.on MSD_STAT_ACT || old 25) * 2 ^ 25 + b2n (thr || old 24) * 2 ^ 24
    + b2n ((!thr && !set) || old 23) * 2 ^ 23 + orig * 65536 + cnt
  let s := { s.setBin b (satS 96 v) with binMeta := Sparse.set (fun _ => 0) b (BitVec.ofNat 32 w) s.binMeta }
  if held then s.flag TAL_STAT_OVF else s

/-! ### Snapshot requests -/

/-- The index of the first sample whose input instant is at or after cycle `c` (R160, R164): L_T after it its round ends,
on the grid of the rounds. -/
def State.sampleAt (s : State) (c : Nat) : Nat :=
  ((((c : Int) - s.roundClk) + 2094 * cyFine + (cyFine - 1)) / cyFine + (s.rounds : Int) - 1).toNat

/-- The index that the first round to begin after cycle `c` has (R160). -/
def State.roundAfter (s : State) (c : Nat) : Nat := (((c : Int) - s.roundClk) / cyFine + (s.rounds : Int) + 1).toNat

/-- A snapshot of `fields` is requested now (R159 to R162): it merges with the requests of the same boundary that share a
field, or its cycle and alignment, into one with the earliest instant, or it queues; a ninth aligned boundary is refused
with SNAPLOST. Answers whether it is taken. -/
def State.snapRequest (s : State) (fields : Nat) (aligned : Bool) : Bool × State :=
  let bnd := if aligned then s.sampleAt s.clk else s.roundAfter s.clk
  let r : SnapReq :=
    { fields := fields % 65536, aligned := aligned, bnd := bnd, at_ := s.clk,
      stamps := [s.stamp 0, s.stamp 1, s.stamp 2, s.stamp 3] }
  let meets (q : SnapReq) : Bool :=
    decide (q.bnd = bnd) && ((decide (q.at_ = s.clk) && q.aligned == aligned) || decide (q.fields &&& r.fields ≠ 0))
  let queued := ((s.snaps.filter (·.aligned)).map (·.bnd)).eraseDups
  match s.snaps.filter meets with
  | q :: qs =>
    let all := (qs ++ [r]).foldl (fun (a : SnapReq) b =>
      { a with fields := a.fields ||| b.fields, aligned := a.aligned || b.aligned }) q
    (true, { s with snaps := (s.snaps.filter fun x => x == q || !meets x).map fun x => if x == q then all else x })
  | [] =>
    if aligned ∧ 8 ≤ queued.length ∧ ¬queued.contains bnd then
      (false, (s.flag TAL_STAT_SNAPLOST).inc TAL_SNAPSTAT_LOST)
    else (true, { s with snaps := s.snaps ++ [r] })

/-- The fields with a pending snapshot, as `TAL_SNAPSTAT.BUSY` reads. -/
def State.snapBusy (s : State) : Nat := s.snaps.foldl (fun a q => a ||| q.fields) 0

end Sys2Proof.Machine
end

