-- ==== Sys2Proof/Machine/Hopper.lean ====
section
/-!
DEFINITION. The hopper: queues, routes, admission and drops, tags (R227 to R231, R240); logical ploughs (R207, R209)
and the overload monitor's private view of the counters (R238).
-/
namespace Sys2Proof.Machine

/-! ### Logical ploughs -/

/-- The physical plough behind logical number `l` (R207, R209). -/
def State.physOf (s : State) (l : Nat) : Option Nat :=
  let p := bits (s.rd PLG_MAP_V) (4 * l + 3) (4 * l)
  if p < 5 then some p else none

/-- The logical number that physical plough `p` holds; 7: none. -/
def State.logOf (s : State) (p : Nat) : Nat := s.rd (PLG_PSTAT_LOG p)

/-- An overload counter advances: `bit` is its bit of `PLG_OVSTAT` (R238). -/
def State.ovInc (s : State) (f : Fld) (bit : Nat) : State :=
  { s.inc f with ovEv := s.ovEv ||| 2 ^ bit }

/-! ### Queues -/

/-- The queue of logical plough `l`, oldest first. -/
def State.hopQ (s : State) (l : Nat) : List HopE := Sparse.get (fun _ => []) l s.hop

/-- `s` with queue `q` for logical plough `l`. -/
def State.setHopQ (s : State) (l : Nat) (q : List HopE) : State := { s with hop := Sparse.set (fun _ => []) l q s.hop }

/-- The lowest suit in a queue, if it holds an entry. -/
def lowSuit : List HopE → Option Nat
  | [] => none
  | e :: q => match lowSuit q with
    | some m => some (if e.suit < m then e.suit else m)
    | none => some e.suit

/-- The newest entry of suit `u` taken out of a queue (oldest first): the entry and the rest. -/
def takeNewest (u : Nat) : List HopE → Option (HopE × List HopE)
  | [] => none
  | e :: q => match takeNewest u q with
    | some (x, r) => some (x, e :: r)
    | none => if e.suit = u then some (e, q) else none

/-- An entry joins a queue, or none: it carries GAP after a drop of its source (R229). -/
def hopAdmit (q : List HopE) (gaps : Sparse Bool) (e : HopE) (gapped : Bool) : List HopE × Sparse Bool :=
  let gap := gapped && Sparse.get (fun _ => false) e.src gaps
  let t := if gap then e.tag ||| 0x08000000#32 else e.tag
  (q ++ [{ e with tag := t }], if gapped then Sparse.set (fun _ => false) e.src false gaps else gaps)

/-- An entry meets its queue, of quota `quota` and closed to displacement (R227) or not (R230): the queue and the sources
whose last entry was dropped. Thresher completions carry no GAP. -/
def hopMeet (quota : Nat) (shut : Bool) (q : List HopE) (gaps : Sparse Bool) (e : HopE) (gapped : Bool) :
    List HopE × Sparse Bool :=
  let drop (src : Nat) : Sparse Bool := Sparse.set (fun _ => false) src true gaps
  if q.length < quota then hopAdmit q gaps e gapped
  else if shut || decide (quota < q.length) then (q, drop e.src)
  else match lowSuit q with
    | some u =>
      if u < e.suit then
        match takeNewest u q with
        | some (x, r) => hopAdmit r (drop x.src) e gapped
        | none => (q, drop e.src)
      else (q, drop e.src)
    | none => (q, drop e.src)

/-- Queues and gaps after one arrival; with no plough behind its logical number it is dropped (R230). -/
def State.hopStep (s : State) (b : Sparse (List HopE) × Sparse Bool) (x : HopArr) : Sparse (List HopE) × Sparse Bool :=
  if (s.physOf x.q).isNone then (b.1, Sparse.set (fun _ => false) x.e.src true b.2)
  else
    let r := hopMeet (s.rd (HOP_QCFG_QUOTA x.q)) (Sparse.get (fun _ => false) x.q s.hopShut)
      (Sparse.get (fun _ => []) x.q b.1) b.2 x.e x.gapped
    (Sparse.set (fun _ => []) x.q r.1 b.1, r.2)

/-- An arrival among those of its cycle, in the order of Table 07-6 and, within a source, of ascending channel (R230). -/
def arrIns (x : HopArr) : List HopArr → List HopArr
  | [] => [x]
  | y :: ys => if x.rank < y.rank then x :: y :: ys else y :: arrIns x ys

/-- An entry arrives for queue `l` (R230, R227, R209). The entries of one cycle are taken in their order whichever command
brings them first: each arrival takes the cycle's arrivals anew. -/
def State.hopPush (s : State) (rank l : Nat) (e : HopE) (gapped : Bool) : State :=
  let n := (s.hopQ l).length
  let s : State := if n < s.rd (HOP_QCFG_QUOTA l) then
    { s with hopShut := Sparse.set (fun _ => false) l false s.hopShut } else s
  let was := if s.hopNow.isEmpty then (s.hop, s.hopGap) else (s.hopWas, s.hopGapWas)
  let now := arrIns { rank := rank, q := l, e := e, gapped := gapped } s.hopNow
  let r := now.foldl s.hopStep was
  let s : State := { s with hop := r.1, hopGap := r.2, hopNow := now, hopWas := was.1, hopGapWas := was.2 }
  if (s.hopQ l).length = n then (s.ovInc (HOP_DROP_V l) 0).flag HOP_STAT_DROP else s

/-- The oldest entry of queue `l` is removed, `q` is left (R231); arrivals of the same cycle before it stand. -/
def State.hopPop (s : State) (l : Nat) (q : List HopE) : State := { s.setHopQ l q with hopNow := [] }

/-- An entry of a routed source: its row of Table 07-6, kind, key within the kind, tag bits [26:0], value (Tables 07-6,
07-7). The route is that in force when the cycle began (R240). -/
def State.hopRouted (s : State) (route kind key tag : Nat) (v : Word) : State :=
  s.hopPush (route * 4096 + key) (s.rdWas (HOP_ROUTE_L route))
    { val := v, tag := BitVec.ofNat 32 (kind * 2 ^ 28 + tag), suit := s.rdWas (HOP_ROUTE_SUIT route),
      src := kind * 4096 + key }
    true

/-- Fraction of furrow `fw` at cycle `c`. -/
def State.fracAt (s : State) (fw c : Nat) : Nat := (s.furrow fw).angle c % 16777216

/-- A stream entry of kind 0 coarse, 1 wide, 2 fine, whose sample's input instant was cycle `c`. -/
def State.hopStream (s : State) (kind ch c : Nat) (v : Word) : State :=
  let fw := s.rdWas (HOP_ROUTE_FW kind)
  s.hopRouted kind kind ch (fw * 2 ^ 25 + ch * 2 ^ 19 + bits (s.fracAt fw c) 23 5) v

/-- A resampled entry of furrow `n` (kind 3). -/
def State.hopResampled (s : State) (n ch k cyc : Nat) (v : Word) : State :=
  s.hopRouted (3 + n) 3 ch (n * 2 ^ 25 + ch * 2 ^ 19 + k * 2 ^ 8 + cyc % 256) v

/-- A gleaner entry (kind 4) of a conversion sampled at cycle `c`. -/
def State.hopGleaner (s : State) (inj : Bool) (e code c r : Nat) : State :=
  let fw := s.rd GLN_CTL_FW
  s.hopRouted 7 4 code (b2n inj * 2 ^ 26 + e * 2 ^ 22 + code * 2 ^ 16 + fw * 2 ^ 14 + bits (s.fracAt fw c) 23 10)
    (BitVec.ofNat 32 (r % 4096))

/-- A half-cycle RMS entry (kind 5) of value `m`: the window ended at fraction 2^23 or 0 of cycle `cyc`. -/
def State.hopRms (s : State) (m fw : Nat) (half : Bool) (cyc : Nat) (v : Word) : State :=
  s.hopRouted 8 5 m (fw * 2 ^ 25 + m * 2 ^ 18 + b2n half * 2 ^ 17 + cyc % 131072) v

/-- A thresher completion entry (kind 6): to the posting plough's queue with the posting hand's suit, or by route 9 for
a host post (R228). -/
def State.hopThresher (s : State) (poster : Option Nat) (suit state err cnt addr : Nat) : State :=
  let t := 6 * 2 ^ 28 + state * 2 ^ 23 + err * 2 ^ 19 + cnt % 65536
  let l := match poster with | some l => l | none => s.rdWas (HOP_ROUTE_L 9)
  let u := match poster with | some _ => suit | none => s.rdWas (HOP_ROUTE_SUIT 9)
  s.hopPush (9 * 4096) l { val := BitVec.ofNat 32 addr, tag := BitVec.ofNat 32 t, suit := u, src := 6 * 4096 } false

/-- A write to `HOP_QCFGl` (R227): a quota above 2048, or one whose sum with the others would pass 2048, is
discarded; one below the count closes the queue until the count has fallen below it. -/
def State.quotaWrite (s : State) (l : Nat) (w : Word) : State :=
  let q := bits w.toNat 11 0
  let others := ((List.range 4).filter (· ≠ l)).foldl (fun a i => a + s.rd (HOP_QCFG_QUOTA i)) 0
  if q + others ≤ 2048 then
    { s.wr (HOP_QCFG_QUOTA l) q with
      hopShut := Sparse.set (fun _ => false) l (decide (q < (s.hopQ l).length)) s.hopShut }
  else s.flag HOP_STAT_CFGERR

/-! ### The overload monitor -/

/-- OVERLOAD_MONITOR (R238): at each whole second of the microsecond tick, the bits of the counters that have
advanced are set. -/
def opOverloadMonitor (s : State) : State :=
  let sec := usTick s.clk / 1000000
  if sec = s.ovSec then s
  else
    let s1 := (onBits 5 s.ovEv).foldl (fun s i => s.setBit PLG_OVSTAT i) s
    { s1 with ovEv := 0, ovSec := sec }

end Sys2Proof.Machine
end

