-- ==== Sys2Proof/Machine/Gleaner.lean ====
section
/-!
DEFINITION. The gleaner: its sequences, conversions and comparators (R232 to R236, R241). A conversion's result is an
operand: the analogue inputs are outside the device.
-/
namespace Sys2Proof.Machine

/-- The first microsecond tick at or after fabric cycle `c` (Table 01-8: conversions start on ticks). -/
def tickFrom (c : Nat) : Nat := (c * 25 + 12287) / 12288

/-- The first fabric cycle of microsecond tick `n`. -/
def tickCy (n : Nat) : Nat := (n * 12288 + 24) / 25

/-- The entries of the regular and of the injected sequence as they stand: HOP and input code (R241). -/
def State.glnRegSeq (s : State) : List Nat := (List.range (s.rd GLN_CTL_NREG + 1)).map fun e => (s.rdW (GLN_RSEQ e)).toNat
def State.glnInjSeq (s : State) : List Nat := (List.range (s.rd GLN_CTL_NINJ + 1)).map fun e => (s.rdW (GLN_ISEQ e)).toNat

/-- The next regular conversion starts at once, or 8 µs after power-up (R234). -/
def State.glnRegNext (s : State) : State :=
  let g := s.gln
  let now := tickFrom s.clk
  let at_ := match g.pwr with
    | some t => if t < now then now else t
    | none => now + 8
  { s with gln := { g with pwr := some (g.pwr.getD (now + 8)), conv := some { inj := false, entry := g.regIdx, start := at_ } } }

/-- The regular sequence starts with its entries as they stand (R233, R241). -/
def State.glnRegBegin (s : State) : State :=
  ({ s with gln := { s.gln with reg := true, regWait := false, regIdx := 0, regSeq := s.glnRegSeq } } : State).glnRegNext

/-- A start of the regular sequence (R233, R234): skipped while one runs; during an injected sequence it waits. -/
def State.glnRegStart (s : State) : State :=
  if !s.on GLN_CTL_EN then s
  else if s.gln.reg || s.gln.regWait then s.flag GLN_STAT_RSKIP
  else if s.gln.injRun then { s with gln := { s.gln with regWait := true } }
  else s.glnRegBegin

/-- A trigger of the injected sequence (R233): ignored and counted while one is pending or running; triggers of one
cycle are one (R136). -/
def State.glnInject (s : State) : State :=
  if !s.on GLN_CTL_EN then s
  else if s.gln.inj then
    if s.gln.injClk = s.clk ∧ !s.gln.injRun then s
    else (s.ovInc GLN_INJLOST_V 4).flag GLN_STAT_INJLOST
  else { s with gln := { s.gln with inj := true, injClk := s.clk, injRun := false } }

/-- The tick at which the first injected conversion may start (R234): the delay from the trigger's tick; then, if the
converter is powered down at its end, the start-up, or what is left of one. -/
def State.glnInjAt (s : State) : Nat :=
  let d := tickFrom s.gln.injClk + s.rd GLN_DLY_V
  match s.gln.pwr with
  | some t => if d + 8 < t then d + 8 else if d < t then t else d
  | none => if d < s.gln.offTick then d else d + 8

/-- No conversion is in progress at the tick at which the injected sequence may start, nor now (R234). -/
def State.glnFree (s : State) : Bool :=
  match s.gln.conv with
  | some c => decide (usTick s.clk ≤ c.start) && decide (s.glnInjAt ≤ c.start)
  | none => true

/-- Comparator `w` sees result `x` of input `code` (R236: R131 and R132 with the extremes 0 and 4095). -/
def State.glnCompare (s : State) (w code x : Nat) : State :=
  if !s.on (GLN_WCTL_EN w) || decide (s.rd (GLN_WCTL_CODE w) ≠ code) then s
  else
    let lo := s.rd (GLN_WBAND_LO w)
    let hi := s.rd (GLN_WBAND_HI w)
    let y := s.rd (GLN_WHYS_HYS w)
    let rl := if lo = 0 then lo else lo + y
    let rh : Int := if hi = 4095 then hi else (hi : Int) - y
    let out := s.on (GLN_WSTAT_STATE w)
    let q := if out then decide (rl ≤ x ∧ (x : Int) ≤ rh) else decide (x < lo ∨ hi < x)
    let n := if q then Sparse.get (fun _ => 0) w s.gln.cnt + 1 else 0
    let hit := q && decide (s.rd (GLN_WCTL_N w) ≤ n)
    let s := { s with gln := { s.gln with cnt := Sparse.set (fun _ => 0) w (if hit then 0 else n) s.gln.cnt } }
    if !hit then s
    else if out then s.wr (GLN_WSTAT_STATE w) 0
    else ((s.wr (GLN_WSTAT_STATE w) 1).flag (GLN_WSTAT_TRIP w)).inc (GLN_WSTAT_TRIPS w)

/-- A valid input code (Table 07-8). -/
def glnCodeOk (c : Nat) : Bool := decide (c ≤ 0x16)

/-- A write to `GLN_RSEQe` or `GLN_ISEQe` (R232). -/
def State.glnSeqWrite (s : State) (a : Nat) (w : Word) : State :=
  if glnCodeOk (bits w.toNat 5 0) then s.wrW a (w &&& 0xBF#32) else s.flag GLN_STAT_CFGERR

/-- A write to a comparator's register `r` (0 WCTL, 1 WBAND, 2 WHYS): N = 0, and a band that the rules of R131 refuse,
are discarded with CFGERR; a write returns the comparator to IN with count 0, as R137 states. -/
def State.glnCmpWrite (s : State) (w r : Nat) (v : Word) : State :=
  let ctl := if r = 0 then v.toNat else (s.rdW (GLN_WCTL w)).toNat
  let band := if r = 1 then v.toNat else (s.rdW (GLN_WBAND w)).toNat
  let hys := if r = 2 then v.toNat else (s.rdW (GLN_WHYS w)).toNat
  let lo := bits band 11 0
  let hi := bits band 27 16
  let y := bits hys 11 0
  let rl := if lo = 0 then lo else lo + y
  let rh : Int := if hi = 4095 then hi else (hi : Int) - y
  if (r = 0 ∧ bits ctl 7 0 = 0) ∨ !glnCodeOk (bits ctl 21 16) ∨ hi < lo ∨ rh < rl then s.flag GLN_STAT_CFGERR
  else
    let s := match r with
      | 0 => s.wrW (GLN_WCTL w) (v &&& 0xC03F00FF#32)
      | 1 => s.wrW (GLN_WBAND w) (v &&& 0x0FFF0FFF#32)
      | _ => s.wrW (GLN_WHYS w) (v &&& 0x00000FFF#32)
    { s.wr (GLN_WSTAT_STATE w) 0 with gln := { s.gln with cnt := Sparse.set (fun _ => 0) w 0 s.gln.cnt } }

/-- A write of `GLN_CTL` that clears EN ends the sequences: nothing is pending or running while the gleaner is off. -/
def State.glnCtlWrite (s : State) (w : Word) : State :=
  let on := decide (bit w.toNat 31 = 1)
  let per := !s.on GLN_CTL_EN || decide (s.rd GLN_CTL_RPER ≠ bits w.toNat 15 0)
  let s := s.wrW GLN_CTL (w &&& 0xBF30FFFF#32)
  if !on then
    { s with gln := { s.gln with
        reg := false, regWait := false, inj := false, injRun := false, conv := none, pwr := none, offTick := usTick s.clk } }
  else if per then { s with gln := { s.gln with perTick := tickFrom s.clk } }
  else s

/-! ### The rows of the table -/

/-- GLN_REGULAR_START (R233): the RPER period, in units of 10 µs of the microsecond tick, has expired. -/
def opGlnRegularStart (s : State) : State :=
  let due := s.gln.perTick + 10 * s.rd GLN_CTL_RPER
  if s.on GLN_CTL_EN && s.on GLN_CTL_RPER && decide (due ≤ usTick s.clk) then
    { s with gln := { s.gln with perTick := due } }.glnRegStart
  else s

/-- GLN_CMD_REGULAR (R233). -/
def opGlnCmdRegular (s : State) : State := s.glnRegStart

/-- GLN_INJECT_TRIGGER (R233): by `GLN_CMD` bit 1, a seed or a comparator. -/
def opGlnInjectTrigger (s : State) : State := s.glnInject

/-- GLN_INJECT_DELAY_EXPIRY (R234): the first injected conversion starts, between two conversions of a regular
sequence, and the sequence takes its entries as they stand (R241). -/
def opGlnInjectDelayExpiry (s : State) : State :=
  let now := usTick s.clk
  if s.gln.inj && !s.gln.injRun && decide (s.glnInjAt ≤ now) && s.glnFree then
    { s with gln := { s.gln with
        injRun := true, injSeq := s.glnInjSeq, pwr := some (s.gln.pwr.getD now)
        conv := some { inj := true, entry := 0, start := now } } }
  else s

/-- GLN_CONVERSION_DONE (R235, R236): 1 µs after its start a conversion's result is written, pushed and compared; the
sequence's next entry starts, unless an injected sequence is due. -/
def opGlnConversionDone (r : Fin 4096) (s : State) : State :=
  match s.gln.conv with
  | some c =>
    let now := usTick s.clk
    if c.start + 1 ≤ now then
      let es := if c.inj then s.gln.injSeq else s.gln.regSeq
      let seq := es.getD c.entry 0
      let code := bits seq 5 0
      let s := if c.inj then
          (s.wr (GLN_IRES_RES c.entry) r).wr (GLN_IRES_CNT c.entry) ((s.rd (GLN_IRES_CNT c.entry) + 1) % 65536)
        else (s.wr (GLN_RRES_RES c.entry) r).wr (GLN_RRES_CNT c.entry) ((s.rd (GLN_RRES_CNT c.entry) + 1) % 65536)
      let s := if bit seq 7 = 1 then s.hopGleaner c.inj c.entry code (tickCy c.start) r else s
      let s := (List.range 4).foldl (fun s w => s.glnCompare w code r) s
      let e := c.entry + 1
      let next : Option GlnConv := if e < es.length then some { inj := c.inj, entry := e, start := now } else none
      if c.inj then { s with gln := { s.gln with conv := next } }
      else
        let due := s.gln.inj && decide (s.glnInjAt ≤ now)
        { s with gln := { s.gln with regIdx := e, conv := if due then none else next } }
    else s
  | none => s

/-- GLN_SEQUENCE_END (R234): a sequence has done its last entry. An interrupted regular sequence goes on with its next;
otherwise the converter powers down, and a regular start that waited begins from power-down. -/
def opGlnSequenceEnd (s : State) : State :=
  let g := s.gln
  if g.conv.isSome then s
  else if g.injRun then
    let s : State := { s with gln := { g with inj := false, injRun := false } }
    if g.reg ∧ g.regIdx < g.regSeq.length then s.glnRegNext
    else
      let s : State := { s with gln := { s.gln with reg := false, pwr := none, offTick := usTick s.clk } }
      if g.regWait then s.glnRegBegin else s
  else if g.reg ∧ g.regSeq.length ≤ g.regIdx then
    { s with gln := { g with reg := false, pwr := none, offTick := usTick s.clk } }
  else s

end Sys2Proof.Machine
end

