-- ==== Sys2Proof/Machine/Silo.lean ====
section
/-!
DEFINITION. The silo: buffers, arming, triggers and links, block writing, freeze, and wavefront timing (R196 to R204).
-/
namespace Sys2Proof.Machine

/-- What silo buffer `b` holds. -/
def State.siloOf (s : State) (b : Nat) : Silo := Sparse.get (fun _ => {}) b s.silo

/-- `s` with buffer `b` holding `x`. -/
def State.setSilo (s : State) (b : Nat) (x : Silo) : State := { s with silo := Sparse.set (fun _ => ({} : Silo)) b x s.silo }

/-- The sources of buffer `b`, ascending: channels, or pairs of a raw gang buffer. -/
def State.siloSrcs (s : State) (b : Nat) : List Nat :=
  if s.rd (SIL_CFG_KIND b) = 2 then onBits 24 (s.rd (SIL_SRCL_V b))
  else onBits 48 (s.rd (SIL_SRCL_V b) + s.rd (SIL_SRCH_V b) * 2 ^ 32)

/-- Bytes of one sample in buffer `b` (R197). -/
def State.siloSmp (s : State) (b : Nat) : Nat :=
  if s.rd (SIL_CFG_KIND b) = 2 then 2 else if s.on (SIL_CFG_PACK b) then 3 else 4

/-- Bytes of one block: 196, 260 or 132 for each source. -/
def State.siloBlk (s : State) (b : Nat) : Nat := (64 * s.siloSmp b + 4) * (s.siloSrcs b).length

/-- Whole blocks that fit in the buffer. -/
def State.siloBlocks (s : State) (b : Nat) : Nat := s.rd (SIL_LEN_V b) / s.siloBlk b

/-- The silo offset of the buffer. -/
def State.siloBase (s : State) (b : Nat) : Nat := 64 * s.rd (SIL_BASE_V b)

/-- The sample period of buffer `b` in fabric cycles (Table 04-2, Table 03-11). -/
def State.siloPeriod (s : State) (b : Nat) : Nat :=
  match s.rd (SIL_CFG_KIND b) with
  | 0 => cyFine
  | 1 => cyCoarse
  | _ => if (s.siloSrcs b).head?.map s.gangMode = some 1 then 30 else 60

/-- The latency of the buffer's streams in fabric cycles (Table 04-2). -/
def State.siloLat (s : State) (b : Nat) : Nat :=
  match s.rd (SIL_CFG_KIND b) with
  | 0 => 45 * cyFine
  | 1 => 19 * cyCoarse
  | _ => 1080

/-- The buffer writes: ARMED or POST. -/
def State.siloLive (s : State) (b : Nat) : Bool :=
  decide (s.rd (SIL_BSTAT_STATE b) = 1) || decide (s.rd (SIL_BSTAT_STATE b) = 2)

/-- The checks of R199 pass. -/
def State.siloArmOk (s : State) (b : Nat) : Bool :=
  let srcs := s.siloSrcs b
  let raw := decide (s.rd (SIL_CFG_KIND b) = 2)
  let modes := srcs.map s.gangMode
  let gangs := !raw || (modes.all (· ≠ 0) && modes.all (fun m => some m == modes.head?))
  let pre := s.rd (SIL_PRE_V b)
  let post := s.rd (SIL_POST_V b)
  let lo := s.siloBase b
  let hi := lo + s.rd (SIL_LEN_V b)
  let apart := (List.range 8).all fun c =>
    c == b || !s.siloLive c || decide (hi ≤ s.siloBase c) || decide (s.siloBase c + s.rd (SIL_LEN_V c) ≤ lo)
  !srcs.isEmpty && gangs && decide (pre + post ≤ (s.siloBlocks b - 1) * 64) && decide (0 < post)
    && decide (0 < s.siloBlocks b) && decide (hi ≤ 0x400000) && apart

/-- What buffer `b`'s source number `j` has written. -/
def State.siloSrc (s : State) (b j : Nat) : SilSrc := Sparse.get (fun _ => {}) j (s.siloOf b).src

/-- Complete instants in buffer `b`: written by every source. -/
def State.siloCnt (s : State) (b : Nat) : Nat :=
  let ns := (List.range (s.siloSrcs b).length).map fun j => (s.siloSrc b j).cnt
  ns.foldl (fun a n => if n < a then n else a) (ns.headD 0)

/-- The index of the trigger sample (R200) for a source whose first sample was delivered at cycle `c`. -/
def State.siloTrigIdx (s : State) (b c : Nat) : Nat :=
  let p := s.siloPeriod b
  (((s.siloOf b).inst + s.siloLat b + p - 1) - c) / p

/-- The index of the trigger sample in buffer `b`. -/
def State.siloT (s : State) (b : Nat) : Nat :=
  match (s.siloOf b).start with
  | some c => s.siloTrigIdx b c
  | none => 0

/-- Instants that buffer `b` must hold before it freezes: whole blocks up to the last post-trigger instant. -/
def State.siloNeed (s : State) (b : Nat) : Nat := ((s.siloT b + s.rd (SIL_POST_V b) - 1) / 64 + 1) * 64

/-- The registers of the trigger record: TRGPOS, PREACT, TRGSRC and the timestamp. -/
def silRecRegs (b : Nat) : List Nat :=
  [SIL_TRGPOS b, SIL_PREACT b, SIL_TRGSRC b, SIL_TSW b 0, SIL_TSW b 1, SIL_TSW b 2, SIL_TSW b 3, SIL_TSW b 4]

/-- The trigger record of buffer `b` written from what it holds (R200); its timestamp is the one taken at the trigger.
TRGPOS stands once the first block has begun. -/
def State.siloRecord (s : State) (b : Nat) : State :=
  let x := s.siloOf b
  let t := s.siloT b
  let pre := let m := if t < x.held then t else x.held
    if s.rd (SIL_PRE_V b) < m then s.rd (SIL_PRE_V b) else m
  let s := (s.wr (SIL_TRGPOS_INST b) (t % 64)).wr (SIL_TRGPOS_BLK b)
    (s.siloBase b + t / 64 % s.siloBlocks b * s.siloBlk b)
  let s := s.wr (SIL_PREACT_V b) pre
  let s := (s.wr (SIL_TRGSRC_CAUSE b) x.cause).wr (SIL_TRGSRC_NUM b) x.num
  s.wrWords (SIL_TSW b 0) x.stamp

/-- A trigger of buffer `b` (R200, R201): `cause` 0 comparator, 1 seed, 2 command, 3 link; triggers of one cycle merge
to the earliest instant and the first source; links follow on, `fuel` deep. -/
def State.siloTrigger (s : State) : (fuel b cause num inst : Nat) → (back : Bool) → State
  | 0, _, _, _, _, _ => s
  | fuel + 1, b, cause, num, inst, back =>
    let st := s.rd (SIL_BSTAT_STATE b)
    let x := s.siloOf b
    let stamp := s.stampAt (s.rd (SIL_CFG_FW b)) inst back
    if st = 0 ∨ st = 3 then
      let first := decide (x.missAt ≠ s.clk) || x.missed.isEmpty
      let x := { x with
        missAt := s.clk, missWas := if first then s.rd (SIL_BSTAT_TRIGMISS b) else x.missWas
        missed := (if first then [] else x.missed) ++ [(cause, num, inst, back)] }
      (s.setSilo b x).inc (SIL_BSTAT_TRIGMISS b)
    else if st = 2 then
      if x.hit ≠ s.clk then s.inc (SIL_BSTAT_RETRIG b)
      else
        let first := decide (cause < x.cause ∨ (cause = x.cause ∧ num < x.num))
        let early := decide (inst < x.inst)
        let x := { x with
          cause := if first then cause else x.cause, num := if first then num else x.num
          inst := if early then inst else x.inst, back := if early then back else x.back
          stamp := if early then stamp else x.stamp }
        (s.setSilo b x).siloRecord b
    else
      let x := { x with
        inst := inst, hit := s.clk, cause := cause, num := num, back := back, stamp := stamp, held := s.siloCnt b
        saved := (silRecRegs b).map s.rdW }
      let s := ((s.wr (SIL_BSTAT_STATE b) 2).setSilo b x).siloRecord b
      (onBits 8 (s.rd (SIL_CFG_LINK b))).foldl (fun s m => s.siloTrigger fuel m 3 b inst back) s

/-- An arm (R199): from a seed, the command or a deal. A trigger that came in the same cycle is taken after it (R201). -/
def State.siloArm (s : State) (b : Nat) : State :=
  if s.siloLive b || !s.siloArmOk b then s.flag SIL_STAT_ARMERR
  else
    let x := s.siloOf b
    let s := (((s.wr (SIL_BSTAT_STATE b) 1).wr (SIL_BSTAT_WFDONE b) 0)).setSilo b {}
    if x.missed.isEmpty ∨ x.missAt ≠ s.clk then s
    else x.missed.foldl (fun s m => s.siloTrigger 9 b m.1 m.2.1 m.2.2.1 m.2.2.2) (s.wr (SIL_BSTAT_TRIGMISS b) x.missWas)

/-- A stop (R201): IDLE at once; in POST no trigger record is made. -/
def State.siloStop (s : State) (b : Nat) : State :=
  let s := if s.rd (SIL_BSTAT_STATE b) = 2 then
      ((silRecRegs b).zip (s.siloOf b).saved).foldl (fun s p => s.wrW p.1 p.2) s
    else s
  (s.wr (SIL_BSTAT_STATE b) 0).setSilo b {}

/-- Source `k` of buffer `b` has stopped: a channel switched off, or a pair that is ganged no more (R201). -/
def State.siloStopped (s : State) (b k : Nat) : Bool :=
  if s.rd (SIL_CFG_KIND b) = 2 then decide (s.gangMode k = 0) else (s.chan1 k).power != .on

/-- One sample put into the buffer: source number `j` of name `k`, sample number `n`; `v` its bits, `fl` its flags INV,
DEG, NSP, SAT as bits 3 to 0. -/
def State.siloPut (s : State) (b j k n v fl : Nat) : State :=
  let srcs := (s.siloSrcs b).length
  let blk := 0x400000 + s.siloBase b + n / 64 % s.siloBlocks b * s.siloBlk b
  let x := s.siloOf b
  let raw := decide (s.rd (SIL_CFG_KIND b) = 2)
  let src := s.siloSrc b j
  let align := if raw then (src.begun - x.start.getD 0) / s.siloPeriod b else 0
  let old := if n % 64 = 0 then 0 else s.load32 (blk + 4 * j) / 2 ^ 28
  let word := (old ||| fl) * 2 ^ 28 + (if raw then 2 * k else k) * 65536 + align % 65536
  let s := s.ffStore (blk + 4 * j) 4 word
  let sz := s.siloSmp b
  s.ffStore (blk + 4 * srcs + (n % 64 * srcs + j) * sz) sz (if sz = 3 then v / 256 else v)

/-- Source number `j` of buffer `b` delivers its next sample; it ends where the buffer holds all that it needs. -/
def State.siloNext (s : State) (b j k v fl : Nat) : State :=
  let x := s.siloOf b
  let src := s.siloSrc b j
  let src := if src.cnt = 0 then { src with begun := s.clk } else src
  let x := { x with start := some (x.start.getD s.clk), src := Sparse.set (fun _ => ({} : SilSrc)) j src x.src }
  let s := s.setSilo b x
  if s.rd (SIL_BSTAT_STATE b) = 2 ∧ s.siloNeed b ≤ src.cnt then s
  else
    let s := s.siloPut b j k src.cnt v fl
    let x := s.siloOf b
    s.setSilo b { x with src := Sparse.set (fun _ => ({} : SilSrc)) j { src with cnt := src.cnt + 1 } x.src }

/-- A sample of channel or pair `k` reaches the buffers of kind `kind` (R197). A raw gang buffer begins at a flag group
of its lowest pair, and each other pair at its own next one. The samples of a source that has stopped are zeros with INV,
and it follows the others with them (R201). -/
def State.siloSample (s : State) (kind k v fl : Nat) (group : Bool) : State :=
  (List.range 8).foldl (fun s b =>
    let srcs := s.siloSrcs b
    if s.siloLive b && decide (s.rd (SIL_CFG_KIND b) = kind) && srcs.contains k then
      let j := srcs.findIdx (· == k)
      let begun := decide ((s.siloSrc b j).cnt ≠ 0)
      let may := begun || kind ≠ 2 || (group && (j == 0 || (s.siloOf b).start.isSome))
      if may then
        let s := if s.siloStopped b k then s.siloNext b j k 0 8 else s.siloNext b j k v fl
        let n := (s.siloSrc b j).cnt
        (srcs.zipIdx).foldl (fun s p =>
          if s.siloStopped b p.1 && decide ((s.siloSrc b p.2).cnt < n) then s.siloNext b p.2 p.1 0 8 else s) s
      else s
    else s) s

/-- A write to a configuration register of buffer `b` (R201, R204). -/
def State.siloCfgWrite (s : State) (b a : Nat) (w m : Word) : State :=
  if s.siloLive b ∨ (a = SIL_CFG b ∧ bits w.toNat 30 29 = 3) then
    s.flag SIL_STAT_CFGERR
  else s.wrW a (w &&& m)

/-- The silo offset of the next block to be written. -/
def State.siloWptr (s : State) (b : Nat) : Nat :=
  if s.siloBlocks b = 0 then s.siloBase b
  else s.siloBase b + s.siloCnt b / 64 % s.siloBlocks b * s.siloBlk b

/-! ### Wavefront timing -/

/-- Sample `n` of source number `j` of a raw gang buffer. -/
def State.siloRaw (s : State) (b j n : Nat) : Int :=
  let srcs := (s.siloSrcs b).length
  let blk := 0x400000 + s.siloBase b + n / 64 % s.siloBlocks b * s.siloBlk b
  sx 16 (s.load (blk + 4 * srcs + (n % 64 * srcs + j) * 2) 2)

/-- The flag bits [31:28] of source number `j` over the blocks of samples `lo` to `hi`. -/
def State.siloFlags (s : State) (b j lo hi : Nat) : Nat :=
  (List.range (hi / 64 + 1 - lo / 64)).foldl (fun f i =>
    f ||| s.load32 (0x400000 + s.siloBase b + (lo / 64 + i) % s.siloBlocks b * s.siloBlk b + 4 * j) / 2 ^ 28) 0

/-- The timestamp of the arrival at `num / den` fabric cycles (R202): rounded to 5 ns of TB0 as TB0 ran then, its angle
interpolated to the same instant. -/
def State.wfStamp (s : State) (fw : Nat) (num : Int) (den : Nat) : List Word :=
  let g := (s.tbAt (num / den).toNat).tb
  let k : Int := 1000000000 + g.trim
  -- ticks of TB0 at the arrival, over 2 × 10^9 den; nanoseconds are ticks × 3125 / 768
  let tn : Int := (g.ticks : Int) * (2000000000 * den : Nat) + (num - (g.t0 * den : Nat)) * k
  let d : Int := (2000000000 * den * 768 : Nat)
  let r := 5 * ((2 * tn * 3125 + 5 * d) / (10 * d))
  let total := r.toNat
  -- the rounded instant as a fabric cycle and a remainder
  let c2 : Int := (r * 768 - (g.ticks * 3125 : Nat)) * 2000000000 + (g.t0 * 3125 : Nat) * k
  let q : Int := 3125 * k
  let c := (c2 / q).toNat
  let rem := c2 % q
  let f := s.furrow fw
  let a0 := f.angle c
  let step := angDiff (f.angle (c + 1)) a0
  let ang := ((a0 : Int) + step * rem / q) % (2 ^ 64 : Nat)
  let w4 := (s.stampAt fw c true).getD 4 0
  [ BitVec.ofInt 32 ang, BitVec.ofInt 32 (ang / (2 ^ 32 : Nat)),
    BitVec.ofNat 32 (bits (total / 1000000000) 33 32 * 2 ^ 30 + total % 1000000000),
    BitVec.ofNat 32 (total / 1000000000), w4 ]

/-- The wavefront record of source number `j`, pair `k` (R202); words that an absent result leaves open are free. -/
def State.wfRecord (s : State) (b j k : Nat) : List Word × State :=
  let src := s.siloSrc b j
  let thr : Int := s.rd (SIL_WFTHR_V b)
  let scan := s.rd (SIL_WFCTL_SCAN b)
  let t := s.siloTrigIdx b src.begun
  let first := src.cnt - 64 * s.siloBlocks b
  let s0 : Int := (t : Int) - scan
  let free (n : Nat) (s : State) : List Word × State :=
    ((List.range n).map fun i => Config.freeWord (s.fresh + i), { s with fresh := s.fresh + n })
  let lo := if s0 < first then first else s0.toNat
  let hi := if t + scan < src.cnt then t + scan else src.cnt - 1
  if s0 - 64 < first ∨ src.cnt < s0.toNat then
    let r := free 7 s
    let fl := if lo ≤ hi ∧ lo < src.cnt then s.siloFlags b j lo hi else 0
    (BitVec.ofNat 32 (fl % 2 * 2 ^ 30 + fl / 8 % 2 * 2 ^ 29 + 2 ^ 28 + 2 * k) :: r.1, r.2)
  else
    let sum := ((List.range 64).map fun i => s.siloRaw b j (lo - 64 + i)).sum
    let dev (n : Nat) : Int := ((64 * s.siloRaw b j n - sum).natAbs : Int)
    let fl := s.siloFlags b j lo hi
    let head := fl % 2 * 2 ^ 30 + fl / 8 % 2 * 2 ^ 29 + 2 * k
    match (if thr = 0 then none else (List.range (hi + 1 - lo)).find? fun i => 64 * thr ≤ dev (lo + i)) with
    | none =>
      let r := free 7 s
      (BitVec.ofNat 32 head :: r.1, r.2)
    | some i =>
      let n := lo + i
      let peak := (List.range 16).foldl (fun m d => if n + d < src.cnt ∧ m < dev (n + d) then dev (n + d) else m) 0
      let a := 64 * thr - dev (n - 1)
      let c := dev n - dev (n - 1)
      let ts := s.siloPeriod b
      let inst : Nat := src.begun + (n - 1) * ts - s.siloLat b
      let neg := decide (64 * s.siloRaw b j n < sum)
      -- where the two deviations are equal the manual's fraction has no value: a free one
      let (fnum, fden, s) : Int × Nat × State := if c = 0 then let d := s.draw; ((d.1.toNat : Int), 2 ^ 32, d.2)
        else (a * c.sign, c.natAbs, s)
      let stamp := s.wfStamp (s.rd (SIL_CFG_FW b)) ((inst * fden : Nat) + fnum * (ts : Nat)) fden
      ([BitVec.ofNat 32 (2 ^ 31 + b2n neg * 2 ^ 24 + head), BitVec.ofInt 32 (peak / 64)] ++ stamp
        ++ [BitVec.ofInt 32 ((n : Int) - t)], s)

/-- The wavefront unit's records written to `SIL_WFADDRb` (R202); a write beyond field RAM is refused, recorded with
the unit's code, and ends the run. -/
def State.wfWrite (s : State) (b : Nat) : List (Nat × Nat) → Nat → State
  | [], _ => (s.wr (SIL_BSTAT_WFDONE b) 1).setBit SIL_STAT (16 + b)
  | (k, j) :: rest, a =>
    if 0x200000 < a + 32 then s.refuse 0xC a true
    else
      let r := s.wfRecord b j k
      let s := (r.1.zipIdx).foldl (fun s p => s.ffStore (a + 4 * p.2) 4 p.1.toNat) r.2
      State.wfWrite s b rest (a + 32)

/-! ### The rows of the table -/

/-- SILO_ARM (R199): `SIL_CMD` OP 001b. -/
def opSiloArm (b : Fin 8) (s : State) : State := s.siloArm b

/-- SILO_TRIGGER (R200): `SIL_CMD` OP 010b; its instant is this cycle. -/
def opSiloTrigger (b : Fin 8) (s : State) : State := s.siloTrigger 9 b 2 0 s.clk false

/-- SILO_STOP (R201): `SIL_CMD` OP 011b. -/
def opSiloStop (b : Fin 8) (s : State) : State := s.siloStop b

/-- SILO_WAVEFRONT_RERUN (R202, Table 06-12): on a FROZEN raw buffer. -/
def opSiloWavefrontRerun (b : Fin 8) (s : State) : State :=
  if s.rd (SIL_BSTAT_STATE b) = 3 ∧ s.rd (SIL_CFG_KIND b) = 2 then
    (s.wr (SIL_BSTAT_WFDONE b) 0).setSilo b { s.siloOf b with wf := some s.clk }
  else s

/-- SILO_FREEZE (R198): the block of the last post-trigger instant is complete in every source. -/
def opSiloFreeze (b : Fin 8) (s : State) : State :=
  if s.rd (SIL_BSTAT_STATE b) = 2 ∧ (s.siloOf b).start.isSome ∧ s.siloNeed b ≤ s.siloCnt b then
    let s := (s.siloRecord b).wr (SIL_BSTAT_STATE b) 3
    let s := s.setBit SIL_STAT (8 + b)
    if s.rd (SIL_CFG_KIND b) = 2 ∧ s.on (SIL_WFCTL_WFEN b) then s.setSilo b { s.siloOf b with wf := some s.clk } else s
  else s

/-- WAVEFRONT_DONE (R202): the unit has written its records. -/
def opWavefrontDone (b : Fin 8) (s : State) : State :=
  if s.rd (SIL_BSTAT_STATE b) = 3 ∧ (s.siloOf b).wf.isSome then
    let s := s.setSilo b { s.siloOf b with wf := none }
    s.wfWrite b ((s.siloSrcs b).zipIdx) (32 * s.rd (SIL_WFADDR_V b))
  else s

end Sys2Proof.Machine
end

