-- ==== Sys2Proof/Machine/Thresher.lean ====
section
/-!
DEFINITION. The thresher: descriptors, the queue, harmonic, supraharmonic and plain transform jobs, results and
completion (R178 to R195). The roundings of the transforms, whose order of operations the manual does not give, are
constants of Config; which bins make which value, where it goes, with what headers, flags, costs and errors, is the
manual's.
-/
namespace Sys2Proof.Machine

/-- Bytes of field RAM. -/
abbrev fieldRam : Nat := 0x200000

/-! ### Descriptor fields (Table 06-1) -/

/-- Word `i` of a taken descriptor. -/
def dsc (ws : List Nat) (i : Nat) : Nat := ws.getD i 0

/-- KIND, DEST, FW of descriptor words. -/
def dscKind (ws : List Nat) : Nat := bits (dsc ws 0) 31 28
def dscDest (ws : List Nat) : Nat := bits (dsc ws 0) 27 26
def dscFw (ws : List Nat) : Nat := bits (dsc ws 0) 23 22

/-- Cycles of a harmonic window: 10 or 12. -/
def dscC (ws : List Nat) : Nat := if bit (dsc ws 0) 21 = 1 then 12 else 10

/-- The window's first cycle, 40 bits. -/
def dscStart (ws : List Nat) : Nat := dsc ws 1 + bits (dsc ws 2) 7 0 * 2 ^ 32

/-- The selected channels, ascending. -/
def dscChans (ws : List Nat) : List Nat := onBits 48 (dsc ws 3 + bits (dsc ws 4) 15 0 * 2 ^ 32)

/-- Highest order of a harmonic job. -/
def dscOrd (ws : List Nat) : Nat := bits (dsc ws 0) 8 0

/-- The selected quantities of an order as offsets in HG, HSG, IHG, ISG, PH real, PH imaginary. -/
def dscOut (ws : List Nat) : List Nat := (onBits 5 (bits (dsc ws 0) 20 16)).flatMap fun i => if i = 4 then [4, 5] else [i]

/-- RB, the bytes of a harmonic record (R187). -/
def dscRb (ws : List Nat) : Nat := (16 + 4 * (dscOut ws).length * (dscOrd ws + 1) + 15) / 16 * 16

/-- Points of a plain transform. -/
def dscN (ws : List Nat) : Nat := if bits (dsc ws 0) 15 0 = 0 then 32768 else bits (dsc ws 0) 15 0

/-- `r` and `m` of N = r × 2^m with r 1, 3 or 5, if N is of that form (R190). -/
def radix (n : Nat) : Option (Nat × Nat) :=
  [1, 3, 5].findSome? fun r => ((List.range 16).find? fun m => r * 2 ^ m = n).map fun m => (r, m)

/-- log2 of 1, 3 or 5, × 10^15. -/
def log2r (r : Nat) : Nat := if r = 3 then 1584962500721156 else if r = 5 then 2321928094887362 else 0

/-- B of an L-point transform: round((L / 2) × log2 L) (R193). -/
def thrB (l : Nat) : Nat :=
  match radix l with
  | some (r, m) => (l * (m * 10 ^ 15 + log2r r) + 10 ^ 15) / (2 * 10 ^ 15)
  | none => 0

/-- Costs in fabric cycles (R193, Table 06-6). -/
def costHarm (l : Nat) : Nat := (thrB l + 3) / 4 + l / 8 + 64
def costPlain (n : Nat) : Nat := (thrB n + 3) / 4 + 64
abbrev costLane : Nat := 8135

/-- A reserved bit of a descriptor is set (R179): unlisted bits, and the words and fields the kind does not use. -/
def dscReserved (ws : List Nat) : Bool :=
  let g := dscDest ws ≠ 0
  let w5 := if g then decide (bits (dsc ws 5) 31 12 ≠ 0) else false
  let w6 := if g then decide (bits (dsc ws 6) 31 7 ≠ 0) else decide (dsc ws 6 ≠ 0)
  match dscKind ws with
  | 0 => decide (bits (dsc ws 0) 15 9 ≠ 0) || decide (bits (dsc ws 2) 31 8 ≠ 0) || decide (bits (dsc ws 4) 31 16 ≠ 0) || w5 || w6
  | 1 => decide (bits (dsc ws 0) 15 8 ≠ 0) || decide (bits (dsc ws 1) 31 8 ≠ 0) || decide (dsc ws 2 ≠ 0)
    || decide (dsc ws 3 ≠ 0) || decide (dsc ws 4 ≠ 0) || w5 || w6
  | _ => decide (bits (dsc ws 0) 23 21 ≠ 0) || decide (bits (dsc ws 0) 18 16 ≠ 0) || decide (dsc ws 2 ≠ 0)
    || decide (dsc ws 3 ≠ 0) || decide (dsc ws 4 ≠ 0) || w6

/-! ### Queue -/

/-- Lane `k`, if bound. -/
def State.lane (s : State) (k : Nat) : Option Lane := Sparse.get (fun _ => none) k s.lanes

/-- `s` with lane `k` holding `x`. -/
def State.setLane (s : State) (k : Nat) (x : Option Lane) : State := { s with lanes := Sparse.set (fun _ => none) k x s.lanes }

/-- Word 7 of a descriptor (Table 06-2). -/
def State.thrWord7 (s : State) (addr state err cnt : Nat) : State :=
  s.store32 (addr + 28) (state * 2 ^ 28 + err * 2 ^ 24 + cnt % 65536)

/-- The completion actions of R192 from step 2 on, for a job or a record. -/
def State.thrDone (s : State) (addr suit : Nat) (poster : Option Nat) (w0 state err cnt : Nat) : State :=
  let s := s.thrWord7 addr state err cnt
  let s := if bit w0 24 = 1 then s.hopThresher poster suit state err cnt addr else s
  let s := if bit w0 25 = 1 then { s with thrIrq := true } else s
  if state = 4 ∨ state = 8 then s.flag THR_STAT_DONE else if state = 5 then s.flag THR_STAT_ERR else s

/-- Words 0 to 6 of the descriptor at `a` as they stand. -/
def State.dscRead (s : State) (a : Nat) : List Nat := (List.range 7).map fun i => s.load32 (a + 4 * i)

/-- The descriptor words of a job: as it was taken, or as they stand. -/
def State.jobWords (s : State) (j : Job) : List Nat := if j.words.isEmpty then s.dscRead j.addr else j.words

/-- COUNT of a job (Table 06-2): harmonic channels whose records were not written. -/
def State.jobCount (s : State) (j : Job) : Nat :=
  let ws := s.jobWords j
  if dscKind ws ≠ 0 then 0 else if j.words.isEmpty then (dscChans ws).length else j.chans.length

/-- Job `j` leaves the queue with `state` and `err`. -/
def State.jobEnd (s : State) (j : Job) (state err : Nat) : State :=
  let w0 := dsc (s.jobWords j) 0
  let n := s.jobCount j
  let s := { s with thrQ := s.thrQ.filter (fun k => k ≠ j) }
  s.thrDone j.addr j.suit j.poster w0 state err n

/-- The job of the lowest suit below `u` that is not running, the newest of that suit (R181). -/
def shedJob (u : Nat) (q : List Job) : Option Job :=
  let c := q.filter fun j => j.state ≠ 3 && j.suit < u
  c.foldl (fun (b : Option Job) j => match b with
    | some k => if j.suit ≤ k.suit then some j else b
    | none => some j) none

/-! ### Choosing and starting work -/

/-- Bytes [a, a + n) lie in field RAM. -/
def inField (a n : Nat) : Bool := decide (a + n ≤ fieldRam)

/-- N of furrow `n`'s resampler. -/
def State.rsN (s : State) (n : Nat) : Nat := 256 * 2 ^ s.rd (FUR_RSCTL_N n)

/-- Channels in furrow `n`'s masks, ascending. -/
def State.rsChans (s : State) (n : Nat) : List Nat := onBits 48 (s.rd (FUR_RSML_MASK n) + s.rd (FUR_RSMH_MASK n) * 2 ^ 32)

/-- The error of a descriptor when it is taken, 0 for none (Table 06-5, R184, R188, R190, R191). -/
def State.takeErr (s : State) (ws : List Nat) : Nat :=
  let kind := dscKind ws
  let dest := dscDest ws
  if 2 < kind ∨ dest = 3 ∨ (kind = 2 ∧ dest ≠ 0) then 1
  else if dscReserved ws then 2
  else
    let d := dsc ws 5
    match kind with
    | 0 =>
      let n := dscFw ws
      let ord := dscOrd ws
      let vals := (dscChans ws).length * (dscOut ws).length * (ord + 1)
      if !s.on (FUR_CTL_EN n) || !s.on (FUR_RSCTL_EN n) || !(dscChans ws).all (fun c => (s.rsChans n).contains c) then 5
      else if ord = 0 ∨ s.rsN n / 2 - 1 < ord then 2
      else if dest = 0 then
        (if d % 16 ≠ 0 then 2 else if inField d (48 + (dscChans ws).length * dscRb ws) then 0 else 3)
      else if d < 1024 ∨ 4096 < d + vals then 4 else 0
    | 1 =>
      let ring := bits (dsc ws 1) 7 0
      let ch := bits (dsc ws 0) 21 16
      if 47 < ch ∨ bits (dsc ws 0) 7 0 = 0 ∨ (dest = 0 ∧ (ring = 0 ∨ d % 16 ≠ 0)) then 2
      else if dest = 0 ∧ !inField d (3008 * ring) then 3
      else if dest ≠ 0 ∧ (d < 1024 ∨ 4096 < d + 740) then 4
      else if (List.range 16).all (fun k => (s.lane k).isSome) then 7
      else if s.oddGanged ch || (List.range 16).any (fun k => (s.lane k).any (fun l => l.ch == ch)) then 8
      else 0
    | _ =>
      let n := dscN ws
      let real := bit (dsc ws 0) 20
      let invs := bit (dsc ws 0) 19
      let outp := if real = 1 then n / 2 + 1 else n
      if n < 64 ∨ 32768 < n ∨ (radix n).isNone ∨ (real = 1 ∧ invs = 1) then 2
      else if !inField d (8 * outp) || !inField (dsc ws 1) (if real = 1 then 4 * n else 8 * n) then 3
      else 0

/-- Sample number `a` is at or past number `b`, at `N` samples per cycle and 2^40 cycles to the wrap (R30). -/
def numReached (N a b : Nat) : Bool := decide (tc 64 (((a : Int) - b) % (2 ^ 40 * N : Nat)) < 2 ^ 39 * N)

/-- A harmonic window is ready (R184): the last sample of its last cycle is written for every selected channel. -/
def State.windowReady (s : State) (ws : List Nat) : Bool :=
  let n := dscFw ws
  (dscChans ws).all fun c =>
    let pos := Sparse.get (fun _ => 0) (64 * n + c) s.rsPos
    decide (pos ≠ 0) && numReached (s.rsN n) pos ((dscStart ws + dscC ws) * s.rsN n)

/-- The window is lost (R185): the slot of its first cycle is being overwritten, or a resampler register was written
since that cycle began. -/
def State.windowLost (s : State) (ws : List Nat) : Bool :=
  let n := dscFw ws
  let f := s.furrow n
  (f.rsSeen && numReached (s.rsN n) f.rsNum ((dscStart ws + s.rd (FUR_RSCTL_RSCYC n)) * s.rsN n))
    || decide (0 < angDiff f.rsAng (dscStart ws * 16777216 % 2 ^ 64))

/-- The window of channel `c`: the words of its ring, oldest first (R52). -/
def State.windowWords (s : State) (ws : List Nat) (c : Nat) : List Nat :=
  let n := dscFw ws
  let np := s.rsN n
  let cyc := s.rd (FUR_RSCTL_RSCYC n)
  let j := ((s.rsChans n).filter (· < c)).length
  let base := 1024 * s.rd (FUR_RSBASE_BASE n) + j * np * cyc * 4
  (List.range (dscC ws * np)).map fun i => s.load32 (base + 4 * ((dscStart ws + i / np) % cyc * np + i % np))

/-- A transform begins now and takes `cost` cycles. -/
def State.thrStart (s : State) (lane : Option Nat) (job cost : Nat) (data : List Nat) : State :=
  { s with
    thrRun := some { lane := lane, job := job, endAt := s.clk + cost, data := data }
    thrBusy := (s.clk, s.clk + cost) :: s.thrBusy.filter (fun p => s.clk < p.2 + 2 * cySec + cyMs) }

/-- Replace the job of the queue that equals `j`. -/
def State.jobSet (s : State) (j k : Job) : State := { s with thrQ := s.thrQ.map fun x => if x = j then k else x }

/-- The fabric cycle in which furrow `n` passed the start of cycle `cyc`, and its timestamp; none where it has not. -/
def State.cycStamp (s : State) (n cyc : Nat) : Option (Nat × List Word) :=
  (s.crossed n (cyc * 16777216 % 2 ^ 64)).map fun c => (c, s.stampAt n c false)

/-- Five free words. -/
def State.freeWords (s : State) (n : Nat) : List Word × State :=
  ((List.range n).map fun i => Config.freeWord (s.fresh + i), { s with fresh := s.fresh + n })

/-- The timestamp of a cycle's start, or free words where the device's record of it is gone. -/
def State.cycWords (s : State) (n cyc : Nat) : List Word × State :=
  match s.cycStamp n cyc with
  | some p => (p.2, s)
  | none => s.freeWords 5

/-- Words stored from an address upward. -/
def State.storeWords (s : State) (a : Nat) (ws : List Word) : State :=
  (ws.zipIdx).foldl (fun s p => s.store32 (a + 4 * p.2) p.1.toNat) s

/-- The 48-byte header of a harmonic job's results (R187). -/
def State.harmHeader (s : State) (ws : List Nat) : State :=
  let n := dscFw ws
  let a := s.cycWords n (dscStart ws)
  let b := a.2.cycWords n (dscStart ws + dscC ws)
  let w10 := dscRb ws * 65536 + (dscChans ws).length * 256 + (dscOut ws).length
  let w11 := s.rd (FUR_RSCTL_N n) * 2048 + bit (dsc ws 0) 21 * 1024 + dscOrd ws
  b.2.storeWords (dsc ws 5) (a.1 ++ b.1 ++ [BitVec.ofNat 32 w10, BitVec.ofNat 32 w11])

/-- The next channel of a running harmonic job begins, or the job ends (R185, R182). -/
def State.harmNext (s : State) (j : Job) : State :=
  match j.stop with
  | some (st, e) => s.jobEnd j st e
  | none => match j.chans with
    | [] => (if dscDest j.words = 0 then s.harmHeader j.words else s).jobEnd j 4 0
    | c :: _ =>
      if s.windowLost j.words then s.jobEnd j 5 6
      else s.thrStart none j.id (costHarm (dscC j.words * s.rsN (dscFw j.words))) (s.windowWords j.words c)

/-- FOOB of a window (R187): the first order above 13.6 kHz at the window's mean frequency, 0 where there is none; a free
value where the device's record of the window's instants is gone. -/
def State.foob (s : State) (ws : List Nat) : Nat × State :=
  let n := dscFw ws
  match s.cycStamp n (dscStart ws), s.cycStamp n (dscStart ws + dscC ws) with
  | some a, some b =>
    (((List.range (dscOrd ws + 1)).find? fun k => 13600 * (b.1 - a.1) < k * dscC ws * cySec).getD 0, s)
  | _, _ => let d := s.draw; (d.1.toNat % 65536, d.2)

/-- One result value written to a granary bin (R191); a NaN or an infinity leaves the value open. -/
def State.binResult (s : State) (dest b gsc : Nat) (v : Word) : State :=
  match fpToBin v (sx 7 gsc) with
  | some z => s.progWrite b 7 (dest = 2) true z
  | none => let d := s.draw; d.2.progWrite b 7 (dest = 2) true d.1.toInt

/-- Values to consecutive bins. -/
def State.binResults (s : State) (dest b gsc : Nat) (vs : List Word) : State :=
  (vs.zipIdx).foldl (fun s p => s.binResult dest (b + p.2) gsc p.1) s

/-- The sample values of stream words. -/
def streamVals (ws : List Nat) : List Int := ws.map fun w => sx 24 (bits w 31 8)

/-- C_i² of bin `i` of the samples (R186); a window of zeros gives 0. -/
def binSq (xs : List Int) (i : Nat) : Word :=
  if xs.all (· == 0) then 0 else Config.binSquare xs.length (decide (i = 0)) (Config.dft xs i)

/-- The sum of terms, one term alone as it is, and zeros as 0. -/
def termSum (ts : List Word) : Word :=
  if ts.all (· == 0) then 0 else match ts with | [x] => x | _ => Config.total ts

/-- A half of a binary32 value. -/
def halfOf (x : Word) : Word := (fpMul 0 x 0x3F000000#32).1

/-- Quantity `q` (HG, HSG, IHG, ISG, PH real, PH imaginary) of order `n` in a window of `c` cycles (R186). -/
def harmValue (c : Nat) (xs : List Int) (n q : Nat) : Word :=
  let k := c * n
  let h := c / 2
  let between (a b : Nat) : List Word := (List.range (b + 1 - a)).map fun i => binSq xs (a + i)
  match q with
  | 0 => if n = 0 then binSq xs 0
    else termSum (halfOf (binSq xs (k - h)) :: between (k - h + 1) (k + h - 1) ++ [halfOf (binSq xs (k + h))])
  | 1 => if n = 0 then binSq xs 0 else termSum (between (k - 1) (k + 1))
  | 2 => termSum (between (k + 1) (k + c - 1))
  | 3 => termSum (between (k + 2) (k + c - 2))
  | 4 => Config.phasor xs.length (decide (n = 0)) (Config.dft xs k).1
  | _ => if n = 0 then 0 else Config.phasor xs.length false (Config.dft xs k).2

/-- The values of a harmonic channel in record order (R186, R187). -/
def harmValues (ws data : List Nat) : List Word :=
  let xs := streamVals data
  (List.range (dscOrd ws + 1)).flatMap fun n => (dscOut ws).map fun q => harmValue (dscC ws) xs n q

/-- Band `b` of a supraharmonic record from its blocks (R189): the mean of C² of bin 10 + b. -/
def bandValue (blocks : List (List Int)) (b : Nat) : Word :=
  let vs := blocks.map fun xs => binSq xs (10 + b)
  if vs.all (· == 0) then 0 else match vs with | [x] => x | _ => Config.mean vs

/-- The results of channel `c` of a harmonic job, its first channel bringing the header (R187, R191). -/
def State.harmWrite (s : State) (j : Job) (c : Nat) (data : List Nat) : State :=
  let ws := j.words
  let vals := harmValues ws data
  let done := (dscChans ws).length - j.chans.length
  if dscDest ws = 0 then
    let s := if done = 0 then s.harmHeader ws else s
    let fl := data.foldl (fun a w => a ||| w) 0
    let fo := s.foob ws
    let w0 := fo.1 * 65536 + bit fl 5 * 1024 + bit fl 6 * 512 + bit fl 7 * 256 + c
    fo.2.storeWords (dsc ws 5 + 48 + done * dscRb ws) ([BitVec.ofNat 32 w0, 0, 0, 0] ++ vals)
  else s.binResults (dscDest ws) (dsc ws 5 + done * vals.length) (dsc ws 6) vals

/-- A plain transform's output words (R190). -/
def plainValues (ws data : List Nat) : List Word :=
  let n := dscN ws
  let real := bit (dsc ws 0) 20
  let outp := if real = 1 then n / 2 + 1 else n
  (List.range (2 * outp)).map fun i => Config.transform (decide (real = 1)) (decide (bit (dsc ws 0) 19 = 1)) data i

/-- A job is taken: its words are read and checked (R179, R184, R188); it ends with an error, binds a lane, waits for
its window, or is ready. -/
def State.jobTake (s : State) (j : Job) : State :=
  let ws := s.dscRead j.addr
  let e := s.takeErr ws
  if e ≠ 0 then
    let len := if bit (dsc ws 0) 20 = 1 then 4 * dscN ws else 8 * dscN ws
    let s := if e = 3 ∧ dscKind ws = 2 ∧ !inField (dsc ws 1) len then
        s.refuse 7 (if dsc ws 1 < fieldRam then fieldRam else dsc ws 1) false
      else s
    let k := { j with words := ws, chans := if dscKind ws = 0 then dscChans ws else [] }
    (s.jobSet j k).jobEnd k 5 e
  else match dscKind ws with
    | 0 =>
      let k := { j with words := ws, chans := dscChans ws, state := if s.windowReady ws then 1 else 2 }
      let s := if s.windowReady ws then s else s.thrWord7 j.addr 2 0 k.chans.length
      s.jobSet j k
    | 1 =>
      let k := ((List.range 16).find? fun k => (s.lane k).isNone).getD 0
      let ch := bits (dsc ws 0) 21 16
      let s := { s with thrQ := s.thrQ.filter (· ≠ j) }
      let s := s.setLane k (some { addr := j.addr, suit := j.suit, poster := j.poster, words := ws, ch := ch })
      let s := ((s.wr (THR_LANE_BOUND k) 1).wr (THR_LANE_CH k) ch).wr (THR_LANE_DESC k) (j.addr / 32)
      s.thrWord7 j.addr 8 0 0
    | _ => s.jobSet j { j with words := ws }

/-- A job that has been read and waits for a window that has come is ready again. -/
def State.jobWakes (s : State) : State :=
  { s with thrQ := s.thrQ.map fun j => if j.state = 2 ∧ s.windowReady j.words then { j with state := 1 } else j }

/-- The highest-suit, oldest job that may be served: one not yet read, or one whose input is ready (R182). -/
def bestJob (q : List Job) : Option Job :=
  (q.filter fun j => j.state ≠ 2).foldl (fun (b : Option Job) j => match b with
    | some k => if k.suit < j.suit then some j else b
    | none => some j) none

/-- The thresher chooses its next work (R182): due lane blocks in ascending lane number, then jobs. Each turn takes,
ends or starts a job. -/
def State.thrChoose (s : State) : (fuel : Nat) → State
  | 0 => s
  | fuel + 1 =>
    if s.thrRun.isSome then s
    else match (List.range 16).find? (fun k => (s.lane k).any (fun l => l.due.isSome)) with
      | some k =>
        match s.lane k with
        | some l => match l.due with
          | some d =>
            let l := { l with due := none, acc := l.acc ++ d.1, stamp := if l.blocks = 0 then d.2 else l.stamp }
            (s.setLane k (some l)).thrStart (some k) 0 costLane d.1
          | none => s
        | none => s
      | none => match bestJob s.thrQ with
        | none => s
        | some j =>
          if j.words.isEmpty then (s.jobTake j).thrChoose fuel
          else if dscKind j.words = 0 then
            let k := { j with state := 3 }
            let s := if j.state = 3 then s else s.thrWord7 j.addr 3 0 j.chans.length
            ((s.jobSet j k).harmNext k).thrChoose fuel
          else
            let n := dscN j.words
            let len := if bit (dsc j.words 0) 20 = 1 then n else 2 * n
            let data := (List.range len).map fun i => s.load32 (dsc j.words 1 + 4 * i)
            ((s.thrWord7 j.addr 3 0 0).jobSet j { j with state := 3 }).thrStart none j.id (costPlain n) data

/-- The choice with fuel for every job. -/
def State.thrNext (s : State) : State :=
  let s := s.jobWakes
  s.thrChoose (3 * s.thrQ.length + 3)

/-- A supraharmonic record is complete (R189, R191, R192). -/
def State.laneRecord (s : State) (k : Nat) (l : Lane) : State :=
  let ws := l.words
  let xs := streamVals l.acc
  let blocks := (List.range (bits (dsc ws 0) 7 0)).map fun i => (xs.drop (5120 * i)).take 5120
  let vals := (List.range 740).map (bandValue blocks)
  let s := if dscDest ws = 0 then
      let a := dsc ws 5 + 3008 * (l.seq % bits (dsc ws 1) 7 0)
      let fl := l.acc.foldl (fun a w => a ||| w) 0
      let w5 := bit fl 7 * 2 ^ 31 + bit fl 4 * 2 ^ 30 + bit fl 6 * 2 ^ 29 + bit fl 5 * 2 ^ 28 + l.ch * 65536 + bits (dsc ws 0) 7 0
      let s := s.storeWords a (l.stamp ++ [BitVec.ofNat 32 w5, BitVec.ofNat 32 l.seq, 0])
      (s.storeWords (a + 32) vals).storeWords (a + 2992) [0, 0, 0, 0]
    else s.binResults (dscDest ws) (dsc ws 5) (dsc ws 6) vals
  let n := l.seq + 1
  let s := s.setLane k (some { l with acc := [], blocks := 0, seq := n % 2 ^ 32 })
  s.thrDone l.addr l.suit l.poster (dsc ws 0) 8 0 n

/-- The transform in progress ends: its results and completion (R192). -/
def State.thrFinish (s : State) (r : ThrRun) : State :=
  let s := { s with thrRun := none }
  match r.lane with
  | some k => match s.lane k with
    | some l =>
      let l := { l with blocks := l.blocks + 1 }
      if l.blocks = bits (dsc l.words 0) 7 0 then s.laneRecord k l else s.setLane k (some l)
    | none => s
  | none => match s.thrQ.find? (fun j => j.id = r.job) with
    | none => s
    | some j =>
      if dscKind j.words = 0 then
        match j.chans, j.stop with
        | c :: rest, none =>
          let s := (s.harmWrite j c r.data).jobSet j { j with chans := rest }
          if rest.isEmpty then s else s.thrWord7 j.addr 3 0 rest.length
        | c :: rest, some (7, e) =>
          let k := { j with chans := rest }
          ((s.harmWrite j c r.data).jobSet j k).jobEnd k 7 e
        | _, some (st, e) => s.jobEnd j st e
        | [], none => s.jobEnd j 4 0
      else (s.storeWords (dsc j.words 5) (plainValues j.words r.data)).jobEnd j 4 0

/-- The job whose transform `r` is, and the address from which its input was read; none for a lane. -/
def State.runJob (s : State) (r : ThrRun) : Option (Job × Nat) :=
  match r.lane with
  | some _ => none
  | none => (s.thrQ.find? fun j => j.id = r.job).map fun j =>
    (j, if dscKind j.words = 0 then 1024 * s.rd (FUR_RSBASE_BASE (dscFw j.words)) else dsc j.words 1)

/-- A running harmonic job whose last channel is written is done. -/
def State.harmLast (s : State) : State :=
  match s.thrQ.find? (fun j => j.state = 3 && dscKind j.words = 0 && j.chans.isEmpty) with
  | some j => s.jobEnd j 4 0
  | none => s

/-- Furrow `n` or its resampling is disabled: its harmonic jobs end with error 5 (R184). -/
def State.thrFurrowOff (s : State) (n : Nat) : State :=
  (s.thrQ.filter fun j => !j.words.isEmpty && dscKind j.words = 0 && dscFw j.words = n).foldl
    (fun s j => if j.state = 3 then s.jobSet j { j with stop := some (5, 5) } else s.jobEnd j 5 5) s

/-- The result of originator `o`'s last post (Table 06-8). -/
def State.setThrRes (s : State) (o r : Nat) : State := { s with thrRes := Sparse.set (fun _ => 0) o r s.thrRes }

/-- A post of a descriptor (R180, R181): the result code, and the state. -/
def State.thrPost (s : State) (o suit : Nat) (poster : Option Nat) (a : Nat) : Nat × State :=
  if a % 32 ≠ 0 ∨ !inField a 32 then (3, (s.flag THR_STAT_POSTERR).setThrRes o 3)
  else
    let j : Job := { id := s.thrId, addr := a, suit := suit, poster := poster }
    let put (s : State) (q : List Job) : State :=
      let s := ({ s with thrQ := q ++ [j], thrId := s.thrId + 1 }.thrWord7 a 1 0 0).setThrRes o 1
      s.thrNext
    if s.thrQ.length < 32 then (1, put s s.thrQ)
    else match shedJob suit s.thrQ with
      | some k =>
        (1, put (((s.jobEnd k 6 0).ovInc THR_SHED_V 3).flag THR_STAT_SHED) (s.thrQ.filter fun x => x ≠ k))
      | none => (2, ((s.flag THR_STAT_FULL).ovInc THR_REFUSED_V 3).setThrRes o 2)

/-- A cancel (R183). -/
def State.thrCancel (s : State) (a : Nat) : State :=
  match s.thrQ.find? (fun j => j.addr = a) with
  | some j =>
    if j.state = 3 then
      (if dscKind j.words = 0 ∧ j.stop.isNone then s.jobSet j { j with stop := some (7, 0) } else s)
    else s.jobEnd j 7 0
  | none => match (List.range 16).find? (fun k => (s.lane k).any (fun l => l.addr = a)) with
    | some k => match s.lane k with
      | some l =>
        let s := (s.setLane k none).wrW (THR_LANE k) 0
        s.thrDone l.addr l.suit l.poster (dsc l.words 0) 7 0 l.seq
      | none => s
    | none => s

/-- Jobs in the queue, as `THR_QSTAT` reads, the running one among them. -/
def State.thrJobs (s : State) : Nat := s.thrQ.length

/-- The busy fraction over the last complete second of the microsecond tick, in 0.01 % (Table 06-8). -/
def State.thrLoad (s : State) : Nat :=
  let sec := usTick s.clk / 1000000
  if sec = 0 then 0
  else
    let lo := (sec - 1) * cySec
    let hi := sec * cySec
    let sum := s.thrBusy.foldl (fun a p =>
      let x := if p.1 < lo then lo else p.1
      let y := if hi < p.2 then hi else p.2
      a + (y - x)) 0
    sum * 10000 / cySec

/-- A wide sample word of channel `c` reaches its lane (R188): the first of a block takes the timestamp, back-dated. -/
def State.laneSample (s : State) (c : Nat) (w : Word) : State :=
  match (List.range 16).find? (fun k => (s.lane k).any (fun l => l.ch = c)) with
  | some k => match s.lane k with
    | some l =>
      let l := if l.fill.length = 5120 ∧ l.due.isNone then
          { l with fill := [], due := some (l.fill.reverse, l.fillStamp) } else l
      let st := if l.fill.isEmpty then s.stampAt (dscFw l.words) (s.clk - 19 * cyCoarse) true else l.fillStamp
      if l.fill.length < 5120 then s.setLane k (some { l with fill := w.toNat :: l.fill, fillStamp := st }) else s
    | none => s
  | none => s

/-! ### The rows of the table -/

/-- JOB_CANCEL (R183): a write to `THR_CANCEL`. -/
def opJobCancel (a : Word) (s : State) : State := s.thrCancel a.toNat

/-- WINDOW_READY (R184): the resampler has written the last sample of a window of furrow `n`; an idle thresher takes
the job up. -/
def opWindowReady (_n : Fin 4) (s : State) : State := if s.thrRun.isSome then s.jobWakes else s.thrNext

/-- LANE_BLOCK_DUE (R188): lane `k`'s block is full and falls due. -/
def opLaneBlockDue (k : Fin 16) (s : State) : State :=
  match s.lane k with
  | some l =>
    if l.fill.length = 5120 then
      let s := s.setLane k (some { l with fill := [], due := some (l.fill.reverse, l.fillStamp) })
      if s.thrRun.isSome then s else s.thrNext
    else s
  | none => s

end Sys2Proof.Machine
end

