-- ==== Sys2Proof/Machine/Engine.lean ====
section
/-!
DEFINITION. The Tchiez engine: start queues and dispatch, exceptions, mailboxes, scarecrows, restart and swap (R206 to
R226), and thresher posts with the poster's suit (R180).
-/
namespace Sys2Proof.Machine

/-! ### Hands and ploughs -/

/-- Hand `h` of physical plough `p`. -/
def State.handOf (s : State) (p h : Nat) : Hand := Sparse.get (fun _ => {}) (16 * p + h) s.hand

/-- `s` with hand `h` of plough `p` holding `x`. -/
def State.setHand (s : State) (p h : Nat) (x : Hand) : State :=
  { s with hand := Sparse.set (fun _ => ({} : Hand)) (16 * p + h) x s.hand }

/-- What physical plough `p` holds. -/
def State.ploughOf (s : State) (p : Nat) : Plough := Sparse.get (fun _ => {}) p s.plough

/-- `s` with plough `p` holding `x`. -/
def State.setPlough (s : State) (p : Nat) (x : Plough) : State :=
  { s with plough := Sparse.set (fun _ => ({} : Plough)) p x s.plough }

/-- What belongs to logical plough `l`. -/
def State.logiOf (s : State) (l : Nat) : Logi := Sparse.get (fun _ => {}) l s.logi

/-- `s` with logical plough `l` holding `x`. -/
def State.setLogi (s : State) (l : Nat) (x : Logi) : State :=
  { s with logi := Sparse.set (fun _ => ({} : Logi)) l x s.logi }

/-- Physical plough `p` is Active (Table 07-1). -/
def State.ploughActive (s : State) (p : Nat) : Bool := decide (s.rd (PLG_PSTAT_STATE p) = 0) && decide (s.logOf p < 4)

/-- A hand goes to IDLE; what it held stays until its next dispatch. -/
def State.handIdle (s : State) (p h : Nat) : State := s.setHand p h { s.handOf p h with st := .idle }

/-- Every hand of plough `p` goes to IDLE, abandoning its waits (R223, R277). -/
def State.handsIdle (s : State) (p : Nat) : State := (List.range 16).foldl (fun s h => s.handIdle p h) s

/-! ### Start queues -/

/-- The start queue of logical number `l` takes no request: full, or no plough (R209, R213). -/
def State.startFull (s : State) (l : Nat) : Bool :=
  decide (4 ≤ l) || (s.physOf l).isNone || decide (8 ≤ (s.logiOf l).q.length)

/-- A start request for logical plough `l` (R213): whether it is queued. -/
def State.startReq (s : State) (l vec word : Nat) : Bool × State :=
  if s.startFull l then (false, s)
  else
    let x := s.logiOf l
    (true, s.setLogi l { x with q := x.q ++ [{ vec := vec, word := word, at_ := s.clk }] })

/-- A request that the device makes itself, for an exception, a restart, a swap or the start-up (R217, R223, R225): it is
queued, and where the queue is full it waits for a slot, since those rules name no refusal. DEDUCED, log 53. -/
def State.startOwn (s : State) (l vec word : Nat) : State :=
  let x := s.logiOf l
  let r : StartReq := { vec := vec, word := word, at_ := s.clk }
  if decide (4 ≤ l) || (s.physOf l).isNone then s
  else if 8 ≤ x.q.length then s.setLogi l { x with wait := x.wait ++ [r] }
  else s.setLogi l { x with q := x.q ++ [r] }

/-- Free slots of a start queue of eight go to what waits outside it: first the vector-15 request (R216). -/
def fillQueue (now : Nat) (x : Logi) : Logi :=
  let x := if x.v15 && decide (x.q.length < 8) then
    { x with q := x.q ++ [{ vec := 15, word := 0x30000000, at_ := now }], v15 := false } else x
  { x with q := x.q ++ x.wait.take (8 - x.q.length), wait := x.wait.drop (8 - x.q.length) }

/-- The suit of vector `v` of logical plough `l`. -/
def State.vecSuit (s : State) (l v : Nat) : Nat := s.rd (PLG_SVEC_SUIT (16 * l + v))

/-- A vector-15 request is live: queued, waiting, or its hand runs (R216). -/
def State.v15Live (s : State) (l : Nat) : Bool :=
  let x := s.logiOf l
  x.v15 || x.q.any (·.vec = 15) || (match s.physOf l with
    | some p => (List.range 16).any fun h => (s.handOf p h).vec = 15 && (s.handOf p h).st != .idle
    | none => false)

/-- The vector-15 request of R216: it waits outside a full queue. -/
def State.v15Place (s : State) (l : Nat) : State :=
  let r := s.startReq l 15 0x30000000
  if r.1 then r.2 else s.setLogi l { s.logiOf l with v15 := true }

/-- The queued request that is dispatched next: the highest suit, oldest first (R214). -/
def State.nextStart (s : State) (l : Nat) : Option StartReq :=
  (s.logiOf l).q.foldl (fun (b : Option StartReq) r => match b with
    | some k => if s.vecSuit l k.vec < s.vecSuit l r.vec then some r else b
    | none => some r) none

/-- The first occurrence of `r` taken out. -/
def dropFirst (r : StartReq) : List StartReq → List StartReq
  | [] => []
  | x :: q => if x = r then q else x :: dropFirst r q

/-- A request leaves the queue of `l`; what waits takes the slot (R216). -/
def State.startTaken (s : State) (l : Nat) (r : StartReq) : State :=
  let x := s.logiOf l
  s.setLogi l (fillQueue s.clk { x with q := dropFirst r x.q })

/-- The age limit of suit `u` in fabric cycles (R215): 100 µs units, 0 for 25.6 ms. -/
def State.ageLimit (s : State) (u : Nat) : Nat :=
  let a := bits (s.rd PLG_AGE_V) (8 * u + 7) (8 * u)
  cyUs (100 * if a = 0 then 256 else a)

/-! ### Exceptions -/

/-- An exception of hand `h` of plough `p` with cause code `cause` at address `pc` (R217, R254). -/
def State.raise (s : State) (p h pc cause : Nat) : State :=
  let l := s.logOf p
  let vec := (s.handOf p h).vec
  let s := s.handIdle p h
  let s := s.wrW (PLG_EXC l) (BitVec.ofNat 32 pc)
  let s := (s.wr (PLG_EXCC_HAND l) h).wr (PLG_EXCC_CAUSE l) cause
  let s := s.flag PLG_STAT_EXC
  if vec = 14 then s.flag PLG_STAT_DBLEXC else s.startOwn l 14 (4 * 2 ^ 28 + h * 2 ^ 16 + cause)

/-! ### Scarecrow, restart, swap -/

/-- Physical plough `f` joins logical number `l` (R225): its tile is cleared and its cache invalid. -/
def State.clearTile (s : State) (f : Nat) : State :=
  { s with mem := s.mem.filter fun c => !(decide (tileBase f ≤ c.1) && decide (c.1 < tileBase (f + 1))) }

/-- Plough `p` has drained, and logical plough `l` moves to the fallow plough `f` (R225). -/
def State.swapGo (s : State) (l p f : Nat) : State :=
  let s := s.wr (PLG_PSTAT_LOG p) 7
  let s := (s.wr (PLG_PSTAT_STATE f) 0).wr (PLG_PSTAT_LOG f) l
  let s := (s.wr ⟨PLG_MAP, 4 * l + 3, 4 * l⟩ f).wr ⟨PLG_MAP, 19, 16⟩ 15
  let s := (s.clearTile f).setPlough f { s.ploughOf f with cache := [], sb := [], issued := none, disp := none }
  let s := s.startOwn l 0 0x60000000
  let s := s.setLogi l { s.logiOf l with exps := [], kick := s.clk }
  let s := s.wr (PLG_SCTO_EXP l) 0
  let s := s.flag PLG_STAT_SWAP
  ({ s with lifeSwap := s.lifeSwap + 1 } : State).swapIn.logEv 0x0004 l p f

/-- Where plough `p` drains and its store buffer is empty, the rest of R223's steps follow: its hands idle, its claims
complete, its cache is invalid, and a vector-0 request, or the swap of R225, comes. -/
def State.drained (s : State) (p : Nat) : State :=
  match (s.ploughOf p).drain with
  | none => s
  | some (l, k) =>
    if !(s.ploughOf p).sb.isEmpty then s
    else
      let s := (s.handsIdle p).completeAll l
      let s := s.setPlough p { s.ploughOf p with cache := [], drain := none }
      match k with
      | 0 => s.startOwn l 0 0x50000000
      | 1 => s
      | f + 2 => s.swapGo l p f

/-- Plough `p` of logical number `l` stops issue and drains its store buffer for `k`, its state now `st` and its time
running `t` cycles (R223 step 1); one that drains already goes on with that. -/
def State.drainFor (s : State) (l p k st t : Nat) : State :=
  if (s.ploughOf p).drain.isSome then s
  else
    let s := s.setPlough p { s.ploughOf p with until_ := s.clk + t, drain := some (l, k) }
    (s.wr (PLG_PSTAT_STATE p) st).drained p

/-- A restart of the plough of logical number `l` (R223). -/
def State.restart (s : State) (l : Nat) : State :=
  match s.physOf l with
  | some p => s.drainFor l p 0 4 1024
  | none => s

/-- The swap of logical plough `l` to the fallow plough `f` (R225). -/
def State.swapPlough (s : State) (l p f : Nat) : State := s.drainFor l p (2 + f) 2 (5 * cyMs)

/-- The fallow plough, if there is one and no swap to it is under way. -/
def State.fallow (s : State) : Option Nat :=
  if (List.range 5).any fun p => match (s.ploughOf p).drain with | some (_, k) => decide (2 ≤ k) | none => false then none
  else s.physOf 4

/-- Expiries of the rolling 10 min window (R223). -/
def inWindow (now : Nat) (ts : List Nat) : List Nat := ts.filter fun t => now < t + 600 * cySec

/-- An expiry of logical plough `l`'s scarecrow (R223, R225). -/
def State.expire (s : State) (l : Nat) : State :=
  match s.physOf l with
  | some p =>
    let ex := inWindow s.clk (s.clk :: (s.logiOf l).exps)
    let s := s.setLogi l { s.logiOf l with exps := ex }
    let s := s.wr (PLG_SCTO_EXP l) (if 2 < ex.length then 2 else ex.length)
    let s := (s.flag PLG_STAT_EXPIRE).inc ⟨YLD_USE (68 + p), 31, 0⟩
    let s := s.logEv 0x0006 l p ex.length
    if 3 ≤ ex.length then
      match s.fallow with
      | some f => s.swapPlough l p f
      | none => (s.flag PLG_STAT_NOSWAP).restart l
    else s.restart l
  | none => s

/-- The timeout of logical plough `l`'s scarecrow in fabric cycles. -/
def State.scTimeout (s : State) (l : Nat) : Nat := s.rd (PLG_SCTO_TMO l) * cyMs

/-- A refused access of class REG (R409, R410): refused under R21 and a hedge violation. -/
def State.regRefuse (s : State) (orig a : Nat) : State := (s.refuse orig a true).violate 6 orig 0 a

/-- The logical number behind originator `o`, if it is a plough that holds one. -/
def State.logOfOrig (s : State) : Orig → Option Nat
  | .plough p _ => if s.logOf p < 4 then some (s.logOf p) else none
  | .host _ => none

/-- A write to `PLG_KICKl` (R222): whether it is refused, and the state. -/
def State.kick (s : State) (o : Orig) (l : Nat) (w : Word) : Bool × State :=
  if s.logOfOrig o = some l then
    (false, if w.toNat % 65536 = 0x5A5A then s.setLogi l { s.logiOf l with kick := s.clk } else s.expire l)
  else
    match o with
    | .plough p _ => (true, s.regRefuse p (PLG_KICK l))
    | .host r => (true, s.refuse (5 + r) (PLG_KICK l) true)

/-- A write to `PLG_CMD` (Table 07-11, R239): whether it is refused as an access, and the state. -/
def State.plgCmd (s : State) (o : Orig) (w : Word) : Bool × State :=
  let op := bits w.toNat 31 29
  let l := bits w.toNat 2 0
  match o with
  | .plough p _ =>
    if op = 1 ∨ op = 3 then (true, s.regRefuse p PLG_CMD)
    else if op = 2 ∧ l < 4 then
      (false, match s.physOf l with
        | some q => s.setPlough q { s.ploughOf q with cache := [] }
        | none => s)
    else (false, s.flag PLG_STAT_CFGERR)
  | .host _ =>
    (false,
      if 3 < l then s.flag PLG_STAT_CFGERR
      else match op, s.physOf l with
        | 1, some p => match s.fallow with
          | some f => s.swapPlough l p f
          | none => s.flag PLG_STAT_CFGERR
        | 1, none => s.flag PLG_STAT_CFGERR
        | 2, some p => s.setPlough p { s.ploughOf p with cache := [] }
        | 3, some _ => s.restart l
        | 2, none => s
        | 3, none => s
        | _, _ => s.flag PLG_STAT_CFGERR)

/-- The result of originator `o`'s last start request (Table 07-11). -/
def State.setStartRes (s : State) (o r : Nat) : State := { s with startRes := Sparse.set (fun _ => 0) o r s.startRes }

/-- A write to `PLG_START` (R213, Table 07-11). -/
def State.plgStart (s : State) (o : Orig) (w : Word) : State :=
  let c := origCode o
  let v := bits w.toNat 3 0
  if bit w.toNat 31 = 0 then s
  else if 14 ≤ v then s.setStartRes c 3
  else
    let r := s.startReq (bits w.toNat 18 16) v (2 ^ 28 + c)
    r.2.setStartRes c (if r.1 then 1 else 2)

/-- A mailbox message for logical plough `l` (R221): 0 sent, 1 full, 2 no plough, 3 no such mailbox (Table 08-23). -/
def State.mailSend (s : State) (l : Nat) (data sender : Word) : Nat × State :=
  if 3 < l then (3, s)
  else if (s.physOf l).isNone then (2, s)
  else
    let x := s.logiOf l
    if 16 ≤ x.mail.length then (1, s) else (0, s.setLogi l { x with mail := x.mail ++ [(data, sender)] })

/-- A post to the thresher by originator `o` (R180): the host counts as spades, a plough as the suit of its hand. -/
def State.jobPost (s : State) (o : Orig) (a : Nat) : Nat × State :=
  match o with
  | .plough p h => s.thrPost p (s.handOf p h).suit (s.logOfOrig o) a
  | .host r => s.thrPost (5 + r) 3 none a

/-! ### The rows of the table -/

/-- JOB_POST (R180): a write of a descriptor address to `THR_POST`. -/
def opJobPost (o : Orig) (a : Word) (s : State) : State := (s.jobPost o a.toNat).2

/-- START_REQUEST (R213): a write to `PLG_START`. -/
def opStartRequest (o : Orig) (w : Word) (s : State) : State := s.plgStart o w

/-- START_DISPATCH (R214, Table 07-4): the request of highest suit goes to the lowest IDLE hand, one in a cycle; none in
recovery mode (R446). -/
def opStartDispatch (l : Fin 4) (s : State) : State :=
  match s.physOf l, s.nextStart l with
  | some p, some r =>
    let pl := s.ploughOf p
    match (List.range 16).find? (fun h => (s.handOf p h).st = .idle) with
    | some h =>
      if s.ploughActive p && decide (pl.disp ≠ some s.clk) && !s.on UPD_STAT_RECOV then
        let hd : Hand := {
          st := .ready (s.clk + 1), x := Sparse.set (fun _ => 0) 1 (BitVec.ofNat 32 r.word) []
          pc := 4 * s.rd (PLG_SVEC_ADDR (16 * l + r.vec)), suit := s.vecSuit l r.vec, vec := r.vec }
        let s := (s.startTaken l r).setHand p h hd
        s.setPlough p { pl with disp := some s.clk }
      else s
    | none => s
  | _, _ => s

/-- START_AGE_EXPIRY (R215): requests that have reached their suit's age limit, waiting ones too, are removed and
counted; vector-15 requests never are. -/
def opStartAgeExpiry (l : Fin 4) (s : State) : State :=
  let x := s.logiOf l
  let old (r : StartReq) : Bool := decide (r.vec ≠ 15) && decide (r.at_ + s.ageLimit (s.vecSuit l r.vec) ≤ s.clk)
  let gone := (x.q ++ x.wait).filter old
  if gone.isEmpty then s
  else
    let y : Logi := { x with q := x.q.filter fun r => !old r, wait := x.wait.filter fun r => !old r }
    gone.foldl (fun s _ => (s.ovInc PLG_SHED_V 2).flag PLG_STAT_SHED) (s.setLogi l (fillQueue s.clk y))

/-- VECTOR15_REQUEST (R216): the request line of the plough is asserted and no vector-15 request is live. -/
def opVector15Request (l : Fin 4) (s : State) : State :=
  if s.reqLine l && !s.v15Live l && (s.physOf l).isSome then s.v15Place l else s

/-- SCARECROW_KICK (R222). -/
def opScarecrowKick (o : Orig) (l : Fin 4) (w : Word) (s : State) : State := (s.kick o l w).2

/-- SCARECROW_EXPIRY (R223, R225): the timer of an active plough has run its timeout. -/
def opScarecrowExpiry (l : Fin 4) (s : State) : State :=
  match s.physOf l with
  | some p =>
    if s.ploughActive p && !s.on UPD_STAT_RECOV && decide ((s.logiOf l).kick + s.scTimeout l ≤ s.clk) then s.expire l
    else s
  | none => s

/-- PLOUGH_RESTART_END (R206, R222): 1024 cycles have passed and the store buffer is empty. -/
def opPloughRestartEnd (l : Fin 4) (s : State) : State :=
  match s.physOf l with
  | some p =>
    if s.rd (PLG_PSTAT_STATE p) = 4 ∧ (s.ploughOf p).until_ ≤ s.clk ∧ (s.ploughOf p).sb.isEmpty then
      (s.wr (PLG_PSTAT_STATE p) 0).setLogi l { s.logiOf l with kick := s.clk }
    else s
  | none => s

/-- PLOUGH_SWAP_CMD (R225): `PLG_CMD` OP 001b by the host. -/
def opPloughSwapCmd (r : Fin 2) (l : Fin 8) (s : State) : State :=
  (s.plgCmd (.host r) (BitVec.ofNat 32 (2 ^ 29 + l))).2

/-- ICACHE_INVALIDATE (R220): `PLG_CMD` OP 010b. -/
def opIcacheInvalidate (o : Orig) (l : Fin 8) (s : State) : State := (s.plgCmd o (BitVec.ofNat 32 (2 ^ 30 + l))).2

/-- PLOUGH_RESTART_CMD (R223): `PLG_CMD` OP 011b by the host. -/
def opPloughRestartCmd (r : Fin 2) (l : Fin 8) (s : State) : State :=
  (s.plgCmd (.host r) (BitVec.ofNat 32 (3 * 2 ^ 29 + l))).2

/-- SELF_TEST_END (R225): after 5 ms the swapped-out plough becomes Fallow, or Retired. -/
def opSelfTestEnd (p : Fin 5) (pass : Bool) (s : State) : State :=
  if s.rd (PLG_PSTAT_STATE p) = 2 ∧ (s.ploughOf p).until_ ≤ s.clk ∧ (s.ploughOf p).drain.isNone then
    let s := s.wr (PLG_PSTAT_PASS p) (b2n pass)
    if pass then
      ((s.wr (PLG_PSTAT_STATE p) 1).wr (PLG_PSTAT_LOG p) 4).wr ⟨PLG_MAP, 19, 16⟩ p
    else (s.wr (PLG_PSTAT_STATE p) 3).logEv 0x0005 p 0 0
  else s

/-- MAILBOX (R349) of a data word from ring `r`: the message of R221. -/
def State.mailFrame (s : State) (r l : Nat) (data : Word) : Nat × State :=
  s.mailSend l data (BitVec.ofNat 32 ((8 + r) * 2 ^ 28))

end Sys2Proof.Machine
end

