-- ==== Sys2Proof/Machine/Hands.lean ====
section
/-!
DEFINITION. How a hand issues an instruction: registers (R242, R251), encodings (R249), legality (R250), the choice of
R211, the fetch and its cache (R220, R254), retirement, waits and the store buffer (R218, R252, R253).
-/
namespace Sys2Proof.Machine

/-! ### Registers -/

/-- Register `xi`: `x0` reads 0. -/
def Hand.xr (h : Hand) (i : Nat) : Word := if i = 0 then 0 else Sparse.get (fun _ => 0) i h.x

/-- A write to `xi`: `x0` discards it. -/
def Hand.setX (h : Hand) (i : Nat) (w : Word) : Hand :=
  if i = 0 then h else { h with x := Sparse.set (fun _ => 0) i w h.x }

/-- The pair `xi`, `xi+1` as a 64-bit number. -/
def Hand.pair (h : Hand) (i : Nat) : Nat := (h.xr i).toNat + (h.xr (i + 1)).toNat * 2 ^ 32

/-- A 64-bit number into the pair `xi`, `xi+1`. -/
def Hand.setPair (h : Hand) (i v : Nat) : Hand :=
  (h.setX i (BitVec.ofNat 32 v)).setX (i + 1) (BitVec.ofNat 32 (v / 2 ^ 32))

/-- Lane `l` of `vi`. -/
def Hand.lane (h : Hand) (i l : Nat) : Word := Sparse.get (fun _ => 0) (8 * i + l) h.v

/-- A write to lane `l` of `vi`. -/
def Hand.setLane (h : Hand) (i l : Nat) (w : Word) : Hand := { h with v := Sparse.set (fun _ => 0) (8 * i + l) w h.v }

/-- Lane-wise write of `vi`. -/
def Hand.setV (h : Hand) (i : Nat) (f : Nat → Word) : Hand := (List.range 8).foldl (fun h l => h.setLane i l (f l)) h

/-- Accumulator `ki` as an integer. -/
def Hand.kr (h : Hand) (i : Nat) : Int := (Sparse.get (fun _ => (0 : BitVec 80)) i h.k).toInt

/-- A write to `ki`, as 80-bit two's complement. -/
def Hand.setK (h : Hand) (i : Nat) (z : Int) : Hand :=
  { h with k := Sparse.set (fun _ => (0 : BitVec 80)) i (BitVec.ofInt 80 z) h.k }

/-- Sticky flags set in `hs` (R243). -/
def Hand.flags (h : Hand) (f : Nat) : Hand := { h with hs := h.hs ||| f }

/-- The rounding mode `hs.RM`. -/
def Hand.rm (h : Hand) : Nat := bits h.hs 1 0

/-! ### Encodings (Table 08-3) -/

/-- A format A word. -/
def encA (rd r1 r2 m fn op : Nat) : Word :=
  BitVec.ofNat 32 (rd * 2 ^ 27 + r1 * 2 ^ 22 + r2 * 2 ^ 17 + m * 2 ^ 12 + fn * 2 ^ 6 + op)

/-- A format I word. -/
def encI (rd r1 op : Nat) (imm : BitVec 16) : Word := BitVec.ofNat 32 (rd * 2 ^ 27 + r1 * 2 ^ 22 + imm.toNat * 2 ^ 6 + op)

/-- A format B word. -/
def encB (r1 r2 op : Nat) (off : BitVec 16) : Word := encI r1 r2 op off

/-- A format J word. -/
def encJ (op : Nat) (off : BitVec 26) : Word := BitVec.ofNat 32 (off.toNat * 2 ^ 6 + op)

/-- A register pair is named by an even register other than `x0` (R250). -/
def pairOk (r : Nat) : Bool := decide (r % 2 = 0) && decide (r ≠ 0)

/-- A format A word of major opcode `op` is legal (R250, Tables 08-6 to 08-21): fields not used are 0, vector fields
below 16, accumulator fields below 4, pairs even, sub-fields valid. -/
def legalA (op fn rd r1 r2 m : Nat) : Bool :=
  let z (x : Nat) : Bool := x == 0
  let v (x : Nat) : Bool := decide (x < 16)
  let k (x : Nat) : Bool := decide (x < 4)
  match op with
  | 0x01 => z m && (decide (fn ≤ 0x0F) || ((fn == 0x10 || fn == 0x11) && z r2))
  | 0x0A => z m && decide (fn ≤ 7)
  | 0x0B => match fn with
    | 0x00 => k rd && z m
    | 0x01 => k rd && z m
    | 0x02 => k rd && z m
    | 0x03 => (rd == 0 || rd == 2) && z m
    | 0x04 => (rd == 0 || rd == 2) && z m
    | 0x05 => k rd && z r1 && z r2 && z m
    | 0x06 => k r2 && z m
    | 0x07 => k r2 && z r1 && decide (m < 3)
    | 0x08 => k rd && z r2 && decide (m < 3)
    | 0x09 => k rd && k r2 && z r1 && z m
    | 0x0A => k r2 && z m
    | _ => false
  | 0x0C => z m && (if [0x04, 0x08, 0x09, 0x0D, 0x0E, 0x0F, 0x10].contains fn then z r2 else decide (fn ≤ 0x0C))
  | 0x0D => match fn with
    | 0x0A => v rd && z r2 && z m
    | 0x0B => v rd && z r2 && decide (m < 8)
    | 0x0C => v r1 && z r2 && decide (m < 8)
    | 0x0D => k rd && v r1 && v r2 && z m
    | 0x0E => v r1 && z r2 && z m
    | 0x0F => v rd && v r1 && z r2
    | 0x10 => v rd && v r1 && z r2 && z m
    | _ => decide (fn < 0x0A) && v rd && v r1 && v r2 && z m
  | 0x1C => z m && decide (fn ≤ 2)
  | 0x30 => match fn with
    | 0x00 => z r1 && z m
    | 0x01 => z r1 && z m
    | 0x02 => z rd
    | 0x03 => z rd
    | 0x04 => z rd && k r2 && z m
    | 0x05 => v rd && z r2 && z m
    | 0x06 => z r2 && z m
    | 0x08 => pairOk r1 && decide (m < 4)
    | 0x09 => pairOk rd && z r1 && z r2 && decide (m < 4)
    | 0x0A => v rd && z r1 && z r2 && decide (m < 4)
    | 0x0C => v r2 && z m
    | 0x0D => z r2 && z m
    | 0x0E => z r2 && z m
    | _ => false
  | 0x31 => match fn with
    | 0x00 => z m
    | 0x01 => z r1 && decide (m < 2)
    | 0x02 => z r1 && z r2 && decide (m < 2)
    | 0x03 => z rd && z r2 && z m
    | 0x04 => z m
    | 0x05 => z rd && z r2 && z m
    | 0x06 => z rd && z r1 && z r2 && z m
    | 0x07 => z r2 && decide (m < 2)
    | 0x08 => match m with
      | 0 => z r2
      | 1 => true
      | 2 => pairOk r2
      | 3 => z r1 && z r2
      | _ => false
    | 0x09 => z rd && z r1 && z r2 && z m
    | 0x0A => z r1 && z r2 && z m
    | 0x0B => z rd && z r2 && z m
    | 0x0C => z r1 && z r2 && z m
    | 0x0D => pairOk rd && z r1 && z r2 && z m
    | 0x0E => z rd && z r1 && z r2
    | _ => false
  | _ => false

/-- An instruction word is legal (R250, Table 08-4). -/
def tzLegal (w : Word) : Bool :=
  let x := w.toNat
  let op := bits x 5 0
  let imm := bits x 21 6
  if (2 ≤ op ∧ op ≤ 7) ∨ (0x10 ≤ op ∧ op ≤ 0x14) ∨ (0x18 ≤ op ∧ op ≤ 0x1A) ∨ (0x20 ≤ op ∧ op ≤ 0x28) then true
  else if op = 8 then decide (bits imm 15 14 ≠ 3) && decide (bits imm 13 5 = 0)
  else if op = 9 then decide (bits x 26 22 = 0)
  else if op = 0x15 ∨ op = 0x1B then decide (bits x 31 27 < 16)
  else legalA op (bits x 11 6) (bits x 31 27) (bits x 26 22) (bits x 21 17) (bits x 16 12)

/-! ### Issue -/

/-- Hand `h` of plough `p` is READY now. -/
def State.handReady (s : State) (p h : Nat) : Bool :=
  match (s.handOf p h).st with
  | .ready t => decide (t ≤ s.clk)
  | _ => false

/-- The highest suit with a READY hand. -/
def State.topSuit (s : State) (p : Nat) : Option Nat :=
  [3, 2, 1, 0].find? fun u => (List.range 16).any fun h => s.handReady p h && (s.handOf p h).suit == u

/-- The hand that plough `p` issues from now (R211): in the highest suit, the first READY hand in ascending number
after the one that last issued in that suit. -/
def State.pick (s : State) (p : Nat) : Option Nat :=
  match s.topSuit p with
  | some u =>
    let last := Sparse.get (fun _ => 15) u (s.ploughOf p).last
    ((List.range 16).map fun i => (last + 1 + i) % 16).find? fun h => s.handReady p h && (s.handOf p h).suit == u
  | none => none

/-- Hand `h` of plough `p` issues in this cycle. -/
def State.issues (s : State) (p h : Nat) : Bool :=
  s.ploughActive p && decide ((s.ploughOf p).issued ≠ some s.clk) && decide (s.pick p = some h)

/-- An address from which instructions can be fetched: field RAM or boot ROM (R254). -/
def execOk (pc : Nat) : Bool := decide (pc < fieldRam) || (decide (0x1100000 ≤ pc) && decide (pc < 0x1110000))

/-- The instruction word that memory holds at `pc`. -/
def State.memWord (s : State) (pc : Nat) : Nat :=
  if pc < fieldRam then s.load32 pc
  else ofLe ((List.range 4).map fun i => Config.bootRom (pc - 0x1100000 + i))

/-- The word of the plough's instruction cache for `pc`, if its line is held. -/
def State.cached (s : State) (p pc : Nat) : Option Nat :=
  match Sparse.get (fun _ => []) (pc / 32) (s.ploughOf p).cache with
  | [] => none
  | ws => some (ws.getD (pc / 4 % 8) 0)

/-- A fetch at `pc` returns `w` (R220): from the line held, or from memory after a miss. -/
def State.fetches (s : State) (p pc : Nat) (w : Word) : Bool :=
  match s.cached p pc with
  | some x => decide (x = w.toNat)
  | none => decide (s.memWord pc = w.toNat)

/-- The line of `pc` is filled from memory. The cache holds two lines in each of its 256 sets (R220); which of two a third
one replaces the manual does not say: it is drawn. -/
def State.fill (s : State) (p pc : Nat) : State :=
  let n := pc / 32
  let ws := (List.range 8).map fun i => s.memWord (n * 32 + 4 * i)
  let same := (s.ploughOf p).cache.filter fun l => decide (l.1 % 256 = n % 256) && decide (l.1 ≠ n)
  let put (s : State) (c : Sparse (List Nat)) : State :=
    s.setPlough p { s.ploughOf p with cache := Sparse.set (fun _ => []) n ws c }
  match same with
  | a :: b :: _ =>
    let d := s.draw
    let out := if bit d.1.toNat 0 = 0 then a.1 else b.1
    put d.2 ((s.ploughOf p).cache.filter fun l => l.1 ≠ out)
  | _ => put s (s.ploughOf p).cache

/-- The state in which the issue of `w` at `pc` is noted: the cache has its line, and the choice of R211 moves on. -/
def State.issued (s : State) (p h : Nat) (w : Word) : State :=
  let hd := s.handOf p h
  let s := if s.cached p hd.pc = some w.toNat then s else s.fill p hd.pc
  let x := s.ploughOf p
  s.setPlough p { x with issued := some s.clk, last := Sparse.set (fun _ => 15) hd.suit h x.last }

/-- Hand `h` of plough `p` issues the instruction word `w` in this cycle, with effect `f`. A hand whose turn it is not,
or whose fetch does not return `w`, issues nothing; a refused fetch raises 02h, an illegal word 01h (R254, R256). -/
def State.issue (s : State) (p h : Nat) (w : Word) (f : Hand → State → State) : State :=
  let hd := s.handOf p h
  if !s.issues p h then s
  else if !execOk hd.pc then (s.refuse p hd.pc false).raise p h hd.pc 2
  else if !s.fetches p hd.pc w then s
  else
    let s := s.issued p h w
    if tzLegal w then f hd s else s.raise p h hd.pc 1

/-- The hand goes on with the next instruction after `c` cycles. -/
def State.retire (s : State) (p h : Nat) (hd : Hand) (c : Nat) : State :=
  s.setHand p h { hd with pc := (hd.pc + 4) % 2 ^ 32, st := .ready (s.clk + c) }

/-- An instruction that acts on its hand alone and takes `c` cycles. -/
def State.regOp (s : State) (p h : Nat) (w : Word) (c : Nat) (g : Hand → Hand) : State :=
  s.issue p h w fun hd s => s.retire p h (g hd) c

/-- The hand waits; its instruction stays at its pc. -/
def State.handWait (s : State) (p h : Nat) (w : Wait) : State := s.setHand p h { s.handOf p h with st := .wait w }

/-- The hand a posted store belongs to. -/
def Post.hand : Post → Nat
  | .mem h _ _ => h
  | .bin h _ _ _ => h
  | .idone h _ => h

/-- Hand `h` has stores that have not completed. -/
def State.storing (s : State) (p h : Nat) : Bool := (s.ploughOf p).sb.any (·.hand = h)

/-- +D (R252): the instruction proceeds once the hand's earlier stores have completed. -/
def State.afterStores (s : State) (p h : Nat) (f : State → State) : State :=
  if s.storing p h then s.handWait p h .drain else f s

/-- A store is posted, or its hand waits while the buffer of four is full (R218). -/
def State.post (s : State) (p h : Nat) (hd : Hand) (c : Nat) (x : Post) : State :=
  let pl := s.ploughOf p
  if 4 ≤ pl.sb.length then s.handWait p h .room
  else (s.setPlough p { pl with sb := pl.sb ++ [x] }).retire p h hd c

/-! ### Addresses (R18 to R21, Tables 01-3 and 01-4) -/

/-- The register blocks and the sowing table. -/
def isReg (a : Nat) : Bool := decide (0x1000000 ≤ a) && decide (a < 0x101C000)

/-- The download window (R438). -/
def inWindowPort (a : Nat) : Bool := decide (0x101B800 ≤ a) && decide (a < 0x101C000)

/-- Registers that a plough may read as `n` bytes from `a`: whole words, one or eight (R21, R262), outside the download
window, which is write only and takes `BULK` writes alone (Table 15-9). -/
def regReads (a n : Nat) : Bool :=
  isReg a && decide (n = 4 ∨ n = 32) && decide (a + n ≤ 0x101C000) && !inWindowPort a && !inWindowPort (a + n - 1)

/-- A plough may read `n` bytes at `a`. -/
def ploughReads (a n : Nat) : Bool :=
  decide (a + n ≤ 0x210000) || (decide (0x400000 ≤ a) && decide (a + n ≤ 0xC40000))
    || (decide (0xF00000 ≤ a) && decide (a + n ≤ 0xF10000)) || regReads a n
    || (decide (0x1100000 ≤ a) && decide (a + n ≤ 0x1110000))

/-- A plough may write `n` bytes at `a`. -/
def ploughWrites (a n : Nat) : Bool :=
  decide (a + n ≤ fieldRam) || (decide (0xF00000 ≤ a) && decide (a + n ≤ 0xF10000)) || (isReg a && decide (n = 4))

/-- A plough's write of `w` to register `a` is beyond its reach: class REG (Table 14-3). -/
def State.regClass (s : State) (p a : Nat) (w : Word) : Bool :=
  let b := a / 4096
  let x := w.toNat
  b == 0x1016 || b == 0x1017 || b == 0x1019 || b == 0x101B || a == BAL_SYNCCTL
    || (decide (INT_RSP 0 ≤ a) && decide (a ≤ INT_RSP 127))
    || (decide (PLG_SCTO 0 ≤ a) && decide (a ≤ PLG_SCTO 3))
    || (a == PLG_CMD && (bits x 31 29 == 1 || bits x 31 29 == 3))
    || (decide (PLG_KICK 0 ≤ a) && decide (a ≤ PLG_KICK 3) && decide (s.logOf p ≠ (a - PLG_KICK 0) / 4))
    || a == SYS_RSTCMD || (a == PLS_STAT && decide (bits x 15 0 ≠ 0)) || (a == DUO_STAT && decide (bit x 10 = 1))

/-- A data access of hand `h` is refused: recorded (R21), with a violation where it is of class REG, and exception 04h. -/
def State.dataRefused (s : State) (p h pc a : Nat) (wr reg : Bool) : State :=
  let s := if reg then s.regRefuse p a else s.refuse p a wr
  s.raise p h pc 4

/-- The byte address at which plough `p` finds `a`: its own tile lies at the host's alias (R19). -/
def ploughAddr (p a : Nat) : Nat := if 0xF00000 ≤ a ∧ a < 0xF10000 then tileBase p + (a - 0xF00000) else a

/-- The address of a load or store: xa + sext(imm16) (R251). -/
def effAddr (hd : Hand) (ra : Nat) (imm : BitVec 16) : Nat := ((hd.xr ra) + imm.signExtend 32).toNat

end Sys2Proof.Machine
end

