-- ==== Sys2Proof/Machine/Crypto.lean ====
section
/-!
DEFINITION. The published algorithms that the manual names: CRC-32 (R291), CRC-16 of the modem, SHA-256 and
HMAC-SHA-256 (R360, R431, R447), and ECDSA on the curve P-256 (R421), all by structural recursion.
-/
namespace Sys2Proof

/-! ### CRC -/

/-- `n` steps of a reflected CRC of 32 bits with polynomial `p`. -/
def crcBits (p : BitVec 32) : Nat → BitVec 32 → BitVec 32
  | 0, c => c
  | n + 1, c => crcBits p n (if c.getLsbD 0 then (c >>> 1) ^^^ p else c >>> 1)

/-- CRC-32 of IEEE 802.3: reflected, initial value and final XOR all ones (R291). -/
def crc32 (bs : List Byte) : Nat :=
  (~~~(bs.foldl (fun c b => crcBits 0xEDB88320#32 8 (c ^^^ b.zeroExtend 32)) 0xFFFFFFFF#32)).toNat

/-- One byte, most significant bit first, into a 16-bit CRC with polynomial `p`. -/
def crc16Bits (p : BitVec 16) : Nat → BitVec 16 → BitVec 16
  | 0, c => c
  | n + 1, c => crc16Bits p n (if c.getLsbD 15 then (c <<< 1) ^^^ p else c <<< 1)

/-- A 16-bit CRC, most significant bit first, with polynomial 1021h and initial value FFFFh. -/
def crc16 (bs : List Byte) : Nat :=
  (bs.foldl (fun (c : BitVec 16) (b : Byte) => crc16Bits 0x1021#16 8 (c ^^^ (b.zeroExtend 16 <<< (8 : Nat)))) 0xFFFF#16).toNat

/-! ### SHA-256 -/

/-- The round constants of SHA-256, in groups of eight. -/
def shaK : List (BitVec 32) :=
  [0x428a2f98, 0x71374491, 0xb5c0fbcf, 0xe9b5dba5, 0x3956c25b, 0x59f111f1, 0x923f82a4, 0xab1c5ed5]
  ++ [0xd807aa98, 0x12835b01, 0x243185be, 0x550c7dc3, 0x72be5d74, 0x80deb1fe, 0x9bdc06a7, 0xc19bf174]
  ++ [0xe49b69c1, 0xefbe4786, 0x0fc19dc6, 0x240ca1cc, 0x2de92c6f, 0x4a7484aa, 0x5cb0a9dc, 0x76f988da]
  ++ [0x983e5152, 0xa831c66d, 0xb00327c8, 0xbf597fc7, 0xc6e00bf3, 0xd5a79147, 0x06ca6351, 0x14292967]
  ++ [0x27b70a85, 0x2e1b2138, 0x4d2c6dfc, 0x53380d13, 0x650a7354, 0x766a0abb, 0x81c2c92e, 0x92722c85]
  ++ [0xa2bfe8a1, 0xa81a664b, 0xc24b8b70, 0xc76c51a3, 0xd192e819, 0xd6990624, 0xf40e3585, 0x106aa070]
  ++ [0x19a4c116, 0x1e376c08, 0x2748774c, 0x34b0bcb5, 0x391c0cb3, 0x4ed8aa4a, 0x5b9cca4f, 0x682e6ff3]
  ++ [0x748f82ee, 0x78a5636f, 0x84c87814, 0x8cc70208, 0x90befffa, 0xa4506ceb, 0xbef9a3f7, 0xc67178f2]

/-- The initial hash words of SHA-256. -/
def shaH0 : List (BitVec 32) :=
  [0x6a09e667, 0xbb67ae85, 0x3c6ef372, 0xa54ff53a, 0x510e527f, 0x9b05688c, 0x1f83d9ab, 0x5be0cd19]

/-- `n` more words of the message schedule, newest first. -/
def shaSched : Nat → List (BitVec 32) → List (BitVec 32)
  | 0, w => w
  | n + 1, w =>
    let a := w.getD 14 0
    let b := w.getD 1 0
    let s0 := a.rotateRight 7 ^^^ a.rotateRight 18 ^^^ (a >>> 3)
    let s1 := b.rotateRight 17 ^^^ b.rotateRight 19 ^^^ (b >>> 10)
    shaSched n ((w.getD 15 0 + s0 + w.getD 6 0 + s1) :: w)

/-- One round on the eight working words. -/
def shaRound (h : List (BitVec 32)) (kw : BitVec 32) : List (BitVec 32) :=
  match h with
  | [a, b, c, d, e, f, g, i] =>
    let t1 := i + (e.rotateRight 6 ^^^ e.rotateRight 11 ^^^ e.rotateRight 25) + ((e &&& f) ^^^ (~~~e &&& g)) + kw
    let t2 := (a.rotateRight 2 ^^^ a.rotateRight 13 ^^^ a.rotateRight 22) + ((a &&& b) ^^^ (a &&& c) ^^^ (b &&& c))
    [t1 + t2, a, b, c, d + t1, e, f, g]
  | _ => h

/-- One block of 16 words. -/
def shaBlock (h blk : List (BitVec 32)) : List (BitVec 32) :=
  let w := (shaSched 48 blk.reverse).reverse
  let r := (shaK.zip w).foldl (fun h p => shaRound h (p.1 + p.2)) h
  (h.zip r).map fun p => p.1 + p.2

/-- `n` big-endian words from bytes. -/
def beWords (bs : List Byte) : Nat → List (BitVec 32)
  | 0 => []
  | n + 1 => BitVec.ofNat 32 (ofBe (bs.take 4)) :: beWords (bs.drop 4) n

/-- The blocks of a padded message. -/
def shaBlocks : Nat → List Byte → List (BitVec 32) → List (BitVec 32)
  | 0, _, h => h
  | n + 1, bs, h => shaBlocks n (bs.drop 64) (shaBlock h (beWords bs 16))

/-- SHA-256, as 32 bytes. -/
def sha256 (m : List Byte) : List Byte :=
  let n := m.length
  let pad := (55 + 64 - n % 64) % 64
  let bs := m ++ [0x80#8] ++ List.replicate pad 0 ++ beBytes 8 (8 * n)
  (shaBlocks (bs.length / 64) bs shaH0).flatMap fun w => beBytes 4 w.toNat

/-- HMAC-SHA-256 with a key of at most 64 bytes. -/
def hmac (key m : List Byte) : List Byte :=
  let k := key ++ List.replicate (64 - key.length) 0
  sha256 (k.map (· ^^^ 0x5c#8) ++ sha256 (k.map (· ^^^ 0x36#8) ++ m))

/-! ### ECDSA on P-256 -/

/-- The prime of the field, the order of the group, and the coefficient b. -/
def ecP : Nat := 0xffffffff00000001000000000000000000000000ffffffffffffffffffffffff
def ecN : Nat := 0xffffffff00000000ffffffffffffffffbce6faada7179e84f3b9cac2fc632551
def ecB : Nat := 0x5ac635d8aa3a93e7b3ebbd55769886bc651d06b0cc53b0f63bce3c3e27d2604b

/-- The base point. -/
def ecG : Option (Nat × Nat) :=
  some (0x6b17d1f2e12c4247f8bce6e563a440f277037d812deb33a0f4a13945d898c296,
        0x4fe342e2fe1a7f9b8ee7eb4a7c0f9e162bce33576b315ececbb6406837bf51f5)

/-- `b ^ e mod m` on the low `n` bits of `e`, most significant first. -/
def powMod (m b e : Nat) : Nat → Nat → Nat
  | 0, r => r
  | n + 1, r =>
    let q := r * r % m
    powMod m b e n (if bit e n = 1 then q * b % m else q)

/-- The inverse modulo a prime of at most 256 bits. -/
def invMod (m a : Nat) : Nat := powMod m a (m - 2) 256 1

/-- The sum of two points; none is the point at infinity. -/
def ecAdd : Option (Nat × Nat) → Option (Nat × Nat) → Option (Nat × Nat)
  | none, q => q
  | p, none => p
  | some (x1, y1), some (x2, y2) =>
    if x1 = x2 ∧ (y1 + y2) % ecP = 0 then none
    else
      let l := if x1 = x2 then (3 * x1 * x1 + ecP - 3) * invMod ecP (2 * y1) % ecP
        else (y2 + ecP - y1) * invMod ecP (x2 + ecP - x1) % ecP
      let x3 := (l * l + 2 * ecP - x1 - x2) % ecP
      some (x3, (l * (x1 + ecP - x3) + ecP - y1) % ecP)

/-- `e` times a point, on the low `n` bits of `e`, most significant first. -/
def ecMul (p : Option (Nat × Nat)) (e : Nat) : Nat → Option (Nat × Nat) → Option (Nat × Nat)
  | 0, r => r
  | n + 1, r =>
    let d := ecAdd r r
    ecMul p e n (if bit e n = 1 then ecAdd d p else d)

/-- The signature (r, s) of hash `h` under the public key (x, y) verifies. -/
def ecVerify (x y r s h : Nat) : Bool :=
  let onCurve := decide (x < ecP) && decide (y < ecP)
    && decide (y * y % ecP = (x * x % ecP * x + (ecP - 3) * x + ecB) % ecP)
  if !onCurve || decide (r = 0) || decide (ecN ≤ r) || decide (s = 0) || decide (ecN ≤ s) then false
  else
    let w := invMod ecN s
    match ecAdd (ecMul ecG (h * w % ecN) 256 none) (ecMul (some (x, y)) (r * w % ecN) 256 none) with
    | some (px, _) => decide (px % ecN = r)
    | none => false

end Sys2Proof
end

