-- ==== Sys2Proof/Machine/Sheaf.lean ====
section
/-!
DEFINITION. Sheaves (R291 to R293) and the arrays they stand in: barn words, taken-over and failed rows (R300), and
the search for the newest valid sheaf of a record.
-/
namespace Sys2Proof.Machine

/-- The first bytes of the barn's and the crib's windows. -/
abbrev barnBase : Nat := 0x800000
abbrev cribBase : Nat := 0xC00000

/-- Where the byte at barn offset `a` stands: in the barn, or in the crib's takeover area (R300). -/
def State.barnAddr (s : State) (a : Nat) : Nat :=
  match Sparse.get (fun _ => 0) (a / 512) s.nvTaken with
  | 0 => barnBase + a
  | t => cribBase + 0x20000 + 512 * (t - 1) + a % 512

/-- The row of barn offset `a` is taken over by the crib (R300). -/
def State.taken? (s : State) (a : Nat) : Bool := decide (Sparse.get (fun _ => 0) (a / 512) s.nvTaken ≠ 0)

/-- The 64-bit barn word at offset `a`. -/
def State.barnWord (s : State) (a : Nat) : Nat := s.load (s.barnAddr a) 8

/-- The words of a sheaf (Table 09-5): header, payload, trailer. -/
def sheaf (type seq : Nat) (pl : List Nat) : List Nat :=
  let h := seq % 2 ^ 32 * 2 ^ 32 + pl.length % 65536 * 65536 + type % 65536
  let crc := crc32 ((h :: pl).flatMap fun w => leBytes 8 w)
  h :: pl ++ [(2 ^ 32 - 1 - seq % 2 ^ 32) * 2 ^ 32 + crc]

/-- The sheaf whose word i is `rd i`, if it is valid, of a type that `ok` knows and of at most `max` payload words:
type, SEQ, payload (R291). -/
def sheafOf (ok : Nat → Bool) (max : Nat) (rd : Nat → Nat) : Option (Nat × Nat × List Nat) :=
  let h := rd 0
  let n := bits h 31 16
  if !ok (bits h 15 0) || decide (max < n) then none
  else
    let pl := (List.range n).map fun i => rd (i + 1)
    let seq := h / 2 ^ 32
    if rd (n + 1) = (2 ^ 32 - 1 - seq) * 2 ^ 32 + crc32 ((h :: pl).flatMap fun w => leBytes 8 w) ∧ seq ≠ 0
        ∧ seq ≠ 2 ^ 32 - 1 then some (bits h 15 0, seq, pl) else none

/-- SEQ `a` is newer than SEQ `b` (R293). -/
def seqNewer (a b : Nat) : Bool := decide (0 < sx 32 (tc 32 ((a : Int) - b)))

/-- The SEQ after `n` (R292). -/
def seqNext (n : Nat) : Nat := if 2 ^ 32 - 2 ≤ n then 1 else n + 1

/-- The valid sheaf of type `type` and `len` payload words at barn offset `a`. -/
def State.sheafAt (s : State) (type len a : Nat) : Option (Nat × List Nat) :=
  match sheafOf (· == type) len (fun i => s.barnWord (a + 8 * i)) with
  | some (_, q, pl) => if pl.length = len then some (q, pl) else none
  | none => none

/-- The newest of two sheaves; the first wins a tie (R293). -/
def newest (x y : Option (Nat × List Nat)) : Option (Nat × List Nat) :=
  match x, y with
  | none, _ => y
  | some a, some b => if seqNewer b.1 a.1 then some b else some a
  | some a, none => some a

/-- A record of two locations at barn offsets `a` and `b`: its newest valid sheaf (R293). -/
def State.record (s : State) (type len a b : Nat) : Option (Nat × List Nat) :=
  newest (s.sheafAt type len a) (s.sheafAt type len b)

/-- A location of the energy region at barn offset `x`, of `len` payload words, stands on a taken-over row: it is left to the
crib copy cycle (R300). -/
def State.onTake (s : State) (len x : Nat) : Bool :=
  decide (x / 65536 = 0x22) && (List.range (len + 2)).any fun i => s.taken? (x + 8 * i)

/-- Where the next sheaf of a record goes, and its SEQ (R292, R300). -/
def State.recordNext (s : State) (type len a b : Nat) : Nat × Nat :=
  let seq := match s.record type len a b with | some r => seqNext r.1 | none => 1
  let loc := match s.sheafAt type len a, s.sheafAt type len b with
    | some x, some y => if seqNewer y.1 x.1 then a else b
    | some _, none => b
    | none, _ => a
  (if s.onTake len loc then (if loc = a then b else a) else loc, seq)

/-- The words of the sheaf `ws` at barn offset `a`. -/
def sheafWords (a : Nat) (ws : List Nat) : List NvWord :=
  ws.zipIdx.map fun p => { addr := a + 8 * p.2, data := p.1, entry := false, last := decide (p.2 + 1 = ws.length) }

/-- The words of a record's next sheaf. -/
def State.recordWords (s : State) (type len a b : Nat) (pl : List Nat) : List NvWord :=
  let r := s.recordNext type len a b
  sheafWords r.1 (sheaf type r.2 pl)

/-- Words that are written from now on, outside a commit: the log engine's and the forecast's (R454, R457). -/
def State.engWrite (s : State) (ws : List NvWord) : State :=
  { s with engRun := if s.engRun.todo.isEmpty then { t0 := s.clk, todo := ws }
      else { s.engRun with todo := s.engRun.todo ++ ws } }

/-- A record that the forecast writes, outside a commit. -/
def State.recordPut (s : State) (type len a b : Nat) (pl : List Nat) : State :=
  s.engWrite (s.recordWords type len a b pl)

end Sys2Proof.Machine
end

