-- ==== Sys2Proof/Machine/Tally.lean ====
section
/-!
DEFINITION. The tally: normalised samples, substitution, products, direction intervals, thresholds, boundaries,
the quadrature filters, half-cycle RMS and pulse outputs (R139 to R177). The filters' coefficients, which the manual does
not give (Table 05-2), are constants of Config.
-/
namespace Sys2Proof.Machine

/-- The voltage channel Vj that a configuration names. -/
def FieldCfg.vch (g : FieldCfg) (j : Nat) : Nat := bits g.fchv (8 * j + 5) (8 * j)

/-- The current channel Ij that a configuration names. -/
def FieldCfg.ich (g : FieldCfg) (j : Nat) : Nat := bits g.fchi (8 * j + 5) (8 * j)

/-- WIRE of a configuration (Table 05-1). -/
def FieldCfg.wire (g : FieldCfg) : Nat := bits g.fcfg 2 0

/-- EN of a configuration. -/
def FieldCfg.en (g : FieldCfg) : Bool := decide (bit g.fcfg 31 = 1)

/-- The furrow of a configuration. -/
def FieldCfg.fw (g : FieldCfg) : Nat := bits g.fcfg 25 24

/-- How many elements the wiring has (Table 05-1). -/
def FieldCfg.elems (g : FieldCfg) : Nat :=
  match g.wire with
  | 0 => 1
  | 1 => 2
  | 2 => 3
  | 3 => 3
  | _ => 0

/-- The phase row of element `e` (Table 05-1). -/
def FieldCfg.row (g : FieldCfg) (e : Nat) : Nat := if g.wire = 1 ∧ e = 1 then 3 else e + 1

/-- The used slots that feed products: V0 to V2 as 0 to 2, I0 to I3 as 3 to 6 (R139: V3 feeds none). -/
def FieldCfg.slots (g : FieldCfg) : List Nat :=
  List.range g.elems ++ (List.range g.elems).map (· + 3) ++ (if g.wire = 3 then [6] else [])

/-- The channel of a slot. -/
def FieldCfg.slotCh (g : FieldCfg) (k : Nat) : Nat := if k < 3 then g.vch k else g.ich (k - 3)

/-- The accumulation gain code of a slot (R142). -/
def FieldCfg.slotCa (g : FieldCfg) (k : Nat) : Nat := if k < 3 then bits g.fcfg 18 16 else bits g.fcfg 22 20

/-- Every channel a configuration uses, V3 included (R139, R140). -/
def FieldCfg.used (g : FieldCfg) : List Nat :=
  (List.range g.elems).map g.vch ++ (List.range g.elems).map g.ich
    ++ (if g.wire = 3 then [g.vch 3, g.ich 3] else [])

/-- The configuration that field `f`'s registers hold now. -/
def State.cfgRegs (s : State) (f : Nat) : FieldCfg :=
  { fcfg := (s.rdW (TAL_FCFG f)).toNat, fchv := (s.rdW (TAL_FCHV f)).toNat, fchi := (s.rdW (TAL_FCHI f)).toNat,
    start := s.rd (TAL_START_V f), noload := s.rd (TAL_NOLOAD_V f), lossi := s.rd (TAL_LOSSI_V f),
    lossv := s.rd (TAL_LOSSV_V f), at_ := s.clk, clear := false }

/-- Channel `c` is used by a field whose registers have EN = 1 (R141). -/
def State.isSealed (s : State) (c : Nat) : Bool :=
  (List.range 16).any fun f => (s.cfgRegs f).en && (s.cfgRegs f).used.contains c

/-- The check of R140 on the configuration that field `f`'s registers hold. -/
def State.fieldOk (s : State) (f : Nat) : Bool :=
  let g := s.cfgRegs f
  !g.en ||
    (decide (g.wire ≤ 3) && decide (bits g.fcfg 18 16 ≤ 5) && decide (bits g.fcfg 22 20 ≤ 5)
      && g.used.all (fun c => decide (c ≤ 47)) && decide g.used.Nodup
      && g.used.all (fun c => !(decide (c % 2 = 1) && s.on (ANA_GANG_MODE (c / 2))))
      && (g.used.zipIdx.all fun p =>
            let v := decide (p.2 < g.elems) || (decide (g.wire = 3) && decide (p.2 = 6))
            let ca : Int := if v then bits g.fcfg 18 16 else bits g.fcfg 22 20
            let sh := ca - (s.rd (ANA_CHCFG_GAIN p.1) : Int) - s.rdS (FLT_CTL_EF p.1)
            decide (-16 ≤ sh) && decide (sh ≤ 8)))

/-! ### Bins -/

/-- The limits of a bin: 2^95 − 1 and −2^95 (R146). -/
def binMax : Int := 2 ^ 95 - 1

/-- `z` added to offset `o` of field `f`: held at the limits, never wrapping (R146). -/
def State.addBin (s : State) (f o : Nat) (z : Int) : State :=
  if z = 0 then s
  else
    let b := 64 * f + o
    let v := s.bin b + z
    let h := clampI (-(2 ^ 95)) binMax v
    let s := s.setBin b h
    if h = v then s
    else
      let x := s.fieldOf f
      (s.setField f { x with ovf := x.ovf ||| 2 ^ o }).flag TAL_STAT_OVF

/-- Metadata flags of Table 05-4 as bits of the word. -/
abbrev mfRESID : Nat := 2 ^ 30
abbrev mfSUBST : Nat := 2 ^ 29
abbrev mfINVAL : Nat := 2 ^ 28
abbrev mfCLKH : Nat := 2 ^ 27
abbrev mfFWH : Nat := 2 ^ 26
abbrev mfINJ : Nat := 2 ^ 25
abbrev mfCFG : Nat := 2 ^ 24
abbrev mfDEG : Nat := 2 ^ 23

/-- Flags set in every bin of field `f`. -/
def State.fieldFlags (s : State) (f m : Nat) : State :=
  s.setField f { s.fieldOf f with flags := (s.fieldOf f).flags ||| m }

/-- The square root rounded half up. DEDUCED: as the products of R145; notes: assumption 20. -/
def rsqrt (n : Int) : Int := ((isqrt (4 * n.toNat) + 1) / 2 : Nat)

/-! ### Direction intervals -/

/-- Row `r` (1 to 3) of an interval. -/
def Iv.row (v : Iv) (r : Nat) : IvRow := if r = 1 then v.r1 else if r = 2 then v.r2 else v.r3

/-- An interval with row `r` replaced. -/
def Iv.setRow (v : Iv) (r : Nat) (x : IvRow) : Iv :=
  if r = 1 then { v with r1 := x } else if r = 2 then { v with r2 := x } else { v with r3 := x }

/-- A row's PF, QF and PH taken back (R152). -/
def State.withdraw (s : State) (f r : Nat) (x : IvRow) : State :=
  let b := 12 * (r - 1)
  let s := ((s.addBin f (b + 7) (-x.pf)).addBin f (b + 8) (-x.qf)).addBin f (b + 9) (-x.ph)
  ((s.addBin f 44 (-x.pf)).addBin f 45 (-x.qf)).addBin f 46 (-x.ph)

/-- P added to its import or export bin (R151). -/
def State.addDir (s : State) (f o : Nat) (p : Int) : State :=
  if 0 < p then s.addBin f o p else if p < 0 then s.addBin f (o + 1) (-p) else s

/-- |Q| added to the quadrant bin of (P, Q) whose Q1 stands at offset `o` (R151). -/
def State.addQuad (s : State) (f o : Nat) (p q : Int) : State :=
  let k := if 0 ≤ p then (if 0 ≤ q then 0 else 3) else (if 0 ≤ q then 1 else 2)
  s.addBin f (o + k) q.natAbs

/-- The open interval of field `f` closes and is applied to the bins (R151 to R154); a new one opens. -/
def State.closeIv (s : State) (f : Nat) : State :=
  let x := s.fieldOf f
  let g := x.cfg
  let v := x.iv
  let rows := (List.range g.elems).map g.row
  let stopped (r : Nat) : Bool := decide ((v.row r).i2 < (g.start * g.start * v.n : Nat))
  let live := rows.filter (fun r => !stopped r)
  let s := (rows.filter stopped).foldl (fun s r => s.withdraw f r (v.row r)) s
  let pt := (live.map fun r => (v.row r).p).sum
  let qt := (live.map fun r => (v.row r).q).sum
  let lim := g.noload * 65536 * v.n
  let s :=
    if pt.natAbs < lim ∧ qt.natAbs < lim then
      (live.foldl (fun s r => s.withdraw f r (v.row r)) s).addBin f 53 v.n
    else
      let s := live.foldl (fun s r =>
        let y := v.row r
        let b := 12 * (r - 1)
        ((s.addDir f b y.p).addQuad f (b + 2) y.p y.q).addBin f (b + 6) (rsqrt (y.v2 * y.i2))) s
      let s := (s.addDir f 36 pt).addQuad f 38 pt qt
      let s := s.addBin f 42 (live.map fun r => rsqrt ((v.row r).v2 * (v.row r).i2)).sum
      let s := s.addBin f 43 (rsqrt (pt * pt + qt * qt))
      let pc := (live.map fun r => (v.row r).p * 16777216 + (v.row r).l).sum
      let s := s.addDir f 48 ((pc + 8388608) / 16777216)
      if 0 < pt then s.addBin f 51 v.n else if pt < 0 then s.addBin f 52 v.n else s
  s.setField f { s.fieldOf f with iv := {} }

/-! ### Normalised samples -/

/-- Channel `c`'s fine sample of the index whose round ends at cycle `e`: delivered 45 periods after its input instant,
which is 2094 periods before the round's end (R120, R143). -/
def State.fineAt (s : State) (c e : Nat) : Option FineRec :=
  (s.chan1 c).fineQ.find? fun r => decide (r.at_ + 2049 * cyFine ≤ e) && decide (e < r.at_ + 2050 * cyFine)

/-- The normalised sample × 2^16 of a record at accumulation gain `ca` (R142), unless it is invalid (R147). -/
def normOf (ca : Nat) (r : FineRec) : Option Int :=
  let sh : Int := (ca : Int) - r.gain - r.ef
  if bit r.word.toNat 7 = 1 ∨ sh < -16 ∨ 8 < sh then none
  else some (sx 24 (bits r.word.toNat 31 8) * (2 ^ (sh + 16).toNat : Nat))

/-- The normalised sample of channel `c` for the index whose round ends at cycle `e`, or its substitute D periods earlier,
from the channel's own samples (R147); `fuel` bounds the look back. -/
def State.pastNorm (s : State) (c ca d : Nat) : (fuel : Nat) → (e : Nat) → Option Int
  | 0, _ => none
  | n + 1, e =>
    match (s.fineAt c e).bind (normOf ca) with
    | some x => some x
    | none => if e < d * cyFine then none else s.pastNorm c ca d n (e - d * cyFine)

/-- A product of two normalised samples × 2^16 in the LSB of its bin, rounded half up (R145). -/
def binProd (a b : Int) : Int := (a * b + 2147483648) / 4294967296

/-! ### The round -/

/-- The substitution distance of R147 and whether the field's furrow angle advances at cycle `t`. -/
def State.subDist (s : State) (fw t : Nat) : Nat × Bool :=
  let adv := match segAt t (s.furrow fw).segs with
    | some g => decide (g.rate ≠ 0)
    | none => false
  let fr := s.rd (FUR_FREQ_FREQ fw)
  if adv && decide (156250 ≤ fr) then ((2 * 320000000 + fr) / (2 * fr), true) else (640, adv)

/-! ### What the filters are fed -/

/-- The configuration that governs the sample whose round ends at cycle `e` (R164). -/
def State.cfgFor (s : State) (f e : Nat) : FieldCfg :=
  let x := s.fieldOf f
  ((x.cfgQ.filter fun g => decide (g.at_ + 2094 * cyFine ≤ e)).getLast?).getD x.cfg

/-- What field `f` has been fed for sample index `k`. -/
def Field.fedAt (x : Field) (k : Nat) : Option Feed :=
  match x.feed with
  | [] => none
  | h :: _ => if h.idx < k then none else (x.feed[h.idx - k]?).filter (·.idx == k)

/-- The entry of channel `c` at accumulation gain `ca` in what was fed. -/
def Feed.of (r : Feed) (c ca : Nat) : Option FeedSlot := r.slots.find? fun q => q.ch == c && q.ca == ca

/-- The sample of slot `k` of configuration `g` for index `i`, whose round ends at cycle `e`, with substitution distance
`d` (R142, R147). -/
def State.feedSlot (s : State) (x : Field) (g : FieldCfg) (i e d k : Nat) : FeedSlot :=
  let c := g.slotCh k
  let ca := g.slotCa k
  let r := s.fineAt c e
  let deg := match r with
    | some q => decide (bits q.word.toNat 6 5 ≠ 0)
    | none => false
  let run := match (x.fedAt (i - 1)).bind fun p => p.slots.find? (·.ch == c) with
    | some q => q.run
    | none => 0
  match r.bind (normOf ca) with
  | some v => { slot := k, ch := c, ca := ca, value := some v, sub := false, deg := deg, run := 0 }
  | none =>
    let v := match (if i < d then none else x.fedAt (i - d)).bind (·.of c ca) with
      | some q => q.value
      | none => if e < d * cyFine then none else s.pastNorm c ca d 256 (e - d * cyFine)
    { slot := k, ch := c, ca := ca, value := v, sub := true, deg := deg, run := run + 1 }

/-- Field `f`'s filters are fed the sample 2048 indices ahead of the round that ends now (R144, R147, R148). A field that
neither is enabled nor will be feeds nothing. -/
def State.feedRound (s : State) (f : Nat) : State :=
  let x := s.fieldOf f
  if !x.cfg.en && !x.cfgQ.any FieldCfg.en then (if x.feed.isEmpty then s else s.setField f { x with feed := [] })
  else
    let i := s.rounds + 2048
    let e := s.clk + 2048 * cyFine
    let g := s.cfgFor f e
    let d := (s.subDist g.fw (e - 2094 * cyFine)).1
    let ks := if g.en then g.slots.map (s.feedSlot x g i e d) else []
    let was := match x.fedAt (i - 1) with
      | some p => p.inval
      | none => false
    let bad := was || ks.any (fun k => k.value.isNone || decide (3200 < k.run))
    let r : Feed := { idx := i, slots := ks, inval := decide (i < d) || (ks.any (·.sub) && bad) }
    s.setField f { x with feed := (r :: x.feed).take 4097 }

/-- The span of the filters of channel `c` at gain `ca` for sample index `i`, newest first: 2048 samples on either side of
it, and zeros for an invalid period and for what was not fed (R144, R148). -/
def Field.span (x : Field) (i c ca : Nat) : List Int :=
  let look (k : Nat) : Int := match x.fedAt k with
    | some r => if r.inval then 0 else ((r.of c ca).bind (·.value)).getD 0
    | none => 0
  (List.range 4097).map fun m => if i + 2048 < m then 0 else look (i + 2048 - m)

/-- The Hilbert filter's output from its span: 4097 antisymmetric taps, the newest sample first (R144, Table 05-2). -/
def hilbert (w : List Int) : Int :=
  let one (m : Nat) : Int := Config.hilbertTap (m + 1) * (w.getD (2049 + m) 0 - w.getD (2047 - m) 0)
  if w.all (· == 0) then 0 else Config.hilbertRound ((List.range 2048).map one).sum

/-- The fundamental extractor's outputs from its span and the furrow's angles (R144); a span of zeros gives zeros. -/
def extractor (w : List Int) (angles : List Nat) : Int × Int :=
  if w.all (· == 0) then (0, 0) else Config.extract w angles

/-- The outputs of an element's filters in a round: the Hilbert output of v, the extractor's v and its −90° output, and its
i, each a normalised sample × 2^16 (R144). -/
structure Quad where
  vh : Int
  vf : Int
  vfh : Int
  if_ : Int
  deriving DecidableEq, Repr

/-- The filters of element `e` of field `f` in the round of the sample whose input instant is `t` (R144). -/
def State.quadOf (s : State) (f e t : Nat) : Quad :=
  let x := s.fieldOf f
  let g := x.cfg
  let v := x.span s.rounds (g.slotCh e) (g.slotCa e)
  let i := x.span s.rounds (g.slotCh (e + 3)) (g.slotCa (e + 3))
  let angles := (List.range 4097).map fun m => (s.furrow g.fw).angle (t + 2048 * cyFine - m * cyFine)
  let fv := extractor v angles
  { vh := hilbert v, vf := fv.1, vfh := fv.2, if_ := (extractor i angles).1 }

/-! ### A field's round -/

/-- One element's products in the round, into the open interval and the per-round bins (R149, R151, R153). -/
def State.elemRound (s : State) (f e : Nat) (adv : Bool) (xv xi : Int) (q : Quad) : State :=
  let x := s.fieldOf f
  let g := x.cfg
  let r := g.row e
  let y := x.iv.row r
  let p := binProd xv xi
  let qq := binProd q.vh xi
  let v2 := binProd xv xv
  let i2 := binProd xi xi
  let pf := if adv then binProd q.vf q.if_ else 0
  let qf := if adv then binProd q.vfh q.if_ else 0
  let ph := if adv then p - pf else 0
  let y1 : IvRow :=
    { p := y.p + p, q := y.q + qq, v2 := y.v2 + v2, i2 := y.i2 + i2, pf := y.pf + pf, qf := y.qf + qf, ph := y.ph + ph,
      l := y.l + sx 32 g.lossi * i2 + sx 32 g.lossv * v2 }
  let s := s.setField f { x with iv := x.iv.setRow r y1 }
  let b := 12 * (r - 1)
  let s := ((s.addBin f (b + 7) pf).addBin f (b + 8) qf).addBin f (b + 9) ph
  let s := (s.addBin f (b + 10) i2).addBin f (b + 11) v2
  ((s.addBin f 44 pf).addBin f 45 qf).addBin f 46 ph

/-- The main PLL was in holdover at some instant of [a, b) (R25). -/
def State.heldIn (s : State) (a b : Nat) : Bool :=
  (s.pllHold && decide (s.pllAt < b)) || s.pllWas.any fun h => decide (h.1 < b) && decide (a ≤ h.2)

/-- One field's part of a round for the sample with input instant `t` (R143 to R154). CLKH and T_CLKH mark a sample whose
own period, from its input instant, saw a holdover; notes: assumption 135. -/
def State.fieldRound (s : State) (t f : Nat) : State :=
  let x := s.fieldOf f
  let g := x.cfg
  let adv := (s.subDist g.fw t).2
  let cyc := (s.furrow g.fw).angle t / 16777216
  let cross := match x.cyc with
    | some c => decide (c ≠ cyc) && adv
    | none => false
  let s := if cross || decide (32768 ≤ x.iv.age) || (decide (640 ≤ x.iv.age) && !adv) then s.closeIv f else s
  let fed := x.fedAt s.rounds
  let smp := match fed with | some r => r.slots | none => []
  let inval := match fed with | some r => r.inval | none => true
  let sub := smp.any (·.sub)
  let x : Field := { s.fieldOf f with cyc := some cyc }
  let x : Field := { x with iv := { x.iv with age := x.iv.age + 1 } }
  let held := s.heldIn t (t + cyFine)
  let fwh := match segAt t (s.furrow g.fw).segs with
    | some h => !adv || h.hold || h.slew
    | none => true
  let deg := smp.any (·.deg)
  let com := (if fwh then mfFWH else 0) ||| (if held then mfCLKH else 0) ||| (if deg then mfDEG else 0)
    ||| (if s.on MSD_STAT_ACT then mfINJ else 0)
  let s := s.setField f { x with zeros := if inval then 4096 else x.zeros - 1 }
  let s := ((s.wr (TAL_FSTAT_FWH f) (b2n fwh)).wr (TAL_FSTAT_INVAL f) (b2n inval)).wr (TAL_FSTAT_SUBST f) (b2n sub)
  let s := s.addBin f 50 1
  if inval then ((s.addBin f 55 1).fieldFlags f (com ||| mfINVAL)).flag TAL_STAT_INVAL
  else
    let s := s.fieldFlags f (com ||| (if sub then mfSUBST else 0) ||| (if x.zeros ≠ 0 then mfDEG else 0))
    let s := if sub then (s.addBin f 54 1).flag TAL_STAT_SUBST else s
    let s := if held then s.addBin f 56 1 else s
    let val (k : Nat) : Int := ((smp.find? (·.slot == k)).bind (·.value)).getD 0
    let s := (List.range g.elems).foldl (fun s e => s.elemRound f e adv (val e) (val (e + 3)) (s.quadOf f e t)) s
    let s := if g.wire = 3 then s.addBin f 47 (binProd (val 6) (val 6)) else s
    let y := s.fieldOf f
    s.setField f { y with iv := { y.iv with n := y.iv.n + 1 } }

/-- A field's part of a round, unless its update fails (R419): a lost update is not made, and the next good one sets
INVAL and counts it in T_INVAL. -/
def State.fieldTry (s : State) (t f : Nat) : State :=
  let x := s.fieldOf f
  if x.skip then s.setField f { x with skip := false, lostN := x.lostN + 1 }
  else
    let s := s.fieldRound t f
    if x.lostN = 0 then s
    else
      let s := s.setField f { s.fieldOf f with lostN := 0 }
      ((s.addBin f 55 x.lostN).fieldFlags f mfINVAL).flag TAL_STAT_INVAL

/-! ### Pulse outputs -/

/-- What pulse output `n` holds. -/
def State.pulseOf (s : State) (n : Nat) : Pulse := Sparse.get (fun _ => {}) n s.pulse

/-- `s` with pulse output `n` holding `p`. -/
def State.setPulse (s : State) (n : Nat) (p : Pulse) : State :=
  { s with pulse := Sparse.set (fun _ => ({} : Pulse)) n p s.pulse }

/-- The pulse constant K of output `n` (R169). -/
def State.pulseK (s : State) (n : Nat) : Nat :=
  (s.rd (PLS_CONSTL_CONSTL n) + s.rd (PLS_CONSTH_CONSTH n) * 2 ^ 32) * 2 ^ s.rd (PLS_CFG_SCALE n)

/-- Offset `o` of a field is an energy bin (Table 05-3): no I²h, V²h or time bin. -/
def energyBin (o : Nat) : Bool := (decide (o < 36) && decide (o % 12 < 10)) || (decide (36 ≤ o) && decide (o < 50) && o != 47)

/-- The provisional value that output `n` follows (R169). -/
def State.provisional (s : State) (n : Nat) : Int :=
  let b := s.rd (PLS_CFG_BIN n)
  if b < 1024 ∧ energyBin (b % 64) ∧ (s.fieldOf (b / 64)).cfg.en then (s.closeIv (b / 64)).bin b else s.bin b

/-- The ball that carries output `n` has a spare in force: `PLS12` + k (R174). -/
def State.spareOf (s : State) (n : Nat) : Option Nat :=
  (List.range 4).find? (fun k => Sparse.get (fun _ => none) k s.plsSpare == some n)

/-- Output `n`'s own configuration drives a ball: a spare output taken over does not (R174). -/
def State.pulseOwn (s : State) (n : Nat) : Bool :=
  n < 12 || (Sparse.get (fun _ => none) (n - 12) s.plsSpare).isNone

/-- The level driven on ball `PLSb` (R171, R174). -/
def State.plsLevel (s : State) (b : Nat) : Bool :=
  let out (n : Nat) : Bool := (s.pulseOf n).on != s.on (PLS_CFG_POL n)
  if b < 12 then (if (s.spareOf b).isSome then false else out b)
  else match Sparse.get (fun _ => none) (b - 12) s.plsSpare with
    | some n => out n
    | none => out b

/-- What a change of the pulse outputs leaves: the balls whose level differs from what it was in `s` have it since now
(R171). -/
def State.plsMoved (s t : State) : State :=
  let bs := (List.range 16).filter fun b => s.plsLevel b != t.plsLevel b
  { t with plsAt := bs.foldl (fun m b => Sparse.set (fun _ => 0) b t.clk m) t.plsAt }

/-- The level of ball `b` as read back (Table 05-20): a ball that failed readback keeps the level it failed with until its
bit in FAULT is cleared; notes: assumption 137. -/
def State.plsBackLevel (s : State) (b : Nat) : Bool :=
  if s.on (bitFld PLS_STAT (16 + b)) then decide (bit s.plsBack b = 1) else s.plsLevel b

/-- The remainder takes `z`, and PENDING takes the pulses it makes (R169); passing FFFFh violates the hedge, but not in
the safe state (R172, Table 14-2, Table 14-4). -/
def State.pulseAdd (s : State) (n : Nat) (z : Int) : State :=
  let p := s.pulseOf n
  let k := s.pulseK n
  let r := clampI (-(2 ^ 95)) (2 ^ 96) (p.r + z)
  if k = 0 ∨ r < k then s.setPulse n { p with r := r }
  else
    let q := (r / k).toNat
    let pend := s.rd (PLS_OSTAT_PENDING n) + q
    let s := s.setPulse n { p with r := r - q * k }
    if pend ≤ 0xFFFF then s.wr (PLS_OSTAT_PENDING n) pend
    else
      let s := s.wr (PLS_OSTAT_PENDING n) 0xFFFF
      if s.on HDG_STAT_SAFE || s.on (bitFld PLS_STAT n) then s
      else
        let s := s.plsMoved (s.setPulse n { s.pulseOf n with on := false })
        (s.setBit PLS_STAT n).violate 0 9 n 0

/-- The pulse outputs follow their bins after a round (R169); the configuration of one whose ball carries another output
has no effect (R174). -/
def State.pulsesFollow (s : State) : State :=
  (List.range 16).foldl (fun s n =>
    if s.on (PLS_CFG_EN n) && s.pulseOwn n then
      let v := s.provisional n
      let z := v - (s.pulseOf n).prov
      let s := s.setPulse n { s.pulseOf n with prov := v }
      s.pulseAdd n z
    else s) s

/-- Outputs that follow a bin of field `f` take its present value without counting the change (R170). -/
def State.pulsesResync (s : State) (f : Nat) : State :=
  (List.range 16).foldl (fun s n =>
    if s.rd (PLS_CFG_BIN n) / 64 = f then s.setPulse n { s.pulseOf n with prov := s.provisional n } else s) s

/-- Starts of output `n` in the last 32 ms (R171). -/
def State.pulseRecent (s : State) (n : Nat) : Nat :=
  ((s.pulseOf n).starts.filter (fun t => s.clk < t + 32 * cyMs)).length

/-- The rate of output `n` in Hz over the last 32 ms, as `PLS_OSTATn.RATE` reads. -/
def State.pulseRate (s : State) (n : Nat) : Nat := s.pulseRecent n * 125 / 4

/-- The pulse width W in fabric cycles (R171): 80 µs up to 6.25 kHz (200 starts in 32 ms), above it half the mean
period, rounded down to 0.5 µs. -/
def State.pulseW (s : State) (n : Nat) : Nat :=
  let c := s.pulseRecent n
  if c ≤ 200 then 39322 else (32000 / c) * 24576 / 100

/-! ### Boundaries -/

/-- A configuration boundary of field `f` (R164, R158): the interval closes under the old configuration, a clear is
made, and the new configuration applies. -/
def State.cfgBoundary (s : State) (f : Nat) : State :=
  match (s.fieldOf f).cfgQ with
  | [] => s
  | g :: q =>
    let s := if (s.fieldOf f).cfg.en then s.closeIv f else s
    let x := s.fieldOf f
    let x := { x with
      cfg := { g with clear := false }, cfgQ := q, iv := {}, cyc := none
      flags := if g.clear then mfCFG else x.flags ||| mfCFG
      ovf := if g.clear then 0 else x.ovf }
    let s := s.setField f x
    let s := if g.clear then (List.range 57).foldl (fun s o => s.setBin (64 * f + o) 0) s else s
    let s := if g.clear then s.pulsesResync f else s
    let s := (List.range 8).foldl (fun s k =>
      let used := if k < 4 then decide (k < g.elems) || (decide (g.wire = 3) && decide (k = 3))
        else decide (k - 4 < g.elems) || (decide (g.wire = 3) && decide (k = 7))
      if used then s else s.wrW (TAL_HRMS (8 * f + k)) 0) s
    let s := if g.en then s
      else ((s.wr (TAL_FSTAT_FWH f) 0).wr (TAL_FSTAT_INVAL f) 0).wr (TAL_FSTAT_SUBST f) 0
    (s.setBit (TAL_FSTAT f) 0).wr (TAL_FSTAT_NPEND f) q.length

/-- The field's next pending configuration is reached by the sample whose round ends at cycle `e` (R164). -/
def State.cfgDue (s : State) (f e : Nat) : Bool :=
  match (s.fieldOf f).cfgQ with
  | [] => false
  | g :: _ => decide (g.at_ + 2094 * cyFine ≤ e)

/-- Every pending configuration of field `f`, of which there are at most four, that the sample reaches takes effect, oldest
first (R164). -/
def State.cfgReach (s : State) (f e : Nat) : State :=
  (List.range 4).foldl (fun s _ => if s.cfgDue f e then s.cfgBoundary f else s) s

/-- Field `f` takes part in a snapshot (R161): close, copy, clear the flags, record, count. -/
def State.snapField1 (s : State) (q : SnapReq) (f : Nat) : State :=
  let s := if (s.fieldOf f).cfg.en then s.closeIv f else s
  let x := s.fieldOf f
  let ws := (List.range 57).flatMap fun o => s.binWords (64 * f + o)
  let ts := q.stamps.getD x.cfg.fw []
  let idx : Nat := (s.rounds + 2 ^ 64 - 1) % 2 ^ 64
  let rest : List Word := [ts.getD 4 0, BitVec.ofNat 32 idx, BitVec.ofNat 32 (idx / 2 ^ 32), BitVec.ofNat 32 x.seq]
  let put (o : Nat) (ws : List Word) (m : Sparse Word) : Sparse Word :=
    (ws.zipIdx).foldl (fun m p => Sparse.set (fun _ => 0) (256 * f + 4 * o + p.2) p.1 m) m
  let held := maskOf 57 fun o =>
    decide (bit x.ovf o = 1) && (decide (s.bin (64 * f + o) = binMax) || decide (s.bin (64 * f + o) = -(2 ^ 95)))
  let s := { s with snapBank := put 63 rest (put 62 (ts.take 4) (put 0 ws s.snapBank)) }
  s.setField f { x with flags := 0, ovf := held, seq := (x.seq + 1) % 2 ^ 32 }

/-- Every snapshot whose boundary lies before the next sample is taken (R160, R161). -/
def State.snapsDue (s : State) : State :=
  let due := s.snaps.filter fun q => decide (q.bnd ≤ s.rounds)
  if due.isEmpty then s
  else
    let s : State := { s with snaps := s.snaps.filter fun q => decide (s.rounds < q.bnd) }
    let s := due.foldl (fun s q => (onBits 16 q.fields).foldl (fun s f => s.snapField1 q f) s) s
    s.flag TAL_STAT_SNAPDONE

/-- The input instant of a sample whose round ends at cycle `c`: L_T earlier (R143). -/
def inputOf (c : Nat) : Nat := c - 2094 * cyFine

/-! ### Half-cycle RMS -/

/-- The voltage or current channel of half-cycle slot `k` (0 to 3 V, 4 to 7 I), if the wiring uses it (R167). -/
def FieldCfg.hcCh (g : FieldCfg) (k : Nat) : Option Nat :=
  let j := k % 4
  if j < g.elems ∨ (g.wire = 3 ∧ j = 3) then some (if k < 4 then g.vch j else g.ich j) else none

/-- The half-cycle window of field `f` that ended last, as a number, and whether a sample lies in it (R167). -/
def State.hcWindow (s : State) (f : Nat) : Nat × (FineRec → Bool) :=
  let g := (s.fieldOf f).cfg
  let now := s.clk - 45 * cyFine
  let adv := (s.subDist g.fw now).2
  if adv then
    let h := (s.furrow g.fw).angle now / 8388608
    (2 * h + 1, fun r =>
      let k := (s.furrow g.fw).angle (r.at_ - 45 * cyFine) / 8388608
      decide (k + 2 = h) || decide (k + 1 = h))
  else
    let h := now / (320 * cyFine)
    (2 * h, fun r =>
      let k := (r.at_ - 45 * cyFine) / (320 * cyFine)
      decide (k + 2 = h) || decide (k + 1 = h))

/-- The half-cycle value of slot `k` of field `f` (R167, Table 05-18). -/
def State.hcValue (s : State) (f k c : Nat) : Word :=
  let g := (s.fieldOf f).cfg
  let ca := if k < 4 then bits g.fcfg 18 16 else bits g.fcfg 22 20
  let w := s.hcWindow f
  let rs := (s.chan1 c).fineQ.filter w.2
  let inv := rs.isEmpty || rs.any (fun r => (normOf ca r).isNone)
  let val (r : FineRec) : Int :=
    let sh : Int := (ca : Int) - r.gain - r.ef
    sx 24 (bits r.word.toNat 31 8) * (2 ^ (clampI (-16) 8 sh + 16).toNat : Nat)
  let sq := (rs.map fun r => val r * val r).sum
  let ms := if rs.isEmpty then 0 else (sq / (rs.length : Nat)) / 4294967296
  let seg := segAt (s.clk - 45 * cyFine) (s.furrow g.fw).segs
  let hold := match seg with | some h => h.hold || h.slew | none => false
  BitVec.ofNat 32 (satU 24 (rsqrt ms).toNat * 256 + b2n inv * 128 + b2n hold * 64 + b2n (decide (w.1 % 2 = 0)) * 32)

/-- A published voltage value against the three thresholds (R168). -/
def State.hcStates (s : State) (f k : Nat) (w : Word) : State :=
  if bit w.toNat 7 = 1 ∨ 4 ≤ k then s
  else
    let rms := bits w.toNat 31 8
    let dip := decide (rms < s.rd (TAL_DIP_V f))
    let swl := decide (s.rd (TAL_SWL_V f) ≠ 0) && decide (s.rd (TAL_SWL_V f) < rms)
    let intr := decide (rms < s.rd (TAL_INTR_V f))
    let new := b2n dip + 2 * b2n swl + 4 * b2n intr
    let old := s.rd ⟨TAL_HCSTAT f, 4 * k + 2, 4 * k⟩
    let s := s.wr ⟨TAL_HCSTAT f, 4 * k + 2, 4 * k⟩ new
    (List.range 3).foldl (fun s b =>
      if bit new b = 1 ∧ bit old b = 0 then (s.setBit (TAL_HCSTAT f) (16 + 4 * k + b)).flag TAL_STAT_HCEV else s) s

/-! ### The rows of the table -/

/-- A tally round (R143): the filters take the sample 2048 ahead; boundaries that the round's own sample reaches come
first, a snapshot before a configuration (R165); then every enabled field is processed and the pulse outputs follow. -/
def State.tallyRound (s : State) : State :=
  let t := inputOf s.clk
  let s := (List.range 16).foldl State.feedRound s
  let s := s.snapsDue
  let s := (List.range 16).foldl (fun s f => s.cfgReach f s.clk) s
  let s := (List.range 16).foldl (fun s f => if (s.fieldOf f).cfg.en then s.fieldTry t f else s) s
  { s with rounds := s.rounds + 1, roundClk := s.clk }.pulsesFollow

/-- GRANARY_WORD0_READ (R157): word 0 of a live bin, or of an offset of the snapshot window, latches the reader's
shadow. -/
def opGranaryWord0Read (o : Orig) (snap : Bool) (b : Fin 4096) (s : State) : State :=
  let c := readerOf o
  let r := if snap then s.snapRead (origCode o) c (b % 64) 0 else s.granaryRead c b 0
  r.2.setRdata c r.1

/-- SNAPSHOT_REQUEST (R159): a write of `TAL_SNAPCMD` with GO = 1. -/
def opSnapshotRequest (fields : Fin 65536) (aligned : Bool) (s : State) : State := (s.snapRequest fields aligned).2

/-- SNAPSHOT_BOUNDARY (R160, R161): the snapshots whose boundary the next sample is are taken, between two rounds. -/
def opSnapshotBoundary (s : State) : State := s.snapsDue

/-- Field `f`'s configuration boundary, where the next sample is the first of its new configuration (R164). -/
def State.cfgNext (s : State) (f : Nat) : State :=
  let e := s.roundClk + cyFine
  if s.cfgDue f e then s.snapsDue.cfgReach f e else s

/-- CONFIG_BOUNDARY (R164): field `f`'s next configuration takes effect, where the next sample is its first; a snapshot
of the same boundary is taken before it (R165). -/
def opConfigBoundary (f : Fin 16) (s : State) : State := s.cfgNext f

/-- PULSE_START (R171, Table 14-4): the ball that carries output `n` has been at its idle level for W. -/
def opPulseStart (n : Fin 16) (s : State) : State :=
  let p := s.pulseOf n
  let ceil := s.rd HDG_PLS_MAXHZ
  let w := s.pulseW n
  let ball := match s.spareOf n with | some k => 12 + k | none => n.val
  let apart := match p.startAt with
    | some t => decide (cySec ≤ (s.clk - t) * ceil)
    | none => decide (ceil ≠ 0)
  if s.on (PLS_CFG_EN n) && s.pulseOwn n && !p.on && s.on (PLS_OSTAT_PENDING n) && !s.on (bitFld PLS_STAT n)
      && !s.on HDG_STAT_SAFE && decide (Sparse.get (fun _ => 0) ball s.plsAt + w ≤ s.clk) && apart then
    let u := s.wr (PLS_OSTAT_PENDING n) (s.rd (PLS_OSTAT_PENDING n) - 1)
    let u := u.wrW (PLS_COUNT n) (u.rdW (PLS_COUNT n) + 1)
    s.plsMoved (u.setPulse n { p with
      on := true, startAt := some s.clk, endAt := s.clk + w
      starts := s.clk :: p.starts.filter (fun t => s.clk < t + 32 * cyMs) })
  else s

/-- PULSE_END (R171): the pulse's full width has passed, and the ball returns to its idle level. -/
def opPulseEnd (n : Fin 16) (s : State) : State :=
  let p := s.pulseOf n
  if p.on ∧ p.endAt ≤ s.clk then s.plsMoved (s.setPulse n { p with on := false }) else s

/-- PULSE_READBACK_FAULT (R173): ball `PLSn` has differed from its driven level for 10 µs. -/
def opPulseReadbackFault (n : Fin 16) (s : State) : State :=
  let m := if s.plsBackLevel n then s.plsBack &&& (2 ^ 16 - 1 - 2 ^ n.val) else s.plsBack ||| 2 ^ n.val
  if s.on (bitFld PLS_STAT (16 + n)) then s else ({ s with plsBack := m } : State).setBit PLS_STAT (16 + n)

/-- Ball `PLS12` + k takes output `x`, or its own output back where there is none (R174): a spare's own output then follows
its bin from what it holds now; notes: assumption 138. -/
def State.plsHand (s : State) (k : Nat) (x : Option Nat) : State :=
  let t : State := { s with plsSpare := Sparse.set (fun _ => none) k x s.plsSpare }
  let t := if x.isSome then t else t.setPulse (12 + k) { t.pulseOf (12 + k) with prov := t.provisional (12 + k) }
  s.plsMoved t

/-- PULSE_SPARE_HANDOVER (R174): at output n's first idle instant the hand-over that `PLS_SPAREk` asks is made and
logged; a ball that takes an output over counts as a spare brought in (R455). -/
def opPulseSpareHandover (k : Fin 4) (s : State) : State :=
  let cur := Sparse.get (fun _ => none) k.val s.plsSpare
  let want := if s.on (PLS_SPARE_EN k) then some (s.rd (PLS_SPARE_SRC k)) else none
  match cur, want with
  | none, some n => if (s.pulseOf n).on then s else (s.plsHand k (some n)).swapIn.logEv 0x000A k n 1
  | some n, none => if (s.pulseOf n).on then s else (s.plsHand k none).logEv 0x000A k n 0
  | some n, some m => if n = m ∨ (s.pulseOf n).on then s else (s.plsHand k none).logEv 0x000A k n 0
  | none, none => s

/-- PULSE_HEDGE_CLEAR (R408, Table 14-2): a host write of 1 to `PLS_STAT.HEDGE` bit n. -/
def opPulseHedgeClear (n : Fin 16) (s : State) : State :=
  if s.on (bitFld PLS_STAT n) then
    let s := (s.clrBit PLS_STAT n).wr (PLS_OSTAT_PENDING n) 0
    s.setPulse n { s.pulseOf n with r := 0 }
  else s

end Sys2Proof.Machine
end

