-- ==== Sys2Proof/Machine/Nvm.lean ====
section
/-!
DEFINITION. The commit engine (chapter 09): pushes into the commit buffer, commits and their records, the power-fail
commit, crib page programs and the crib copy, scrubs, remaps and takeovers.
-/
namespace Sys2Proof.Machine

/-! ### The places of the engine's records -/

/-- Offset of location `l` of field `f`'s energy sheaf; notes: assumption 30. -/
def locEnergy (f l : Nat) : Nat := 0x220000 + 0x800 * f + 0x400 * l
/-- Offset of location `l` of the pulse sheaf, the commit-open and the commit-close record; notes: assumption 30. -/
def locPulse (l : Nat) : Nat := 0x228000 + 0x400 * l
def locOpen (l : Nat) : Nat := 0x229000 + 0x200 * l
def locClose (l : Nat) : Nat := 0x22A000 + 0x200 * l
/-- Offsets of the calibration region's records (Table 15-5). -/
def locMap (l : Nat) : Nat := 0x210000 + 0x800 * l
def locRev (l : Nat) : Nat := 0x211000 + 0x1000 * l
def locScale (l : Nat) : Nat := 0x213000 + 0x800 * l

/-- The region of barn offset `a`, in the order of Table 09-2. -/
def barnRegion (a : Nat) : Nat :=
  if a < 0x100000 then 0 else if a < 0x200000 then 1 else if a < 0x210000 then 2 else if a < 0x220000 then 3
  else if a < 0x230000 then 4 else if a < 0x300000 then 5 else if a < 0x310000 then 6 else 7

/-- The spare rows of each region (Table 09-2). -/
def spareRows (r : Nat) : Nat := [40, 40, 8, 8, 8, 26, 8, 26].getD r 0

/-! ### Pushes -/

/-- The banked push registers of originator `o` (R282). -/
def State.bank (s : State) (o : Nat) : NvBank := Sparse.get (fun _ => {}) o s.nvBank

/-- `s` with the banked push registers of originator `o`. -/
def State.setBank (s : State) (o : Nat) (b : NvBank) : State :=
  { s with nvBank := Sparse.set (fun _ => ({} : NvBank)) o b s.nvBank }

/-- A word at `addr` lies in the range that `NVM_PROT` protects (R285). -/
def State.protected (s : State) (crib : Bool) (addr : Nat) : Bool :=
  let size := if crib then 0x40000 else 0x400000
  match s.rd (if crib then NVM_PROT_BPC else NVM_PROT_BPB) with
  | 0 => false
  | 1 => decide (size / 4 * 3 ≤ addr)
  | 2 => decide (size / 2 ≤ addr)
  | _ => true

/-- The region accepts pushes of originator `o`: 0 to 4 ploughs within the hedges, 5 and 6 the host, 14 the ledger, 15
the update engine (R280, R281, Table 14-1). -/
def State.pushGrant (s : State) (o : Nat) (crib : Bool) (addr : Nat) : Bool :=
  let user := decide (0x10000 ≤ addr) && decide (addr < 0x20000)
  let settings := barnRegion addr == 5
  if o < 5 then
    !s.on HDG_STAT_SAFE &&
      (if crib then s.on HDG_NVMP_CRIB && user
       else
         let page := (addr - 0x230000) / 4096
         s.on HDG_NVMP_SET && settings && decide (s.rd HDG_NVMP_FIRST ≤ page) && decide (page ≤ s.rd HDG_NVMP_LAST))
  else if crib then decide (o ≠ 15) && user
  else if o = 14 then settings || barnRegion addr == 3
  else if o = 15 then settings || decide (barnRegion addr ≤ 2)
  else settings

/-- A power-fail commit runs, or one of kind reset, which runs as it does (R283, R289, R290). -/
def State.pfRuns (s : State) : Bool := s.nvC.any fun c => decide (2 ≤ c.kind)

/-- `NVM_WRES` of a push (R283): 1 accepted, 2 merged, 3 full, 4 address, 5 region, 6 protected, 7 power-fail commit
running. -/
def State.pushCode (s : State) (o : Nat) (crib : Bool) (addr : Nat) : Nat :=
  if (if crib then 0x40000 else 0x400000) ≤ addr then 4
  else if !s.pushGrant o crib addr then 5
  else if s.protected crib addr then 6
  else if s.pfRuns then 7
  else if s.nvBuf.any (fun e => e.crib == crib && e.addr == addr && !e.seal_) then 2
  else if 1024 ≤ s.nvBuf.length then 3
  else 1

/-- The bytes of `new` that `mask` selects, in place of those of `old`. -/
def mergeBytes (mask old new : Nat) : Nat :=
  (List.range 8).foldl (fun a i => a + (if bit mask i = 1 then new / 256 ^ i % 256 else old / 256 ^ i % 256) * 256 ^ i) 0

/-- A push of eight bytes by originator `o` (R282 to R284): its code and its effect on the buffer. A refused plough push
outside its grant is a violation of class NVM, but not in the safe state (R408, Table 14-4). -/
def State.nvPush (s : State) (o : Nat) (crib : Bool) (addr mask data : Nat) : Nat × State :=
  let m := if crib then mask % 256 else 255
  let code := s.pushCode o crib addr
  match code with
  | 1 => (1, { s with nvBuf := s.nvBuf ++ [{ crib := crib, addr := addr, mask := m, data := data, seal_ := false }] })
  | 2 => (2, { s with nvBuf := s.nvBuf.map fun e =>
      if e.crib == crib && e.addr == addr && !e.seal_ then
        { e with mask := e.mask ||| m, data := mergeBytes m e.data data } else e })
  | _ =>
    let s := s.flag NVM_STAT_REFUSED
    (code, if code = 5 ∧ o < 5 ∧ !s.on HDG_STAT_SAFE then
      s.violate 2 o 0 ((if crib then cribBase else barnBase) + addr) else s)

/-- A write of `NVM_WDH` by originator `o` (R282): the push, its result, and the advance of `NVM_WADDR`. -/
def State.pushWrite (s : State) (o : Nat) (hi : Word) : Nat × State :=
  let b := s.bank o
  let r := s.nvPush o (decide (bit b.ctl 31 = 1)) b.addr (b.ctl % 256) (b.dl + hi.toNat * 2 ^ 32)
  (r.1, r.2.setBank o { b with res := r.1, addr := if r.1 ≤ 2 then b.addr + 8 else b.addr })

/-! ### What a commit carries -/

/-- Payload of field `f`'s energy sheaf in commit `c`: the bins 0 to 56 as they stand (Table 09-6). -/
def State.energyPl (s : State) (c f : Nat) : List Nat :=
  (c * 2 ^ 32 + f) :: (List.range 57).flatMap fun o =>
    let v := (Sparse.get (fun _ => (0 : Acc96)) (64 * f + o) s.bins).toNat
    [v % 2 ^ 64, v / 2 ^ 64 + (s.binMetaWord (64 * f + o)).toNat * 2 ^ 32]

/-- Payload of the pulse sheaf in commit `c` (Table 09-6). -/
def State.pulsePl (s : State) (c : Nat) : List Nat :=
  (c * 2 ^ 32) :: (List.range 16).flatMap fun n =>
    let r := tc 96 (s.pulseOf n).r
    [r % 2 ^ 64, r / 2 ^ 64 + s.rd (PLS_OSTAT_PENDING n) * 2 ^ 32]

/-- One channel's 16 bits of the retirement record: RET [2:0], then the slices at phases 0 to 3; notes: assumption 31. -/
def State.mapHalf (s : State) (c : Nat) : Nat :=
  s.rd (SLC_CHSTAT_RET c) + s.rd (SLC_PHMAP_PH0 c) * 8 + s.rd (SLC_PHMAP_PH1 c) * 64 + s.rd (SLC_PHMAP_PH2 c) * 512
    + s.rd (SLC_PHMAP_PH3 c) * 4096

/-- Payload of the retirement and reference record (Table 09-6); notes: assumption 31. -/
def State.mapPl (s : State) : List Nat :=
  (List.range 24).map fun i =>
    let refs := if i = 0 then s.rd ANA_REFSTAT_ARET + s.rd ANA_REFSTAT_BRET * 2 + s.rd ANA_REFSTAT_LO * 4
      + s.rd ANA_REFSTAT_HI * 16 else 0
    s.mapHalf (2 * i) + refs * 65536 + s.mapHalf (2 * i + 1) * 2 ^ 32

/-- Payload of the revenue configuration record (R437). -/
def State.revPl (s : State) : List Nat := revRegs.map fun a => a + (s.rdW a).toNat * 2 ^ 32

/-- The fields whose energy a commit stores (R166): those enabled. -/
def State.enabledFields (s : State) : List Nat := (List.range 16).filter fun f => (s.fieldOf f).cfg.en

/-- The energy, pulse and close records of commit `c` (R287, steps 2, 3, 7 without what stands between). -/
def State.energyWords (s : State) (c : Nat) : List NvWord :=
  (s.enabledFields.flatMap fun f => s.recordWords (0x10 + f) 115 (locEnergy f 0) (locEnergy f 1) (s.energyPl c f))
  ++ s.recordWords 0x20 33 (locPulse 0) (locPulse 1) (s.pulsePl c)

/-- The commit-open record of commit `c` of kind `kind`. -/
def State.openWords (s : State) (c kind : Nat) : List NvWord :=
  s.recordWords 1 1 (locOpen 0) (locOpen 1) [c * 2 ^ 32 + kind % 4]

/-- The commit-close record of commit `c`. -/
def State.closeWords (s : State) (c : Nat) : List NvWord := s.recordWords 2 1 (locClose 0) (locClose 1) [c * 2 ^ 32]

/-- The retirement map, the revenue configuration and the sealed barn entries of a commit (R287, steps 4 to 6). -/
def State.midWords (s : State) (c : Commit) : List NvWord :=
  (if c.map then s.recordWords 0x30 24 (locMap 0) (locMap 1) s.mapPl else [])
  ++ (match c.rev with | some pl => s.recordWords 0x50 313 (locRev 0) (locRev 1) pl | none => [])
  ++ (s.nvBuf.filter fun e => !e.crib && e.seal_).map fun e =>
    { addr := e.addr, data := e.data, entry := true, last := true }

/-- The commit with the records that have changed since the last commit that closed. -/
def State.carry (s : State) (c : Commit) : Commit :=
  { c with map := s.mapDirty, rev := if s.revDirty then some s.revPl else none }

/-- `s` once the running commit `c` carries its records: only a later change of them is one more (R287). -/
def State.carried (s : State) (c : Commit) : State :=
  { s with mapDirty := s.mapDirty && !c.map, revDirty := s.revDirty && c.rev.isNone }

/-! ### A commit's course -/

/-- Fabric cycles × 1000 of one barn word: 50 ns. -/
abbrev cyWord : Nat := 24576

/-- The crib entries `es`, each counting `n`, as page programs after `ps`: one for each page, in the order of each page's
first entry (R287, step 8). -/
def cribPages (n : Nat) : List NvEntry → List CribPage → List CribPage
  | [], ps => ps
  | e :: es, ps =>
    let page := e.addr / 128
    let bs := (onBits 8 e.mask).map fun i => (e.addr % 128 + i, e.data / 256 ^ i % 256)
    cribPages n es (if ps.any (·.page == page) then
        ps.map fun p => if p.page == page then { p with bytes := p.bytes ++ bs, entries := p.entries + n } else p
      else ps ++ [{ page := page, bytes := bs, entries := n }])

/-- The page programs `ps` follow the one in progress: the next begins now. Its entries are checked again as they are
written: those that are protected by then are dropped and counted (R285). Protection goes by whole pages. -/
def State.cribBegin (s : State) : List CribPage → State
  | [] => { s with cribQ := [] }
  | p :: ps =>
    if p.entries ≠ 0 ∧ s.protected true (128 * p.page) then (s.add NVM_DROP_V p.entries).cribBegin ps
    else { s with cribQ := p :: ps, cribAt := s.clk }

/-- The word of a taken-over row at barn offset `a` as an entry of the crib (R300). -/
def State.takenEntry (s : State) (a v : Nat) : NvEntry :=
  { crib := true, addr := s.barnAddr a - cribBase, mask := 255, data := v, seal_ := true }

/-- A barn word is written, unless its row has failed; on a taken-over row it joins the page program of its 128 bytes that
waits, or makes one (R300). -/
def State.barnPut (s : State) (a v : Nat) : State :=
  if s.nvFailed.contains (a / 512) then s
  else if s.taken? a then
    if s.cribQ.isEmpty then s.cribBegin (cribPages 0 [s.takenEntry a v] [])
    else { s with cribQ := s.cribQ.take 1 ++ cribPages 0 [s.takenEntry a v] (s.cribQ.drop 1) }
  else s.store (barnBase + a) 8 v

/-- One barn word is written; an entry that is protected by now is dropped and counted, and leaves the buffer (R285). -/
def State.commitWord (s : State) (w : NvWord) : State :=
  if w.entry then
    let s := { s with nvBuf := s.nvBuf.eraseP fun e => !e.crib && e.seal_ && e.addr == w.addr }
    if s.protected false w.addr then s.inc NVM_DROP_V else s.barnPut w.addr w.data
  else s.barnPut w.addr w.data

/-- A crib page program has ended: its bytes are in the crib, and the page has one program more (Table 16-1). -/
def State.pageDone (s : State) (p : CribPage) : State :=
  let s := p.bytes.foldl (fun s b => s.setByte (cribBase + 128 * p.page + b.1) (BitVec.ofNat 8 b.2)) s
  { s with cribProg := Sparse.set (fun _ => 0) p.page (Sparse.get (fun _ => 0) p.page s.cribProg + 1) s.cribProg }

/-- The page programs of a crib copy that have ended by now are in the crib. -/
def State.copyRun (s : State) : State :=
  match s.cribCopy with
  | none => s
  | some k =>
    let n := (s.clk - k.t0) / (4 * cyMs)
    let s := (k.todo.take n).foldl (fun s p =>
      s.pageDone p) s
    { s with cribCopy := some { t0 := k.t0 + n * (4 * cyMs), todo := k.todo.drop n } }

/-- The words of the log engine and the forecast that are due by now are written, one in 50 ns; a commit is not slowed
(notes: assumption 153). -/
def State.engStep (s : State) : State :=
  let e := s.engRun
  let n := (s.clk - e.t0) * 1000 / cyWord - e.done
  let s := (e.todo.take n).foldl State.commitWord s
  { s with engRun := if e.todo.length ≤ n then {} else { e with todo := e.todo.drop n, done := e.done + n } }

/-- Commit `num`, which started in cycle `start`, has closed in cycle `t`: its number, its flag and its duration (R287). -/
def State.commitNote (s : State) (num start t : Nat) : State :=
  ((s.wr NVM_CNUM_V num).flag NVM_STAT_DONE).wr NVM_CTIME_LAST (satU 16 ((t - start) * 125 / 6144))

/-- The words of the running commit that are due by now are written (Table 09-3), and the pages of a crib copy. A close
record that a warning let finish closes its commit (R289). -/
def State.nvmRun (s : State) : State :=
  let s := s.copyRun.engStep
  match s.nvC with
  | none => s
  | some c =>
    let n := (s.clk - c.t0) * 1000 / cyWord - c.done
    let k := c.done + (c.todo.take n).length
    let s := (c.todo.take n).foldl State.commitWord s
    let r : Option (Nat × Nat × Nat) × State := match c.owed with
      | some (num, start, at_) =>
        if at_ ≤ k then (none, s.commitNote num start (c.t0 + (at_ * cyWord + 999) / 1000)) else (c.owed, s)
      | none => (none, s)
    { r.2 with nvC := some { c with todo := c.todo.drop n, done := k, owed := r.1 } }

/-- More words for the running commit: after those that it still writes, or from now. -/
def Commit.append (c : Commit) (now : Nat) (ws : List NvWord) : Commit :=
  if c.todo.isEmpty then { c with todo := ws, t0 := now, done := 0 } else { c with todo := c.todo ++ ws }

/-- A round boundary reaches a commit that waits for its energy boundary (R166, R287, R289): a configuration due at it
comes first, and at a power-fail commit every open interval closes. What it still writes then counts as written where
the places of its records are chosen (R292). -/
def State.nvBoundary (s : State) : State :=
  match s.nvC with
  | none => s
  | some c =>
    if c.bnd.isSome then s
    else
      let s := (List.range 16).foldl State.cfgNext s
      let s := if c.kind < 2 then s else s.enabledFields.foldl State.closeIv s
      let c := if c.kind < 2 then s.carry c else c
      let t := c.todo.foldl State.commitWord s
      let mid := if c.kind < 2 then t.midWords c else []
      let c := { c.append s.clk (t.energyWords c.num ++ mid ++ t.closeWords c.num) with bnd := some s.clk }
      { s.carried c with nvC := some c }

/-- A timer or command commit starts (R284, R286, R287): every entry present is sealed, the open record is written, and
a start on a round boundary takes its energy there. -/
def State.commitStart (s : State) (kind : Nat) : State :=
  let num := (s.nvNum + 1) % 2 ^ 32
  let s : State := { s with nvNum := num, nvBuf := s.nvBuf.map (fun (e : NvEntry) => { e with seal_ := true }) }
  let c : Commit := { num := num, kind := kind, start := s.clk, t0 := s.clk, todo := s.openWords num kind }
  let s : State := { s.wr NVM_STAT_BUSY 1 with nvC := some c }
  if s.roundClk = s.clk ∧ s.rounds ≠ 0 then s.nvBoundary else s

/-- A start of kind 0 or 1 is made, or held while a commit runs or `PFWARN` is held (R286, R290). -/
def State.commitReq (s : State) (kind : Nat) : State :=
  if s.nvC.isSome ∨ s.pfTaken then { s with nvHeld := s.nvHeld ||| if kind = 0 then 1 else 2 } else s.commitStart kind

/-- A held start begins (R286); several merge into one. -/
def State.commitHeld (s : State) : State :=
  if s.nvHeld = 0 ∨ s.nvC.isSome ∨ s.pfTaken then s
  else ({ s with nvHeld := 0 } : State).commitStart (if bit s.nvHeld 0 = 1 then 0 else 1)

/-- Fabric cycles of a remap: 3.2 µs and 1 µs (R299). -/
abbrev cyRemap : Nat := 2065

/-- The cycle by which the running commit has written the words it has written. -/
def Commit.wrote (c : Commit) : Nat := c.t0 + (c.done * cyWord + 999) / 1000

/-- The running commit stands still for a remap (R299). -/
def State.commitStall (s : State) : State := { s with nvC := s.nvC.map fun c => { c with t0 := c.t0 + cyRemap } }

/-- The words up to the end of the record that the engine is writing. -/
def throughLast : List NvWord → List NvWord
  | [] => []
  | w :: ws => if w.last then [w] else w :: throughLast ws

/-- The power-fail commit, or one of kind reset (R289): a running commit finishes its record and stops, what it still
had sealed passes on, and crib programs stop after the one in progress. A commit that writes its close record, or has
written it, closes with that. -/
def State.commitFail (s : State) (kind : Nat) : State :=
  let num := (s.nvNum + 1) % 2 ^ 32
  let busy := match s.nvC with | some c => throughLast c.todo | none => []
  let t := match s.nvC with | some c => if busy.isEmpty then (s.clk, 0) else (c.t0, c.done) | none => (s.clk, 0)
  let r : Option (Nat × Nat × Nat) × State := match s.nvC with
    | some c =>
      if c.bnd.isSome && decide (busy.length = c.todo.length) then
        if busy.isEmpty then (none, s.commitNote c.num c.start s.clk)
        else (some (c.num, c.start, c.done + busy.length), s)
      else (c.owed, { s with mapDirty := s.mapDirty || c.map, revDirty := s.revDirty || c.rev.isSome })
    | none => (none, s)
  let s := r.2
  let lost := (s.cribQ.drop 1).foldl (fun n p => n + p.entries) 0 + (s.nvBuf.filter (·.crib)).length
  let s := { s.add NVM_CRIBLOST_V lost with
    nvNum := num, cribQ := s.cribQ.take 1
    nvBuf := (s.nvBuf.filter fun (e : NvEntry) => !e.crib).map fun (e : NvEntry) => { e with seal_ := true }
    cribCopy := s.cribCopy.bind fun k => if k.todo.isEmpty then none else some { k with todo := k.todo.take 1 } }
  let c : Commit := s.carry { num := num, kind := kind, start := s.clk, t0 := t.1, done := t.2, owed := r.1 }
  let u := busy.foldl State.commitWord s
  let c := { c with todo := busy ++ u.openWords num kind ++ u.midWords c }
  { (s.carried c).wr NVM_STAT_BUSY 1 with nvC := some c }

/-- The running commit closes (R287): its number, duration and flag; its crib entries become page programs. -/
def State.commitEnd (s : State) (c : Commit) : State :=
  let s := (s.wr NVM_STAT_BUSY 0).commitNote c.num c.start s.clk
  let pages := cribPages 1 (s.nvBuf.filter fun e => e.crib && e.seal_) []
  let s : State := { s with nvC := none, nvBuf := s.nvBuf.filter fun e => !(e.crib && e.seal_) }
  if s.cribQ.isEmpty then s.cribBegin pages else { s with cribQ := s.cribQ ++ pages }

/-! ### Rows -/

/-- A barn row fails (R299, R300, R455, R456), for cause 0 read-back, 1 double-bit error, 2 two scrubs: a spare row, else
a takeover row of the crib, else it is failed. -/
def State.rowBad (s : State) (row cause : Nat) : State :=
  let r := barnRegion (512 * row)
  if s.nvFailed.contains row then s
  else if s.rd (NVM_SPARE_USED r) < spareRows r ∧ Sparse.get (fun _ => 0) row s.nvTaken = 0 then
    (((s.inc (NVM_SPARE_USED r)).flag NVM_STAT_REMAP).swapIn).logEv 0x0007 r row cause
  else
    let used := s.nvTaken.length
    if used < 256 ∧ Sparse.get (fun _ => 0) row s.nvTaken = 0 then
      let bs := s.bytes (barnBase + 512 * row) 512
      let s := s.setBytes (cribBase + 0x20000 + 512 * used) bs
      let s := { s with nvTaken := Sparse.set (fun _ => 0) row (used + 1) s.nvTaken }
      (((s.inc (NVM_SPARE_TAKE r)).flag NVM_STAT_TAKEOVER).swapIn).logEv 0x0008 r row used
    else ({ s with nvFailed := row :: s.nvFailed }.flag NVM_STAT_NOREPAIR).logEv 0x0009 r row 0

/-- A scrub of the barn (R298, R299): rows with corrected words, and rows with a double-bit error. -/
def State.scrub (s : State) (sgl dbl : List (Fin 8192)) : State :=
  let s := { s with scrubReq := false, scrubClk := s.clk }
  let s := s.add NVM_ECC_SGL sgl.length
  let s := dbl.foldl (fun s r => ((s.flag NVM_STAT_DBL).inc NVM_ECC_DBL).rowBad r 1) s
  sgl.foldl (fun s r =>
    let again := s.nvScrubs.any fun p => p.1 == r.val && decide (p.2 < s.clk) && decide (s.clk < p.2 + 30 * cyDay)
    let s := { s with nvScrubs := ((r.val, s.clk) :: s.nvScrubs).filter fun p => s.clk < p.2 + 30 * cyDay }
    if again then s.rowBad r 2 else s) s

/-! ### The crib copy -/

/-- The words of the copy area's location `l` (R301): word i at page i / 8. -/
def State.copyWord (s : State) (l i : Nat) : Nat := s.load (cribBase + 128 * (i / 8) + 64 * l + 8 * (i % 8)) 8

/-- The valid crib copy at location `l`; its trailer stands in page 511. -/
def State.copyAt (s : State) (l : Nat) : Option (Nat × List Nat) :=
  let n := bits (s.copyWord l 0) 31 16
  match sheafOf (· == 0x40) 4086 (fun i => if i = n + 1 then s.copyWord l 4088 else s.copyWord l i) with
  | some (_, q, pl) => some (q, pl)
  | none => none

/-- The sheaves that a crib copy's payload holds, end to end; `fuel` bounds their number. -/
def splitSheaves : Nat → List Nat → List (Nat × Nat × List Nat)
  | 0, _ => []
  | n + 1, ws =>
    match sheafOf (fun _ => true) ws.length (fun i => ws.getD i 0) with
    | some x => x :: splitSheaves n (ws.drop (x.2.2.length + 2))
    | none => []

/-- A record of the newest crib copy (R293, R301). -/
def State.copyRec (s : State) (type : Nat) : Option (Nat × List Nat) :=
  match newest (s.copyAt 0) (s.copyAt 1) with
  | none => none
  | some (_, pl) =>
    match (splitSheaves 32 pl).find? (fun x => x.1 = type) with
    | some x => some (x.2.1, x.2.2)
    | none => none

/-- The newest valid sheaf of a record that the crib copy also holds. -/
def State.recordAny (s : State) (type len a b : Nat) : Option (Nat × List Nat) :=
  newest (s.record type len a b) (s.copyRec type)

/-- The payload of a crib copy made now: the newest energy, pulse and calibration sheaves (R301). -/
def State.copyPl (s : State) : List Nat :=
  let one (type len a b : Nat) : List Nat :=
    match s.record type len a b with
    | some (q, pl) => sheaf type q pl
    | none => []
  (List.range 16).flatMap (fun f => one (0x10 + f) 115 (locEnergy f 0) (locEnergy f 1))
  ++ one 0x20 33 (locPulse 0) (locPulse 1) ++ one 0x30 24 (locMap 0) (locMap 1)
  ++ one 0x50 313 (locRev 0) (locRev 1) ++ one 0x60 32 (locScale 0) (locScale 1)

/-- The bytes of one half page: the words `ws` from its first, the rest 0. -/
def halfPage (l : Nat) (ws : List Nat) : List (Nat × Nat) :=
  (List.range 64).map fun i => (64 * l + i, ws.getD (i / 8) 0 / 256 ^ (i % 8) % 256)

/-- What a crib copy cycle writes where a location of the energy region stands on a taken-over row: the record's newest
valid sheaf (R300). DEDUCED (log 154). -/
def State.takeCopy (s : State) : List NvWord :=
  let recs : List (Nat × Nat × (Nat → Nat)) := (List.range 16).map (fun f => (0x10 + f, 115, locEnergy f))
    ++ [(0x20, 33, locPulse), (1, 1, locOpen), (2, 1, locClose)]
  recs.flatMap fun r => ([0, 1].filter fun l => s.onTake r.2.1 (r.2.2 l)).flatMap fun l =>
    match s.record r.1 r.2.1 (r.2.2 0) (r.2.2 1) with
    | some (q, pl) => sheafWords (r.2.2 l) (sheaf r.1 q pl)
    | none => []

/-- A crib copy starts (R292, R301), unless one runs: pages 0 to 510, then the trailer's; where an erase of the old
trailer could reach the new one, the trailer is cleared first. Locations on taken-over rows follow. -/
def State.copyStart (s : State) : State :=
  if s.cribCopy.isSome ∨ s.pfTaken then s
  else
    let x := s.copyAt 0
    let y := s.copyAt 1
    let loc := match x, y with
      | some a, some b => if seqNewer b.1 a.1 then 0 else 1
      | some _, none => 1
      | none, _ => 0
    let seq := match newest x y with | some r => seqNext r.1 | none => 1
    let ws := sheaf 0x40 seq s.copyPl
    let body := ws.dropLast
    let tr := ws.getLast?.getD 0
    let old := s.copyWord loc 4088 / 2 ^ 32
    let clear : List CribPage := if old &&& (tr / 2 ^ 32) = old then
        [{ page := 511, bytes := (List.range 8).map (fun i => (64 * loc + i, 255)), entries := 0 }] else []
    let pages : List CribPage := (List.range 511).map fun p =>
      { page := p, bytes := halfPage loc ((body.drop (8 * p)).take 8), entries := 0 }
    let last : CribPage := { page := 511, bytes := halfPage loc [tr], entries := 0 }
    let rows := s.takeCopy
    let crib := (rows.filter fun w => s.taken? w.addr).map fun w => s.takenEntry w.addr w.data
    let copy : CribCopy := { t0 := s.clk, todo := clear ++ pages ++ [last] ++ cribPages 0 crib [] }
    { s.engWrite (rows.filter fun w => !s.taken? w.addr) with cribCopy := some copy }

/-! ### Power cut -/

/-- What an interruption leaves in the arrays (R294, R295): each barn word being written is old or new, and each selected
byte of the crib page in program reads its old value with free bits set, or its new one with free bits set. -/
def State.nvCut (s : State) : State :=
  let s := s.nvmRun
  let half (s : State) (ws : List NvWord) : State := match ws with
    | w :: _ => let d := s.draw; if d.1.getLsbD 0 then d.2.commitWord w else d.2
    | [] => s
  let s := half s (match s.nvC with | some c => c.todo | none => [])
  let s := half s s.engRun.todo
  let tear (s : State) (at_ : Nat) (p : CribPage) : State :=
    p.bytes.foldl (fun s b =>
      let a := cribBase + 128 * p.page + b.1
      let d := s.draw
      let base : Byte := if s.clk < at_ + 737280 then s.byte a else BitVec.ofNat 8 b.2
      d.2.setByte a (base ||| d.1.truncate 8)) s
  let s := match s.cribQ with
    | p :: _ => tear s s.cribAt p
    | [] => s
  let s := match s.cribCopy with
    | some k => match k.todo with
      | p :: _ => tear s k.t0 p
      | [] => s
    | none => s
  { s with
    nvC := none, nvBuf := [], nvHeld := 0, engRun := {}, cribQ := [], cribCopy := none, pfTaken := false, pfRel := none }

/-! ### The rows of the table -/

/-- TALLY_ROUND (R143): a round, and the energy boundary of a commit that waits for one (R166). -/
def opTallyRound (s : State) : State := s.tallyRound.nvBoundary

/-- NVM_PUSH (R282): a write of `NVM_WDH` by originator `o`. -/
def opNvmPush (o : Orig) (w : Word) (s : State) : State := (s.pushWrite (origCode o) w).2

/-- COMMIT_TIMER_EXPIRY (R286): PER × 125 ms of rounds have passed since the last timer start. -/
def opCommitTimerExpiry (s : State) : State :=
  let per := s.rd NVM_CTL_PER * 4000
  if s.nvT0 + per ≤ s.rounds then ({ s with nvT0 := s.rounds / per * per } : State).commitReq 0 else s

/-- A write to `NVM_CMD` (R286, R298, R301, R302): ignored while `PFWARN` is held. -/
def State.nvmCmd (s : State) (x : Nat) : State :=
  if s.pfTaken then s
  else
    let s := if bit x 0 = 1 then s.commitReq 1 else s
    let s := if bit x 1 = 1 then { s with scrubReq := true } else s
    if bit x 2 = 1 then s.copyStart else s

/-- COMMIT_NOW (R286): `NVM_CMD` bit 0. -/
def opCommitNow (s : State) : State := s.nvmCmd 1

/-- SCRUB_NOW (R298): `NVM_CMD` bit 1; the scrub itself is SCRUB_TIMER. -/
def opScrubNow (s : State) : State := s.nvmCmd 2

/-- CRIB_COPY_NOW (R301): `NVM_CMD` bit 2. -/
def opCribCopyNow (s : State) : State := s.nvmCmd 4

/-- CRIB_PAGE_PROGRAM_END (R287): the 4 ms of the page program in progress have passed; the next begins. -/
def opCribPageProgramEnd (s : State) : State :=
  match s.cribQ with
  | p :: q =>
    if s.cribAt + 4 * cyMs ≤ s.clk then
      (s.pageDone p).cribBegin q
    else s
  | [] => s

/-- SCRUB_TIMER (R219, R298): the barn's daily scrub, or one commanded, and once in 24 h field RAM's, with the single-bit
errors `sgl` and the double-bit errors `dbl` that they found. -/
def opScrubTimer (sgl dbl : Scrubbed) (s : State) : State :=
  let s := if s.scrubReq ∨ s.scrubClk + cyDay ≤ s.clk then s.scrub sgl.rows dbl.rows else s
  if s.ramScrub + cyDay ≤ s.clk then
    ({ s with ramScrub := s.clk }.add PLG_ECC_SGL sgl.ram).add PLG_ECC_DBL dbl.ram
  else s

/-- CRIB_COPY_TIMER (R301): CRIBPER minutes have passed since the last copy's start, or since start-up. -/
def opCribCopyTimer (s : State) : State :=
  if s.cribNext ≤ s.clk ∧ s.cribNext ≠ 0 then
    ({ s with cribNext := s.clk + s.rd NVM_CTL_CRIBPER * 60 * cySec } : State).copyStart
  else s

/-- CRIB_COPY_END (R301): every page program of the copy has ended, the trailer's last. -/
def opCribCopyEnd (s : State) : State :=
  let s := s.copyRun
  match s.cribCopy with
  | some k => if k.todo.isEmpty then { s with cribCopy := none } else s
  | none => s

/-- The power-fail commit closes: its flag and its duration from the warning (R289). -/
def State.pfClose (s : State) (c : Commit) : State :=
  let s := (s.commitEnd c).flag NVM_STAT_PFC
  s.wr NVM_CTIME_PF (satU 16 ((s.clk - s.pfClk + 984) * 125 / 6144))

end Sys2Proof.Machine
end

