-- ==== Sys2Proof/Machine/Access.lean ====
section
/-!
DEFINITION. How a transaction ends (R219, R279, R298, R418): the environment's outcome of an access, what it counts, and
whether its data comes.
-/
namespace Sys2Proof.Machine

/-! Outcomes: 0 clean, 1 a single-bit error, 2 a double-bit error, 3 an integrity mismatch, 4 a mismatch made by the
misdeal unit. -/

/-- Mismatches that the misdeal unit has injected in the present second of the microsecond tick (R460, log 173). -/
def State.injected (s : State) : Nat := if s.msdBicSec = usTick s.clk / 1000000 then s.msdBicN else 0

/-- The misdeal unit may corrupt the code of a transaction to address `a`: it does so N times a second (R460). -/
def State.injects (s : State) (a : Nat) : Bool :=
  s.on MSD_STAT_ACT && s.on MSD_BIC_EN && decide (s.rd MSD_BIC_TGT = bicTarget a)
    && decide (s.injected < s.rd MSD_BIC_N)

/-- The misdeal unit corrupts the code of a transaction of originator code `o` to address `a` (R460). -/
def State.inject (s : State) (o a : Nat) : State :=
  let s : State := { s with msdBicN := s.injected + 1, msdBicSec := usTick s.clk / 1000000 }
  (s.inc MSD_BICCNT_V).bicMismatch o a true

/-- A transaction of originator code `o` to address `a` meets outcome `k` of R418: whether it is dropped. -/
def State.mismatch (s : State) (o a k : Nat) : Bool × State :=
  if k = 3 then (true, s.bicMismatch o a false)
  else if k = 4 ∧ s.injects a then (true, s.inject o a)
  else (false, s)

/-- A read of address `a` meets outcome `k` of its memory's ECC (R219, R279, R298, R299): whether it is uncorrectable. -/
def State.eccRead (s : State) (a k : Nat) : Bool × State :=
  let two := decide (k = 2)
  if k ≠ 1 ∧ k ≠ 2 then (false, s)
  else if a < fieldRam then (two, if two then s.inc PLG_ECC_DBL else s.inc PLG_ECC_SGL)
  else if 0x800000 ≤ a ∧ a < 0xC00000 then
    (two, if two then ((s.flag NVM_STAT_DBL).inc NVM_ECC_DBL).rowBad ((a - 0x800000) / 512) 1 else s.inc NVM_ECC_SGL)
  else if 0xC00000 ≤ a ∧ a < 0xC40000 then
    (two, if two then (s.flag NVM_STAT_DBL).inc NVM_ECC_DBL else s.inc NVM_ECC_SGL)
  else (false, s)

/-- An access by originator code `o` at address `a` meets outcome `k`: whether it fails. -/
def State.access (s : State) (o a k : Nat) : Bool × State :=
  let r := s.mismatch o a k
  if r.1 then r else s.eccRead a k

/-- `n` failed attempts of originator code `o` at address `a`, each a mismatch. -/
def State.failTimes (s : State) (o a : Nat) : Nat → State
  | 0 => s
  | n + 1 => (s.bicMismatch o a false).failTimes o a n

/-- The job of the running transform meets outcome `k` at a read of field RAM: one that fails ends it with error 3 (R219,
R418), and the thresher chooses its next work (R182). -/
def State.thrRead (s : State) (k : Nat) : State :=
  match s.thrRun.bind s.runJob with
  | none => s
  | some (j, a) =>
    let q := s.access 7 a k
    if q.1 then (({ q.2 with thrRun := none } : State).jobEnd j 5 3).thrNext else q.2

/-! ### The rows of the table -/

/-- FIXED_FUNCTION_RETRY (R419): `n` attempts fail at address `a`; `k` is 0 the tally's update of field `f`, 1 the snapshot
engine, both in the granary, and 2 the commit engine's word in progress. After the sixteenth the tally's update is not
made, and the commit engine's word is handled as a read-back failure. 3 is a resampler's, silo writer's or wavefront
unit's write of the word at `a` in this cycle, 4 the modem's: one attempt, and the word is dropped. 5 is a read of field
RAM by the thresher, which meets outcome `n`. -/
def opFixedFunctionRetry (k : Fin 6) (f : Fin 16) (a : Word) (n : Fin 17) (s : State) : State :=
  let bin := 0x200000 + a.toNat % 65536
  match k.val with
  | 0 =>
    let s := s.failTimes 9 bin n
    if n.val = 16 then s.setField f { s.fieldOf f with skip := true } else s
  | 1 => s.failTimes 10 bin n
  | 3 => { s.bicMismatch 12 a.toNat false with ffDrop := a.toNat / 4 * 4 :: s.ffDrop }
  | 4 => { s.bicMismatch 13 a.toNat false with ffDrop := a.toNat / 4 * 4 :: s.ffDrop }
  | 5 => s.thrRead n
  | _ =>
    match s.nvC.bind (·.todo.head?) with
    | some w =>
      let s := s.failTimes 11 (barnBase + w.addr) n
      if n.val = 16 then (s.rowBad (w.addr / 512) 0).commitStall else s
    | none => s

/-- TRANSFORM_BOUNDARY (R182): the transform in progress has taken its time and ends, and the next work is chosen. -/
def opTransformBoundary (s : State) : State :=
  match s.thrRun with
  | none => s.thrNext
  | some r => if s.clk < r.endAt then s else ((s.thrFinish r).harmLast).thrNext

end Sys2Proof.Machine
end

