-- ==== Sys2Proof/Machine/Inputs.lean ====
section
/-!
DEFINITION. Channels, slices, rotation, retirement, foreground calibration, gangs and references (R71 to R114).
-/
namespace Sys2Proof.Machine

/-! ### Converter flags -/

/-- Channels that the running calibration covers: all, or one, or both of a ganged pair (R98, R100). -/
def State.inCal (s : State) (c : Nat) : Bool :=
  match s.cal with
  | some k => k.all || k.ch == c || (k.ch / 2 == c / 2 && decide (s.gangMode (c / 2) ≠ 0))
  | none => false

/-- CINV of what channel `c`'s own slices convert, whichever input they convert, PGA settling apart (Table 03-9). -/
def State.cinvOwn (s : State) (c : Nat) : Bool :=
  let h := s.chan1 c
  (h.power != .on) || bit h.cfg 0 == 0 || h.held || s.inCal c
    || (s.on (SLC_CHSTAT_NOSPARE c) && decide (h.hardMask ≠ 0)) || s.on (SLC_CHSTAT_FAIL c)

/-- CINV of a corrected sample of channel `c` now, PGA settling apart (Table 03-9); the INSEL of a ganged odd channel has no
effect (R102). -/
def State.cinv (s : State) (c : Nat) : Bool :=
  s.cinvOwn c || s.oddGanged c || bits (s.chan1 c).cfg 5 4 != 0

/-- CDEG of a corrected sample of channel `c` now (Table 03-9). -/
def State.cdeg (s : State) (c : Nat) : Bool :=
  let h := s.chan1 c
  (h.retiring.isSome && h.retCause == 1) || s.on (SLC_CHSTAT_DEGR c) || s.on ANA_REFSTAT_NOMAJ

/-- CNSP of a corrected sample of channel `c` now (Table 03-9). -/
def State.cnsp (s : State) (c : Nat) : Bool := s.on (SLC_CHSTAT_NOSPARE c)

/-- The converter flags of channel `c` now, as `Chan.flg` keeps them. -/
def State.flagsNow (s : State) (c : Nat) : Nat :=
  b2n (s.cinv c) + 2 * b2n (s.cdeg c) + 4 * b2n (s.cnsp c) + 8 * b2n (s.cinvOwn c)

/-- The entries of a history, newest first, that a sample of the last 3 ms can still ask for. -/
def recent (c : Nat) : List (Nat × Nat) → List (Nat × Nat)
  | [] => []
  | p :: ps => if p.1 + 3 * cyMs ≤ c then [p] else p :: recent c ps

/-- Channel `c`'s flags are kept if they have changed in this cycle. -/
def State.flagNote (s : State) (c : Nat) : State :=
  let h := s.chan1 c
  match h.flg with
  | [] => s
  | p :: _ => if p.2 = s.flagsNow c then s else s.setChan c { h with flg := recent s.clk ((s.clk, s.flagsNow c) :: h.flg) }

/-- At the end of a cycle, the flags of every channel that samples. -/
def State.flagsKeep (s : State) : State := (s.chan.map (·.1)).foldl State.flagNote s

/-- The OR of the values that a history (newest first, each with the cycle from which it held) had in the cycles after `a`
up to `b`; `e` is the first cycle in which its newest entry no longer counts. -/
def orIn (a b : Nat) : Option Nat → List (Nat × Nat) → Nat
  | _, [] => 0
  | e, p :: ps => (if p.1 ≤ b ∧ e.all (a + 1 < ·) then p.2 else 0) ||| orIn a b (some p.1) ps

/-- The converter flags that samples of channel `c` taken after cycle `a` up to cycle `b` carry, ORed: bit 0 CINV, 1 CDEG,
2 CNSP, 3 CINV of the channel's own slices (Table 03-9). -/
def Chan.flagsIn (h : Chan) (a b : Nat) : Nat :=
  orIn a b none h.flg ||| b2n (h.pga.any fun p => decide (p.1 ≤ b) && decide (a + 1 < p.2))

/-- The value that a history had in cycle `c`; `d` before its first entry. -/
def valueAt (c d : Nat) : List (Nat × Nat) → Nat
  | [] => d
  | p :: ps => if p.1 ≤ c then p.2 else valueAt c d ps

/-! ### Configuration -/

/-- The steps in which the fallow slice of channel `c` stands after a calibration: Reference, or none (R93, R99); a
retirement shadow begins again: DESIGN CHOICE (log 128). -/
def State.calStep (s : State) (c : Nat) : State :=
  let st := if (s.chan1 c).retiring.isSome then 5 else if s.on (SLC_CHSTAT_NOSPARE c) then 7 else 0
  let s := (s.wr (SLC_CHSTAT_STEP c) st)
  s.setChan c { s.chan1 c with stepClk := s.clk, shadowClk := s.clk, ext := 0, slotMin := s.clk + 60 * cyMs }

/-- A foreground calibration begins (R98, R99). -/
def State.calBegin (s : State) (k : Cal) : State :=
  let s := { s with cal := some k }
  let s := s.wr ANA_STAT_BUSY 1
  (List.range 48).foldl (fun s c =>
    if s.inCal c then
      let s := s.wr (SLC_CHSTAT_STEP c) 6
      s.setChan c { s.chan1 c with held := false, ext := 0, rotNow := false }
    else s) s

/-- The next enable calibration that waits begins (R75): the one that has waited longest. The manual gives several no order.
DESIGN CHOICE (log 129). -/
def State.calNext (s : State) : State :=
  match s.calWait with
  | [] => s
  | c :: q => ({ s with calWait := q }).calBegin { all := false, ch := c, start := s.clk, enable := true }

/-- The running calibration ends: its channels leave step 110b, BUSY clears, DONE is set, and the next that waits begins
(R75, R98, R99). -/
def State.calEnd (s : State) : State :=
  let s := (List.range 48).foldl (fun s c => if s.inCal c then s.calStep c else s) s
  let s := { s with cal := none }
  ((s.wr ANA_STAT_BUSY 0).flag ANA_STAT_DONE).calNext

/-- The channel's gain codes once the configuration `new` is taken in cycle `c`. -/
def Chan.gainTo (h : Chan) (c new : Nat) : List (Nat × Nat) :=
  if bits h.cfg 3 1 = bits new 3 1 then h.gains
  else recent c ((c, bits new 3 1) :: if h.gains.isEmpty then [(0, bits h.cfg 3 1)] else h.gains)

/-- A write to `ANA_CHCFGc` (R72, R75, R76): an invalid GAIN is discarded whole with CFGERR; a cleared EN cancels a
power-up or a waiting enable calibration, and ends a running one with DONE; the rest waits for the next frame boundary. -/
def State.chcfgWrite (s : State) (c : Nat) (w : Word) : State :=
  if 6 ≤ bits w.toNat 3 1 then s.flag ANA_STAT_CFGERR
  else
    let was := s.rd (ANA_CHCFG_EN c)
    let s := (s.wrW (ANA_CHCFG c) (w &&& 0xFF#32)).revMark (ANA_CHCFG c) (s.rdW (ANA_CHCFG c))
    let h := s.chan1 c
    if was = 0 ∧ bit w.toNat 0 = 1 then
      s.setChan c { h with
        power := .up, upAt := s.clk + 24576, cfg := w.toNat % 256, gains := h.gainTo s.clk w.toNat }
    else if was = 1 ∧ bit w.toNat 0 = 0 then
      let stop := ({ s with calWait := s.calWait.filter (· ≠ c) } : State).setChan c { h with power := .off }
      if s.cal.any fun k => k.enable && k.ch == c then stop.calEnd
      else if h.power = .on then s else stop
    else s

/-- The shadow of channel `c` starts again in cycle `t` (Table 03-8). -/
def State.shadowAgain (s : State) (c t : Nat) : State :=
  if s.rd (SLC_CHSTAT_STEP c) = 2 ∨ s.rd (SLC_CHSTAT_STEP c) = 3 then s.setChan c { s.chan1 c with shadowClk := t } else s

/-- An event other than a run of CINV that settles the taps of channel `c` (Table 04-4): it counts from the first sample
after it, which enters stage S1 one slice correction later. -/
def State.reassign (s : State) (c : Nat) : State := s.setChan c { s.chan1 c with setAt := s.clk + 1080 }

/-- The configuration of channel `c` takes effect at a frame boundary (R74 to R77, Table 03-8): four frames of CINV
after a change of gain or input, settling after a change of the integrator, a shadow starts again, and a channel
switched off powers down. A ganged odd channel's GAIN, INSEL and ROGO have no effect, and the even channel's input is that of
both (R102). -/
def State.chcfgTake (s : State) (c : Nat) : State :=
  let new := (s.rdW (ANA_CHCFG c)).toNat % 256
  let h := s.chan1 c
  let h1 := { h with cfg := new, power := if bit new 0 = 0 then .off else h.power }
  let pga := decide (bits h.cfg 5 1 ≠ bits new 5 1)
  let t := s.clk + 4 * cyFrame
  let s := s.setChan c { h1 with gains := h.gainTo s.clk new }
  if s.oddGanged c then s
  else
    let s := if pga then
        let s := (s.setChan c { s.chan1 c with pga := ((s.clk, t) :: h.pga).take 8 }).shadowAgain c t
        if s.oddGanged (c + 1) then s.shadowAgain (c + 1) t else s
      else s
    if bits h.cfg 7 6 ≠ bits new 7 6 then s.reassign c else s

/-! ### Coefficients and excursions -/

/-- Coefficients held to the correction range (R90). -/
def clampCoefs (x : Coefs) : Coefs :=
  { ofs := satS 24 x.ofs, gain := satS 24 x.gain, skew := clampI (-2000) 2000 x.skew }

/-- Coefficients `x` loaded into slice `sl` of channel `c` (R88). -/
def State.putCoefs (s : State) (c sl : Nat) (x : Coefs) : State :=
  let y := clampCoefs x
  let n := 5 * c + sl
  ((s.wrS (SLC_OFS_OFS n) y.ofs).wrS (SLC_GAIN_GAIN n) y.gain).wrS (SLC_SKEW_SKEW n) y.skew

/-- Which coefficients exceed `pct` percent of the tolerance window (R89): bit 0 offset, 1 gain, 2 skew. -/
def State.outOf (s : State) (x : Coefs) (pct : Nat) : Nat :=
  b2n (decide (pct * s.rd SLC_TOL_OFS * 2 ^ 29 < x.ofs.natAbs * 1000000))
  + 2 * b2n (decide (pct * s.rd SLC_TOL_GAIN * 2 ^ 28 < x.gain.natAbs * 1000000))
  + 4 * b2n (decide (pct * s.rd SLC_TOL_SKEW * 10 < x.skew.natAbs * 100))

/-- Which coefficients would go beyond the correction range (R90). -/
def hardOf (x : Coefs) : Nat :=
  b2n (decide (satS 24 x.ofs ≠ x.ofs)) + 2 * b2n (decide (satS 24 x.gain ≠ x.gain))
  + 4 * b2n (decide (clampI (-2000) 2000 x.skew ≠ x.skew))

/-- The excursions of slice `sl` in the last 24 h, 0 to 3, their times held on the microsecond tick (R89). -/
def excCount (now sl : Nat) (exc : List (Nat × Nat)) : Nat :=
  let n := (exc.filter (fun e => e.1 = sl ∧ usTick now < usTick e.2 + 86400000000)).length
  if 3 < n then 3 else n

/-- EXC of `SLC_CHSTATc` as it reads now (R89). -/
def State.excNow (s : State) (c : Nat) : Nat :=
  (List.range 5).foldl (fun m sl => m + excCount s.clk sl (s.chan1 c).exc * 8 ^ sl) 0

/-- `n` excursions of slice `sl` of channel `c` now (R89, R90); the last three of each slice are what EXC can show. -/
def State.excursions (s : State) (c sl n : Nat) : State :=
  let h := s.chan1 c
  let own := (List.replicate n (sl, s.clk) ++ h.exc.filter fun e => e.1 = sl).take 3
  let s := s.setChan c { h with exc := own ++ h.exc.filter fun e => e.1 ≠ sl }
  { s with
    lifeExc := Sparse.set (fun _ => 0) (5 * c + sl) (Sparse.get (fun _ => 0) (5 * c + sl) s.lifeExc + n) s.lifeExc }

/-- Three bits of a per-slice mask. -/
def put3 (mask sl v : Nat) : Nat := mask - (mask / 2 ^ (3 * sl) % 8) * 2 ^ (3 * sl) + (v % 8) * 2 ^ (3 * sl)

/-- Three bits of a per-slice mask, read. -/
def get3 (mask sl : Nat) : Nat := mask / 2 ^ (3 * sl) % 8

/-- The coefficients of slice `sl` of channel `c` in use (R88). -/
def State.coefs (s : State) (c sl : Nat) : Coefs :=
  let n := 5 * c + sl
  { ofs := s.rdS (SLC_OFS_OFS n), gain := s.rdS (SLC_GAIN_GAIN n), skew := s.rdS (SLC_SKEW_SKEW n) }

/-- A coefficient of a slice of channel `c` that is not retired lies outside its tolerance window. -/
def State.outside (s : State) (c : Nat) : Bool :=
  (List.range 5).any fun sl => decide (sl ≠ s.rd (SLC_CHSTAT_RET c)) && decide (s.outOf (s.coefs c sl) 100 ≠ 0)

/-- Slice `sl` of channel `c` takes the coefficients `x`, from whichever estimator: departures count, and are armed again
within 90 % of the window (R89); hard limits are held and count three (R90); a channel with no spare degrades, until all its
coefficients are back (R96). -/
def State.coefLoad (s : State) (c sl : Nat) (x : Coefs) : State :=
  let out := s.outOf x 100
  let hard := hardOf x
  let s := s.putCoefs c sl x
  let h := s.chan1 c
  let newOut := out &&& (7 ^^^ get3 h.outMask sl)
  let newHard := hard &&& (7 ^^^ get3 h.hardMask sl)
  let hm := put3 h.hardMask sl hard
  let s := s.setChan c { h with
    outMask := put3 h.outMask sl (out ||| (get3 h.outMask sl &&& s.outOf x 90)), hardMask := hm
    coefClk := Sparse.set (fun _ => 0) sl s.clk h.coefClk }
  let s := if newHard ≠ 0 then ((s.wr (SLC_CHSTAT_LIMIT c) 1).flag SLC_STAT_LIMIT).excursions c sl 3
    else if newOut ≠ 0 then s.excursions c sl (popCount 3 newOut) else s
  if s.on (SLC_CHSTAT_NOSPARE c) then
    if out ≠ 0 then s.wr (SLC_CHSTAT_DEGR c) 1
    else if (s.chan1 c).outMask = 0 then s.wr (SLC_CHSTAT_DEGR c) 0 else s
  else if hm = 0 then s.wr (SLC_CHSTAT_LIMIT c) 0 else s

/-- Slice `sl` of channel `c` is active: it holds a phase (R80). -/
def State.active_ (s : State) (c sl : Nat) : Bool :=
  decide (s.rd (SLC_PHMAP_PH0 c) = sl) || decide (s.rd (SLC_PHMAP_PH1 c) = sl) || decide (s.rd (SLC_PHMAP_PH2 c) = sl)
    || decide (s.rd (SLC_PHMAP_PH3 c) = sl)

/-- The blind estimator moves the coefficients of an active slice towards `x`, by at most 0.01 ppm of full scale, 0.01 ppm and
0.1 ps for each second since they were last set (R87). -/
def State.blindMove (s : State) (c sl : Nat) (x : Coefs) : State :=
  let e := s.clk - Sparse.get (fun _ => 0) sl (s.chan1 c).coefClk
  let y := s.coefs c sl
  let go (old new : Int) (m : Nat) : Int := old + clampI (-(m : Int)) m (new - old)
  if s.active_ c sl then
    s.coefLoad c sl {
      ofs := go y.ofs x.ofs (e * 2 ^ 29 / (100000000 * cySec))
      gain := go y.gain x.gain (e * 2 ^ 28 / (100000000 * cySec))
      skew := go y.skew x.skew (e / (10 * cySec)) }
  else s

/-- The residuals meet Table 03-7: offset 2^-21 (256 steps of 2^-29), gain 1 ppm (268 steps of 2^-28), skew 2 ps. -/
def resMet (r : Residual) : Bool :=
  decide (r.ofs.natAbs ≤ 256) && decide (r.gain.natAbs ≤ 268) && (r.flat || decide (r.skew.natAbs ≤ 2))

/-- The shadow's coefficients in the incoming slice (R84); on a flat input it keeps its skew (Table 03-7). -/
def State.putShadow (s : State) (c sl : Nat) (r : Residual) (x : Coefs) : State :=
  s.coefLoad c sl { x with skew := if r.flat then s.rdS (SLC_SKEW_SKEW (5 * c + sl)) else x.skew }

/-! ### Rotation -/

/-- Enter a step of Table 03-6 now. -/
def State.stepTo (s : State) (c step : Nat) : State :=
  (s.wr (SLC_CHSTAT_STEP c) step).setChan c { s.chan1 c with stepClk := s.clk, shadowClk := s.clk, ext := 0 }

/-- STEP as it reads: the handover's one frame reads 100b, and then the Reference step (R83). -/
def State.stepNow (s : State) (c : Nat) : Nat :=
  let st := s.rd (SLC_CHSTAT_STEP c)
  if st = 4 ∧ (s.chan1 c).stepClk + cyFrame ≤ s.clk then 0 else st

/-- The fabric cycle of the microsecond tick nearest to cycle `c` (R82). -/
def usNear (c : Nat) : Nat := cyUs ((50 * c + 12288) / 24576)

/-- The cycle of slot `k` of channel `c` at period code `p`, the timer started at `t0` (R82): kT + cT/48. -/
def slotTime (t0 c p k : Nat) : Nat := usNear (t0 + (48 * k + c) * 5120000 * 2 ^ p)

/-- The number of the last slot of channel `c` at period code `p` up to cycle `t`; 0 before its first. -/
def slotNum (t0 c p t : Nat) : Nat :=
  let k := (t + 246 - t0 - c * 5120000 * 2 ^ p) / (48 * 5120000 * 2 ^ p)
  if slotTime t0 c p k ≤ t then k else k - 1

/-- The period code in force for a channel's slots in cycle `t` (Table 03-25). -/
def Chan.perAt (h : Chan) (t : Nat) : Nat :=
  match h.perNext with
  | some (u, q) => if u ≤ t then q else h.per
  | none => h.per

/-- The cycle of channel `c`'s last slot, if it has had one since the rotation timer started (R82). -/
def State.lastSlot (s : State) (c : Nat) : Option Nat :=
  let h := s.chan1 c
  match s.rotT0 with
  | some t0 =>
    let k := slotNum t0 c (h.perAt s.clk) s.clk
    let u := if k = 0 then 0 else slotTime t0 c (h.perAt s.clk) k
    let u := match h.perNext with
      | some (v, _) => if v ≤ s.clk ∧ u < v then v else u
      | none => u
    if u = 0 then none else some u
  | none => none

/-- The cycle of channel `c`'s first slot after cycle `t` (R82); a change of ROTPER takes effect at the slot that follows it
(Table 03-25). -/
def State.slotAfter (s : State) (c t0 t : Nat) : Nat :=
  let h := s.chan1 c
  let u := slotTime t0 c (h.perAt t) (slotNum t0 c (h.perAt t) t + 1)
  match h.perNext with
  | some (v, _) => if t < v then v else u
  | none => u

/-- Cycles to the channel's next slot that it may use (R82, Table 03-8). -/
def State.toSlot (s : State) (c : Nat) : Option Nat :=
  s.rotT0.map fun t0 => s.slotAfter c t0 (max s.clk ((s.chan1 c).slotMin - 1)) - s.clk

/-- The rotation timer starts (R82). -/
def State.rotStart (s : State) : State :=
  let s := { s with rotT0 := some s.clk }
  (List.range 48).foldl (fun s c => s.setChan c { s.chan1 c with per := s.rd SLC_CTL_ROTPER, perNext := none }) s

/-- A change of ROTPER waits for each channel's next slot (Table 03-25). -/
def State.rotChange (s : State) (q : Nat) : State :=
  match s.rotT0 with
  | some t0 => (List.range 48).foldl (fun s c =>
      s.setChan c { s.chan1 c with per := (s.chan1 c).perAt s.clk, perNext := some (s.slotAfter c t0 s.clk, q) }) s
  | none => s

/-- The phase map of channel `c` changes in this cycle. -/
def State.phaseMark (s : State) (c : Nat) : State :=
  s.setChan c { s.chan1 c with phAt := (s.clk, (s.rdW (SLC_PHMAP c)).toNat) }

/-- The handover of R84: the fallow slice takes phase 0, the others move up one, the slice at phase 3 becomes
fallow. -/
def State.handover (s : State) (c : Nat) (r : Residual) (x : Coefs) : State :=
  let f := s.rd (SLC_CHSTAT_FAL c)
  let s := s.putShadow c f r x
  let p0 := s.rd (SLC_PHMAP_PH0 c)
  let p1 := s.rd (SLC_PHMAP_PH1 c)
  let p2 := s.rd (SLC_PHMAP_PH2 c)
  let p3 := s.rd (SLC_PHMAP_PH3 c)
  let s := s.phaseMark c
  let s := (((s.wr (SLC_PHMAP_PH0 c) f).wr (SLC_PHMAP_PH1 c) p0).wr (SLC_PHMAP_PH2 c) p1).wr (SLC_PHMAP_PH3 c) p2
  let s := (s.wr (SLC_CHSTAT_FAL c) p3).stepTo c 4
  s.setChan c { s.chan1 c with rotNow := false }

/-! ### Retirement -/

/-- `SLC_NOSPAREL` or `SLC_NOSPAREH` bit of channel `c`. -/
def nospareBit (c : Nat) : Fld := if c < 32 then bitFld SLC_NOSPAREL c else bitFld SLC_NOSPAREH (c - 32)

/-- The effects of R93 once slice `sl` is retired for `cause`; the map goes to the barn at the next commit (R94). A coefficient
of another slice outside its window degrades the channel from now on (R96). -/
def State.retired (s : State) (c sl cause : Nat) : State :=
  let s := ((s.wr (SLC_CHSTAT_RET c) sl).wr (SLC_CHSTAT_FAL c) 7).wr (SLC_CHSTAT_STEP c) 7
  let s := (s.wr (SLC_CHSTAT_NOSPARE c) 1).wr (nospareBit c) 1
  let s := (s.flag SLC_STAT_RETIRE).inc SLC_RETCNT_COUNT
  let h := s.chan1 c
  let hard := put3 h.hardMask sl 0
  let s := s.setChan c { h with
    retiring := none, rotNow := false, ext := 0, hardMask := hard, outMask := put3 h.outMask sl 0 }
  let s := s.wr (SLC_CHSTAT_LIMIT c) (b2n (decide (hard ≠ 0)))
  let s := s.wr (SLC_CHSTAT_DEGR c) (b2n (s.outside c))
  let s := { s with mapDirty := true }
  s.logEv 0x0001 c sl cause

/-- The fallow slice takes the phase of slice `sl`; no other phase changes (R92, R95). -/
def State.takePhase (s : State) (c sl : Nat) : State :=
  let f := s.rd (SLC_CHSTAT_FAL c)
  let sub (g : Fld) (s : State) : State := if s.rd g = sl then s.wr g f else s
  let s := s.phaseMark c
  sub (SLC_PHMAP_PH0 c) (sub (SLC_PHMAP_PH1 c) (sub (SLC_PHMAP_PH2 c) (sub (SLC_PHMAP_PH3 c) s)))

/-- A retirement begins (R92): of the fallow slice at once, of an active slice by a retirement shadow. One that runs goes on,
and a second asked for meanwhile does not begin: the manual does not say. DESIGN CHOICE (log 127). -/
def State.retireBegin (s : State) (c sl cause : Nat) : State :=
  if s.rd (SLC_CHSTAT_FAL c) = sl then s.retired c sl cause
  else if (s.chan1 c).retiring.isSome then s
  else
    let s := s.stepTo c 5
    s.setChan c { s.chan1 c with retiring := some sl, retCause := cause, rotNow := false }

/-! ### Foreground calibration -/

/-- A channel's bit in `ANA_CALFAILL` or `ANA_CALFAILH`. -/
def calfailBit (c : Nat) : Fld := if c < 32 then bitFld ANA_CALFAILL c else bitFld ANA_CALFAILH (c - 32)

/-- The PGA corrections a calibration found: of all six gains, or of the gain in use alone (Table 03-10). -/
def State.putPga (s : State) (c : Nat) (all : Bool) (pga : List Int) : State :=
  let g := bits (s.chan1 c).cfg 3 1
  if all then (pga.zipIdx.take 6).foldl (fun s p => s.wrS (ANA_PGACOR_COR (6 * c + p.2)) p.1) s
  else match if pga.length = 6 then pga[g]? else pga.head? with
    | some x => s.wrS (ANA_PGACOR_COR (6 * c + g)) x
    | none => s

/-- The end of a calibration in one channel (R101): coefficients load; one failing slice is retired; two or more fail
the channel. In a channel with no spare no slice is retired, and LIMIT stays until a one-channel calibration brings every
coefficient back within its window (R96). -/
def State.calChannel (s : State) (all : Bool) (o : CalOut) : State :=
  let c := o.ch.val
  let ret := s.rd (SLC_CHSTAT_RET c)
  let limit := s.on (SLC_CHSTAT_LIMIT c)
  let pairs := (o.co.zipIdx.take 5).filter (fun p => p.2 ≠ ret)
  let bad := pairs.filter (fun p => s.outOf p.1 100 ≠ 0 || hardOf p.1 ≠ 0)
  let s := pairs.foldl (fun s p => s.coefLoad c p.2 p.1) s
  let s := s.putPga c all o.pga
  let spare := !s.on (SLC_CHSTAT_NOSPARE c)
  let hard := decide ((s.chan1 c).hardMask ≠ 0)
  let s := s.wr (SLC_CHSTAT_LIMIT c) (b2n (if spare then hard else hard || (limit && (all || !bad.isEmpty))))
  let s := s.wr (SLC_CHSTAT_DEGR c) (b2n (!spare && s.outside c))
  let s := (s.wr (SLC_CHSTAT_FAIL c) 0).wr (calfailBit c) 0
  match bad with
  | [] => s
  | [p] => if spare then (s.takePhase c p.2).retired c p.2 3 else s
  | _ => ((s.wr (SLC_CHSTAT_FAIL c) 1).wr (calfailBit c) 1).flag ANA_STAT_CALFAIL

/-- A write to `ANA_CMD` (R98, R100, R111). A CAL is carried out beside a REFCHK that is refused, and a REFCHK while a
measurement runs starts it anew: the manual says neither. DESIGN CHOICE (log 130, log 131). -/
def State.anaCmd (s : State) (w : Word) : State :=
  let x := w.toNat
  let one := decide (bit x 30 = 1)
  let c := bits x 5 0
  let s := if bit x 31 = 1 then
      if s.cal.isSome || (one && (decide (47 < c) || !s.on (ANA_CHCFG_EN c))) then s.flag ANA_STAT_CMDERR
      else s.calBegin { all := !one, ch := c, start := s.clk, enable := false }
    else s
  if bit x 29 = 1 then
    if s.on ANA_REFCTL_EXTEN then { s with refs := { s.refs with chk := some s.clk } } else s.flag ANA_STAT_CMDERR
  else s

/-! ### Gangs -/

/-- How many pairs `ANA_GANGk` gangs. -/
def State.gangCount (s : State) : Nat := ((List.range 24).filter (fun k => s.on (ANA_GANG_MODE k))).length

/-- A gang mode that R102 and R104 accept for pair `k`. -/
def State.gangOk (s : State) (k mode : Nat) : Bool :=
  decide (mode ≠ 3) &&
    (decide (mode = 0) ||
      (s.on (ANA_CHCFG_EN (2 * k)) && s.on (ANA_CHCFG_EN (2 * k + 1)) &&
        (s.on (ANA_GANG_MODE k) || decide (s.gangCount < 12))))

/-- `ANA_GANGk` holds `m`. -/
def State.gangPut (s : State) (k m : Nat) : State :=
  (s.wr (ANA_GANG_MODE k) m).revMark (ANA_GANG k) (s.rdW (ANA_GANG k))

/-- A write to `ANA_GANGk` (R102, R104): stored for the next frame boundary, or discarded with CFGERR. -/
def State.gangWrite (s : State) (k : Nat) (w : Word) : State :=
  if s.gangOk k (w.toNat % 4) then s.gangPut k (w.toNat % 4) else s.flag ANA_STAT_CFGERR

/-! ### References -/

/-- A ratio written to `ANA_REFDxx`, saturating at ±327.67 ppm (Table 03-20). -/
def ratioWord (d : Int) : Word := BitVec.ofNat 32 (2 ^ 31 + tc 16 (clampI (-32767) 32767 d))

/-- Reference C is powered up (R108, R110). -/
def State.refCUp (s : State) : State :=
  if s.on ANA_REFSTAT_CON then s
  else { s.wr ANA_REFSTAT_CON 1 with refs := { s.refs with cUp := s.clk } }

/-- Reference C is in service on a half. -/
def State.refCIn (s : State) : Bool := decide (s.rd ANA_REFSTAT_LO = 2) || decide (s.rd ANA_REFSTAT_HI = 2)

/-- The host retires A (0) or B (1) through a deal (R110). Of two requests before the first swap the later one counts, B's
where one write makes both: the manual does not say. DESIGN CHOICE (log 126). -/
def State.refRetire (s : State) (r : Nat) : State :=
  if s.refCIn then s.flag ANA_STAT_CFGERR
  else
    let s := s.refCUp
    { s with refs := { s.refs with retReq := some r } }

/-- Three consecutive averages in disagreement (R107, R108): `YLD_REFDIS` is raised; C is powered up to arbitrate, or
no arbiter remains. -/
def State.disagree (s : State) (d : Int) : State :=
  let s := (s.wr YLD_REFDIS_DIS 1).wrS YLD_REFDIS_D (clampI (-32767) 32767 d)
  let s := s.wr ANA_REFSTAT_DIS 1
  if s.refCIn then { s.wr ANA_REFSTAT_NOMAJ 1 with refs := { s.refs with agree := 0 } }
  else
    let s := s.refCUp
    { s with refs := { s.refs with run := true, cUp := s.clk } }

/-! ### The rows of the table -/

/-- CHANNEL_CFG_TAKE_EFFECT (R76): the next frame boundary. -/
def opChannelCfgTakeEffect (c : Fin 48) (s : State) : State := s.chcfgTake c

/-- CHANNEL_POWERUP_DONE (R75): the 50 µs end; the enable calibration starts, or waits for a running one. -/
def opChannelPowerupDone (c : Fin 48) (s : State) : State :=
  let h := s.chan1 c
  if h.power = .up ∧ h.upAt ≤ s.clk then
    let s := s.setChan c { h with power := .wait }
    let s := { s with calWait := s.calWait ++ [c.val] }
    if s.cal.isSome then s else s.calNext
  else s

/-- HANDOVER_SLOT (R82, R84, R85): at a slot since the Shadow step began, or without one after a rotate-now command
(Table 03-8), the handover is made if the residuals meet the limits and the shadow has lasted 50 ms; otherwise the shadow is
extended. -/
def opHandoverSlot (c : Fin 48) (res : Residual) (co : Coefs) (s : State) : State :=
  let h := s.chan1 c
  let whole := decide (h.shadowClk + 50 * cyMs ≤ s.clk)
  let slot := (s.lastSlot c).any fun u => decide (h.stepClk ≤ u) && decide (h.slotMin ≤ u)
  if s.on SLC_CTL_ROTEN && decide (s.rd (SLC_CHSTAT_STEP c) = 2) && !s.inCal c && (if h.rotNow then whole else slot) then
    if resMet res && whole then s.handover c res co
    else (s.wr (SLC_CHSTAT_STEP c) 3).setChan c { s.chan1 c with stepClk := s.clk, ext := 1 }
  else s

/-- FALLOW_STEP_CHANGE (R83, R87): Reference to Reconnect 60 ms before the slot, with the offset and gain measured, and
Reconnect to Shadow 10 ms later. -/
def opFallowStepChange (c : Fin 48) (co : Coefs) (s : State) : State :=
  let h := s.chan1 c
  let st := s.stepNow c
  let f := s.rd (SLC_CHSTAT_FAL c)
  if s.on SLC_CTL_ROTEN && !s.on (SLC_CHSTAT_NOSPARE c) && !s.inCal c then
    if st = 0 ∧ (s.toSlot c).any (fun d => d ≤ 60 * cyMs) then
      (s.coefLoad c f { co with skew := (s.coefs c f).skew }).stepTo c 1
    else if st = 1 ∧ h.stepClk + 10 * cyMs ≤ s.clk then
      let was := h.rotNow
      (s.stepTo c 2).setChan c { (s.stepTo c 2).chan1 c with rotNow := was }
    else s
  else s

/-- SHADOW_EXTENSION (R85): a 50 ms extension ends: handover, another extension, or after the tenth the handover is
abandoned with DEFER and one excursion. -/
def opShadowExtension (c : Fin 48) (res : Residual) (co : Coefs) (s : State) : State :=
  let h := s.chan1 c
  if s.rd (SLC_CHSTAT_STEP c) = 3 ∧ h.stepClk + 50 * cyMs ≤ s.clk then
    if resMet res && decide (h.shadowClk + 50 * cyMs ≤ s.clk) then s.handover c res co
    else if h.ext < 10 then s.setChan c { h with ext := h.ext + 1, stepClk := s.clk }
    else
      let s := (s.stepTo c 0).flag SLC_STAT_DEFER
      let s := s.setChan c { s.chan1 c with rotNow := false }
      s.excursions c (s.rd (SLC_CHSTAT_FAL c)) 1
  else s

/-- COEFFICIENT_EXCURSION (R87, R89, R90, R96): the blind estimator moves a coefficient out of its window. -/
def opCoefficientExcursion (c : Fin 48) (sl : Fin 5) (co : Coefs) (s : State) : State := s.blindMove c sl co

/-- COEFFICIENT_RETURN (R87, R89, R96): the blind estimator moves a coefficient back. -/
def opCoefficientReturn (c : Fin 48) (sl : Fin 5) (co : Coefs) (s : State) : State := s.blindMove c sl co

/-- SLICE_RETIREMENT (R91, R92): a slice with three excursions in 24 h or at a hard limit is retired; none of a failed channel
is (R101). -/
def opSliceRetirement (c : Fin 48) (sl : Fin 5) (s : State) : State :=
  let h := s.chan1 c
  if !s.on (SLC_CHSTAT_NOSPARE c) && !s.on (SLC_CHSTAT_FAIL c) && h.retiring.isNone && !s.inCal c then
    if get3 h.hardMask sl ≠ 0 then s.retireBegin c sl 1
    else if 3 ≤ excCount s.clk sl h.exc then s.retireBegin c sl 0 else s
  else s

/-- RETIREMENT_HANDOVER (R92, R93): after the shadow, with its extensions, the fallow slice takes the retiring slice's
phase. -/
def opRetirementHandover (c : Fin 48) (res : Residual) (co : Coefs) (s : State) : State :=
  let h := s.chan1 c
  match h.retiring with
  | some sl =>
    if !s.inCal c && decide (h.stepClk + 4916 + 50 * cyMs * (1 + h.ext) ≤ s.clk) then
      if resMet res ∨ 10 ≤ h.ext then
        let s := s.putShadow c (s.rd (SLC_CHSTAT_FAL c)) res co
        ((s.takePhase c sl).retired c sl h.retCause).swapIn
      else s.setChan c { h with ext := h.ext + 1 }
    else s
  | none => s

/-- A write to `SLC_CMD` (Table 03-27): rotate now, retire, or refused with CMDERR. Rotate now ends the Reference step; in
Reconnect and Shadow it does away with the slot (Table 03-8). -/
def State.slcCmd (s : State) (op c sl : Nat) : State :=
  let bad := s.flag SLC_STAT_CMDERR
  if 47 < c ∨ 4 < sl then bad
  else match op with
    | 1 =>
      if s.on (SLC_CHSTAT_NOSPARE c) || !s.on SLC_CTL_ROTEN then bad
      else if s.stepNow c = 0 ∨ s.stepNow c = 4 then
        (s.stepTo c 2).setChan c { (s.stepTo c 2).chan1 c with rotNow := true }
      else if s.stepNow c = 1 ∨ s.stepNow c = 2 then s.setChan c { s.chan1 c with rotNow := true }
      else s
    | 2 =>
      if s.on (SLC_CHSTAT_NOSPARE c) || decide (s.rd (SLC_CHSTAT_RET c) = sl) then bad else s.retireBegin c sl 2
    | _ => bad

/-- SLC_ROTATE_NOW (Table 03-8, Table 03-27). -/
def opSlcRotateNow (c : Fin 64) (s : State) : State := s.slcCmd 1 c 0

/-- SLC_RETIRE (R91, Table 03-27). -/
def opSlcRetire (c : Fin 64) (sl : Fin 8) (s : State) : State := s.slcCmd 2 c sl

/-- A write to `SLC_CTL` (Table 03-25, Table 03-8): a reserved ROTPER is discarded with CMDERR; ROTEN = 0 ends running
shadows without an excursion. -/
def State.slcCtlWrite (s : State) (w : Word) : State :=
  if 6 ≤ bits w.toNat 3 1 then s.flag SLC_STAT_CMDERR
  else
    let s := if bits w.toNat 3 1 = s.rd SLC_CTL_ROTPER then s else s.rotChange (bits w.toNat 3 1)
    let s := s.wrW SLC_CTL (w &&& 0xF#32)
    if bit w.toNat 0 = 1 then s
    else (List.range 48).foldl (fun s c =>
      let st := s.rd (SLC_CHSTAT_STEP c)
      if 1 ≤ st ∧ st ≤ 3 then (s.stepTo c 0).setChan c { (s.stepTo c 0).chan1 c with rotNow := false } else s) s

/-- A write to `SLC_TOL`: fields beyond the correction range are held at the range (R90): 1.56 % offset, 2000 ps. -/
def State.slcTolWrite (s : State) (w : Word) : State :=
  let x := w.toNat
  let o := if 156 < bits x 7 0 then 156 else bits x 7 0
  let k := if 200 < bits x 23 16 then 200 else bits x 23 16
  s.wrW SLC_TOL (BitVec.ofNat 32 (k * 65536 + bits x 15 8 * 256 + o))

/-- CALIBRATION_START (R98, R100). -/
def opCalibrationStart (one : Bool) (c : Fin 64) (s : State) : State :=
  s.anaCmd (BitVec.ofNat 32 (2 ^ 31 + b2n one * 2 ^ 30 + c))

/-- CALIBRATION_END (R98, R99, R101): after 180 ms or 12 ms, with what each calibrated channel's measurement found; the
rotation timer starts at the end of one of all channels (R82). -/
def opCalibrationEnd (out : List CalOut) (s : State) : State :=
  match s.cal with
  | some k =>
    if k.start + (if k.all then 180 else 12) * cyMs ≤ s.clk then
      let s := out.foldl (fun s o => if s.inCal o.ch then s.calChannel k.all o else s) s
      let s := if k.enable then s.setChan k.ch { s.chan1 k.ch with power := .on } else s
      (if k.all then s.rotStart else s).calEnd
    else s
  | none => s

/-- REFERENCE_CHECK (R111): a write of `ANA_CMD.REFCHK` = 1. -/
def opReferenceCheck (s : State) : State := s.anaCmd 0x20000000#32

/-- REFERENCE_CHECK_DONE (R111): the 1 s measurement ends. -/
def opReferenceCheckDone (d : Int) (s : State) : State :=
  match s.refs.chk with
  | some t =>
    if t + cySec ≤ s.clk then { s.wrW ANA_REFDXA (ratioWord d) with refs := { s.refs with chk := none } } else s
  | none => s

/-- GANG_MODE_CHANGE (R105, Table 03-8): the mode takes effect at a frame boundary; a shadow of either channel starts
again; an unganged odd channel is reassigned. -/
def opGangModeChange (k : Fin 24) (s : State) : State :=
  let m := s.rd (ANA_GANG_MODE k)
  if m = s.gangMode k then s
  else
    let was := s.gangMode k
    let s := { s with gang := Sparse.set (fun _ => 0) k.val m s.gang }
    let again (c : Nat) (s : State) : State :=
      (s.setChan c { s.chan1 c with rawN := 0, rawFlags := 0 }).shadowAgain c s.clk
    let s := again (2 * k) (again (2 * k + 1) s)
    if was ≠ 0 ∧ m = 0 then s.reassign (2 * k + 1) else s

/-- REF_RATIO_AVERAGE (R107, R108): a 1 s average of the references completes and is judged. -/
def opRefRatioAverage (ab ca cb : Int) (s : State) : State :=
  let s := s.wrW ANA_REFDAB (ratioWord ab)
  let s := if s.on ANA_REFSTAT_CON then (s.wrW ANA_REFDCA (ratioWord ca)).wrW ANA_REFDCB (ratioWord cb) else s
  let far (d : Int) : Bool := decide (2000 < d.natAbs)
  let pair := if s.rd ANA_REFSTAT_LO = 2 then cb else if s.rd ANA_REFSTAT_HI = 2 then ca else ab
  let r := s.refs
  let up (b : Bool) (n : Nat) : Nat := if b then n + 1 else 0
  let r1 := { r with
    dis := up (far pair) r.dis
    disA := up (s.on ANA_REFSTAT_ARB && far ca) r.disA
    disB := up (s.on ANA_REFSTAT_ARB && far cb) r.disB
    agree := up (s.on ANA_REFSTAT_NOMAJ && !far pair) r.agree }
  let s := { s with refs := r1 }
  if s.on ANA_REFSTAT_ARB then
    if 3 ≤ r1.disA then { s with refs := { r1 with swapDue := some 0, disA := 0 } }
    else if 3 ≤ r1.disB then { s with refs := { r1 with swapDue := some 1, disB := 0 } }
    else s
  else if s.on ANA_REFSTAT_NOMAJ then
    if 3 ≤ r1.agree then (s.wr ANA_REFSTAT_NOMAJ 0).wr ANA_REFSTAT_DIS 0 else s
  else if r1.dis = 3 ∧ r1.run = false then s.disagree pair
  else s

/-- REFERENCE_ARBITRATION (R108, Table 03-12): C has settled for 10 s and 10 averages are taken. -/
def opReferenceArbitration (ca cb : Int) (s : State) : State :=
  if s.refs.run && decide (s.refs.cUp + 20 * cySec ≤ s.clk) then
    let okA := decide (ca.natAbs ≤ 2000)
    let okB := decide (cb.natAbs ≤ 2000)
    let r := { s.refs with run := false, dis := 0, disA := 0, disB := 0, agree := 0 }
    match okA, okB with
    | true, true => { s.wr ANA_REFSTAT_ARB 1 with refs := r }
    | true, false => { s with refs := { r with swapDue := some 1 } }
    | false, true => { s with refs := { r with swapDue := some 0 } }
    | false, false => { s.wr ANA_REFSTAT_NOMAJ 1 with refs := r }
  else s

/-- REFERENCE_SWAP (R109, Table 03-8): at a frame boundary, not during a calibration (R100), C replaces the retired
reference; the Reference step of the half's channels starts again. -/
def opReferenceSwap (s : State) : State :=
  match s.refs.swapDue with
  | some r =>
    if s.cal.isSome ∨ s.refCIn then s
    else
      let low := decide (s.rd ANA_REFSTAT_LO = r)
      let s := if low then s.wr ANA_REFSTAT_LO 2 else s.wr ANA_REFSTAT_HI 2
      let s := s.wr (if r = 0 then ANA_REFSTAT_ARET else ANA_REFSTAT_BRET) 1
      let s := (s.wr ANA_REFSTAT_ARB 0).wr ANA_REFSTAT_DIS 0
      let s := (s.flag ANA_STAT_REFSWAP).swapIn
      let s := { s with mapDirty := true, refs := { s.refs with swapDue := none, retReq := none, dis := 0 } }
      let s := (List.range 24).foldl (fun s i =>
        let c := if low then i else 24 + i
        if s.stepNow c = 0 then s.stepTo c 0 else s) s
      s.logEv 0x0003 r (b2n (!low)) 0
  | none => s

/-- REF_RETIRE_SETTLE_EXPIRY (R110): C has settled for 10 s after a host retirement, so the swap falls due. -/
def opRefRetireSettleExpiry (s : State) : State :=
  match s.refs.retReq with
  | some r =>
    if s.refs.cUp + 10 * cySec ≤ s.clk then { s with refs := { s.refs with swapDue := some r, retReq := none } } else s
  | none => s

end Sys2Proof.Machine
end

