-- ==== Sys2Proof/Machine/Streams.lean ====
section
/-!
DEFINITION. The streams: one sample of a tap and what it feeds (R116 to R127), comparator trips (R132 to R136), the
resampled streams and their registers (R51 to R56), and the half-cycle RMS publication (R167).
-/
namespace Sys2Proof.Machine

/-! ### Comparator trips -/

/-- Comparator `k` trips (R133 to R136): its flag, its record, its triggers; then it is OUT with count 0. -/
def State.cmpTrip (s : State) (k : Nat) : State :=
  if s.cmpDue k && !s.on (FLT_CMPSTAT_STATE k) then
    let n := s.rd (FLT_CMPCTL_N k)
    let hit := Sparse.get (fun _ => 0) k s.cmpClk
    let inst := hit - (n - 1) * cyCoarse - 4 * cyCoarse
    let s := if s.on (FLT_CMPSTAT_TRIP k) then s.flag (FLT_CMPSTAT_OVR k) else s
    let s := (s.flag (FLT_CMPSTAT_TRIP k)).inc (FLT_CMPSTAT_TRIPS k)
    let s := s.tripPush k (s.stampAt (s.rd (FLT_CMPCTL_FW k)) inst true)
    let s := if s.on (FLT_CMPCTL_CAP k) then s.siloTrigger 9 (s.rd (FLT_CMPCTL_BUF k)) 0 k inst true else s
    let s := if s.on (FLT_CMPCTL_GLN k) then s.glnInject else s
    (s.wr (FLT_CMPSTAT_STATE k) 1).wr (FLT_CMPSTAT_CNT k) 0
  else s

/-- COMPARATOR_TRIP (R133). -/
def opComparatorTrip (k : Fin 96) (s : State) : State := s.cmpTrip k

/-! ### One sample of a tap -/

/-- A stage's shift, half up, and its clamp (R116): the result, and whether it saturated. -/
def chainStep (u : Int) (sh : Nat) : Int × Bool :=
  let r := if sh = 0 then u else (u + (2 ^ (sh - 1) : Nat)) / (2 ^ sh : Nat)
  (satS 24 r, decide (satS 24 r ≠ r))

/-- The wide word of S2's output: half up to a multiple of 16, held to the largest word of the tap (R117, R121). -/
def wideRound (y : Int) : Int × Bool :=
  let w := (y + 8) / 16 * 16
  if 8388592 < w then (8388592, true) else (w, false)

/-- The slice correction's delay in fabric cycles: what the latencies of Table 04-2 leave beside the filters' own delays,
18 sample periods (R81, R120). -/
abbrev corDelay : Nat := 1080

/-- A conversion `raw`, in 2^-23 of full scale, after steps 1 to 3 of R81, exact in 2^-85; beyond full scale it is the
full-scale code (R73). -/
def corrected (raw ofs gain cor : Int) : Int :=
  (satS 24 raw * 64 - ofs) * (268435456 + gain) * (268435456 + cor)

/-- The conversion `raw` of channel `c` made in cycle `t` in slot `k`: by the slice that held phase `k`, with its coefficients
and the PGA correction of the gain then in use (R79 to R81). -/
def State.convert (s : State) (c t k : Nat) (raw : Int) : Conv :=
  let h := s.chan1 c
  let m := if t < h.phAt.1 then h.phAt.2 else (s.rdW (SLC_PHMAP c)).toNat
  let n := 5 * c + bits m (4 * k + 2) (4 * k)
  let g := valueAt t (bits h.cfg 3 1) h.gains
  { val := corrected raw (s.rdS (SLC_OFS_OFS n)) (s.rdS (SLC_GAIN_GAIN n)) (s.rdS (ANA_PGACOR_COR (6 * c + g)))
    skew := s.rdS (SLC_SKEW_SKEW n), beyond := decide (satS 24 raw ≠ raw) }

/-- The corrected sample `i` conversions back before its clamp to 24 bits: through the fractional-delay filter (R81, step 4).
At a skew of 0 the filter delays by whole samples only: DEDUCED (log 132). -/
def preS1 (adc : List Conv) (i : Nat) : Int :=
  let x := adc.getD i {}
  if x.skew = 0 then x.val / 2 ^ 62 + b2n (decide (x.val % 2 ^ 62 ≠ 0) && Config.inputRound x.val)
  else Config.skewFilter x.skew (((adc.drop (i - 8)).take 16).map (·.val))

/-- The input to stage S1 `i` conversions back (R116). -/
def s1In (adc : List Conv) (i : Nat) : Int := satS 24 (preS1 adc i)

/-- That input was beyond full scale (R73, R117). -/
def s1Over (adc : List Conv) (i : Nat) : Bool := (adc.getD i {}).beyond || decide (preS1 adc i ≠ s1In adc i)

/-- The impulse response of four moving sums of eight samples: stage S1, its gain 8^4 (Table 04-1). -/
def cicTaps : List Int :=
  [1, 4, 10, 20, 35, 56, 84, 120, 161, 204, 246, 284, 315, 336, 344, 336, 315, 284, 246, 204, 161, 120, 84, 56, 35, 20, 10,
    4, 1]

/-- The unshifted result of stage S1 over the inputs that have left the slice correction (R115). -/
def cicSum (adc : List Conv) : Int := (cicTaps.zipIdx.map fun p => p.1 * s1In adc (18 + p.2)).sum

/-- The cycles after which, and up to which, the inputs of a stream sample's span were taken, `n` cycles long: the newest has
just left the slice correction (R120, R127). -/
def State.span (s : State) (n : Nat) : Nat × Nat := (s.clk - corDelay - n, s.clk - corDelay)

/-- The span of C, 29 samples; of W, 33.8 µs; of F, 2.81 ms (R127). -/
abbrev spanC : Nat := 29 * 60
abbrev spanW : Nat := 16614
abbrev spanF : Nat := 1381172

/-- A tap sample of channel `c`, the last of which came in cycle `last`, meets its settling window with `n` of `k`
samples left: how many are left after it (R126). `opens`: it is the first that a result under a new shift has reached.
A run of CINV, or another event, whose last sample has entered S1 since then has begun the window with this sample; one
whose last sample enters now begins it with the next. -/
def State.settleNext (s : State) (h : Chan) (last k n : Nat) (opens : Bool) : Nat :=
  let now := odd (h.flagsIn (s.clk - corDelay - 1) (s.clk - corDelay)) || decide (s.clk ≤ h.setAt)
  let since := odd (h.flagsIn (last - corDelay) (s.clk - corDelay)) || decide (last < h.setAt)
  if now then k else if since || opens then max (k - 1) (n - 1) else n - 1
where
  /-- the flags name CINV -/
  odd (f : Nat) : Bool := decide (f % 2 = 1)

/-- The sample of channel `c` carries INV (R123): CINV on an input of its span, a settling window, or the odd channel of a
gang. -/
def State.tapInv (s : State) (c n left : Nat) : Bool :=
  let h := s.chan1 c
  let p := s.span n
  decide (h.flagsIn p.1 p.2 % 2 = 1) || decide (left ≠ 0) || decide (s.clk ≤ h.setAt) || s.oddGanged c

/-- A stream word (Table 04-3). -/
def streamWord (y : Int) (fl : Nat) : Word := BitVec.ofNat 32 (tc 24 y * 256 + fl % 16 * 16)

/-- The flag bits [7:4] of a stream word of channel `c` with a span of `n` cycles (Table 04-3). -/
def State.flagBits (s : State) (c n : Nat) (inv sat : Bool) : Nat :=
  let p := s.span n
  let f := (s.chan1 c).flagsIn p.1 p.2
  b2n inv * 8 + bit f 1 * 4 + bit f 2 * 2 + b2n sat

/-- Stages `m` of channel `c` saturated in this cycle (R116, Tables 04-6, 04-13). -/
def State.saturate (s : State) (c m : Nat) : State :=
  if m = 0 then s
  else
    let s := s.setChan c { s.chan1 c with sats := recent s.clk ((s.clk, m) :: (s.chan1 c).sats) }
    ((onBits 7 m).foldl (fun s i => s.setBit (FLT_CHSTAT c) i) s).flag FLT_STAT_SAT

/-- A stage up to `k` of channel `c` has saturated in the last `n` cycles (Table 04-3). -/
def State.satIn (s : State) (c k n : Nat) : Bool :=
  (s.chan1 c).sats.any fun p => decide (s.clk < p.1 + n) && decide (p.2 % 2 ^ k ≠ 0)

/-- One sample of channel `c` for the hopper's one in 2^HOPDIV. -/
def divNext (n d : Nat) : Nat := if n + 1 < 2 ^ d then n + 1 else 0

/-- The conversions `xs` of the two frames that end now, oldest first, join the channel's (R79). -/
def State.convAll (s : State) (c : Nat) (xs : List Int) : State :=
  let new := (xs.take 8).zipIdx.map fun p => s.convert c (s.clk + 60 * p.2 - 420) (p.2 % 4) p.1
  let h := s.chan1 c
  s.setChan c { h with
    adc := (new.reverse ++ h.adc).take 80, flg := if h.flg.isEmpty then [(0, s.flagsNow c)] else h.flg }

/-- A coarse sample, from the eight conversions since the last and the Rogowski integrator's result before its clamp (R77,
R115 to R117): comparators, hopper (R120, R132, R230). -/
def State.coarseSample (s : State) (c : Nat) (xs : List Int) : State :=
  let s := s.convAll c xs
  let h := s.chan1 c
  let r := chainStep (cicSum h.adc) (s.rd (FLT_SHIFT_SH1 c))
  let odd := s.oddGanged c
  let z := xs.getD 8 0
  let rogo := bit h.cfg 6 = 1 ∧ !odd
  let y := if rogo then satS 24 z else r.1
  let clamp := r.2 || (decide rogo && decide (satS 24 z ≠ z))
  let past (i n : Nat) : Bool := (List.range n).any fun k => s1Over h.adc (i + k)
  let opens := decide (bit h.shNew 0 = 1)
  let inv := s.tapInv c spanC h.setC || opens
  let w := streamWord (if odd then 0 else y) (s.flagBits c spanC inv (clamp || past 18 29))
  let push := s.on (FLT_CTL_HOPC c) && decide (h.divC = 0)
  let s := s.setChan c { h with
    setC := s.settleNext h (if h.lastC = 0 then s.clk - 480 else h.lastC) 8 h.setC opens, lastC := s.clk
    shNew := h.shNew - bit h.shNew 0, shOut := if opens then 3 else h.shOut
    hist := (w :: h.hist).take 9, divC := divNext h.divC (s.rd (FLT_CTL_HOPDIV c)) }
  let s := (s.wr (FLT_CHSTAT_VALC c) (b2n !inv)).saturate c (b2n (clamp || past 18 8))
  let s := if push then s.hopStream 0 c (s.clk - 4 * cyCoarse) w else s
  [2 * c, 2 * c + 1].foldl (fun s k =>
    let s := (s.cmpTrip k).cmpReturn k
    s.cmpSample k (s.chan1 c).hist) s

/-- The shift of stage S3 to S6. -/
def shiftOf (c st : Nat) : Fld :=
  match st with
  | 3 => FLT_SHIFT_SH3 c
  | 4 => FLT_SHIFT_SH4 c
  | 5 => FLT_SHIFT_SH5 c
  | _ => FLT_SHIFT_SH6 c

/-- The stages S3 to S6 of channel `c` that make a result with its wide sample number `n` and saturate, from their unshifted
results `us` (R115, R116): S3 with every second, S6 with every sixteenth. -/
def State.deepSat (s : State) (c n : Nat) (us : List Int) : Nat :=
  maskOf 7 fun i => decide (2 ≤ i) && decide (i ≤ 5) && decide (n % 2 ^ (i - 1) = 0)
    && (chainStep (us.getD (i - 2) 0) (s.rd (shiftOf c (i + 1)))).2

/-- A wide sample, from the unshifted result of S2 and those of S3 to S6 that fall due with it: hopper, silo, lanes (R120,
R121). -/
def State.wideSample (s : State) (c : Nat) (xs : List Int) : State :=
  let r := chainStep (xs.getD 0 0) (s.rd (FLT_SHIFT_SH2 c))
  let y := wideRound r.1
  let h := s.chan1 c
  let odd := s.oddGanged c
  let opens := decide (bit h.shNew 1 = 1) || decide (bit h.shOut 0 = 1)
  let inv := s.tapInv c spanW h.setW || opens
  let n := (h.wideN + 1) % 16
  let made := h.shNew &&& (2 + maskOf 6 fun i => decide (2 ≤ i) && decide (n % 2 ^ (i - 1) = 0))
  let m := 2 * b2n (r.2 || y.2) ||| s.deepSat c n (xs.drop 1)
  let fl := s.flagBits c spanW inv (r.2 || y.2 || s.satIn c 2 spanW)
  let w := streamWord (if odd then 0 else y.1) fl
  let push := s.on (FLT_CTL_HOPW c) && decide (h.divW = 0)
  let s := s.setChan c { h with
    setW := s.settleNext h (if h.lastW = 0 then s.clk - 480 else h.lastW) 40 h.setW opens, lastW := s.clk, wideN := n
    shNew := h.shNew - made, shOut := if made ≠ 0 then 2 else h.shOut / 2 * 2
    divW := divNext h.divW (s.rd (FLT_CTL_HOPDIV c)) }
  let s := (s.wr (FLT_CHSTAT_VALW c) (b2n !inv)).saturate c m
  let s := if push then s.hopStream 1 c (s.clk - 19 * cyCoarse) w else s
  (s.siloSample 1 c w.toNat fl true).laneSample c w

/-- The furrows that follow channel `c` take their phasors of it, as its fine stream gives them now (R32). -/
def State.phasorsIn (s : State) (c : Nat) (ps : List Phasor) : State :=
  ps.foldl (fun s p =>
    if s.on (FUR_CTL_EN p.fw) && decide (s.rd (FUR_SRC_SRC p.fw) ≤ 1) && decide (s.rd (FUR_SRC_CHA p.fw) = c) then
      s.srcPhasor p.fw p.amp (p.ang % 2 ^ 24) p.rate
    else s) s

/-- A fine sample, from the unshifted result of S7: hopper, silo, the history that the tally takes its rounds from (R120, R142,
R147), and the furrows' phasors. -/
def State.fineSample (s : State) (c : Nat) (xs : List Int) (ps : List Phasor) : State :=
  let r := chainStep (xs.getD 0 0) (s.rd (FLT_SHIFT_SH7 c))
  let h := s.chan1 c
  let odd := s.oddGanged c
  let opens := decide (64 ≤ h.shNew) || decide (2 ≤ h.shOut)
  let inv := s.tapInv c spanF h.setF || opens
  let fl := s.flagBits c spanF inv (r.2 || s.satIn c 7 spanF)
  let w := streamWord (if odd then 0 else r.1) fl
  let g := valueAt (s.clk - 45 * cyFine) (bits h.cfg 3 1) h.gains
  let rec1 : FineRec := { at_ := s.clk, word := w, gain := g, ef := s.rdS (FLT_CTL_EF c) }
  let s := s.setChan c { h with
    setF := s.settleNext h (if h.lastF = 0 then s.clk - cyFine else h.lastF) 96 h.setF opens, lastF := s.clk
    shNew := h.shNew % 64, shOut := h.shOut % 2
    fineQ := (rec1 :: h.fineQ).take 65536 }
  let s := (s.wr (FLT_CHSTAT_VALF c) (b2n !inv)).saturate c (64 * b2n r.2)
  let s := if s.on (FLT_CTL_HOPF c) then s.hopStream 2 c (s.clk - 45 * cyFine) w else s
  (s.siloSample 0 c w.toNat fl true).phasorsIn c ps

/-- The corrected sample of channel `c` that the raw gang stream carries now: taken 18 periods ago, `late` cycles after the
even slot (R103, R120). -/
def State.gangIn (s : State) (c late : Nat) : Int :=
  let h := s.chan1 c
  s1In h.adc ((h.lastC + corDelay + late - s.clk) / 60)

/-- A raw gang sample of the pair whose even channel is `c` (Table 03-11, R103, R125): the even and the odd channel's sample in
turn, or the mean of the two, rounded to 16 bits; a tie rounds up: DESIGN CHOICE (log 133). CINV is the even input's and that of
the slices that convert it, CDEG and CNSP those of the slices of both channels. -/
def State.rawSample (s : State) (c : Nat) : State :=
  let mode := s.gangMode (c / 2)
  if c % 2 = 1 ∨ mode = 0 then s
  else
    let h := s.chan1 c
    let at_ := s.clk - corDelay
    let fe := h.flagsIn (at_ - 1) at_
    let fo := (s.chan1 (c + 1)).flagsIn (at_ - 1) at_
    let second := decide (mode = 1) && decide (h.rawN % 2 = 1)
    let v := if mode = 2 then satS 16 ((s.gangIn c 0 + s.gangIn (c + 1) 0 + 256) / 512)
      else satS 16 ((s.gangIn (if second then c + 1 else c) (if second then 30 else 0) + 128) / 256)
    let both := decide (mode = 2)
    let o := if both || second then fo else 0
    let e := if both || !second then fe else fe % 2
    let inv := decide (e % 2 = 1) || decide (bit o 3 = 1)
    let fl := b2n inv * 8 + bit (e ||| o) 1 * 4 + bit (e ||| o) 2 * 2 + b2n (decide (v = 32767 ∨ v = -32768))
    let s := s.siloSample 2 (c / 2) (tc 16 v) fl (decide (h.rawN = 0))
    s.setChan c { h with rawN := (h.rawN + 1) % 64, rawFlags := if h.rawN = 63 then 0 else h.rawFlags ||| fl }

/-- STREAM_SAMPLE (R120): a sample of tap `t` of channel `c`, from what its stages do not fix: the conversions of C and the
integrator's result, the unshifted results of W's and F's filters, whose coefficients the manual does not print, and the
phasors that furrows form from F. -/
def opStreamSample (c : Fin 48) (t : Tap) (xs : List Int) (ps : List Phasor) (s : State) : State :=
  match t with
  | .c => s.coarseSample c xs
  | .w => s.wideSample c xs
  | .f => s.fineSample c xs ps
  | .raw => s.rawSample c

/-- SETTLING_CLOSE (R126): the window of a tap has covered its samples, and the stream is valid again. -/
def opSettlingClose (c : Fin 48) (t : Tap) (s : State) : State :=
  let h := s.chan1 c
  match t with
  | .c => if s.tapInv c spanC h.setC = false ∧ h.hist ≠ [] then s.wr (FLT_CHSTAT_VALC c) 1 else s
  | .w => if s.tapInv c spanW h.setW = false ∧ h.lastW ≠ 0 then s.wr (FLT_CHSTAT_VALW c) 1 else s
  | .f => if s.tapInv c spanF h.setF = false ∧ h.fineQ ≠ [] then s.wr (FLT_CHSTAT_VALF c) 1 else s
  | .raw => s

/-! ### The resamplers -/

/-- The channels that a mask pair selects. -/
def rsMask (lo hi : Nat) : List Nat := onBits 48 (lo % 2 ^ 32 + hi % 2 ^ 16 * 2 ^ 32)

/-- The register settings of a resampler are ones that R56 accepts. -/
def rsOk (ctl lo hi base : Nat) : Bool :=
  bit ctl 0 == 0 ||
    (decide (bits ctl 15 8 ≠ 0) &&
      decide (bits base 20 10 * 1024 + (rsMask lo hi).length * (256 * 2 ^ bits ctl 5 4) * bits ctl 15 8 * 4 ≤ fieldRam))

/-- No channel of the masks is also in those of two other furrows (R56). -/
def State.rsShared (s : State) (n lo hi : Nat) : Bool :=
  (rsMask lo hi).any fun c => decide (2 ≤ ((List.range 4).filter fun m => m ≠ n ∧ (s.rsChans m).contains c).length)

/-- A write to a resampler register of furrow `n` (R56): `r` 0 `FUR_RSCTL`, 1 `FUR_RSML`, 2 `FUR_RSMH`, 3
`FUR_RSBASE`. A change of the settings starts the rings anew; a resampler switched off ends its jobs (R184). -/
def State.rsWrite (s : State) (n r : Nat) (w : Word) : State :=
  let pick (i a : Nat) : Nat := if r = i then w.toNat else (s.rdW a).toNat
  let ctl := pick 0 (FUR_RSCTL n)
  let lo := pick 1 (FUR_RSML n)
  let hi := pick 2 (FUR_RSMH n)
  let base := pick 3 (FUR_RSBASE n)
  if !rsOk ctl lo hi base || (decide (r = 1 ∨ r = 2) && s.rsShared n lo hi) then s.furCfgErr n
  else
    let was := s.on (FUR_RSCTL_EN n)
    let s := match r with
      | 0 => s.wrW (FUR_RSCTL n) (w &&& 0xFF33#32)
      | 1 => s.wrW (FUR_RSML n) w
      | 2 => s.wrW (FUR_RSMH n) (w &&& 0xFFFF#32)
      | _ => s.wrW (FUR_RSBASE n) (w &&& 0x1FFC00#32)
    let s := s.rsMark n
    if was && !s.on (FUR_RSCTL_EN n) then s.thrFurrowOff n else s

/-- The number, cycle × N + k, of the sample that furrow `n`'s resampler makes next for channel `c`: the first at or past
the angle at which its rings started anew, and then one after the other (R51). -/
def State.rsNext (s : State) (n c : Nat) : Nat :=
  let N := s.rsN n
  (match Sparse.get (fun _ => 0) (64 * n + c) s.rsPos with
    | 0 => ((s.furrow n).rsAng * N + 16777215) / 16777216
    | k => k) % (2 ^ 40 * N)

/-- The angle of sample number `num` at `N` samples per cycle (R51). -/
def rsAngle (N num : Nat) : Nat := num / N * 16777216 + num % N * (16777216 / N)

/-- RESAMPLED_SAMPLE (R51 to R53): the next sample of channel `c` at furrow `n`, whose angle the furrow has reached, of value
`x`, is written to its ring, and pushed where HOPEN is 1. HOLD and SLEW are the furrow's at that angle. -/
def opResampledSample (n : Fin 4) (c : Fin 48) (x : Int) (inv : Bool) (s : State) : State :=
  let N := s.rsN n
  let num := s.rsNext n c
  let at_ := rsAngle N num
  if s.on (FUR_CTL_EN n) && (s.furrow n).run && s.on (FUR_RSCTL_EN n) && (s.rsChans n).contains c.val
      && decide (0 ≤ angDiff (s.angle n) at_) then
    let cyc := num / N
    let k := num % N
    let rsc := s.rd (FUR_RSCTL_RSCYC n)
    let j := (s.rsChans n).findIdx (· == c.val)
    let g := (s.crossed n at_).bind fun t => segAt t (s.furrow n).segs
    let w := BitVec.ofNat 32 (tc 24 (satS 24 x) * 256 + b2n (inv || s.oddGanged c) * 128
      + b2n (g.any (·.hold)) * 64 + b2n (g.any (·.slew)) * 32)
    let a := s.rd (FUR_RSBASE_BASE n) * 1024 + j * N * rsc * 4 + (cyc % rsc * N + k) * 4
    let s := s.ffStore a 4 w.toNat
    let s := { s with rsPos := Sparse.set (fun _ => 0) (64 * n.val + c.val) (num + 1) s.rsPos }
    let f := s.furrow n
    let s := s.setFurrow n { f with rsNum := if f.rsSeen && !numReached N num f.rsNum then f.rsNum else num, rsSeen := true }
    if s.on (FUR_RSCTL_HOPEN n) then s.hopResampled n c k cyc w else s
  else s

/-! ### Half-cycle RMS -/

/-- HALF_CYCLE_RMS_PUBLISH (R167, R168): the window of slot `k` of field `f` that ended last, once. -/
def opHalfCycleRmsPublish (f : Fin 16) (k : Fin 8) (s : State) : State :=
  let g := (s.fieldOf f).cfg
  match g.en, g.hcCh k with
  | true, some c =>
    let m := 8 * f.val + k.val
    let win := (s.hcWindow f).1
    if Sparse.get (fun _ => 0) m s.hcLast = win then s
    else
      let w := s.hcValue f k c
      let s := { s with hcLast := Sparse.set (fun _ => 0) m win s.hcLast }
      let s := (s.wrW (TAL_HRMS m) w).hcStates f k w
      if s.on (TAL_HCCTL_HOPEN f) then
        let h := (s.furrow g.fw).angle (s.clk - 45 * cyFine) / 8388608
        s.hopRms m g.fw (decide (h % 2 = 1)) (h / 2) w
      else s
  | _, _ => s

/-! ### Writes of a channel's settings -/

/-- A direct write of a setting of channel `c`, unless the channel is sealed: then it is discarded with SEALWR (R141). -/
def State.unsealed (s : State) (c : Nat) (t : State) : State := if s.isSealed c then s.flag TAL_STAT_SEALWR else t

/-- CHANNEL_CFG_WRITE (R76): a write of `ANA_CHCFGc`. -/
def opChannelCfgWrite (c : Fin 48) (w : Word) (s : State) : State := s.unsealed c (s.chcfgWrite c w)

/-- CHANNEL_ENABLE (R75): EN from 0 to 1; the other fields keep their values. -/
def opChannelEnable (c : Fin 48) (s : State) : State :=
  s.unsealed c (s.chcfgWrite c (s.rdW (ANA_CHCFG c) ||| 1#32))

/-- CHANNEL_DISABLE (R75): EN from 1 to 0; the other fields keep their values. -/
def opChannelDisable (c : Fin 48) (s : State) : State :=
  s.unsealed c (s.chcfgWrite c (s.rdW (ANA_CHCFG c) &&& 0xFFFFFFFE#32))

/-- SHIFT_CHANGE (R119): a write of `FLT_SHIFTc`. -/
def opShiftChange (c : Fin 48) (w : Word) (s : State) : State := s.unsealed c (s.shiftWrite c w)

end Sys2Proof.Machine
end

