-- ==== Sys2Proof/Machine/Rtc.lean ====
section
/-!
DEFINITION. Timebases, calendars and the backup domain (chapter 10): the PPS servo's states, TB0 steps and loads, the
UTC and local calendars with leap seconds, summer time, writes, shifts and alarms, the adjustment hedge, the backup
supply and the isolation.
-/
namespace Sys2Proof.Machine

/-! ### Dates -/

/-- Days of the 400 Gregorian years from 2000 to 2399, and their seconds. -/
abbrev calDays : Nat := 146097
abbrev calSpan : Nat := 146097 * 86400

/-- Days from 0000-03-01 to 2000-01-01. -/
abbrev calEpoch : Nat := 730425

/-- Year, month and day of a day counted from 0000-03-01 (R313). -/
def civil (z : Nat) : Nat × Nat × Nat :=
  let doe := z % 146097
  let yoe := (doe - doe / 1460 + doe / 36524 - doe / 146096) / 365
  let doy := doe - (365 * yoe + yoe / 4 - yoe / 100)
  let mp := (5 * doy + 2) / 153
  let m := if mp < 10 then mp + 3 else mp - 9
  (yoe + z / 146097 * 400 + (if m ≤ 2 then 1 else 0), m, doy - (153 * mp + 2) / 5 + 1)

/-- The day, counted from 0000-03-01, of a date. -/
def dayOf (y m d : Nat) : Nat :=
  let y1 := if m ≤ 2 then y - 1 else y
  let yoe := y1 % 400
  let doy := (153 * (if 2 < m then m - 3 else m + 9) + 2) / 5 + d - 1
  y1 / 400 * 146097 + (yoe * 365 + yoe / 4 - yoe / 100 + doy)

/-- A leap year (R313). -/
def leapYear (y : Nat) : Bool := decide (y % 4 = 0) && (decide (y % 100 ≠ 0) || decide (y % 400 = 0))

/-- Days of a month. -/
def monthDays (y m : Nat) : Nat :=
  if m = 2 then (if leapYear y then 29 else 28) else if m = 4 ∨ m = 6 ∨ m = 9 ∨ m = 11 then 30 else 31

/-- Weekday, 1 Monday to 7 Sunday, of a day counted from 0000-03-01 (2000-01-01 was a Saturday). -/
def weekday (z : Nat) : Nat := (z + 2) % 7 + 1

/-- The time word (hour, minute, second) of seconds counted from 0000-03-01. -/
def timeWord (t : Nat) : Nat := t % 86400 / 3600 * 65536 + t % 3600 / 60 * 256 + t % 60

/-- The date word (weekday, month, day) of seconds counted from 0000-03-01. -/
def dateWord (t : Nat) : Nat :=
  let c := civil (t / 86400)
  weekday (t / 86400) * 4096 + c.2.1 * 256 + c.2.2

/-! ### The calendars now -/

/-- UTC seconds counted from 0000-03-01. -/
def State.utcT (s : State) : Nat := calEpoch * 86400 + s.utc

/-- Local seconds counted from 0000-03-01 (R316). -/
def State.localT (s : State) : Nat :=
  ((s.utcT : Int) + s.rdS RTC_LOCAL_OFS * 900 + 3600 * s.rd RTC_LOCAL_DST).toNat

/-- FOLD as it reads (R317). -/
def State.foldNow (s : State) : Bool := s.fold && decide (s.foldN < 3600)

/-- XTAL32 edges since `subAt`: 15,000 fabric cycles each; notes: assumption 32. -/
def State.edges (s : State) : Nat := if s.xtlRun && !s.on RTC_STAT_RANGE then (s.clk - s.subAt) / 15000 else 0

/-- The sub-second count (R303, R320). -/
def State.subsec (s : State) : Nat :=
  let n := s.subN + (s.edges - s.holdN)
  if n < 32768 then n else 32767

/-- The edges remaining in a backward hold (R320). -/
def State.holdLeft (s : State) : Nat := s.holdN - s.edges

/-- The calendar registers from `RTC_SUBSEC` to `RTC_YEAR` as they read now (Table 10-6). -/
def State.calWords (s : State) : List Word :=
  let t := s.utcT
  let l := s.localT
  [ BitVec.ofNat 32 s.subsec, BitVec.ofNat 32 (timeWord t + b2n s.cal60), BitVec.ofNat 32 (dateWord t),
    BitVec.ofNat 32 (timeWord l + b2n s.cal60 + b2n s.foldNow * 2 ^ 31), BitVec.ofNat 32 (dateWord l),
    BitVec.ofNat 32 ((civil (l / 86400)).1 * 65536 + (civil (t / 86400)).1) ]

/-! ### Backup domain: main power, CRC, missed events -/

/-- Main power is present: the main domain is out of reset. -/
def State.mainOn (s : State) : Bool := !s.inReset

/-- The check of the backup RAM (R333). -/
def State.ramCrc (s : State) : Nat :=
  crc16 ((List.range 16).flatMap fun w => leBytes 4 (s.rdW (BKP_RAM w)).toNat)

/-- A tamper event of category 0 or 3 on backup power (R332, R416). -/
def State.tamperBk (s : State) (c : Nat) : State :=
  let f : Fld := if c = 0 then ⟨TMP_BKCNT, 7, 0⟩ else ⟨TMP_BKCNT, 15, 8⟩
  (s.inc f).setBit BKP_MISSED 2

/-- A tamper event of a category that the backup domain also watches. -/
def State.tamperAny (s : State) (c : Nat) : State := if s.mainOn then s.tamper c else s.tamperBk c

/-! ### Summer time, seconds, alarms -/

/-- DST set (R317). -/
def State.dstSet (s : State) : State :=
  if s.on RTC_LOCAL_DST then s else { s.wr RTC_LOCAL_DST 1 with dstAt := some s.utc }

/-- DST cleared: the repeated hour carries FOLD for 3600 s (R317). -/
def State.dstClear (s : State) : State :=
  if s.on RTC_LOCAL_DST then { s.wr RTC_LOCAL_DST 0 with fold := true, foldN := 0, dstAt := some s.utc } else s

/-- Alarm `a` matches at this second (R323, R324). -/
def State.almMatch (s : State) (a : Nat) : Bool :=
  let ctl := (s.rdW (RTC_ALMCTL a)).toNat
  let loc := decide (bit ctl 30 = 1)
  let t := if loc then s.localT else s.utcT
  let c := civil (t / 86400)
  let skip (i : Nat) : Bool := decide (bit ctl i = 1)
  decide (bit ctl 31 = 1) && !(loc && s.foldNow && decide (bit ctl 29 = 0))
    && (skip 0 || decide (s.rd (RTC_ALMT_S a) = t % 60 + (if s.cal60 then 1 else 0)))
    && (skip 1 || decide (s.rd (RTC_ALMT_M a) = t % 3600 / 60)) && (skip 2 || decide (s.rd (RTC_ALMT_H a) = t % 86400 / 3600))
    && (skip 3 || decide (s.rd (RTC_ALMD_D a) = c.2.2)) && (skip 4 || decide (s.rd (RTC_ALMD_MON a) = c.2.1))
    && (skip 5 || decide (s.rd (RTC_ALMD_WD a) = weekday (t / 86400))) && (skip 6 || decide (s.rd (RTC_ALMD_Y a) = c.1))

/-- What a matching alarm does (R324, R332): its ACT, its flag, and on backup power its bits of `BKP_MISSED`. -/
def State.almAct (s : State) (a : Nat) : State :=
  let act := bits (s.rdW (RTC_ALMCTL a)).toNat 25 24
  let acts := decide (act = 1 ∨ act = 2)
  let s := if act = 1 then s.dstSet else if act = 2 then s.dstClear else s
  let s := s.flag (if a = 0 then RTC_STAT_ALM0 else RTC_STAT_ALM1)
  if s.mainOn then s
  else
    let s := s.setBit BKP_MISSED a
    if acts then s.setBit BKP_MISSED 3 else s

/-- The `WAKE` ball (R324). -/
def State.wake (s : State) : Bool :=
  (s.on RTC_STAT_ALM0 && s.on (bitFld (RTC_ALMCTL 0) 27)) || (s.on RTC_STAT_ALM1 && s.on (bitFld (RTC_ALMCTL 1) 27))

/-- This second of UTC is the last, or the last but one, of its month. -/
def State.monthEnd (s : State) (before : Nat) : Bool :=
  let c := civil (s.utcT / 86400)
  decide (s.utcT % 86400 + 1 + before = 86400) && decide (c.2.2 = monthDays c.1 c.2.1)

/-- One UTC second completes (R313 to R317, R323 to R325): leap seconds, the end of the range, a DST command, then both
alarms on the new second. -/
def State.calTick (s : State) : State :=
  if s.on RTC_STAT_RANGE then s
  else
    let pend := s.rd RTC_LEAP_PEND
    let ls := s.rdS RTC_LEAP_LS
    let s : State :=
      if s.cal60 then { (s.wrS RTC_LEAP_LS (ls + 1)).wr RTC_LEAP_PEND 0 with cal60 := false, utc := s.utc + 1 }
      else if pend = 1 && s.monthEnd 0 then { s with cal60 := true }
      else if pend = 2 && s.monthEnd 1 then { (s.wrS RTC_LEAP_LS (ls - 1)).wr RTC_LEAP_PEND 0 with utc := s.utc + 2 }
      else { s with utc := s.utc + 1 }
    if calSpan ≤ s.utc then { s.wr RTC_STAT_RANGE 1 with utc := calSpan - 1, subN := 0, subAt := s.clk, holdN := 0 }
    else
      let s : State := { s with foldN := s.foldN + 1 }
      let s := if s.dstReq = 1 then s.dstSet else if s.dstReq = 2 then s.dstClear else s
      let s : State := { s with dstReq := 0 }
      let m0 := s.almMatch 0
      let m1 := s.almMatch 1
      let s := if m0 then s.almAct 0 else s
      if m1 then s.almAct 1 else s

/-! ### Adjustments -/

/-- A rejected write (R319). -/
def State.badWr (s : State) : State := (s.flag RTC_STAT_BADWR).inc RTC_BADWR_CNT_V

/-- An adjustment of magnitude `mag` (1/32,768 ns) by originator `o`: whether it may be made, and the state with the
budget charged or the refusal recorded (R328, R408, Table 14-4). The host's are not counted. -/
def State.adjust (s : State) (o mag addr : Nat) : Bool × State :=
  if 5 ≤ o then (true, s)
  else if s.on HDG_STAT_SAFE then (false, s.flag RTC_STAT_HEDGE)
  else
    let live := s.adj.filter fun p => s.clk < p.1 + cyDay
    let used := live.foldl (fun n p => n + p.2) 0
    if used + mag ≤ s.rd HDG_CLK_BUD * 3276800000000 then (true, { s with adj := (s.clk, mag) :: live })
    else (false, (s.flag RTC_STAT_HEDGE).violate 3 o 0 addr)

/-- A shift of the calendars by n / 32,768 s (R320); calendars that have stopped at their end stay there (R314). -/
def State.shift (s : State) (n : Int) : State :=
  if s.on RTC_STAT_RANGE then s
  else if n < 0 then
    { s.wr RTC_STAT_SHIFTBUSY 1 with subN := s.subsec, subAt := s.clk, holdN := n.natAbs }
  else
    let m := s.subsec + n.toNat
    let s : State := { s with subN := m % 32768, subAt := s.clk, holdN := 0 }
    if 65536 ≤ m then (s.calTick).calTick else if 32768 ≤ m then s.calTick else s

/-- The UTC seconds, from 2000-01-01, that a staged time names, or none where the write is impossible (R318, R319); notes:
assumption 35. -/
def State.staged (s : State) (cmd : Nat) : Option Nat :=
  let h := s.rd RTC_WTIME_H
  let mi := s.rd RTC_WTIME_M
  let se := s.rd RTC_WTIME_S
  let y := s.rd RTC_WDATE_Y
  let mo := s.rd RTC_WDATE_MON
  let d := s.rd RTC_WDATE_D
  let loc := decide (bit cmd 1 = 1)
  let fold := decide (bit cmd 0 = 1)
  if 59 < se ∨ 59 < mi ∨ 23 < h ∨ mo = 0 ∨ 12 < mo ∨ d = 0 ∨ monthDays y mo < d ∨ y < 1999 ∨ 2400 < y
      ∨ (!loc && fold) then none
  else
    let t : Int := (dayOf y mo d : Int) * 86400 + h * 3600 + mi * 60 + se - calEpoch * 86400
    let b := if loc then t - s.rdS RTC_LOCAL_OFS * 900 else t
    -- the local hour from the last change of DST: skipped where that set it, repeated where it cleared it
    let hour := loc && s.dstAt.any fun (c : Nat) => decide ((c : Int) ≤ b) && decide (b < (c : Int) + 3600)
    let u := if loc && (s.on RTC_LOCAL_DST || (hour && !fold)) then b - 3600 else b
    if (hour && s.on RTC_LOCAL_DST) ∨ u < 0 ∨ calSpan ≤ u then none else some u.toNat

/-- A calendar write applied (R318): the sub-second count 0, a backward shift cancelled, RANGE cleared. -/
def State.calSet (s : State) (u : Nat) : State :=
  { (s.wr RTC_STAT_SHIFTBUSY 0).wr RTC_STAT_RANGE 0 with utc := u, cal60 := false, subN := 0, subAt := s.clk, holdN := 0 }

/-- The difference between UTC second `u` and the calendar now, in 1/32,768 ns. -/
def State.calMag (s : State) (u : Nat) : Nat :=
  ((u : Int) * 32768 - (s.utc * 32768 + s.subsec)).natAbs * 1000000000

/-! ### Writes to the backup domain -/

/-- A write of originator `o` to a backup register takes effect (R317 to R320, R323, R328, R334). -/
def State.bkApply (s : State) (o a : Nat) (w : Word) : State :=
  let x := w.toNat
  if a = RTC_STAT then (onBits 8 (x &&& 0xDD)).foldl (fun s i => s.clrBit a i) s
  else if a = BKP_STAT then (onBits 2 x).foldl (fun s i => s.clrBit a i) s
  else if a = BKP_MISSED then (onBits 4 x).foldl (fun s i => s.clrBit a i) s
  else if a = RTC_SHIFT then
    let n := sx 18 x
    if s.on RTC_STAT_SHIFTBUSY ∨ 32768 < n.natAbs then s.badWr
    else
      let r := s.adjust o (n.natAbs * 1000000000) a
      if r.1 then r.2.shift n else r.2
  else if a = RTC_WCMD then
    if bit x 31 = 0 then s
    else match s.staged x with
      | none => s.badWr
      | some u =>
        let r := s.adjust o (s.calMag u) a
        if r.1 then r.2.calSet u else r.2
  else if a = RTC_DSTCMD then
    if bits x 1 0 = 1 ∨ bits x 1 0 = 2 then
      if decide (bits x 1 0 = 1) == s.on RTC_LOCAL_DST then s.badWr
      else
        let r := s.adjust o (3600 * 32768000000000) a
        if r.1 then { r.2 with dstReq := bits x 1 0 } else r.2
    else s
  else if a = RTC_LOCAL then
    let n := sx 7 x
    if 56 < n.natAbs then s.badWr
    else
      let r := s.adjust o ((n - s.rdS RTC_LOCAL_OFS).natAbs * 900 * 32768000000000) a
      if r.1 then r.2.wrS RTC_LOCAL_OFS n else r.2
  else if a = RTC_LEAP then if bits x 9 8 = 3 then s.badWr else s.wrW a (w &&& 0x3FF#32)
  else if a = RTC_CTL then s.wrW a (w &&& 0x3F#32)
  else if a = RTC_WTIME ∨ a = RTC_ALMT 0 ∨ a = RTC_ALMT 1 then
    if a ≠ RTC_WTIME ∧ (23 < bits x 20 16 ∨ 59 < bits x 13 8 ∨ 59 < bits x 5 0) then s.badWr else s.wrW a (w &&& 0x1F3F3F#32)
  else if a = RTC_WDATE then s.wrW a (w &&& 0x0FFF0F1F#32)
  else if a = RTC_ALMD 0 ∨ a = RTC_ALMD 1 then
    if 12 < bits x 11 8 ∨ 31 < bits x 4 0 then s.badWr else s.wrW a (w &&& 0x0FFF7F1F#32)
  else if a = RTC_ALMCTL 0 ∨ a = RTC_ALMCTL 1 then
    if bits x 25 24 = 3 then s.badWr else s.wrW a (w &&& 0xFB00007F#32)
  else if BKP_RAM 0 ≤ a ∧ a ≤ BKP_RAM 15 then
    let s := s.wrW a w
    (s.wr BKP_RAMCHK_V s.ramCrc)
  else if a = TMP_CTL then
    let ok := (List.range 4).all fun n => decide (bits x (2 * n + 1) (2 * n) ≠ 3)
    if !ok ∨ bit (s.rdW a).toNat 31 = 1 then s else s.wrW a (w &&& 0x800000FF#32)
  else s

/-- A write of the main domain to a backup register (R331, R334): dropped while the domains are isolated, else it waits
for the next XTAL32 edge. -/
def State.bkWrite (s : State) (o a : Nat) (w : Word) : State :=
  if s.iso then s else { s with bkQ := s.bkQ ++ [{ orig := o, addr := a, word := w }] }

/-- The waiting writes all take effect: what a read that follows them sees (R334). While XTAL32 stands they go on waiting:
there is no edge. DESIGN CHOICE (log 161). -/
def State.bkFlush (s : State) : State :=
  if !s.xtlRun then s else s.bkQ.foldl (fun s b => s.bkApply b.orig b.addr b.word) { s with bkQ := [] }

/-- A deal's write to a backup register, applied with its entries (R364) unless the domains are isolated (R331). -/
def State.bkDeal (s : State) (o a : Nat) (w : Word) : State := if s.iso then s else s.bkApply o a w

/-- The isolation begins (R331): writes and staged times not yet applied are dropped. -/
def State.isolate (s : State) : State := { s with iso := true, isoEnd := none, bkQ := [] }

/-! ### TB0 -/

/-- TB0 takes the tick count `n` in this cycle: a step (R310). -/
def State.tbStep (s : State) (n : Nat) : State :=
  let s := { s with tb0 := { t0 := s.clk, ticks := n % (tickSec * 2 ^ 34), trim := s.tb0.trim } }
  (s.wr RTC_TBSTAT_EPOCH (s.rd RTC_TBSTAT_EPOCH + 1)).setBit RTC_TBSTAT 17

/-- TB0's trim from now on, as `RTC_TB0TRIM` reads it (R305). -/
def State.tbTrim (s : State) (z : Int) : State :=
  { s.wrS RTC_TB0TRIM_V z with tb0 := s.tb0.retrim s.clk z }

/-- A load of TB0 (R311). -/
def State.tbLoadNow (s : State) (sec ns : Nat) : State := (s.tbStep (ticksOf sec ns)).wr RTC_TBSTAT_TIMEVALID 1

/-- Distance of a tick count from TB0 now, in 1/32,768 ns. -/
def State.tbMag (s : State) (n : Nat) : Nat := ((n : Int) - s.tb0.at s.clk).natAbs * 3125 * 32768 / 768

/-- A write to `RTC_TB0CMD` (R311, R328): OP 1 loads at the next accepted PPS edge, OP 2 now. -/
def State.tbCmd (s : State) (o op : Nat) : State :=
  let sec := s.rd RTC_TB0SETH_V * 2 ^ 32 + s.rd RTC_TB0SETL_V
  let ns := s.rd RTC_TB0SETN_V
  if op ≠ 1 ∧ op ≠ 2 then s
  else if 999999999 < ns ∨ s.tbLoad.isSome then s.setBit RTC_TBSTAT 19
  else if op = 1 then { s with tbLoad := some { orig := o, sec := sec, ns := ns } }
  else
    let r := s.adjust o (s.tbMag (ticksOf sec ns)) RTC_TB0CMD
    if r.1 then r.2.tbLoadNow sec ns else r.2

/-- A change of `RTC_TBCTL.DISC` (Table 10-2). -/
def State.discChange (s : State) (was now : Nat) : State :=
  if was = now then s
  else if now = 1 then { s.wr RTC_TBSTAT_STATE 1 with ppsGood := 0, ppsBad := 0, ppsStep := false }
  else ((s.wr RTC_TBSTAT_STATE 0).wr RTC_TBSTAT_RANGE 0).tbTrim (s.rdS RTC_TB0FTRIM_V)

/-- The error e of a PPS edge now, in ns (R307). -/
def State.ppsErr (s : State) : Int :=
  let t := s.tb0.at s.clk % tickSec
  let e : Int := nsecOf t - s.rdS RTC_TBCTL_PPSOFS
  let m := e % 1000000000
  if m < 500000000 then m else m - 1000000000

/-- The trim that the servo asks for, held at ±100 ppm (R308). -/
def State.servo (s : State) (z : Int) : State :=
  (s.tbTrim (clampI (-100000) 100000 z)).wr RTC_TBSTAT_RANGE (b2n (decide (100000 < z.natAbs)))

/-- TB0 goes to HOLDOVER after four edges that are missing or outlying (Table 10-2). -/
def State.ppsMiss (s : State) : State :=
  let s := { s with ppsBad := s.ppsBad + 1 }
  if s.rd RTC_TBSTAT_STATE = 2 ∧ 4 ≤ s.ppsBad then (s.wr RTC_TBSTAT_STATE 3).setBit RTC_TBSTAT 16 else s

/-- An accepted edge in ACQUIRE (Table 10-2): one step beyond 10 µs, then eight edges within 100 ns lead to LOCKED,
unless the trim is held at its limit. -/
def State.ppsAcquire (s : State) (e z : Int) : State :=
  if 10000 < e.natAbs ∧ s.ppsStep = false then
    let n := (s.tb0.at s.clk : Int) - divRound (e * 768) 3125
    { s.tbStep n.toNat with ppsStep := true, ppsGood := 0 }
  else
    let s := s.servo z
    let good := if e.natAbs < 100 then s.ppsGood + 1 else 0
    if 8 ≤ good ∧ !s.on RTC_TBSTAT_RANGE then { s.wr RTC_TBSTAT_STATE 2 with ppsGood := 0, ppsBad := 0 }
    else { s with ppsGood := good }

/-- A PPS edge of the chosen polarity (R307, R308, R311). -/
def State.ppsEdge (s : State) (z : Int) : State :=
  let early := match s.ppsClk with
    | some t => decide (s.clk < t + cySec / 2)
    | none => false
  if early then s.inc RTC_TBSTAT_OUTCNT
  else
    let s : State := { s with ppsClk := some s.clk, ppsDue := s.clk + cySec }
    let s := match s.tbLoad with
      | some l =>
        let r := ({ s with tbLoad := none } : State).adjust l.orig (s.tbMag (ticksOf l.sec l.ns)) RTC_TB0CMD
        if r.1 then r.2.tbLoadNow l.sec l.ns else r.2
      | none => s
    if s.rd RTC_TBCTL_DISC = 0 then s
    else
      let e := s.ppsErr
      let s := s.wrS RTC_PPSERR_V e
      match s.rd RTC_TBSTAT_STATE with
      | 1 => s.ppsAcquire e z
      | 2 =>
        if 1000 < e.natAbs then ((s.setBit RTC_TBSTAT 18).inc RTC_TBSTAT_OUTCNT).ppsMiss
        else { s.servo z with ppsBad := 0 }
      | 3 => ({ s.wr RTC_TBSTAT_STATE 1 with ppsGood := 0, ppsBad := 0, ppsStep := false } : State).ppsAcquire e z
      | _ => s

/-- The calendar follows TB0 at a UTC second (R322). -/
def State.follow (s : State) : State :=
  if s.on RTC_TBCTL_FOLLOW && s.on RTC_TBSTAT_TIMEVALID && decide (s.rd RTC_TBSTAT_STATE = 2) && !s.iso && s.mainOn then
    let tb : Int := s.tb0.at s.clk - s.rdS RTC_LEAP_LS * tickSec
    let err := ((s.utc + b2n s.cal60 : Nat) : Int) * tickSec + s.subsec * 7500 - tb
    if err.natAbs ≤ 7500 then s
    else if err.natAbs ≤ tickSec then (if s.on RTC_STAT_SHIFTBUSY then s else s.shift (-(divRound err 7500)))
    else if tb < 0 ∨ calSpan * tickSec ≤ tb then s
    else
      let s := (s.calSet (tb.toNat / tickSec)).flag RTC_STAT_RESYNC
      { s with subN := tb.toNat % tickSec / 7500 }
  else s

/-! ### The rows of the table -/

/-- PPS_EDGE (R307): an edge on `PPS`, falling or rising, with the trim that the servo asks for. -/
def opPpsEdge (fall : Bool) (z : Int) (s : State) : State :=
  if fall == s.on RTC_TBCTL_EDGE then s.ppsEdge z else s

/-- PPS_EDGE_MISSING (R308): the edge expected 1 s after the one before, which came or was missing too, does not arrive. -/
def opPpsEdgeMissing (s : State) : State :=
  if s.on RTC_TBCTL_DISC && s.ppsClk.isSome && decide (s.ppsDue < s.clk) then
    ({ s with ppsDue := s.ppsDue + cySec } : State).ppsMiss
  else s

/-- TB0_LOAD_AT_PPS (R311): `RTC_TB0CMD` OP 01b. -/
def opTb0LoadAtPps (o : Orig) (s : State) : State := s.tbCmd (origCode o) 1

/-- TB0_LOAD_NOW (R311): `RTC_TB0CMD` OP 10b. -/
def opTb0LoadNow (o : Orig) (s : State) : State := s.tbCmd (origCode o) 2

/-- CALENDAR_SECOND (R313): the sub-second count completes a UTC second; on VBAT the second counts in `BKP_ONBAT`. -/
def opCalendarSecond (s : State) : State :=
  if s.xtlRun && decide (s.holdLeft = 0) && !s.on RTC_STAT_RANGE then
    let s := { s with subN := 0, subAt := s.clk, holdN := 0 }
    let s := if s.onVbat then s.inc BKP_ONBAT_V else s
    (s.calTick).follow
  else s

/-- DST_SET_CMD (R317): a write of 01b to `RTC_DSTCMD`. -/
def opDstSetCmd (o : Orig) (s : State) : State := s.bkWrite (origCode o) RTC_DSTCMD 1#32

/-- DST_CLEAR_CMD (R317): a write of 10b to `RTC_DSTCMD`. -/
def opDstClearCmd (o : Orig) (s : State) : State := s.bkWrite (origCode o) RTC_DSTCMD 2#32

/-- FOLD_END (R317): 3600 s after the clearing. -/
def opFoldEnd (s : State) : State := if s.fold ∧ 3600 ≤ s.foldN then { s with fold := false, foldN := 0 } else s

/-- CALENDAR_WRITE (R318): a write of `RTC_WCMD` with GO = 1. -/
def opCalendarWrite (o : Orig) (w : Word) (s : State) : State := s.bkWrite (origCode o) RTC_WCMD (w ||| 0x80000000#32)

/-- CALENDAR_SHIFT (R320): a write of `RTC_SHIFT`. -/
def opCalendarShift (o : Orig) (w : Word) (s : State) : State := s.bkWrite (origCode o) RTC_SHIFT w

/-- SHIFT_HOLD_END (R320): the hold of |n| edges ends. -/
def opShiftHoldEnd (s : State) : State :=
  if s.on RTC_STAT_SHIFTBUSY && decide (s.holdLeft = 0) then
    { s.wr RTC_STAT_SHIFTBUSY 0 with subN := s.subsec, subAt := s.clk, holdN := 0 }
  else s

/-- The calendar registers that reader `o` sees: its shadow for 1 ms, else the present ones (R321). -/
def State.calView (s : State) (o : Nat) : List Word :=
  match Sparse.get (fun _ => none) o s.shCal with
  | some h => if s.clk < h.at_ + cyMs then h.words else s.calWords
  | none => s.calWords

/-- A read of calendar register `k`, 0 `RTC_SUBSEC` to 5 `RTC_YEAR`, by reader `o` (R321, R334). -/
def State.calRead (s : State) (o k : Nat) : Word × State :=
  let s := s.bkFlush
  let put (h : Option Shadow) : State := { s with shCal := Sparse.set (fun _ => none) o h s.shCal }
  if k = 0 then (s.calWords.getD 0 0, put (some { key := 0, words := s.calWords, at_ := s.clk }))
  else ((s.calView o).getD k 0, if k = 5 then put none else s)

/-- CALENDAR_FREEZE_READ (R321): a read of `RTC_SUBSEC`; each plough and each ring port is one reader. -/
def opCalendarFreezeRead (o : Orig) (s : State) : State :=
  let r := s.calRead (origCode o) 0
  r.2.setRdata (readerOf o) r.1

/-- CALENDAR_YEAR_READ (R321): a read of `RTC_YEAR`. -/
def opCalendarYearRead (o : Orig) (s : State) : State :=
  let r := s.calRead (origCode o) 5
  r.2.setRdata (readerOf o) r.1

/-- BACKUP_WRITE_APPLY (R334): the oldest waiting write takes effect at an XTAL32 edge. -/
def opBackupWriteApply (s : State) : State :=
  match s.bkQ with
  | b :: q => if s.xtlRun then ({ s with bkQ := q } : State).bkApply b.orig b.addr b.word else s
  | [] => s

/-- BACKUP_ISOLATION_END (R331): 1 ms after the main domain left reset or resumed. -/
def opBackupIsolationEnd (s : State) : State :=
  match s.isoEnd with
  | some t => if t ≤ s.clk then { s with iso := false, isoEnd := none } else s
  | none => s

/-- XTAL32_STOP (R327, R413): stopped for more than 4 ms: OSF, the calendars halt, a category 3 event. -/
def opXtal32Stop (s : State) : State :=
  if s.xtlRun then
    let s := { s with subN := s.subsec, holdN := s.holdLeft, subAt := s.clk, xtlRun := false }
    (s.flag RTC_STAT_OSF).tamperAny 3
  else s

/-- XTAL32_RESTART (R327, R483): the calendars resume from where they stopped. -/
def opXtal32Restart (s : State) : State :=
  if s.xtlRun then s else { s with xtlRun := true, xtlAt := s.clk, subAt := s.clk }

/-- XTAL32_MEASUREMENT (R326, R413): the error against TB1 in 0.01 ppm; beyond 200 ppm ovr 1 s, a category 3 event. -/
def opXtal32Measurement (e : Int) (ovr : Bool) (s : State) : State :=
  let s := (s.wrS RTC_XMEAS_ERR (satS 16 e)).wr RTC_XMEAS_VALID 1
  if ovr then s.tamper 3 else s

/-- SUPPLY_CHANGEOVER (R329). -/
def opSupplyChangeover (s : State) : State := { s.inc BKP_STAT_SWCNT with onVbat := !s.onVbat }

/-- CELL_CHECK (R330): VBAT is seen below 2.0 V. -/
def opCellCheck (low : Bool) (s : State) : State := if low then s.flag BKP_STAT_CELL_LOW else s

/-- The registers of the backup domain that its reset loads: `RTC`, `BKP` and the `TMP` registers of Table 14-7. -/
def isBackup (a : Nat) : Bool :=
  (decide (0x100E100 ≤ a) && decide (a < 0x100F000)) || a == TMP_CTL || a == TMP_LOOP || a == TMP_BKCNT || a == TMP_BURNPEND

/-- BACKUP_DOMAIN_RESET (R330, R333): VBKP below 1.60 V. The words of the backup RAM are undefined after it, and their
check is the complement of the right one. -/
def opBackupDomainReset (s : State) : State :=
  let s := { s with
    regs := s.regs.filter fun p => !isBackup p.1
    utc := 0, cal60 := false, subN := 0, subAt := s.clk, holdN := 0, fold := false, foldN := 0, dstReq := 0
    dstAt := none, bkQ := [], loops := [] }
  let s := (List.range 16).foldl (fun s w => let d := s.draw; d.2.wrW (BKP_RAM w) d.1) s
  s.wr BKP_RAMCHK_V (65535 - s.ramCrc)

end Sys2Proof.Machine
end

