-- ==== Sys2Proof/Machine/Hedge.lean ====
section
/-!
DEFINITION. Hedges, the safe state's commands and the tamper monitors (R406 to R417), and the clock inputs whose loss
the monitors see (R24, R25, R483).
-/
namespace Sys2Proof.Machine

/-! ### Hedge fields -/

/-- The fields of the hedge register `HDG_PLS` + 4r, each with the rule of Table 14-1: which new value `n` lies in
range and is no looser than the value `o` in force. -/
def hedgeRules : Nat → List (Fld × (Nat → Nat → Bool))
  | 0 => [(HDG_PLS_MAXHZ, fun o n => decide (1 ≤ n ∧ n ≤ 25000 ∧ n ≤ o))]
  | 1 => [(HDG_ALERT_GAP, fun o n => decide (5 ≤ n ∧ o ≤ n)), (HDG_ALERT_MINAS, fun o n => decide (10 ≤ n ∧ o ≤ n))]
  | 2 => [(HDG_DUO_LVLMAX, fun o n => decide (n ≤ o)), (HDG_DUO_DUTY, fun o n => decide (1 ≤ n ∧ n ≤ 100 ∧ n ≤ o))]
  | 3 => [(HDG_NVMP_LAST, fun o n => decide (n ≤ 207 ∧ n ≤ o)), (HDG_NVMP_FIRST, fun o n => decide (n ≤ 207 ∧ o ≤ n)),
      (HDG_NVMP_CRIB, fun o n => decide (n ≤ o)), (HDG_NVMP_SET, fun o n => decide (n ≤ o))]
  | 4 => [(HDG_CLK_BUD, fun o n => decide (n ≤ 20 ∧ n ≤ o))]
  | 5 => [(HDG_DGRANT_V, fun o n => decide (n &&& o = n))]
  | 6 => [(HDG_MSD_PERMIT, fun o n => decide (n ≤ o))]
  | _ => []

/-- A write of `w` to the hedge register `HDG_PLS` + 4r by the host or a deal (R407). -/
def State.hedgeWrite (s : State) (r : Nat) (w : Word) : State :=
  if s.on HDG_CTL_LOCK then s
  else (hedgeRules r).foldl (fun t p =>
    let n := bits w.toNat p.1.hi p.1.lo
    if p.2 (s.rd p.1) n then t.wr p.1 n else t.flag HDG_STAT_CFGERR) s

/-- The check of a deal's entry for the hedge register `HDG_PLS` + 4r (R407). -/
def State.hedgeTight (s : State) (r : Nat) (w : Word) : Bool :=
  !s.on HDG_CTL_LOCK && (hedgeRules r).all fun p => p.2 (s.rd p.1) (bits w.toNat p.1.hi p.1.lo)

/-- `HDG_CMD.CLR` (R412): an entry in the same cycle wins. The alert balls and the outputs follow from the flag. -/
def State.safeLeave (s : State) : State :=
  if s.on HDG_STAT_SAFE ∧ s.clk ≠ s.safeClk then s.wr HDG_STAT_SAFE 0 else s

/-- A host write of `HDG_CMD` (R411, R412). -/
def State.hdgCmd (s : State) (w : Word) : State :=
  let s := if bit w.toNat 0 = 1 then s.safeLeave else s
  if bit w.toNat 1 = 1 then s.safeCause 2 else s

/-! ### Enclosure loops -/

/-- What loop `n` holds. -/
def State.loopOf (s : State) (n : Nat) : Loop := Sparse.get (fun _ => {}) n s.loops

/-- One bit of loop `n`: whether it matched (R414). The second mismatching bit in a row is the event, and a further one
needs 8 matching bits first. -/
def State.loopBit (s : State) (n : Nat) (ok : Bool) : State :=
  let l := s.loopOf n
  let put (s : State) (l : Loop) : State := { s with loops := Sparse.set (fun _ => ({} : Loop)) n l s.loops }
  if ok then
    let g := l.good + 1
    (put s { bad := 0, good := g, armed := l.armed || decide (8 ≤ g) }).wr (bitFld TMP_LOOP n) 0
  else
    let b := l.bad + 1
    let ev := l.armed && decide (b = 2)
    let s := (put s { bad := b, good := 0, armed := l.armed && !ev }).wr (bitFld TMP_LOOP n) 1
    if ev then s.tamperAny 0 else s

/-! ### The commands -/

/-- `TAMPER_LOOP_EVENT` (R414): the bits of loop `n` since its last command, oldest first, true for a match. -/
def opTamperLoopEvent (n : Fin 4) (bs : List Bool) (s : State) : State :=
  let m := bits (s.rdW TMP_CTL).toNat (2 * n + 1) (2 * n)
  if m = 1 ∨ m = 2 then bs.foldl (fun s ok => s.loopBit n ok) s else s

/-- `MAGNETIC_CHECK` (R413): the code of gleaner input 16h, read every 10 ms; after an event three further readings make
the next. DESIGN CHOICE (log 171). -/
def opMagneticCheck (code : Fin 4096) (s : State) : State :=
  if s.on TMP_MCTL_MAGEN ∧ s.magDue ≤ s.clk then
    let s : State := { s with magDue := s.clk + 10 * cyMs }
    if s.rd TMP_MAGTHR_V < ((code.val : Int) - 2048).natAbs then
      if s.magN = 2 then { s.tamper 1 with magN := 0 } else { s with magN := s.magN + 1 }
    else { s with magN := 0 }
  else s

/-- `TEMPERATURE_CHECK` (R413): the four die sensors, in °C + 64, checked every 1 ms; further events as above (log 171). -/
def opTemperatureCheck (t0 t1 t2 t3 : Fin 256) (s : State) : State :=
  if s.on TMP_MCTL_TEMPEN ∧ s.tempDue ≤ s.clk then
    let s : State := { s with tempDue := s.clk + cyMs }
    let out (t : Fin 256) : Bool := decide (t.val < s.rd TMP_TLIM_LO) || decide (s.rd TMP_TLIM_HI < t.val)
    if out t0 || out t1 || out t2 || out t3 then
      if s.tempN = 2 then { s.tamper 4 with tempN := 0 } else { s with tempN := s.tempN + 1 }
    else { s with tempN := 0 }
  else s

/-- `SUPPLY_EXCURSION` (R413): only while `PFWARN` is not taken. -/
def opSupplyExcursion (s : State) : State := if s.pfTaken then s else s.tamper 2

/-- `TAP_INSTRUCTION_LOAD` (R415): 0 BYPASS, 1 IDCODE, 2 SAMPLE/PRELOAD, 3 EXTEST, 4 any other. -/
def opTapInstructionLoad (i : Fin 5) (s : State) : State :=
  if i.val = 4 ∧ ¬s.on TMP_TAP_UNLOCKED then { s.tamper 5 with tap := 0 } else { s with tap := i }

/-- `TEST_EN_HIGH` (R415). -/
def opTestEnHigh (s : State) : State := s.tamper 5

/-- `OTP_BURN_DONE` (R417): the 200 µs burn ends, and its bit verifies or not. A bit is burned again up to three times;
the manual does not say what follows then, and the model leaves it due until the next power-up. -/
def opOtpBurnDone (ok : Bool) (s : State) : State :=
  match s.burnCat with
  | none => s
  | some c =>
    if s.clk < s.burnAt + cyUs 200 then s
    else if ok then
      let n := s.rd (TMP_OTP_V c) + 1
      let s := (s.wr (TMP_OTP_V c) n).wr (bitFld TMP_BURNPEND c) 0
      let s := if 64 ≤ n then s.wr (bitFld TMP_STAT (16 + c)) 1 else s
      let s := if c = 0 then s.wr TMP_BKCNT_CAT0 0 else if c = 3 then s.wr TMP_BKCNT_CAT3 0 else s
      ({ s with burnCat := none } : State).burnNext
    else if s.burnTry = 3 then ({ s with burnCat := none, burnFail := s.burnFail ||| 2 ^ c } : State).burnNext
    else { s with burnTry := s.burnTry + 1, burnAt := s.clk }

/-- `REFIN_LOSS` (R25): the PLL holds over; while the device runs, the flag and the clock tamper event. -/
def opRefinLoss (s : State) : State :=
  if s.refin then
    let s := { s with refin := false, pllHold := true, pllLock := false, pllAt := if s.pllHold then s.pllAt else s.clk }
    if s.inReset then s else (s.flag SYS_CLKSTAT_REFLOSS).tamper 3
  else s

/-- `REFIN_RETURN` (R25): the PLL pulls back to it. -/
def opRefinReturn (s : State) : State := { s with refin := true }

/-- `PLL_LOCK_REGAINED` (R25, R483). -/
def opPllLockRegained (s : State) : State :=
  if s.refin ∧ s.pllHold then
    { s with
      pllHold := false, pllLock := true
      pllWas := (s.pllAt, s.clk) :: s.pllWas.filter fun h => decide (s.clk < h.2 + 2200 * cyFine) }
  else s

/-- `REFIN_PERIOD_DEVIATION` (R413). -/
def opRefinPeriodDeviation (s : State) : State := if s.refin then s.tamper 3 else s

end Sys2Proof.Machine
end

