-- ==== Sys2Proof/Machine/Yield.lean ====
section
/-!
DEFINITION. The yield forecast, the event log and the misdeal unit's stop (R449 to R460).
-/
namespace Sys2Proof.Machine

/-! ### The event log -/

/-- The barn offset of log slot `n` (R457). -/
def logSlot (n : Nat) : Nat := 0x310000 + 256 * n

/-- The slot after slot `n` that stands on no failed row. -/
def State.logNext (s : State) (n : Nat) : Option Nat :=
  ((List.range 3840).map fun i => (n + 1 + i) % 3840).find? fun k => !s.nvFailed.contains (logSlot k / 512)

/-- One record written to the log, word by word (R457); the first of an empty log goes to slot 0 with SEQ 1. -/
def State.logWrite (s : State) (r : LogRec) : State :=
  let q := s.rd YLD_LOGSEQ_V
  match s.logNext (if q = 0 then 3839 else s.rd YLD_LOGSLOT_V) with
  | none => s
  | some k =>
    let s := s.engWrite (sheafWords (logSlot k) (sheaf r.type (seqNext q) (r.payload.map BitVec.toNat)))
    (s.wr YLD_LOGSEQ_V (seqNext q)).wr YLD_LOGSLOT_V k

/-- ALARM_RECORD_WRITE (R401): the oldest queued alarm record; after the close, while a power-fail commit runs. -/
def opAlarmRecordWrite (s : State) : State :=
  match s.alq with
  | r :: q => if s.pfRuns then s else ({ s with alq := q } : State).logWrite r
  | [] => s

/-- LOG_RECORD_WRITE (R457): the oldest queued event record. -/
def opLogRecordWrite (s : State) : State :=
  match s.evl with
  | r :: q => if s.pfRuns then s else ({ s with evl := q } : State).logWrite r
  | [] => s

/-! ### Indicators -/

/-- The largest coefficient of channel `c`'s slices in service, in 0.01 % of its window (item c). -/
def State.sliceUse (s : State) (c : Nat) : Nat :=
  (List.range 5).foldl (fun m sl =>
    if s.rd (SLC_CHSTAT_RET c) = sl ∧ s.on (SLC_CHSTAT_NOSPARE c) then m
    else
      let n := 5 * c + sl
      let a := (s.rdS (SLC_OFS_OFS n)).natAbs * 100000000 / (s.rd SLC_TOL_OFS * 2 ^ 29)
      let b := (s.rdS (SLC_GAIN_GAIN n)).natAbs * 100000000 / (s.rd SLC_TOL_GAIN * 2 ^ 28)
      let d := (s.rdS (SLC_SKEW_SKEW n)).natAbs * 10000 / (s.rd SLC_TOL_SKEW * 10)
      Nat.max m (Nat.max a (Nat.max b d))) 0

/-- The ratio of the reference pair in service, in 0.01 ppm from 1 (R107, item 48). -/
def State.refUse (s : State) : Nat :=
  let a := if s.refCIn then (if s.on ANA_REFSTAT_ARET then ANA_REFDCB else ANA_REFDCA) else ANA_REFDAB
  (s.rdS ⟨a, 15, 0⟩).natAbs

/-- The most programs of a page of a crib area of 512 pages from page `p`. -/
def State.pageMax (s : State) (p : Nat) : Nat :=
  s.cribProg.foldl (fun m e => if p ≤ e.1 ∧ e.1 < p + 512 then Nat.max m e.2 else m) 0

/-- Spare pulse outputs in use (item 76). -/
def State.spareUse (s : State) : Nat := ((List.range 4).filter fun k => s.on (bitFld (PLS_SPARE k) 31)).length

/-- The indicator of a count item now, from the state that it counts (Table 16-1). -/
def State.countUse (s : State) (i : Nat) : Option Nat :=
  if 49 ≤ i ∧ i ≤ 56 then some (s.rd (NVM_SPARE_USED (i - 49)))
  else if i = 57 then some (s.pageMax 0)
  else if i = 58 then some (s.pageMax 512)
  else if i = 59 then some s.nvTaken.length
  else if i = 76 then some s.spareUse
  else none

/-- The indicator of item `i` that the forecast shows. -/
def State.yldUse (s : State) (i : Nat) : Nat := (s.countUse i).getD (s.rd (YLD_USE_V i))

/-! ### Projections -/

/-- The daily values of item `i`, newest first. -/
def State.yldVals (s : State) (i : Nat) : List (Nat × Int) :=
  s.yldHist.map fun e => (e.1, if i = 61 ∨ i = 62 then sx 32 (e.2.getD i 0) else (e.2.getD i 0 : Int))

/-- A number of days as the registers show it (R450). -/
def daysOf (n : Nat) : Nat := if 65534 < n then 65534 else n

/-- a / b days, rounded as the forecast rounds them. -/
def divDays (i a b : Nat) : Nat := a / b + (if a % b = 0 then 0 else b2n (Config.yldRound i (a / b)))

/-- A projection: EOL, LO, HI, and whether it is valid. -/
structure Proj where
  eol : Nat
  lo : Nat
  hi : Nat
  valid : Bool
  deriving DecidableEq, Repr

/-- No end in sight (R450). -/
def projNone : Proj := ⟨65535, 65535, 65535, true⟩

/-- The projection of a line of least squares through the last 180 daily values to one of two end points (R450). The edges
of its band are free, but for the order LO ≤ EOL ≤ HI (log 69). -/
def trend (i : Nat) (vals : List (Nat × Int)) (today : Nat) (low high : Option Int) : Proj :=
  let v := vals.take 180
  let n : Int := v.length
  if v.length < 30 then { projNone with valid := false }
  else
    let sx := v.foldl (fun a p => a + (p.1 : Int)) 0
    let sy := v.foldl (fun a p => a + p.2) 0
    let sxx := n * v.foldl (fun a p => a + (p.1 : Int) * p.1) 0 - sx * sx
    let sxy := n * v.foldl (fun a p => a + (p.1 : Int) * p.2) 0 - sx * sy
    match (if sxx ≤ 0 ∨ sxy = 0 then none else if 0 < sxy then high else low) with
    | none => projNone
    | some z =>
      -- line(t) = (sy sxx + sxy (n t - sx)) / (n sxx); the days to z from today
      let d := if 0 < sxy then z * n * sxx - sy * sxx - sxy * (n * today - sx)
        else -(z * n * sxx - sy * sxx - sxy * (n * today - sx))
      let eol := if d ≤ 0 then 0 else divDays i d.toNat (n * sxy.natAbs).toNat
      ⟨daysOf eol, daysOf (Nat.min eol (Config.yldBand i v false)), daysOf (Nat.max eol (Config.yldBand i v true)), true⟩

/-- The projection of a count item: `left` units remain and `used` were consumed (R450). -/
def State.countProj (s : State) (i left used : Nat) : Proj :=
  let today := s.rd YLD_DAY_V
  let vals := s.yldVals i
  let old := if today ≤ 365 then none else vals.reverse.find? fun p => today ≤ p.1 + 365
  let n : Nat × Nat := match old with
    | none => (used, today)
    | some p => (used - p.2.toNat, today - p.1)
  if n.1 = 0 then projNone
  else
    let eol := if n.2 = 0 then b2n (Config.yldRound i 0) else divDays i (left * n.2) n.1
    ⟨daysOf eol, daysOf (Nat.min eol (Config.yldBand i vals false)), daysOf (Nat.max eol (Config.yldBand i vals true)), true⟩

/-- Item `i` is exhausted (R451). -/
def State.yldNow (s : State) (i : Nat) : Bool :=
  if i < 48 then s.on (SLC_CHSTAT_NOSPARE i)
  else if i = 48 then s.refCIn
  else if i ≤ 56 then s.on (NVM_SPARE_TAKE (i - 49))
  else if i = 60 then s.on BKP_STAT_CELL_LOW
  else if 68 ≤ i ∧ i ≤ 72 then !(List.range 5).any fun p => s.rd (PLG_PSTAT_STATE p) = 1
  else if i = 76 then decide (s.spareUse = 4)
  else false

/-- Plough item `i` has reached its event (R450): the plough is Retired. -/
def State.yldDead (s : State) (i : Nat) : Bool := decide (s.rd (PLG_PSTAT_STATE (i - 68)) = 3)

/-- The projection of item `i` by its method (Table 16-1, R450). Items 0 to 48 end where their indicator reaches its window,
with a spare too. DESIGN CHOICE (log 174). -/
def State.project (s : State) (i : Nat) : Proj :=
  let t (low high : Option Int) : Proj := trend i (s.yldVals i) (s.rd YLD_DAY_V) low high
  let u := s.yldUse i
  if i < 48 then t none (some 10000)
  else if i = 48 then t none (some 2000)
  else if i ≤ 56 then s.countProj i (spareRows (i - 49) - u) u
  else if i = 57 then
    let d := daysOf (divDays i ((1000000 - u) * s.rd NVM_CTL_CRIBPER) 1440)
    ⟨d, d, d, true⟩
  else if i = 58 then s.countProj i (1000000 - u) u
  else if i = 59 then s.countProj i (256 - u) u
  else if i = 60 then
    if s.on YLD_CELLCAP_V then s.countProj i (100 * s.rd YLD_CELLCAP_V - u) u
    else trend i s.yldVbat (s.rd YLD_DAY_V) (some 2000) none
  else if i = 61 then t (some (-(50 * s.rd RTC_CTL_XTRIM : Nat))) (some (50 * (63 - s.rd RTC_CTL_XTRIM) : Nat))
  else if i = 62 then t (some (-100000)) (some 100000)
  else if i ≤ 66 then t none (some 1000)
  else if i = 67 then s.countProj i (50000 - u) u
  else if i ≤ 72 then
    if s.yldDead i then ⟨0, 0, 0, true⟩ else projNone
  else if i ≤ 74 then t none (some 10000)
  else if i = 75 then t none (some 2500)
  else s.countProj i (4 - u) u

/-- Item `i` recomputed (R450 to R453). -/
def State.yldItem (s : State) (i : Nat) : State :=
  let s := s.wr (YLD_USE_V i) (s.yldUse i)
  let now := s.yldNow i
  let p := s.project i
  let eol := if now then 0 else p.eol
  let s := ((s.wr (YLD_EOL_EOL i) eol).wr (YLD_EOL_LO i) p.lo).wr (YLD_BAND_HI i) p.hi
  let s := (s.wr (YLD_BAND_VALID i) (b2n p.valid)).wr (YLD_BAND_NOW i) (b2n now)
  let al := p.valid && decide (eol < s.rd YLD_CTL_ALDAYS)
  let was := decide (bit s.yldIn i = 1)
  if al == was then s
  else if al then
    let s := ((s.setBit (YLD_ALERT (i / 32)) (i % 32)).flag YLD_STAT_ALERT).logEv 0x0011 i eol 0
    { s with yldIn := s.yldIn + 2 ^ i }
  else { s with yldIn := s.yldIn - 2 ^ i }

/-- Every projection is recomputed (R452, R453). -/
def State.yldRun (s : State) : State := ((List.range 77).foldl State.yldItem s).wr YLD_STAT_VALID 1

/-- The count items whose unit has been consumed since are recomputed (R452), and the plough items at their event (R450). -/
def State.yldEvents (s : State) : State :=
  let s := ([49, 50, 51, 52, 53, 54, 55, 56, 57, 58, 59, 76] : List Nat).foldl
    (fun s i => if s.yldUse i = s.rd (YLD_USE_V i) then s else s.yldItem i) s
  ([68, 69, 70, 71, 72] : List Nat).foldl
    (fun s i => if s.yldDead i && s.on (YLD_EOL_EOL i) then s.yldItem i else s) s

/-! ### The day -/

/-- The daily indicator values (Table 16-1): measured ones as they come, the others from the state. -/
def State.yldMeasure (s : State) (cell cycles : Word) (osc : List Word) : State :=
  let put (s : State) (i v : Nat) : State := s.wr (YLD_USE_V i) v
  let s := (List.range 48).foldl (fun s c => put s c (s.sliceUse c)) s
  let s := put s 48 s.refUse
  let s := put s 60 cell.toNat
  let s := put s 61 (tc 32 (s.rdS RTC_XMEAS_ERR))
  let s := if s.rd RTC_TBSTAT_STATE = 2 then put s 62 (tc 32 (s.tb1.trim - s.tb0.trim)) else s
  let s := osc.zipIdx.foldl (fun s p => put s (63 + p.2) p.1.toNat) s
  let s := put s 67 cycles.toNat
  let s := [0, 1].foldl (fun s r => put s (73 + r) (Sparse.get (fun _ => 0) r s.ringErr)) s
  let s := put s 75 (if s.symRx = 0 then 0 else s.symEr * 10000 / s.symRx)
  { s with ringErr := [], symRx := 0, symEr := 0 }

/-- The day's slot of the history (R454). -/
def State.yldStore (s : State) (day : Nat) (vals : List Nat) : State :=
  let a := 0x300000 + 336 * (day % 180)
  let seq := match s.sheafAt 0x120 40 a with | some r => seqNext r.1 | none => 1
  let pl := (day * 2 ^ 32) :: (List.range 39).map fun i => vals.getD (2 * i) 0 + vals.getD (2 * i + 1) 0 * 2 ^ 32
  s.engWrite (sheafWords a (sheaf 0x120 seq pl))

/-- Payload of the lifetime totals (R454 names what they hold, not where; notes: assumption 33): counts, plough
expiries, thermal cycles, oscillators, page programs, then each slice's excursions and retirement, and plough swaps. -/
def State.totalsPl (s : State) : List Nat :=
  (s.rd YLD_SWAPCNT_V + s.rd YLD_DAY_V * 2 ^ 32)
  :: (s.pageMax 0 + s.pageMax 512 * 2 ^ 32)
  :: (List.range 5).map (fun i => s.rd (YLD_USE_V (63 + 2 * i)) + s.rd (YLD_USE_V (64 + 2 * i)) * 2 ^ 32)
  ++ (List.range 120).map (fun i =>
    let one (n : Nat) : Nat := (Sparse.get (fun _ => 0) n s.lifeExc : Nat) % 2 ^ 31
      + b2n (s.on (SLC_CHSTAT_NOSPARE (n / 5)) && decide (s.rd (SLC_CHSTAT_RET (n / 5)) = n % 5)) * 2 ^ 31
    one (2 * i) + one (2 * i + 1) * 2 ^ 32)
  ++ [s.lifeSwap]

/-- YIELD_DAY (R449, R452, R454): 24 h of main power have passed; the day's measured values: charge drawn from the cell,
its voltage in mV, the four oscillators' losses, thermal cycles. -/
def opYieldDay (cell vbat cycles osc0 osc1 osc2 osc3 : Word) (s : State) : State :=
  if s.clk < s.dayClk + cyDay then s
  else
    let s : State := { s.inc YLD_DAY_V with dayClk := s.dayClk + cyDay }
    let s := s.yldMeasure cell cycles [osc0, osc1, osc2, osc3]
    let day := s.rd YLD_DAY_V
    let vals := (List.range 77).map s.yldUse
    let s : State := { s with
      yldHist := ((day, vals) :: s.yldHist).take 366
      yldVbat := ((day, (vbat.toNat : Int)) :: s.yldVbat).take 180 }
    let s := s.yldRun
    (s.yldStore day vals).recordPut 0x121 128 0x30F000 0x30F800 s.totalsPl

/-- At start-up, the history and the totals are read back (R454); through a warm reset the day goes on, and so does what
counts since power-up. -/
def State.yldLoad (s : State) : State :=
  let days := (List.range 180).filterMap fun k =>
    match s.sheafAt 0x120 40 (0x300000 + 336 * k) with
    | some (_, w :: pl) => some (w / 2 ^ 32, pl.flatMap fun x => [x % 2 ^ 32, x / 2 ^ 32])
    | _ => none
  let sorted := days.foldl (fun l d => l.filter (fun e => d.1 < e.1) ++ d :: l.filter (fun e => e.1 ≤ d.1)) []
  let cold := decide (s.rstCause = 0)
  let s : State := { s with yldHist := sorted, dayClk := if cold then s.clk else s.dayClk }
  let s : State := match sorted with
    | e :: _ => e.2.zipIdx.foldl (fun (s : State) p => if p.2 < 77 then s.wr (YLD_USE_V p.2) p.1 else s) s
    | [] => s
  match s.record 0x121 128 0x30F000 0x30F800 with
  | some (_, (a : Nat) :: (b : Nat) :: (pl : List Nat)) =>
    let s := if cold then (s.wr YLD_SWAPCNT_V a).wr YLD_DAY_V (a / 2 ^ 32) else s
    let s := (pl.take 5).zipIdx.foldl (fun (s : State) p =>
      (s.wr (YLD_USE_V (63 + 2 * p.2)) p.1).wr (YLD_USE_V (64 + 2 * p.2)) (p.1 / 2 ^ 32)) s
    let ex := ((pl.drop 5).take 120).flatMap fun x => [x % 2 ^ 31, x / 2 ^ 32 % 2 ^ 31]
    let top (m : Sparse Nat) (p v : Nat) : Sparse Nat := if v = 0 then m else Sparse.set (fun _ => 0) p v m
    { s with
      lifeExc := if cold then ex.zipIdx.foldl (fun m p => Sparse.set (fun _ => 0) p.2 p.1 m) [] else s.lifeExc
      lifeSwap := if cold then pl.getD 125 0 else s.lifeSwap
      cribProg := if s.cribProg.isEmpty then top (top [] 0 (b % 2 ^ 32)) 512 (b / 2 ^ 32) else s.cribProg }
  | _ => s

/-! ### The misdeal unit -/

/-- The unit is active. -/
def State.msdOn (s : State) : Bool := s.on MSD_STAT_ACT

/-- The unit stops with cause `k` (R459); frames that it holds are sent unchanged. -/
def State.msdStop (s : State) (k : Nat) : State :=
  if s.msdOn then
    let s := (((s.wr MSD_STAT_ACT 0).flag MSD_STAT_DONE).wr MSD_STAT_CAUSE k).logEv 0x0010 0 k 0
    { s with msdOff := some s.clk, txNow := s.txNow ++ s.txHeld.map (·.tx), txHeld := [] }
  else s

/-- MISDEAL_DURATION_EXPIRY (R459): DUR seconds have passed. -/
def opMisdealDurationExpiry (s : State) : State := if s.msdOn ∧ s.msdEnd ≤ s.clk then s.msdStop 0 else s

/-- The unit starts (R459): the application of a deal that writes `MSD_CTL.EN` = 1. -/
def State.msdStart (s : State) : State :=
  let s := (s.wr MSD_STAT_ACT 1).logEv 0x0010 1 0 0
  { s with msdEnd := s.clk + s.rd MSD_CTL_DUR * cySec }

/-- The unit selects an item (R460): a 16-bit value drawn for it is at most `p`. -/
def State.msdSelect (s : State) (p : Nat) : Bool × State :=
  let d := s.draw
  (decide (d.1.toNat % 65536 ≤ p), d.2)

end Sys2Proof.Machine
end

