-- ==== Sys2Proof/Machine/Modem.lean ====
section
/-!
DEFINITION. The Duold line modem (R368 to R389) from its decoded frames and measured symbols upward: beacons, grants,
joining, acknowledgements, descriptors, the receive ring, impulsive noise, duty and level hedges.
-/
namespace Sys2Proof.Machine

/-! ### Symbols and duty -/

/-- Fabric cycles of `n` symbols of 240 µs. -/
def cySym (n : Nat) : Nat := n * 589824 / 5

/-- The symbols that a frame of mode `mode` and `len` payload bytes takes (R370, R371): 8 + S. -/
def frameSyms (mode len : Nat) : Nat :=
  let b := len + 12
  let c := b + 16 * ((b + 238) / 239)
  let k := match mode with | 0 => 9 | 1 => 36 | 2 => 72 | _ => 108
  8 + (8 * c + 6 + k - 1) / k

/-- The largest MAC payload of a mode (Table 12-2). -/
def maxPay (mode : Nat) : Nat := match mode with | 0 => 97 | 1 => 459 | 2 => 931 | _ => 1403

/-- The symbols sent in the last 250,000 symbol times (R385). -/
def State.dutyCount (s : State) : Nat :=
  s.duoDuty.foldl (fun n p =>
    let e := p.1 + 60 * cySec
    n + (if s.clk ≤ e then p.2 else p.2 - (s.clk - e) * 5 / 589824)) 0

/-- Whether `n` symbols more stay within the duty ceiling. -/
def State.dutyOk (s : State) (n : Nat) : Bool := decide (s.dutyCount + n ≤ 250 * s.rd HDG_DUO_DUTY)

/-- A withholding (R385). -/
def State.dutyHold (s : State) : State := (s.flag DUO_STAT_DUTYHOLD).inc DUO_HOLDCNT_V

/-- Neither safe state holds the transmitter (R386, Table 14-4). -/
def State.duoFree (s : State) : Bool := !s.on HDG_STAT_SAFE && !s.on DUO_STAT_HEDGE

/-- A transmission begins: `DUO_TXEN` rises, the receiver is blanked (R383). `bytes` are the MAC header and payload; their
CRC-32 ends the frame (R371). -/
def State.duoSend (s : State) (syms : Nat) (bytes : List Byte) (desc : Option Nat) : State :=
  { s.wr DUO_STAT_TXON 1 with
    duoTx := some { start := s.clk, syms := syms, bytes := bytes ++ leBytes 4 (crc32 bytes), desc := desc }
    duoDuty := (s.clk, syms) :: s.duoDuty.filter fun p => s.clk < p.1 + 61 * cySec }

/-- The output stops: a safe state, within one symbol (R386). -/
def State.duoQuiet (s : State) : State :=
  if s.duoTx.isSome then { s.wr DUO_STAT_TXON 0 with duoTx := none, duoBlank := s.clk + cyUs 50 } else s

/-- The modem safe state of a hedge (R386). -/
def State.duoHedge (s : State) : State := s.duoQuiet.flag DUO_STAT_HEDGE

/-! ### Descriptors -/

/-- The descriptor's word 2 as the modem writes it, and word 3 with the SEQ where there is one. -/
def State.descState (s : State) (d : TxDesc) (st : Nat) : State :=
  s.ffStore (d.addr + 8) 4 (st * 2 ^ 28 + d.att % 16)

/-- Descriptor `d` ends with state `st` and leaves the queue. -/
def State.descEnd (s : State) (d : TxDesc) (st : Nat) : State :=
  let s := s.descState d st
  { s with duoQ := s.duoQ.filter fun e => e.id ≠ d.id }

/-- Descriptor `d` is done (STATE 3h). -/
def State.descDone (s : State) (d : TxDesc) : State := (s.descEnd d 3).flag DUO_STAT_TXDONE

/-- `d` in place of the descriptor of its number. -/
def State.descPut (s : State) (d : TxDesc) : State :=
  { s with duoQ := s.duoQ.map fun e => if e.id = d.id then d else e }

/-- Destination, mode and length of a descriptor. -/
def TxDesc.dest (d : TxDesc) : Nat := bits d.w0 31 24
def TxDesc.mode (d : TxDesc) : Nat := bits d.w0 17 16
def TxDesc.len (d : TxDesc) : Nat := bits d.w0 15 0

/-- The symbols of a descriptor's frame. -/
def TxDesc.syms (d : TxDesc) : Nat := frameSyms d.mode d.len

/-- The device's node number. -/
def State.node (s : State) : Nat := s.rd DUO_STAT_NODE

/-- The acknowledgement of destination `n` falls due: in a run that it owns in the present period (R381). -/
def State.runEndOf (s : State) (n from_ : Nat) : Option Nat :=
  let own (k : Nat) : Bool := decide (k < 64) && decide (s.grants.getD k 255 = n)
  let ends := (List.range 64).filter fun k => own k && !own (k + 1)
  let starts (k : Nat) : Nat := ((List.range (k + 1)).reverse.takeWhile own).length
  let e := ends.find? fun k => decide (from_ ≤ s.bcnClk + cySym (80 + 30 * (k + 1 - starts k)))
  e.map fun k => s.bcnClk + cySym (110 + 30 * k)

/-- A SEQ acknowledged by `n` ends its descriptor (R380). -/
def State.acked (s : State) (n seq : Nat) : State :=
  match s.duoQ.find? (fun d => d.sent && decide (d.dest = n) && decide (d.seq = seq)) with
  | some d => s.descDone d
  | none => s

/-- The node number changes (R378, R379, R388). -/
def State.setNode (s : State) (n : Nat) : State :=
  if s.node = n then s else (s.wr DUO_STAT_NODE n).flag DUO_STAT_LINKCHG

/-- Every descriptor ends with state `st`. -/
def State.descAll (s : State) (st : Nat) : State := s.duoQ.foldl (fun s d => s.descEnd d st) s

/-- A beacon period begins with the grants in force: acknowledgements of runs, and descriptors that fit no run for
eight periods (R381, R383). -/
def State.periodStart (s : State) : State :=
  let own (k : Nat) : Bool := decide (k < 64) && decide (s.grants.getD k 255 = s.node)
  let run (k : Nat) : Nat := ((List.range 64).map (· + k)).takeWhile own |>.length
  let most := ((List.range 64).map run).foldl Nat.max 0
  s.duoQ.foldl (fun (s : State) d =>
    let d := if d.sent && d.due.isNone && decide (s.node = 0) then { d with due := s.runEndOf d.dest s.bcnClk } else d
    let fits := decide (d.syms + 1 ≤ 30 * most)
    let d := { d with miss := if d.sent || fits then 0 else d.miss + 1 }
    let s := s.descPut d
    if d.miss = 8 then s.flag DUO_STAT_TXFAIL else s) s

/-- A beacon period begins without a beacon: it grants nothing, and the acknowledgements of the period before it are not
given (R377, R378). -/
def State.periodLost (s : State) : State := ({ s with bcnOk := false, grants := [], duoAcks := [] } : State).periodStart

/-- A write of `DUO_TXPOST` (R382): the result, and the state. -/
def State.txPost (s : State) (o : Nat) (a : Nat) : State :=
  let res (s : State) (r : Nat) : State := { s with duoRes := Sparse.set (fun _ => 0) o r s.duoRes }
  if a % 16 ≠ 0 ∨ 0x1FFFF0 < a then res s 3
  else if 8 ≤ s.duoQ.length then res s 2
  else
    let d : TxDesc := { id := s.duoId, addr := a, w0 := s.load32 a, pay := s.load32 (a + 4) }
    let s : State := { res s 1 with duoId := s.duoId + 1 }
    let bad := decide (maxPay d.mode < d.len) || decide (s.node = 0 ∧ d.dest = 0) || decide (s.node ≠ 0 ∧ d.dest ≠ 0)
    if s.node = 255 then s.descState d 6
    else if bad then s.descState d 5
    else { s.descState d 1 with duoQ := s.duoQ ++ [d] }

/-! ### The receive ring -/

/-- `w` stored in the ring at offset `a`, if field RAM holds it; otherwise recorded as a refused access (R382). -/
def State.rxStore (s : State) (a w : Nat) : State :=
  let a := s.rd DUO_RXBASE_V * 32 + a
  if a + 4 ≤ 0x200000 then s.ffStore a 4 w else s.refuse 13 a true

/-- A record of the receive ring (R384): its words; dropped where it does not fit before the read pointer. -/
def State.rxPut (s : State) (ws : List Nat) : State :=
  let n := 4 * ws.length
  let len := s.rd DUO_RXLEN_V * 32
  let wp := s.rd DUO_RXWPTR_V * 32
  let rp := s.rd DUO_RXRPTR_V * 32
  let drop := (s.inc DUO_RXDROPCNT_V).flag DUO_STAT_RXDROP
  let put (s : State) (at_ : Nat) : State :=
    let s := ws.zipIdx.foldl (fun (s : State) p => s.rxStore (at_ + 4 * p.2) p.1) s
    (s.wr DUO_RXWPTR_V ((if at_ + n = len then 0 else at_ + n) / 32)).flag DUO_STAT_RXDONE
  if wp < rp then (if wp + n < rp then put s wp else drop)
  else if wp + n < len ∨ (wp + n = len ∧ rp ≠ 0) then put s wp
  else if n < rp then put (s.rxStore wp (2 ^ 32 - 1)) 0
  else drop

/-- Payload bytes as words, padded to a multiple of 32 bytes. -/
def padWords (bs : List Byte) : List Nat :=
  (List.range ((bs.length + 31) / 32 * 8)).map fun i => ofLe ((bs.drop (4 * i)).take 4)

/-- The record of MAC frame `bs` of mode `mode`, with S, E and SNR (R384); it ended now. -/
def State.rxRecord (s : State) (mode sy er snr : Nat) (bs : List Byte) : State :=
  let h (i : Nat) : Nat := (bs.getD i 0).toNat
  let t0 := s.clk - cySym (8 + sy)
  let inj := s.msdOn || (match s.msdOff with | some t => decide (t0 < t) | none => false)
  let pay := bs.drop 8
  let w0 := b2n inj * 2 ^ 31 + bit (h 5) 1 * 2 ^ 30 + mode * 2 ^ 28 + h 0 / 16 * 2 ^ 24 + h 1 * 65536 + pay.length % 65536
  let w1 := h 2 * 2 ^ 24 + h 3 * 65536 + er * 256 + sy
  s.rxPut ([w0, w1, snr] ++ (s.stampAt (s.rd DUO_CTL_FW) t0 true).map BitVec.toNat ++ padWords pay)

/-! ### Sending -/

/-- The MAC header and payload of a frame (R371). -/
def State.macFrame (s : State) (type src dst seq : Nat) (retry : Bool) (pay : List Byte) : List Byte :=
  let last := Sparse.get (fun _ => 0) dst s.duoLast
  let b (n : Nat) : Byte := BitVec.ofNat 8 n
  [b (16 * type), b src, b dst, b seq, b (last - 1), b (b2n (decide (last ≠ 0)) + 2 * b2n retry), b pay.length,
    b (pay.length / 256)] ++ pay

/-- Bytes 0 to 267 of the beacon of sequence number `n` (R377). -/
def State.beaconPay (s : State) (n : Nat) : List Byte :=
  leBytes 2 (s.rd DUO_CTL_DOMAIN) ++ leBytes 2 n ++ leBytes 4 0
  ++ (List.range 16).flatMap (fun k => leBytes 4 (s.rdW (DUO_GRANT k)).toNat)
  ++ (List.range 64).flatMap (fun i => match s.duoAcks[i]? with
    | some p => [BitVec.ofNat 8 p.1, BitVec.ofNat 8 p.2]
    | none => [255, 255])
  ++ (List.range 4).flatMap (fun j =>
    if s.on (DUO_JOINC_VALID j) then
      leBytes 4 (s.rdW (DUO_JOINL j)).toNat ++ leBytes 4 (s.rdW (DUO_JOINH j)).toNat ++ leBytes 1 (s.rd (DUO_JOINC_NODE j))
    else List.replicate 9 0)
  ++ (List.range 8).flatMap (fun k => leBytes 4 (s.rdW (DUO_BCNDATA k)).toNat)

/-- BEACON_SEND (R376, R377): every 2000 symbols on the coordinator's own count. -/
def opBeaconSend (s : State) : State :=
  if !s.on DUO_CTL_EN || !s.on DUO_CTL_ROLE || decide (s.clk < s.bcnClk + (if s.bcnRun then cySym 2000 else 0)) then s
  else
    let s : State := { s with bcnClk := s.clk, bcnRun := true }
    if !s.duoFree || s.duoTx.isSome then s.periodLost
    else if !s.dutyOk 78 then s.dutyHold.periodLost
    else
      let n := (s.rd DUO_BCNSEQ_V + 1) % 65536
      let s := s.wr DUO_BCNSEQ_V n
      let s := s.duoSend 78 (s.macFrame 3 0 255 (n % 256) false (s.beaconPay n)) none
      let s := (List.range 4).foldl (fun (s : State) j =>
        if s.on (DUO_JOINC_VALID j) then
          let k := Sparse.get (fun _ => 0) j s.joinBc + 1
          if k = 4 then { s.wr (DUO_JOINC_VALID j) 0 with joinBc := Sparse.set (fun _ => 0) j 0 s.joinBc }
          else { s with joinBc := Sparse.set (fun _ => 0) j k s.joinBc }
        else s) s
      let gs := (List.range 16).flatMap fun k => (leBytes 4 (s.rdW (DUO_GRANT k)).toNat).map BitVec.toNat
      ({ s with bcnOk := true, grants := gs, duoAcks := [] } : State).periodStart

/-- The receiver takes nothing while it is blanked (R383). -/
def State.duoDeaf (s : State) : Bool := !s.on DUO_CTL_EN || s.duoTx.isSome || decide (s.clk < s.duoBlank)

/-- The gain code that the receiver sets, in use while it is not fixed (R375). -/
def State.setGain (s : State) (g : Nat) : State := s.wr DUO_AGC_GAIN g

/-- The join answers of a beacon (R379): a node ID for this device's UID. -/
def State.joinAnswer (s : State) (bs : List Byte) : Option Nat :=
  let uid := (s.rdW DEAL_UIDL).toNat + (s.rdW DEAL_UIDH).toNat * 2 ^ 32
  ((List.range 4).find? fun j => decide (ofLe ((bs.drop (200 + 9 * j)).take 8) = uid)
    && decide (0 < (bs.getD (208 + 9 * j) 0).toNat) && decide ((bs.getD (208 + 9 * j) 0).toNat < 255)).map
    fun j => (bs.getD (208 + 9 * j) 0).toNat

/-- BEACON_RECEIVE (R375, R378, R379): a beacon received whole; its 268 payload bytes. -/
def opBeaconReceive (bs : List Byte) (er : Fin 18) (snr : Fin 256) (gain : Fin 8) (s : State) : State :=
  let dom := ofLe (bs.take 2)
  let want := if s.node = 255 then s.rd DUO_CTL_DOMAIN else s.duoDom
  if s.duoDeaf || s.on DUO_CTL_ROLE || decide (want ≠ 65535 ∧ want ≠ dom) then s
  else
    let seq := ofLe ((bs.drop 2).take 2)
    let s := (s.setGain gain).wr DUO_BCNSEQ_V seq
    let s := if s.on DUO_CTL_BCNREC then s.rxRecord 1 70 er snr (s.macFrame 3 0 255 (seq % 256) false bs) else s
    let s : State := { s with
      bcnClk := s.clk - cySym 78, bcnOk := true, duoMiss := 0, duoDom := dom
      grants := ((bs.drop 8).take 64).map BitVec.toNat
      joinWait := s.joinWait.map (· + 1) }
    let s := (List.range 64).foldl (fun (s : State) i =>
      if (bs.getD (72 + 2 * i) 255).toNat = s.node ∧ s.node ≠ 255 then s.acked 0 (bs.getD (73 + 2 * i) 0).toNat else s) s
    let s := if s.node ≠ 255 then s
      else match s.joinAnswer bs with
        | some n => { (s.setNode n).wr DUO_STAT_LINK 2 with joinN := none, joinWait := none }
        | none => match s.joinN with
          | some 3 => { s with joinN := none, joinWait := some 0 }
          | some k => { s with joinN := some (k + 1) }
          | none => s
    s.periodStart

/-- BEACON_MISS (R378). -/
def opBeaconMiss (s : State) : State :=
  if !s.on DUO_CTL_EN || s.on DUO_CTL_ROLE || s.node = 255 || decide (s.clk < s.bcnClk + cySym 2078) then s
  else
    let s := (s.flag DUO_STAT_BCNMISS).inc DUO_BCNMISSCNT_V
    let s : State := { s with bcnClk := s.bcnClk + cySym 2000, duoMiss := s.duoMiss + 1 }
    let s := s.periodLost
    if 8 ≤ s.duoMiss then { ((s.descAll 6).setNode 255).wr DUO_STAT_LINK 1 with duoMiss := 0 } else s

/-- It is the start of slot `k` of the present period, to the symbol: frames start nowhere else (R378). -/
def State.atSlot (s : State) (k : Nat) : Bool :=
  decide (s.bcnClk + cySym (80 + 30 * k) ≤ s.clk) && decide (s.clk < s.bcnClk + cySym (81 + 30 * k))

/-- JOIN_SEND (R379): a searching node sends its join frame in the join pair that it chose, once in a period. -/
def opJoinSend (pair : Fin 32) (s : State) : State :=
  let ok := s.on DUO_CTL_EN && !s.on DUO_CTL_ROLE && decide (s.node = 255) && s.bcnOk && s.joinWait.isNone
    && s.duoFree && s.duoTx.isNone && decide (s.grants.getD (2 * pair) 0 = 255 ∧ s.grants.getD (2 * pair + 1) 0 = 255)
    && s.atSlot (2 * pair) && s.joinAt.all fun t => decide (t < s.bcnClk)
  if !ok then s
  else if !s.dutyOk 41 then s.dutyHold
  else
    let pay := leBytes 4 (s.rdW DEAL_UIDL).toNat ++ leBytes 4 (s.rdW DEAL_UIDH).toNat
    { s.duoSend 41 (s.macFrame 2 255 0 0 false pay) none with
      joinN := some (s.joinN.getD 0), joinAt := some s.clk }

/-- JOIN_BACKOFF_EXPIRY (R379): the random wait of 1 to 8 periods has passed. -/
def opJoinBackoffExpiry (s : State) : State :=
  match s.joinWait with
  | some k => if 1 ≤ k then { s with joinWait := none } else s
  | none => s

/-- The run of slots that starts at slot `k`, in slots. -/
def State.runAt (s : State) (k : Nat) : Nat :=
  let own (k : Nat) : Bool := decide (k < 64) && decide (s.grants.getD k 255 = s.node)
  if own k && !(decide (0 < k) && own (k - 1)) then ((List.range 64).map (· + k)).takeWhile own |>.length else 0

/-- A frame of descriptor `d` is sent (R381, R383). -/
def State.sendDesc (s : State) (d : TxDesc) : State :=
  if 0x200000 < d.pay + d.len then (s.refuse 13 d.pay false).descEnd d 5
  else
    let seq := if d.att = 0 then Sparse.get (fun _ => 0) d.dest s.duoSeq else d.seq
    let s : State := if d.att = 0 then
      { s with duoSeq := Sparse.set (fun _ => 0) d.dest ((seq + 1) % 256) s.duoSeq } else s.inc DUO_RETRY_V
    let e := s.clk + cySym d.syms
    let due := if s.node = 0 then s.runEndOf d.dest e else some (s.bcnClk + cySym 2078)
    let lim := if s.node = 0 then s.bcnClk + cySym 6000 else s.bcnClk + cySym 2078
    let again := decide (0 < d.att)
    let d := { d with seq := seq, att := d.att + 1, sent := true, due := due, lim := lim, retry := false, miss := 0 }
    let s := (s.descState d 2).ffStore (d.addr + 12) 4 seq
    let s := s.descPut d
    let s := s.duoSend d.syms (s.macFrame 0 s.node d.dest seq again (s.bytes d.pay d.len)) (some d.id)
    if s.node = 0 then s else { s with duoOwe := none }

/-- MODEM_RUN_START (R380, R383, R385): the device's run that starts at slot `k` begins. -/
def opModemRunStart (k : Fin 64) (s : State) : State :=
  let g := s.runAt k
  if !s.on DUO_CTL_EN || s.node = 255 || !s.bcnOk || !s.duoFree || s.duoTx.isSome || decide (g = 0)
      || !s.atSlot k then s
  else
    let fit (d : TxDesc) : Bool := decide (d.syms + 1 ≤ 30 * g)
    match ((s.duoQ.filter fun d => d.retry) ++ (s.duoQ.filter fun d => !d.sent)).find? fit with
    | some d => if s.dutyOk d.syms then s.sendDesc d else s.dutyHold
    | none =>
      if s.duoOwe.isSome ∧ s.node ≠ 0 then
        if s.dutyOk 15 then { s.duoSend 15 (s.macFrame 1 s.node 0 0 false []) none with duoOwe := none } else s.dutyHold
      else s

/-- MODEM_TRANSMIT_END (Table 12-5): a broadcast frame is done, others await their acknowledgement. -/
def opModemTransmitEnd (s : State) : State :=
  match s.duoTx with
  | none => s
  | some t =>
    if s.clk < t.start + cySym t.syms then s
    else
      let s : State := { s.wr DUO_STAT_TXON 0 with duoTx := none, duoBlank := t.start + cySym t.syms + cyUs 60 }
      match s.duoQ.find? (fun d => some d.id == t.desc && decide (d.dest = 255)) with
      | some d => s.descDone d
      | none => s

/-- MODEM_ACK_TIMEOUT (R381): the oldest acknowledgement that is due and absent. -/
def opModemAckTimeout (s : State) : State :=
  match s.duoQ.find? (fun d => d.sent && !d.retry && (decide (d.lim ≤ s.clk)
      || match d.due with | some t => decide (t < s.clk) | none => false)) with
  | none => s
  | some d =>
    if 4 ≤ d.att then ((s.descEnd d 4).inc DUO_TXLOST_V).flag DUO_STAT_TXFAIL
    else s.descPut { d with retry := true }

/-! ### Receiving -/

/-- What the misdeal unit makes of a received frame (Table 16-5): E, and whether its CRC still matches. -/
def State.msdModem (s : State) (sy er : Nat) (crc : Bool) : Nat × Bool × State :=
  if s.msdOn && s.on MSD_DUO_EN then
    let x := s.msdSelect (s.rd MSD_DUO_P)
    let s := x.2
    if x.1 then
      let s := s.inc MSD_DUOCNT_V
      let n := Nat.min (s.rd MSD_DUO_N) (sy - s.rd MSD_DUOOFS_OFS)
      let d := s.draw
      if s.on MSD_DUO_KIND then (er, crc && (decide (n = 0) || d.1.getLsbD 0), d.2)
      else
        -- which symbols were erased before is not known: the overlap is free
        let both := d.1.toNat % (Nat.min n er + 1)
        (Nat.min sy (er + n - both), crc, d.2)
    else (er, crc, s)
  else (er, crc, s)

/-- A frame whose CRC matches (R380): acknowledgements of this device's frames, duplicates, the record. -/
def State.duoAccept (s : State) (mode sy er snr : Nat) (bs : List Byte) : State :=
  let h (i : Nat) : Nat := (bs.getD i 0).toNat
  let type := h 0 / 16
  let src := h 1
  let s := if bit (h 5) 0 = 1 ∧ src ≠ 255 ∧ h 2 = s.node then s.acked src (h 4) else s
  if type = 0 then
    if h 2 ≠ s.node ∧ h 2 ≠ 255 then s
    else
      let dup := decide (Sparse.get (fun _ => 0) src s.duoLast = h 3 + 1)
      let s : State := if h 2 = 255 then s
        else if s.node = 0 then { s with duoAcks := if s.duoAcks.length < 64 then s.duoAcks ++ [(src, h 3)] else s.duoAcks }
        else { s with duoOwe := some (h 3) }
      if dup then s
      else ({ s with duoLast := Sparse.set (fun _ => 0) src (h 3 + 1) s.duoLast } : State).rxRecord mode sy er snr bs
  else if type = 2 ∧ s.node = 0 then s.rxRecord mode sy er snr bs
  else s

/-- MODEM_FRAME_RECEIVE (R373, R374): a frame ends; its mode, S, erased payload symbols, whether its frame control was
read and its CRC matches, its MAC header and payload, SNR and gain. -/
def opModemFrameReceive (mode : Fin 4) (sy er : Fin 113) (fc crc : Bool) (bs : List Byte) (snr : Fin 256) (gain : Fin 8)
    (s : State) : State :=
  if s.duoDeaf then s
  else
    let s := s.setGain gain
    if !fc then s
    else
      let x := s.msdModem sy er crc
      let s := x.2.2
      if sy.val / 4 < x.1 then (s.inc DUO_ERFAIL_V).inc DUO_CRCFAIL_V
      else if !x.2.1 then s.inc DUO_CRCFAIL_V
      else if s.node = 255 ∨ ((bs.getD 1 0).toNat ≠ 0 ∧ s.node ≠ 0) then s
      else s.duoAccept mode sy x.1 snr bs

/-- A list with `x` put in ascending order. -/
def insertAsc (x : Nat) : List Nat → List Nat
  | [] => [x]
  | y :: ys => if x ≤ y then x :: y :: ys else y :: insertAsc x ys

/-- MODEM_SYMBOL (R372, R375): one received symbol of energy `e`. The median of an even number of symbols is free
between its two middle ones. -/
def opModemSymbol (e : Nat) (gain : Fin 8) (s : State) : State :=
  if s.duoDeaf then s
  else
    let s := s.setGain gain
    let v := s.duoE.foldl (fun l x => insertAsc x l) []
    let thr := s.rd DUO_IMPCTL_V
    let above (n : Nat) : Bool := decide (n ^ 10 * 10 ^ thr < e ^ 10)
    let lo := above (v.getD ((v.length - 1) / 2) 0)
    let hi := above (v.getD (v.length / 2) 0)
    let d := s.draw
    let er := !v.isEmpty && hi || (!v.isEmpty && lo && d.1.getLsbD 0)
    let s : State := if lo == hi then s else d.2
    let s : State := { s with symRx := s.symRx + 1, symEr := s.symEr + b2n er }
    if er then
      let s := s.inc DUO_ERSYM_V
      let s := if s.duoEr then s else s.inc DUO_IMPCNT_V
      { s with duoEr := true }
    else { s with duoEr := false, duoE := (e :: s.duoE).take 32 }

/-! ### Registers -/

/-- `DUO_CTL.EN` = 0 (R388): the queue is withdrawn and the node leaves; a frame in progress completes. -/
def State.duoOff (s : State) : State :=
  let s := (((s.descAll 7).setNode 255).wr DUO_STAT_LINK 0).wr DUO_CTL_EN 0
  { s with bcnOk := false, joinN := none, joinWait := none, joinAt := none, duoAcks := [], duoOwe := none, duoMiss := 0 }

/-- `DUO_CTL.EN` becomes 1: coordinating, or searching. -/
def State.duoOn (s : State) : State :=
  let s : State := { s with bcnClk := s.clk, bcnRun := false, bcnOk := false, duoE := [], duoEr := false }
  if s.on DUO_CTL_ROLE then (s.setNode 0).wr DUO_STAT_LINK 3 else (s.setNode 255).wr DUO_STAT_LINK 1

/-- A change of ROLE or DOMAIN while EN = 1 is refused (R388). -/
def State.duoCtlBad (s : State) (w : Word) : Bool :=
  s.on DUO_CTL_EN && (decide (bit w.toNat 30 ≠ s.rd DUO_CTL_ROLE) || decide (bits w.toNat 15 0 ≠ s.rd DUO_CTL_DOMAIN))

/-- A write of `DUO_CTL` that `duoCtlBad` lets pass. -/
def State.duoCtl (s : State) (w : Word) : State :=
  let was := s.on DUO_CTL_EN
  let s := s.wrW DUO_CTL (w &&& 0xF800FFFF#32)
  if s.on DUO_CTL_EN then (if was then s else s.duoOn) else if was then s.duoOff else s

/-- A write of `DUO_TXCTL` by originator `o` (R386). -/
def State.duoLevel (s : State) (o : Nat) (w : Word) : State :=
  let l := bits w.toNat 5 0
  if s.rd HDG_DUO_LVLMAX < l then (s.violate 1 o l DUO_TXCTL).duoHedge else s.wr DUO_TXCTL_V l

/-- TXEN_READBACK_FAULT (R386): the read-back differs for 10 µs. -/
def opTxenReadbackFault (s : State) : State := (s.flag DUO_STAT_TXENF).duoHedge

end Sys2Proof.Machine
end

