-- ==== Sys2Proof/Machine/RingCore.lean ====
section
/-!
DEFINITION. Frames (R339), what leaves a transmitter through the misdeal unit (R460), request slots and responses
(R345, R346).
-/
namespace Sys2Proof.Machine

/-! ### Header fields (Table 11-2) -/

def Frame.cls (f : Frame) : Nat := bits f.w0 31 30
def Frame.bc (f : Frame) : Bool := decide (bit f.w0 29 = 1)
def Frame.pos (f : Frame) : Nat := bits f.w0 28 23
def Frame.tag (f : Frame) : Nat := bits f.w0 22 17
def Frame.op (f : Frame) : Nat := bits f.w0 16 12
def Frame.att (f : Frame) : Nat := bits f.w0 11 10
def Frame.led (f : Frame) : Bool := decide (bit f.w0 9 = 1)
def Frame.len (f : Frame) : Nat := bits f.w0 6 0
def Frame.arg1 (f : Frame) : Nat := f.w1 % 2 ^ 32
def Frame.chain (f : Frame) : Nat := bits f.w2 31 24
def Frame.arg2 (f : Frame) : Nat := bits f.w2 15 0

/-- Header word 0 from its fields; bits [9:7] are 0. -/
def hdr0 (cls pos tag op att len : Nat) : Nat :=
  cls % 4 * 2 ^ 30 + pos % 64 * 2 ^ 23 + tag % 64 * 2 ^ 17 + op % 32 * 2 ^ 12 + att % 4 * 2 ^ 10 + len % 128

/-- The device's position and chain. -/
def State.myPos (s : State) : Nat := s.rd BAL_PLOT_POS
def State.myChain (s : State) : Nat := s.rd BAL_PLOT_CHAIN

/-! ### Transmitters -/

/-- A frame of the transmitter of its ring that no action of the misdeal unit holds: behind a delayed frame it waits, and
a frame held for reordering follows it. -/
def State.txGo (s : State) (t : TxFrame) : State :=
  let mine := s.txHeld.filter fun h => h.tx.ring == t.ring
  match (mine.filter fun h => !h.reorder).getLast? with
  | some h => { s with txHeld := s.txHeld ++ [{ tx := t, due := h.due, reorder := false }] }
  | none => { s with
      txNow := s.txNow ++ t :: (mine.map (·.tx)).reverse
      txHeld := s.txHeld.filter fun h => h.tx.ring != t.ring }

/-- A frame sent on ring `r`, `own` where this device originates it (R460, Table 16-5). -/
def State.txPut (s : State) (r : Nat) (f : Frame) (bad : Nat) (own : Bool) : State :=
  let t : TxFrame := { ring := r, frame := f, bad := bad }
  if s.msdOn && s.on (MSD_RING_EN r) && (own || !s.on (MSD_RING_OWN r)) then
    let sel := s.msdSelect (s.rd (MSD_RING_P r))
    let s := sel.2
    if sel.1 then
      let s := s.inc (MSD_RCNT_V r)
      match s.rd (MSD_RING_ACT r) with
      | 0 => s
      | 1 => s.txGo { t with bad := 1 }
      | 2 => { s with txHeld := s.txHeld ++ [{ tx := t, due := s.clk + cyUs 100, reorder := true }] }
      | _ => { s with txHeld := s.txHeld ++ [{ tx := t, due := s.clk + cyUs (s.rd (MSD_RDLY_V r)), reorder := false }] }
    else s.txGo t
  else s.txGo t

/-- Of held frames, those of ring `r` that may go by cycle `now`, in order, and the rest: a delayed frame that is not due
stops those behind it. -/
def heldGo (now r : Nat) : Bool → List HeldFrame → List TxFrame × List HeldFrame
  | _, [] => ([], [])
  | stop, h :: hs =>
    if h.tx.ring = r ∧ !stop ∧ h.due ≤ now then
      let x := heldGo now r stop hs
      (h.tx :: x.1, x.2)
    else
      let x := heldGo now r (stop || (h.tx.ring == r && !h.reorder)) hs
      (x.1, h :: x.2)

/-- MISDEAL_FRAME_RELEASE (R460): the frames of ring `r` whose time has passed are sent. -/
def opMisdealFrameRelease (r : Fin 2) (s : State) : State :=
  let x := heldGo s.clk r false s.txHeld
  { s with txNow := s.txNow ++ x.1, txHeld := x.2 }

/-! ### Request slots and responses -/

/-- `BAL_SLOT` follows the slots in use (R346). -/
def State.slotShow (s : State) : State :=
  let n := s.reqs.length
  let s := s.wr BAL_SLOT_USED n
  if s.rd BAL_SLOT_MAX < n then s.wr BAL_SLOT_MAX n else s

/-- A response to the request frame `q` (R340): CLS 01b, this position, OP and TAG of the request. Header fields that
the manual gives no value there are free. -/
def State.respFrame (s : State) (q : Frame) (status : Nat) (arg1 arg2 : Option Nat) (pay : List Word) : Frame × State :=
  let d := s.draw
  let e := d.2.draw
  let w1 := match arg1 with | some a => a % 2 ^ 32 | none => d.1.toNat
  let a2 := match arg2 with | some a => a % 2 ^ 16 | none => e.1.toNat % 2 ^ 16
  ({ w0 := hdr0 1 s.myPos q.tag q.op (e.1.toNat / 2 ^ 16) pay.length + bit e.1.toNat 31 * 2 ^ 9
     w1 := w1
     w2 := s.myChain * 2 ^ 24 + status % 256 * 2 ^ 16 + a2
     pay := pay }, e.2)

/-- The frames `fs` answer a request of frame `q` from ring `ring`: on the other ring (R345), kept for 1 ms. -/
def State.answer (s : State) (ring : Nat) (q : Frame) (fs : List Frame) : State :=
  let s := fs.foldl (fun s f => s.txPut (1 - ring) f 0 true) s
  { s with kept := { ring := ring, tag := q.tag, at_ := s.clk, frames := fs }
      :: s.kept.filter fun k => !(k.ring == ring && k.tag == q.tag) && decide (s.clk < k.at_ + cyMs) }

/-- The request's slot is freed. -/
def State.reqFree (s : State) (id : Nat) : State :=
  ({ s with reqs := s.reqs.filter fun q => q.id != id } : State).slotShow

/-- The request of number `id` is answered with several frames. -/
def State.respondAll (s : State) (q : Request) (fs : List Frame) : State := (s.answer q.ring q.frame fs).reqFree q.id

/-- The request `q` is answered with one frame. -/
def State.respond (s : State) (q : Request) (status : Nat) (arg2 : Option Nat) (pay : List Word) : State :=
  let r := s.respFrame q.frame status none arg2 pay
  r.2.respondAll q [r.1]

/-- The request of number `id`, if it still holds a slot. -/
def State.reqOf (s : State) (id : Nat) : Option Request := s.reqs.find? fun q => q.id == id

/-- The request of number `id` is answered, if it still holds a slot. -/
def State.respondId (s : State) (id status : Nat) (arg2 : Option Nat) (pay : List Word) : State :=
  match s.reqOf id with
  | some q => s.respond q status arg2 pay
  | none => s

/-- The request waits for its response. -/
def State.reqBusy (s : State) (id : Nat) : State :=
  { s with reqs := s.reqs.map fun q => if q.id == id then { q with busy := true } else q }

/-- RESPONSE_KEEP_EXPIRY (R345): responses sent 1 ms ago are discarded. -/
def opResponseKeepExpiry (s : State) : State := { s with kept := s.kept.filter fun k => s.clk < k.at_ + cyMs }

end Sys2Proof.Machine
end

