-- ==== Sys2Proof/Machine/DealCore.lean ====
section
/-!
DEFINITION. The deal ledger's state (R357): what it shows, how a deal ends, the instant a held deal waits for (R362), and
what other blocks do to it.
-/
namespace Sys2Proof.Machine

/-- `DEAL_STAT` shows the ledger's deal; nothing of it in IDLE (R357, Table 11-9). -/
def State.dealShow (s : State) (auth : Bool) : State :=
  match s.deal with
  | some d =>
    let s := (s.wr DEAL_STAT_STATE (if d.play.isSome then 2 else 1)).wr DEAL_STAT_OWNER d.owner
    ((s.wr DEAL_STAT_AUTH (b2n auth)).wr DEAL_STAT_SEED (b2n d.seed)).wr DEAL_STAT_ENTRIES d.entries.length
  | none =>
    let s := (s.wr DEAL_STAT_STATE 0).wr DEAL_STAT_OWNER 0
    ((s.wr DEAL_STAT_AUTH 0).wr DEAL_STAT_SEED 0).wr DEAL_STAT_ENTRIES 0

/-- The deal ends with outcome `res` at entry `idx`; every outcome but an application is logged (R365). -/
def State.dealEnd (s : State) (res idx : Nat) : State :=
  let s := ({ s with deal := none } : State).dealShow false
  let s := (s.wr DEAL_RES_OUT res).wr DEAL_RES_IDX idx
  if res = 1 then s else s.logEv 0x000E res idx 0

/-- The hand that played waits no more: its `DREQ` writes status `st` (R273, Table 08-23). -/
def State.dealHand (s : State) (w : Option (Nat × Nat × Nat)) (st : Nat) : State :=
  match w with
  | some (p, h, rd) =>
    if (s.handOf p h).st = .wait (.deal rd) then
      s.retire p h ((s.handOf p h).setX rd (BitVec.ofNat 32 st)) 1
    else s
  | none => s

/-- The cycle whose angle a play at a crossing starts from: the crossing comes after it, at least 20 µs after the play
arrived and after its checks ended (R362). -/
def Deal.from_ (d : Deal) (p : Play) : Nat := Nat.max (p.at_ + cyUs 20 - 1) d.chkEnd

/-- The instant that a held deal's play names has come (R362, Table 11-7). -/
def State.dealInstant (s : State) (d : Deal) (p : Play) : Bool :=
  match p.word % 4 with
  | 0 => decide (d.chkEnd < s.clk)
  | 1 =>
    let f := s.furrow (bits p.word 5 4)
    let c := d.from_ p
    decide (c < s.clk) && decide (0 ≤ angDiff (f.angle s.clk) ((f.angle c / 16777216 + 1) * 16777216))
  | _ => decide (d.chkEnd < s.clk) && decide (768 * (p.sec * 1000000000 + p.nsec) ≤ s.tb0.at s.clk * 3125)

/-- The deal fails at application (R362, R364). -/
def State.dealLate (s : State) (res idx : Nat) : State := (s.flag DEAL_STAT_LATEFAIL).dealEnd res idx

/-- Furrow `n` is disabled: a deal held for its crossing fails in this cycle (R362). -/
def State.dealFurOff (s : State) (n : Nat) : State :=
  match s.deal with
  | some d => match d.play with
    | some p =>
      if p.word % 4 = 1 ∧ bits p.word 5 4 = n ∧ !s.dealInstant d p then s.dealLate 7 0 else s
    | none => s
  | none => s

/-- A plough's deal is folded by the safe state or by an activation (Table 14-4, Table 15-7). -/
def State.dealPlough (s : State) : State :=
  match s.deal with
  | some d =>
    if d.owner < 4 then (s.dealHand (d.checking.bind (·.hand)) 3).dealEnd 2 0 else s
  | none => s

/-- A seed play request is issued (R60, R362): it is taken by a deal held with SEED whose instant has come. -/
def State.dealSeed (s : State) : State :=
  match s.deal with
  | some d => match d.play with
    | some p =>
      if d.seed then
        if d.trig.isNone && s.dealInstant d p then { s with deal := some { d with trig := some s.clk } } else s
      else s.flag DEAL_STAT_SEEDIGN
    | none => s.flag DEAL_STAT_SEEDIGN
  | none => s.flag DEAL_STAT_SEEDIGN

/-- Seconds that `DEAL_TMO` shows: counted from the open, stopped while HELD (R357). -/
def State.dealTmo (s : State) : Nat :=
  match s.deal with
  | some d => d.tmo - ((if d.play.isSome then d.chkEnd else s.clk) - d.openAt) / cySec
  | none => 0

end Sys2Proof.Machine
end

