-- ==== Sys2Proof/Machine/Update.lean ====
section
/-!
DEFINITION. The update engine (R431 to R448): boot records, images and their verification, deltas, the engine's jobs of
records to be committed, commands, activation, trial, confirmation and reversion.
-/
namespace Sys2Proof.Machine

/-! ### Boot records (Table 15-2) -/

/-- Type, length and locations of boot record `i`: 0 selector, 1 and 2 the markers of slots A and B, 3 trial progress,
4 the authentication ceiling. -/
def bootRec : Nat → Nat × Nat × Nat × Nat
  | 0 => (0x90, 3, 0x200000, 0x200200)
  | 1 => (0x91, 11, 0x200400, 0x200600)
  | 2 => (0x91, 11, 0x200800, 0x200A00)
  | 3 => (0x92, 1, 0x200C00, 0x200E00)
  | _ => (0x93, 1, 0x201000, 0x201200)

/-- The payload of the newest valid sheaf of boot record `i`. -/
def State.bootRead (s : State) (i : Nat) : Option (List Nat) :=
  let r := bootRec i
  (s.record r.1 r.2.1 r.2.2.1 r.2.2.2).map (·.2)

/-- The words of boot record `i` with payload `pl`, as pushes. -/
def State.bootWords (s : State) (i : Nat) (pl : List Nat) : List (Nat × Nat) :=
  let r := bootRec i
  (s.recordWords r.1 r.2.1 r.2.2.1 r.2.2.2 pl).map fun w => (w.addr, w.data)

/-- Fields of a selector's payload. -/
def selState (p : List Nat) : Nat := bits (p.getD 0 0) 1 0
def selSlot (p : List Nat) : Nat := bit (p.getD 0 0) 4
def selPrev (p : List Nat) : Nat := bit (p.getD 0 0) 5
def selBank (p : List Nat) : Nat := bit (p.getD 0 0) 8
def selPrevBank (p : List Nat) : Nat := bit (p.getD 0 0) 9
def selBoots (p : List Nat) : Nat := bits (p.getD 0 0) 17 16
def selHash (p : List Nat) : Nat := p.getD 1 0 % 2 ^ 32
def selWin (p : List Nat) : Nat := p.getD 1 0 / 2 ^ 32
def selPrevHash (p : List Nat) : Nat := p.getD 2 0 % 2 ^ 32

/-- A selector's payload from its fields. -/
def mkSel (st slot prev bank pbank boots hash win phash : Nat) : List Nat :=
  [st + slot * 16 + prev * 32 + bank * 256 + pbank * 512 + boots * 65536, hash + win * 2 ^ 32, phash]

/-- A selector with another STATE. -/
def selWith (p : List Nat) (st boots : Nat) : List Nat :=
  mkSel st (selSlot p) (selPrev p) (selBank p) (selPrevBank p) boots (selHash p) (selWin p) (selPrevHash p)

/-- Fields of a marker's payload. -/
def mkState (p : List Nat) : Nat := bits (p.getD 0 0) 3 0
def mkKind (p : List Nat) : Nat := bit (p.getD 0 0) 4
def mkBlocks (p : List Nat) : Nat := bits (p.getD 0 0) 24 16
def mkLen (p : List Nat) : Nat := p.getD 0 0 / 2 ^ 32
def mkOut (p : List Nat) : Nat := p.getD 1 0 % 2 ^ 32
def mkVer (p : List Nat) : Nat := p.getD 1 0 / 2 ^ 32
def mkSfmt (p : List Nat) : Nat := p.getD 2 0 % 65536
def mkHash (p : List Nat) : List Nat := (p.drop 3).take 4
def mkBase (p : List Nat) : List Nat := (p.drop 7).take 4

/-- A marker's payload from its fields. -/
def mkMark (st kind blocks len out ver sfmt : Nat) (hash base : List Nat) : List Nat :=
  [st + kind * 16 + blocks * 65536 + len * 2 ^ 32, out + ver * 2 ^ 32, sfmt]
    ++ (hash ++ [0, 0, 0, 0]).take 4 ++ (base ++ [0, 0, 0, 0]).take 4

/-- A marker with another STATE; its hash is held in VERIFIED alone. -/
def markWith (p : List Nat) (st : Nat) : List Nat :=
  mkMark st (mkKind p) (mkBlocks p) (mkLen p) (mkOut p) (mkVer p) (mkSfmt p) (if st = 3 then mkHash p else []) (mkBase p)

/-- The marker of slot `k` in force. -/
def State.marker (s : State) (k : Nat) : List Nat := Sparse.get (fun _ => []) k s.updMark

/-- The inactive slot (R438). -/
def State.inactive (s : State) : Nat := if s.updSel.isEmpty then 0 else 1 - selSlot s.updSel

/-- The slot whose image runs: the selector's, or the one that step 2 chose. -/
def State.running (s : State) : Option Nat := if s.updSel.isEmpty then s.bootSlot else some (selSlot s.updSel)

/-- A trial runs (R442). -/
def State.trial (s : State) : Bool := decide (selState s.updSel = 1)

/-- Seconds of the trial that have passed (R442). -/
def State.trialSecs (s : State) : Nat := s.trialBase + (s.clk - s.trialClk) / cySec

/-- The `UPD` registers follow the records in force (Table 15-9). -/
def State.updShow (s : State) : State :=
  let p := s.updSel
  let m := s.marker s.inactive
  let s := ((s.wr UPD_STAT_TRIAL (b2n s.trial)).wr UPD_STAT_SLOT (selSlot p)).wr UPD_STAT_SBANK (selBank p)
  let s := s.wr UPD_TRIALSTAT_BOOTS (selBoots p)
  let s := ((s.wr UPD_DLSTAT_STATE (mkState m)).wr UPD_DLSTAT_KIND (mkKind m)).wr UPD_DLSTAT_BLOCKS (mkBlocks m)
  let s := s.wr UPD_INACTVER_V (if mkState m ≤ 1 then 0 else mkVer m)
  (List.range 8).foldl (fun s w =>
    s.wr (UPD_HASH_V w) (if mkState m = 3 then (mkHash m).getD (w / 2) 0 / 2 ^ (32 * (w % 2)) else 0)) s

/-- Slot `k`'s marker in force becomes `m`. -/
def State.setMark (s : State) (k : Nat) (m : List Nat) : State :=
  ({ s with updMark := Sparse.set (fun _ => []) k m s.updMark } : State).updShow

/-- The selector in force becomes `p`. -/
def State.setSel (s : State) (p : List Nat) : State := ({ s with updSel := p } : State).updShow

/-! ### Images (R433, R434) -/

/-- The barn offset of slot `k`. -/
def slotBase (k : Nat) : Nat := 0x100000 * k

/-- `n` bytes of slot `k` from image offset `a`. -/
def State.slotBytes (s : State) (k a n : Nat) : List Byte :=
  (List.range n).map fun i => s.byte (s.barnAddr (slotBase k + a + i))

/-- The little-endian number of `n` bytes of slot `k` at image offset `a`. -/
def State.imgNum (s : State) (k a n : Nat) : Nat := ofLe (s.slotBytes k a n)

/-- LEN, SFMT and VERSION of the image in slot `k`. -/
def State.imgLen (s : State) (k : Nat) : Nat := s.imgNum k 8 4
def State.imgSfmt (s : State) (k : Nat) : Nat := s.imgNum k 6 2
def State.imgVer (s : State) (k : Nat) : Nat := s.imgNum k 12 4

/-- The segments of the image in slot `k`: SRC, DST, SIZE. -/
def State.imgSegs (s : State) (k : Nat) : List (Nat × Nat × Nat) :=
  (List.range (Nat.min 8 (s.imgNum k 20 4))).map fun i =>
    (s.imgNum k (24 + 12 * i) 4, s.imgNum k (28 + 12 * i) 4, s.imgNum k (32 + 12 * i) 4)

/-- No two of the ranges overlap. -/
def apart : List (Nat × Nat × Nat) → Bool
  | [] => true
  | a :: l => l.all (fun b => decide (a.2.1 + a.2.2 ≤ b.2.1) || decide (b.2.1 + b.2.2 ≤ a.2.1)
      || decide (a.2.2 = 0) || decide (b.2.2 = 0)) && apart l

/-- A start vector's entry address lies in field RAM or the boot ROM (R212). -/
def vecOk (w : Nat) : Bool := execOk (w / 4 * 4)

/-- The SHA-256 of the image in slot `k` as bytes. -/
def State.imgHash (s : State) (k : Nat) : List Byte := sha256 (s.slotBytes k 0 (s.imgLen k))

/-- The image's form is right (R434, but for key and signature). -/
def State.imgForm (s : State) (k : Nat) : Bool :=
  let len := s.imgLen k
  decide (s.imgNum k 0 4 = 0x4C595349) && decide (s.imgNum k 4 2 = 1)
    && decide (128 ≤ len) && decide (len ≤ 1048448) && decide (len % 8 = 0)
    && decide (1 ≤ s.imgNum k 20 4) && decide (s.imgNum k 20 4 ≤ 8)
    && (s.imgSegs k).all (fun g => decide (g.1 + g.2.2 ≤ len) && decide (g.2.1 + g.2.2 ≤ fieldRam)) && apart (s.imgSegs k)
    && decide (s.imgNum k 16 4 + 256 ≤ len)
    && (List.range 64).all fun m => vecOk (s.imgNum k (s.imgNum k 16 4 + 4 * m) 4)

/-- Key slot `j` is valid and not revoked (R421). -/
def State.keyLive (s : State) (j : Nat) : Bool :=
  decide (bit (s.rd HDG_KEYSTAT_VALID) j = 1) && decide (bit (s.rd HDG_KEYSTAT_REV) j = 0)

/-- The image's key and signature pass (R421). -/
def State.imgSigned (s : State) (k : Nat) : Bool :=
  let b (i : Nat) : List Byte := s.slotBytes k (s.imgLen k + 32 * i) 32
  let kh := sha256 (b 0 ++ b 1)
  (List.range 4).any (fun j => s.keyLive j && Config.keyHash j == kh)
    && ecVerify (ofBe (b 0)) (ofBe (b 1)) (ofBe (b 2)) (ofBe (b 3)) (ofBe (s.imgHash k))

/-- The image in slot `k` passes verification (R434). -/
def State.imgOk (s : State) (k : Nat) : Bool := s.imgForm k && s.imgSigned k

/-- 32 bytes as four little-endian 64-bit words. -/
def hashWords (bs : List Byte) : List Nat := (List.range 4).map fun i => ofLe ((bs.drop (8 * i)).take 8)

/-! ### Jobs -/

/-- Push the words of a job until one finds the buffer full or a power-fail commit running: the addresses that entered
and the words left. A word that is refused otherwise enters nothing. -/
def State.updPush (s : State) : List (Nat × Nat) → List Nat → List Nat × List (Nat × Nat) × State
  | [], sent => (sent, [], s)
  | (a, v) :: ws, sent =>
    let code := s.pushCode 15 false a
    if code = 3 ∨ code = 7 then (sent, (a, v) :: ws, s)
    else ((s.nvPush 15 false a 255 v).2).updPush ws (if code ≤ 2 then a :: sent else sent)

/-- The first job goes on: its records are made when it starts, its words are pushed and a commit of kind command is
asked for (R431). -/
def State.updKick (s : State) : State :=
  match s.updQ with
  | [] => s
  | j :: js =>
    let ws := if j.live then j.words else j.words ++ j.recs.flatMap fun r => s.bootWords r.1 r.2
    let r := s.updPush ws j.sent
    let s : State := { r.2.2 with updQ := { j with words := r.2.1, recs := [], sent := r.1, live := true } :: js }
    s.commitReq 1

/-- A job joins the queue. -/
def State.updJob (s : State) (j : UpdJob) : State :=
  let idle := s.updQ.isEmpty
  let s : State := { s with updQ := s.updQ ++ [j] }
  if idle then s.updKick else s

/-- A job that goes before those that wait. -/
def State.updNext (s : State) (j : UpdJob) : State := { s with updQ := j :: s.updQ }

/-! ### Loading (Table 15-1 step 3, Table 15-6) -/

/-- The image of slot `k` is loaded: field RAM, start vectors, VERSION. -/
def State.imgLoad (s : State) (k : Nat) : State :=
  let s : State := { s with mem := s.mem.filter fun c => decide (fieldRam ≤ c.1) }
  let s := (s.imgSegs k).foldl (fun s g => s.setBytes g.2.1 (s.slotBytes k g.1 g.2.2)) s
  let v := s.imgNum k 16 4
  let s := (List.range 64).foldl (fun s m => s.wrW (PLG_SVEC m) (BitVec.ofNat 32 (s.imgNum k (v + 4 * m) 4))) s
  s.wr UPD_ACTVER_V (s.imgVer k)

/-- A vector-0 request with CAUSE 7h to each logical plough 0 to 3. -/
def State.vec0 (s : State) : State := (List.range 4).foldl (fun s l => s.startOwn l 0 0x70000000) s

/-- The registers that an activation returns to their reset values (Table 15-7). -/
def actReg (a : Nat) : Bool :=
  let b := a / 4096
  b == THR_STAT / 4096 || b == SIL_STAT / 4096 || b == HOP_STAT / 4096 || b == GLN_CTL / 4096 || b == DUO_CTL / 4096
    || b == SOWC_STAT / 4096 || (decide (SEEDS ≤ a) && decide (a < SEEDS + 16384))
    || (b == PLG_STAT / 4096 && a != PLG_MAP && !(decide (PLG_PSTAT 0 ≤ a) && decide (a ≤ PLG_PSTAT 4))
        && !(decide (PLG_SCTO 0 ≤ a) && decide (a ≤ PLG_SCTO 3)))
    || (List.range 4).any (fun n => a == FUR_RSCTL n || a == FUR_RSML n || a == FUR_RSMH n || a == FUR_RSBASE n)
    || (decide (FLT_CMPCTL 0 ≤ a) && decide (a ≤ FLT_CMPSTAT 95))
    || (decide (INT_EN 0 0 ≤ a) && decide (a ≤ INT_EN 4 7))

/-- Once the ploughs have stopped, the program set's registers and what their blocks hold return to reset (Table 15-7). -/
def State.actReset (s : State) : State :=
  if !s.updStop || (List.range 5).any fun p => (s.ploughOf p).drain.isSome then s
  else
  let keep (l : Nat) : Logi := { s.logiOf l with q := [], v15 := false, wait := [], mail := [] }
  let m : ModemSt := {}
  let s : State := { s with
    updStop := false
    regs := s.regs.filter fun r => !actReg r.1
    logi := (List.range 4).foldl (fun x l => Sparse.set (fun _ => ({} : Logi)) l (keep l) x) s.logi
    startRes := [], thrQ := [], lanes := [], thrRun := none, thrRes := [], thrIrq := false, silo := []
    hop := [], hopGap := [], hopNow := [], hopShut := [], gln := {}, cmpClk := []
    seedQ := [], seedD := [], shSeed := [], dispUsed := []
    duoQ := m.duoQ, duoRes := m.duoRes, duoSeq := m.duoSeq, duoLast := m.duoLast, duoAcks := m.duoAcks
    duoOwe := m.duoOwe, bcnRun := m.bcnRun, bcnOk := m.bcnOk, grants := m.grants, duoMiss := m.duoMiss
    duoDom := m.duoDom, duoTx := m.duoTx, duoE := m.duoE, duoEr := m.duoEr, joinBc := m.joinBc, joinN := m.joinN
    joinWait := m.joinWait, joinAt := m.joinAt }
  let s := (List.range 4).foldl State.rsMark s
  (List.range 48).foldl (fun s c =>
    (((s.wr (FLT_CTL_HOPDIV c) 0).wr (FLT_CTL_HOPF c) 0).wr (FLT_CTL_HOPW c) 0).wr (FLT_CTL_HOPC c) 0) s

/-- The ploughs stop as R223 steps 1 to 3 state, without an expiry, and the program set's state returns to reset (Table
15-6). -/
def State.actStop (s : State) : State :=
  let s := s.dealPlough.msdStop 3
  let s : State := { s with updStop := true }
  ((List.range 4).foldl (fun s l => match s.physOf l with
    | some p => s.drainFor l p 1 4 0
    | none => s) s).actReset

/-- Recovery mode is entered (R445, R446). -/
def State.recover (s : State) : State :=
  let s := (s.wr UPD_STAT_RECOV 1).logEv 0x000F 4 (s.running.getD 0) (selHash s.updSel)
  { s with healthy := false, boot := 5 }

/-! ### What follows a job -/

/-- A slot's marker as it stands once its last block is held (R438 step 3): DOWNLOADED with the image's VERSION and SFMT,
or REJECTED for a delta whose output does not end with its signature block (R435). -/
def State.markHeld (s : State) (k : Nat) (m : List Nat) : List Nat :=
  if mkKind m = 1 ∧ mkOut m ≠ mkLen m + 128 then markWith m 4
  else mkMark 2 (mkKind m) (mkBlocks m) (mkLen m) (mkOut m) (s.imgVer k) (s.imgSfmt k) [] (mkBase m)

/-- The blocks of the download of marker `m`: of a full image by its LEN, of a delta its NBLK, where it is known. -/
def State.blocksOf (s : State) (m : List Nat) : Option Nat :=
  if mkKind m = 0 then some ((mkLen m + 128 + 4095) / 4096) else if s.updNblk = 0 then none else some s.updNblk

/-- The marker's last block is held: by number, or by output for a delta whose NBLK was lost in a reset. -/
def State.lastHeld (s : State) (m : List Nat) : Bool :=
  match s.blocksOf m with
  | some n => decide (mkBlocks m = n)
  | none => decide (mkOut m = mkLen m + 128)

/-- A job's records are committed: what follows (R438 to R443). -/
def State.updFin (s : State) : UpdFin → State
  | .done => s
  | .block k m id =>
    let m := if mkState m = 1 ∧ s.lastHeld m then s.markHeld k m else m
    s.updNext { recs := [(1 + k, m)], fin := .acked k m id }
  | .acked k m id =>
    (s.setMark k m).respondId id (if mkState m = 4 then 4 else 0) none []
  | .verified k m ok =>
    let s := (s.setMark k m).wr UPD_STAT_BUSY 0
    if ok then s.flag UPD_STAT_VDONE else s.flag UPD_STAT_VFAIL
  | .bank k m => s.updNext { recs := [(1 + k, m)], fin := .verified k m true }
  | .activate p =>
    let s := (((s.setSel p).wr UPD_STAT_ACTPEND 0).flag UPD_STAT_ACTDONE).logEv 0x000F 2 (selSlot p) (selHash p)
    { s.actStop with updLoad := true }
  | .confirm p id n =>
    let s := (s.setSel p).flag UPD_STAT_CONF
    match id with | some i => s.respondId i 0 (some n) [] | none => s
  | .revert p =>
    let old := selSlot s.updSel
    let s := (s.setMark old (markWith (s.marker old) 5)).setSel p
    let s := (s.flag UPD_STAT_REVERT).logEv 0x000F 3 old (selHash p)
    { s.actStop with updLoad := true }

/-- A commit has closed: the first job whose pushed words are all written goes on or ends. -/
def State.updClosed (s : State) : State :=
  match s.updQ with
  | [] => s
  | j :: js =>
    let left := j.sent.filter fun a => s.nvBuf.any fun e => !e.crib && e.addr == a
    if !j.live then s
    else if !left.isEmpty then { s with updQ := { j with sent := left } :: js }
    else if !j.words.isEmpty then ({ s with updQ := { j with sent := [] } :: js } : State).updKick
    else (({ s with updQ := js } : State).updFin j.fin).updKick

/-! ### Commands (Table 15-9, R439) -/

/-- An activation is pending or its selector is on its way. -/
def State.actBusy (s : State) : Bool := s.on UPD_STAT_ACTPEND

/-- A command or an activation word is refused. -/
def State.updBad (s : State) : State := s.flag UPD_STAT_CMDERR

/-- BEGIN: the inactive marker becomes INCOMPLETE (R438). -/
def State.updBegin (s : State) (kind : Nat) : State :=
  let k := s.inactive
  let noBase := kind = 1 ∧ (s.on UPD_STAT_RECOV ∨ !s.running.any fun r => mkState (s.marker r) = 3)
  if s.on UPD_STAT_BUSY ∨ s.trial ∨ s.actBusy ∨ noBase then s.updBad
  else
    let len := if kind = 0 then 8 * s.rd UPD_LEN_V else 0
    let m := mkMark 1 kind 0 len 0 0 0 [] []
    (({ s with updNblk := 0 } : State).setMark k m).updJob { recs := [(1 + k, m)] }

/-- RESUME (R438). -/
def State.updResume (s : State) : State :=
  let m := s.marker s.inactive
  if s.on UPD_STAT_BUSY ∨ mkState m ≠ 1 then s.updBad else s.wr UPD_DLBLK_V (mkBlocks m)

/-- VERIFY (R438). -/
def State.updVerify (s : State) : State :=
  if s.on UPD_STAT_BUSY ∨ mkState (s.marker s.inactive) ≠ 2 then s.updBad
  else { s.wr UPD_STAT_BUSY 1 with updVer := some s.clk }

/-- CANCEL (R440). -/
def State.updCancel (s : State) : State :=
  if s.updAct.isSome then { s.wr UPD_STAT_ACTPEND 0 with updAct := none } else s.updBad

/-- A reversion while running (R443): the selector and the trial slot's marker are written. -/
def State.updBack (s : State) : State :=
  let p := s.updSel
  let q := mkSel 0 (selPrev p) (selPrev p) (selPrevBank p) (selPrevBank p) 0 (selPrevHash p) 0 (selPrevHash p)
  s.updJob { recs := [(0, q), (1 + selSlot p, markWith (s.marker (selSlot p)) 5)], fin := .revert q }

/-- A reversion or a confirmation is on its way. -/
def State.trialEnds (s : State) : Bool := s.updQ.any fun j => match j.fin with
  | .confirm _ _ _ => true
  | .revert _ => true
  | _ => false

/-- REVERT (R443). -/
def State.updRevert (s : State) : State :=
  if s.on UPD_STAT_BUSY ∨ !s.trial ∨ s.trialEnds then s.updBad else s.updBack

/-- ERASE (R438). -/
def State.updErase (s : State) : State :=
  let k := s.inactive
  if s.on UPD_STAT_BUSY ∨ s.trial ∨ s.actBusy then s.updBad
  else
    let m := mkMark 0 0 0 0 0 0 0 [] []
    (s.setMark k m).updJob { recs := [(1 + k, m)] }

/-- A write to `UPD_CMD` (Table 15-9). -/
def State.updCmd (s : State) (op : Nat) : State :=
  match op with
  | 1 => s.updBegin 0
  | 2 => s.updBegin 1
  | 3 => s.updResume
  | 4 => s.updVerify
  | 5 => s.updCancel
  | 6 => s.updRevert
  | 7 => s.updErase
  | _ => s.updBad

/-- Verification of the inactive slot ends (R438 step 4): REJECTED with R421's event, or VERIFIED, after the other bank is
cleared where the image's settings format is new. -/
def State.updVerified (s : State) : State :=
  let k := s.inactive
  let m := s.marker k
  let s : State := { s with updVer := none }
  if s.imgOk k then
    let m := mkMark 3 (mkKind m) (mkBlocks m) (mkLen m) (mkOut m) (s.imgVer k) (s.imgSfmt k)
      (hashWords (s.imgHash k)) (mkBase m)
    if s.running.any fun r => s.imgSfmt r ≠ s.imgSfmt k then
      let base := 0x230000 + 0x68000 * (1 - selBank s.updSel)
      s.updJob { words := (List.range 53248).map fun i => (base + 8 * i, 0), fin := .bank k m }
    else s.updJob { recs := [(1 + k, m)], fin := .verified k m true }
  else
    let m := markWith m 4
    s.tamper 7 |>.updJob { recs := [(1 + k, m)], fin := .verified k m false }

/-! ### Activation -/

/-- The instant of an activation, as an angle word or in units of which 3125 make a TB0 tick (R440). -/
def UpdAct.ns (x : UpdAct) : Nat := 768 * (x.t1 * 1000000000 + x.t0)

/-- The instant of an activation has come (R440). -/
def State.actDue (s : State) (x : UpdAct) : Bool :=
  match x.when_ with
  | 0 => true
  | 1 => decide (0 ≤ angDiff (s.angle x.fw) x.t0)
  | _ => decide (x.ns ≤ s.tb0.at s.clk * 3125)

/-- The activation that the registers name. -/
def State.actNamed (s : State) : UpdAct :=
  let w := s.rd UPD_ACTWHEN_WHEN
  let t0 := s.rd UPD_ACTT0_V
  let t1 := s.rd UPD_ACTT1_V
  { when_ := w, fw := s.rd UPD_ACTWHEN_FW
    t0 := if w = 1 then (t0 + t1 % 256 * 2 ^ 32) * 2 ^ 24 else t0
    t1 := t1 + s.rd UPD_ACTWHEN_SECHI * 2 ^ 32
    win := s.rd UPD_TRIALWIN_V }

/-- The instant of an activation lies ahead (R440). -/
def State.actAhead (s : State) (x : UpdAct) : Bool :=
  match x.when_ with
  | 0 => true
  | 1 => s.on (FUR_CTL_EN x.fw) && decide (angDiff (s.angle x.fw) x.t0 < 0)
  | 2 => decide (x.t0 ≤ 999999999) && decide (s.tb0.at s.clk * 3125 + 768 * 20000 < x.ns)
  | _ => false

/-- A write of `UPD_ACTGO` = 1 (R440). -/
def State.updGo (s : State) : State :=
  let m := s.marker s.inactive
  let x := s.actNamed
  if mkState m = 3 ∧ s.rd UPD_ACTID_V = (mkHash m).getD 0 0 % 2 ^ 32 ∧ !s.trial ∧ !s.actBusy ∧ 1 ≤ x.win ∧ x.win ≤ 1440
      ∧ s.actAhead x then
    { s.wr UPD_STAT_ACTPEND 1 with updAct := some x }
  else s.updBad

/-- Furrow `n` is disabled: an activation that waits for its cycle fails (R440, as R362). -/
def State.updFurOff (s : State) (n : Nat) : State :=
  match s.updAct with
  | some x => if x.when_ = 1 ∧ x.fw = n ∧ !s.actDue x then { s.wr UPD_STAT_ACTPEND 0 with updAct := none } else s
  | none => s

/-- The selector of an activation with window `win` minutes (Table 15-6). -/
def State.actSel (s : State) (win : Nat) : List Nat :=
  let k := s.inactive
  let p := s.updSel
  let old := s.running.getD (1 - k)
  let bank := if s.running.any fun r => s.imgSfmt r ≠ s.imgSfmt k then 1 - selBank p else selBank p
  let phash := if p.isEmpty then (mkHash (s.marker old)).getD 0 0 % 2 ^ 32 else selHash p
  mkSel 1 k old bank (selBank p) 1 ((mkHash (s.marker k)).getD 0 0 % 2 ^ 32) (60 * win) phash

/-- A write of `UPD_CONFIRM` (R443). -/
def State.updConfirm (s : State) (w : Word) : State :=
  if s.trial ∧ !s.trialEnds ∧ w.toNat = selHash s.updSel then
    let q := selWith s.updSel 0 (selBoots s.updSel)
    s.updJob { recs := [(0, q)], fin := .confirm q none 0 }
  else s.updBad

/-! ### Download (R435, R438) -/

/-- Bytes written into a slot from offset `out`, as barn words; a last half word keeps the upper half that the barn
holds. -/
def State.slotWords (s : State) (k out : Nat) (bs : List Byte) : List (Nat × Nat) :=
  let pad := s.slotBytes k (out + bs.length) ((8 - bs.length % 8) % 8)
  let all := bs ++ pad
  (List.range (all.length / 8)).map fun i => (slotBase k + out + 8 * i, ofLe ((all.drop (8 * i)).take 8))

/-- The operations of one delta block from `bs` (R435): the output, or none where decoding fails. The active image, of
`len` bytes with its signature block, stands in slot `k`. -/
def State.deltaOps (s : State) (k len : Nat) : Nat → List Byte → List Byte → Option (List Byte)
  | 0, _, out => some out
  | n + 1, bs, out =>
    if bs.length < 8 then some out
    else
      let w := ofLe (bs.take 8)
      let l := bits w 19 0
      let rest := bs.drop 8
      if w / 2 ^ 60 = 15 then some out
      else if l % 8 ≠ 0 then none
      else match w / 2 ^ 60 with
        | 1 => if bits w 51 32 + l ≤ len then s.deltaOps k len n rest (out ++ s.slotBytes k (bits w 51 32) l) else none
        | 2 => if l ≤ rest.length then s.deltaOps k len n (rest.drop l) (out ++ rest.take l) else none
        | _ => none

/-- Block 0 of a delta begins with a header for the active image (R435). -/
def State.deltaHead (s : State) (bs : List Byte) : Bool :=
  let n := Config.deltaNblk (bs.take 16)
  decide (64 ≤ bs.length) && decide (ofLe (bs.take 4) = 0x4C595344) && decide (ofLe ((bs.drop 4).take 2) = 1)
    && decide (1 ≤ n) && decide (n ≤ 256)
    && s.running.any fun r => decide (mkState (s.marker r) = 3 ∧ mkHash (s.marker r) = hashWords ((bs.drop 16).take 32))

/-- A refused block: BADFRAME and DLERR (R438). -/
def State.blockBad (s : State) (q : Request) : State := (s.respond q 4 none []).flag UPD_STAT_DLERR

/-- Block `UPD_DLBLK` of the download with bytes `bs` (R438 step 2), of request `q`. -/
def State.dlBlock (s : State) (q : Request) (bs : List Byte) : State :=
  let k := s.inactive
  let m := s.marker k
  let b := s.rd UPD_DLBLK_V
  if mkState m ≠ 1 ∨ b ≠ mkBlocks m ∨ 256 ≤ b ∨ s.on UPD_STAT_BUSY ∨ bs.isEmpty
      ∨ s.updQ.any (fun j => match j.fin with | .block _ _ _ => true | .acked _ _ _ => true | _ => false) then s.blockBad q
  else if mkKind m = 0 then
    if bs.length < 4096 ∧ s.blocksOf m ≠ some (b + 1) then s.blockBad q
    else
      let n := mkMark 1 0 (b + 1) (mkLen m) (4096 * b + bs.length) 0 0 [] []
      (s.reqBusy q.id).updJob { words := s.slotWords k (4096 * b) bs, fin := .block k n q.id }
  else if b = 0 ∧ !s.deltaHead bs then s.blockBad q
  else if bs.length < 4096 ∧ (let n := if b = 0 then Config.deltaNblk (bs.take 16) else s.updNblk; n ≠ 0 ∧ n ≠ b + 1) then
    s.blockBad q
  else
    let s : State := if b = 0 then { s with updNblk := Config.deltaNblk (bs.take 16) } else s
    let len := if b = 0 then Config.deltaRlen (bs.take 16) else mkLen m
    let base := if b = 0 then hashWords ((bs.drop 16).take 32) else mkBase m
    let act := s.running.getD 0
    let ops := if b = 0 then bs.drop 64 else bs
    let out := mkOut m
    let n (st o : Nat) : List Nat := mkMark st 1 (b + 1) (len % 2 ^ 32) o 0 0 [] base
    match s.deltaOps act (s.imgLen act + 128) 513 ops [] with
    | some o =>
      if 0x100000 < out + o.length then
        (s.reqBusy q.id).updJob { recs := [(1 + k, n 4 out)], fin := .acked k (n 4 out) q.id }
      else
        (s.reqBusy q.id).updJob { words := s.slotWords k out o, fin := .block k (n 1 (out + o.length)) q.id }
    | none => (s.reqBusy q.id).updJob { recs := [(1 + k, n 4 out)], fin := .acked k (n 4 out) q.id }

/-! ### The commands -/

/-- UPD_BEGIN_FULL (R438). -/
def opUpdBeginFull (s : State) : State := s.updCmd 1

/-- UPD_BEGIN_DELTA (R438). -/
def opUpdBeginDelta (s : State) : State := s.updCmd 2

/-- UPD_RESUME (R438). -/
def opUpdResume (s : State) : State := s.updCmd 3

/-- UPD_VERIFY (R438). -/
def opUpdVerify (s : State) : State := s.updCmd 4

/-- UPD_CANCEL (R440). -/
def opUpdCancel (s : State) : State := s.updCmd 5

/-- UPD_REVERT (R443). -/
def opUpdRevert (s : State) : State := s.updCmd 6

/-- UPD_ERASE (R438). -/
def opUpdErase (s : State) : State := s.updCmd 7

/-- The time that the verification of slot `k` takes (R434): the slot read at 16 MB/s, and 24 ms for the signature; an image
of a wrong form may be rejected before. -/
def State.verTime (s : State) (k : Nat) : Nat :=
  if s.imgForm k then 24 * cyMs + ((s.imgLen k + 128) * 3072 + 99) / 100 else 1

/-- UPD_VERIFY_DONE (R438): the verification in progress ends. -/
def opUpdVerifyDone (s : State) : State :=
  match s.updVer with
  | some t => if t + s.verTime s.inactive ≤ s.clk then s.updVerified else s
  | none => s

/-- ACTIVATION_SCHEDULE (R440): a write of `UPD_ACTGO` = 1. -/
def opActivationSchedule (s : State) : State := s.updGo

/-- ACTIVATION (R441): at the instant the trial selector is pushed and a commit commanded; the switch follows its
close. -/
def opActivation (s : State) : State :=
  match s.updAct with
  | some x =>
    if s.actDue x then
      let p := s.actSel x.win
      ({ s with updAct := none } : State).updJob { recs := [(0, p)], fin := .activate p }
    else s
  | none => s

/-- TRIAL_PROGRESS (R442): every 10 s of a trial its progress record is pushed. -/
def opTrialProgress (s : State) : State :=
  if s.trial ∧ s.trialN < s.trialSecs / 10 then
    let s : State := { s with trialN := s.trialSecs / 10 }
    (s.updPush (s.bootWords 3 [s.trialSecs / 10 * 10 % 2 ^ 32 + selHash s.updSel * 2 ^ 32]) []).2.2
  else s

/-- TRIAL_CONFIRM (R443): a write to `UPD_CONFIRM`. -/
def opTrialConfirm (w : Word) (s : State) : State := s.updConfirm w

/-- TRIAL_WINDOW_EXPIRY (R443): the window has passed unconfirmed. -/
def opTrialWindowExpiry (s : State) : State :=
  if s.trial ∧ !s.trialEnds ∧ !s.updLoad ∧ s.boot = 6 ∧ selWin s.updSel ≤ s.trialSecs then s.updBack else s

end Sys2Proof.Machine
end

