-- ==== Sys2Proof/Machine/RegWrite.lean ====
section
/-!
DEFINITION. What a write of a whole word to a register does, by the type of each field (R8, Table 00-3) and by what its
block's chapter adds. Who may write it stands in Bus.lean.
-/
namespace Sys2Proof.Machine

/-! ### Fields by type -/

/-- `w` in the fields of `old` whose type `p` selects. -/
def takeFields (fs : List FieldRow) (p : Access → Bool) (old w : Word) : Word :=
  fs.foldl (fun v f => if p f.acc then putBits v f.hi f.lo (bits w.toNat f.hi f.lo) else v) old

/-- The bits of fields whose type `p` selects, in the register at `a`. -/
def typeMask (a : Nat) (p : Access → Bool) : Nat :=
  (regFields a).foldl (fun m f => if p f.acc then m ||| ((2 ^ (f.hi + 1 - f.lo) - 1) * 2 ^ f.lo) else m) 0

/-- The register at `a` has a field of type `t`. -/
def hasType (a : Nat) (t : Access) : Bool := (regFields a).any fun f => f.acc = t

/-- A write by type (R8): RW fields, and in a deal D fields, take the word; 1s clear W1C bits and set W1S bits. -/
def State.typedWrite (s : State) (deal : Bool) (a : Nat) (w : Word) : State :=
  let fs := regFields a
  let old := s.rdW a
  let new := takeFields fs (fun t => t = .rw || (deal && t = .d)) old w
  let set := new ||| (w &&& BitVec.ofNat 32 (typeMask a (· = .w1s)))
  let s := if set = old then s else (s.wrW a set).revMark a old
  (onBits 32 (w.toNat &&& typeMask a (· = .w1c))).foldl (fun s i => s.clrBit a i) s

/-- The index of `a` in a family of `n` registers. -/
def famOf (f : Nat → Nat) (n a : Nat) : Option Nat := (List.range n).find? fun i => f i == a

/-! ### Block by block -/

/-- A write that its block discards, or else the typed one. -/
def State.orElse (s : State) (bad : Bool) (err : State → State) (deal : Bool) (a : Nat) (w : Word) : State :=
  if bad then err s else s.typedWrite deal a w

/-- `ANA` and `SLC` (chapter 03). -/
def State.wrAna (s : State) (deal : Bool) (a : Nat) (w : Word) : State :=
  if a = ANA_CMD then s.anaCmd w
  else if a = SLC_CTL then s.slcCtlWrite w
  else if a = SLC_TOL then s.slcTolWrite w
  else if a = SLC_CMD then s.slcCmd (bits w.toNat 14 12) (bits w.toNat 5 0) (bits w.toNat 10 8)
  else if a = ANA_REFCTL then
    let s := s.typedWrite deal a w
    let s := if deal ∧ bit w.toNat 0 = 1 then s.refRetire 0 else s
    if deal ∧ bit w.toNat 1 = 1 then s.refRetire 1 else s
  else match famOf ANA_CHCFG 48 a, famOf ANA_GANG 24 a with
    | some c, _ => s.chcfgWrite c w
    | none, some k =>
      if deal then (if bits w.toNat 1 0 = 3 then s.flag ANA_STAT_CFGERR else s.gangPut k (bits w.toNat 1 0))
      else s.gangWrite k w
    | none, none => s.typedWrite deal a w

/-- `FLT` (chapter 04). -/
def State.wrFlt (s : State) (deal : Bool) (a : Nat) (w : Word) : State :=
  match famOf FLT_SHIFT 48 a with
  | some c => s.shiftWrite c w
  | none =>
    if FLT_CMPCTL 0 ≤ a ∧ a < FLT_CMPCTL 96 ∧ (a - FLT_CMPCTL 0) % 32 < 16 then
      s.cmpWrite ((a - FLT_CMPCTL 0) / 32) ((a - FLT_CMPCTL 0) % 32 / 4) w
    else s.typedWrite deal a w

/-- A hand that waits in `AWAIT` on a furrow that is disabled is READY with status 1 (R47, R269). -/
def State.awaitOff (s : State) (n : Nat) : State :=
  (List.range 80).foldl (fun s i => match (s.handOf (i / 16) (i % 16)).st with
    | .wait (.await rd fw _ _) =>
      if fw = n then s.retire (i / 16) (i % 16) ((s.handOf (i / 16) (i % 16)).setX rd 1) 1 else s
    | _ => s) s

/-- A furrow is disabled (R47), with what the other blocks do: `AWAIT`s end, jobs on its windows end, a deal or an
activation that waits for it fails. -/
def State.furDisable (s : State) (n : Nat) : State :=
  if s.on (FUR_CTL_EN n) then ((((s.dealFurOff n).updFurOff n).furStop n).thrFurrowOff n).awaitOff n else s

/-- A write to `FUR_CTLn` (Table 02-6). -/
def State.furCtlWrite (s : State) (n : Nat) (w : Word) : State :=
  let x := w.toNat
  let slewr := s.rd (FUR_CTL_SLEWR n)
  let s := (s.wr (FUR_CTL_SLEWR n) (bits x 2 1)).revMark (FUR_CTL n) (s.rdW (FUR_CTL n))
  let s := if slewr = bits x 2 1 then s else s.segNow n
  let s := if bit x 3 = 1 then (if s.on (FUR_CTL_FORCEH n) then s else s.forcehSet n) else s.forcehClear n
  if bit x 0 = 1 then (if s.on (FUR_CTL_EN n) then s else s.furEnable n) else s.furDisable n

/-- `FUR` (chapter 02). -/
def State.wrFur (s : State) (deal : Bool) (a : Nat) (w : Word) : State :=
  if a = FUR_LATCH then
    if bit w.toNat 0 = 1 then (List.range 4).foldl (fun s n => s.wrWords (FUR_TSW (5 * n)) (s.stamp n)) s else s
  else
    let n := (a - FUR_CTL 0) / 64
    let x := w.toNat
    if 3 < n then s.typedWrite deal a w
    else if a = FUR_CTL n then s.furCtlWrite n w
    else if a = FUR_SRC n then s.furSrcWrite n w
    else if a = FUR_RSCTL n then s.rsWrite n 0 w
    else if a = FUR_RSML n then s.rsWrite n 1 w
    else if a = FUR_RSMH n then s.rsWrite n 2 w
    else if a = FUR_RSBASE n then s.rsWrite n 3 w
    else if a = FUR_OFS n ∨ a = FUR_CYCSETL n ∨ a = FUR_CYCSETH n then
      s.orElse (s.on (FUR_CTL_EN n)) (·.furCfgErr n) deal a w
    else if a = FUR_ENC n then
      s.orElse (s.on (FUR_CTL_EN n) || decide (bits x 22 16 < 1 ∨ 64 < bits x 22 16 ∨ bits x 15 0 = 0))
        (·.furCfgErr n) deal a w
    else s.typedWrite deal a w

/-- `SOWC` and the sowing table. -/
def State.wrSow (s : State) (deal : Bool) (a : Nat) (w : Word) : State :=
  if SEEDS ≤ a ∧ a < SEEDS + 16384 then s.seedWrite ((a - SEEDS) / 16) ((a - SEEDS) % 16 / 4) w
  else if a = SOWC_CTL then
    let was := s.on SOWC_CTL_EN
    let s := s.typedWrite deal a w
    if s.on SOWC_CTL_EN ∧ !was then s.seedsReeval fun _ => true else s
  else s.typedWrite deal a w

/-- `TAL` (chapter 05): the D registers of a field join its pending configurations (R164). -/
def State.wrTal (s : State) (o : Nat) (deal : Bool) (a : Nat) (w : Word) : State :=
  if a = TAL_SNAPCMD then
    if bit w.toNat 31 = 1 then (s.snapRequest (w.toNat % 65536) (bit w.toNat 16 = 1)).2 else s
  else if a = TAL_SNAPSEL then { s with snapSel := Sparse.set (fun _ => 0) o (w.toNat % 16) s.snapSel }
  else s.typedWrite deal a w

/-- What follows a write to output `n`'s registers that held `was` (R170): its remainder starts at 0 where the constant
is written, BIN or SCALE changes, or EN goes from 0 to 1; it then follows the bin's changes from this cycle. -/
def State.plsChange (s : State) (n : Nat) (const : Bool) (was : Word) : State :=
  let now := (s.rdW (PLS_CFG n)).toNat
  let old := was.toNat
  if const || decide (bits now 29 24 ≠ bits old 29 24) || decide (bits now 11 0 ≠ bits old 11 0)
      || decide (bit old 31 = 0 ∧ bit now 31 = 1) then
    s.setPulse n { s.pulseOf n with r := 0, prov := s.provisional n }
  else s

/-- `PLS` (chapter 05). -/
def State.wrPls (s : State) (deal : Bool) (a : Nat) (w : Word) : State :=
  if a = PLS_STAT then
    let s := (onBits 16 (w.toNat / 65536)).foldl (fun s i => s.clrBit a (16 + i)) s
    (onBits 16 w.toNat).foldl (fun s n =>
      if s.on (bitFld PLS_STAT n) then
        ((s.clrBit PLS_STAT n).wr (PLS_OSTAT_PENDING n) 0).setPulse n { s.pulseOf n with r := 0 }
      else s) s
  else if PLS_CFG 0 ≤ a ∧ a ≤ PLS_CFG 15 + 8 then
    let n := (a - PLS_CFG 0) / 32
    let was := s.rdW (PLS_CFG n)
    if deal then s.plsMoved ((s.typedWrite deal a w).plsChange n (a ≠ PLS_CFG n) was) else s
  else s.typedWrite deal a w

/-- `THR` and `SIL` (chapter 06), but for posts. -/
def State.wrThr (s : State) (deal : Bool) (a : Nat) (w : Word) : State :=
  let x := w.toNat
  if a = THR_STAT then
    let s := s.typedWrite deal a w
    if (bit x THR_STAT_DONE.lo = 1 ∧ !s.on THR_STAT_DONE) ∨ (bit x THR_STAT_ERR.lo = 1 ∧ !s.on THR_STAT_ERR) then
      { s with thrIrq := false } else s
  else if a = THR_CANCEL then s.thrCancel x
  else if a = SIL_CMD then
    let b := bits x 2 0
    match bits x 31 29 with
    | 1 => s.siloArm b
    | 2 => s.siloTrigger 9 b 2 0 s.clk false
    | 3 => s.siloStop b
    | 4 =>
      if s.rd (SIL_BSTAT_STATE b) = 3 ∧ s.rd (SIL_CFG_KIND b) = 2 then
        (s.wr (SIL_BSTAT_WFDONE b) 0).setSilo b { s.siloOf b with wf := some s.clk }
      else s
    | _ => s
  else if SIL_CFG 0 ≤ a ∧ a ≤ SIL_WFADDR 7 then
    let b := (a - SIL_CFG 0) / 128
    if (a - SIL_CFG 0) % 128 < 28 ∨ 68 ≤ (a - SIL_CFG 0) % 128 then s.siloCfgWrite b a w (BitVec.ofNat 32 (typeMask a (· = .rw)))
    else s.typedWrite deal a w
  else s.typedWrite deal a w

/-- `PLG`, `HOP` and `GLN` (chapter 07), but for commands that name their sender. -/
def State.wrPlg (s : State) (deal : Bool) (a : Nat) (w : Word) : State :=
  let x := w.toNat
  if (famOf PLG_SCTO 4 a).isSome then s.orElse (decide (bits x 9 0 < 1 ∨ 1000 < bits x 9 0)) (·.flag PLG_STAT_CFGERR) deal a w
  else if PLG_SVEC 0 ≤ a ∧ a ≤ PLG_SVEC 63 then s.orElse (!vecOk x) (·.flag PLG_STAT_CFGERR) deal a w
  else match famOf HOP_QCFG 4 a with
    | some l => s.quotaWrite l w
    | none =>
      if a = GLN_CTL then s.glnCtlWrite w
      else if a = GLN_CMD then
        let s := if bit x 0 = 1 then s.glnRegStart else s
        if bit x 1 = 1 then s.glnInject else s
      else if (famOf GLN_RSEQ 16 a).isSome ∨ (famOf GLN_ISEQ 4 a).isSome then s.glnSeqWrite a w
      else if GLN_WCTL 0 ≤ a ∧ a ≤ GLN_WHYS 3 ∧ (a - GLN_WCTL 0) % 16 < 12 then
        s.glnCmpWrite ((a - GLN_WCTL 0) / 16) ((a - GLN_WCTL 0) % 16 / 4) w
      else s.typedWrite deal a w

/-- `INT` (chapter 13). -/
def State.wrInt (s : State) (deal : Bool) (a : Nat) (w : Word) : State :=
  if a = INT_RSP 0 then s
  else match famOf INT_SWCLR 2 a, famOf INT_DONE 6 a with
    | some k, _ => s.wrW (INT_SWSET k) (s.rdW (INT_SWSET k) &&& ~~~w)
    | none, some t => s.complete t (w.toNat % 256)
    | none, none => s.typedWrite deal a w

/-- `NVM` (chapter 09): the push registers are banked by originator (R282). -/
def State.wrNvm (s : State) (o : Nat) (deal : Bool) (a : Nat) (w : Word) : State :=
  let b := s.bank o
  if a = NVM_CMD then s.nvmCmd w.toNat
  else if a = NVM_WCTL then s.setBank o { b with ctl := (w &&& 0x800000FF#32).toNat }
  else if a = NVM_WADDR then s.setBank o { b with addr := (w &&& 0x3FFFF8#32).toNat }
  else if a = NVM_WDL then s.setBank o { b with dl := w.toNat }
  else if a = NVM_WDH then (s.pushWrite o w).2
  else if a = NVM_PROT then if bit (s.rdW a).toNat 31 = 1 then s else s.wrW a (w &&& 0x8000000F#32)
  else s.typedWrite deal a w

/-- `RTC` and `BKP` in the main domain (chapter 10). -/
def State.wrRtc (s : State) (o : Nat) (deal : Bool) (a : Nat) (w : Word) : State :=
  if isBackup a then (if deal then s.bkDeal o a w else s.bkWrite o a w)
  else if a = RTC_TBCTL then
    let was := s.rd RTC_TBCTL_DISC
    let s := s.typedWrite deal a w
    s.discChange was (s.rd RTC_TBCTL_DISC)
  else if a = RTC_TB0CMD then s.tbCmd o (bits w.toNat 1 0)
  else if a = RTC_TB0FTRIM then
    let s := s.typedWrite deal a w
    if deal ∧ s.rd RTC_TBSTAT_STATE = 0 then s.tbTrim (s.rdS RTC_TB0FTRIM_V) else s
  else if a = RTC_TB1TRIM then
    let s := s.typedWrite deal a w
    if deal then { s with tb1 := s.tb1.retrim s.clk (s.rdS RTC_TB1TRIM_V) } else s
  else s.typedWrite deal a w

/-- `DUO` (chapter 12), but for access errors. -/
def State.wrDuo (s : State) (o : Nat) (deal : Bool) (a : Nat) (w : Word) : State :=
  let x := w.toNat
  if a = DUO_CTL then s.duoCtl w
  else if a = DUO_TXCTL then s.duoLevel o w
  else if a = DUO_TXPOST then s.txPost o x
  else if a = DUO_RXLEN then s.orElse (decide (bits x 20 5 < 64)) id deal a w
  else if a = DUO_IMPCTL then s.orElse (decide (bits x 4 0 < 6 ∨ 30 < bits x 4 0)) id deal a w
  else if (famOf DUO_JOINC 4 a).isSome then
    { s.typedWrite deal a w with joinBc := Sparse.set (fun _ => 0) ((a - DUO_JOINC 0) / 16) 0 s.joinBc }
  else s.typedWrite deal a w

/-- `HDG`, `TMP`, `YLD` and `MSD` (chapters 14 and 16; R424: a -FX part discards writes to `MSD`). -/
def State.wrHdg (s : State) (o : Nat) (deal : Bool) (a : Nat) (w : Word) : State :=
  let x := w.toNat
  if s.fx ∧ a / 4096 = 0x1019 then s
  else if a = HDG_CTL then (if bit x 0 = 1 then s.wr HDG_CTL_LOCK 1 else s)
  else if a = HDG_CMD then s.hdgCmd w
  else if HDG_PLS ≤ a ∧ a ≤ HDG_MSD then s.hedgeWrite ((a - HDG_PLS) / 4) w
  else if a = HDG_KEYREV then
    if deal then s.wr HDG_KEYSTAT_REV (s.rd HDG_KEYSTAT_REV ||| bits x 3 0) else s
  else if a = TMP_CTL then (if deal then s.bkDeal o a w else s.bkWrite o a w)
  else if a = TMP_TAP then
    if deal then
      let s := s.typedWrite true a w
      if bit x 8 = 1 then s.wr TMP_TAP_UNLOCKED 1 else s
    else s
  else if a = YLD_CTL then s.orElse (decide (bits x 15 0 = 0 ∨ bits x 15 0 = 65535)) id deal a w
  else if a = YLD_CMD then (if bit x 0 = 1 then s.yldRun else s)
  else if a = MSD_CMD then (if bit x 0 = 1 then s.msdStop 1 else s)
  else if a = MSD_CTL then
    let s := s.typedWrite deal a w
    if deal ∧ bit x 31 = 1 then s.msdStart else s
  else s.typedWrite deal a w

/-- `BAL`, `DEAL` and `UPD` (chapters 11 and 15). -/
def State.wrBal (s : State) (deal : Bool) (a : Nat) (w : Word) : State :=
  let x := w.toNat
  if a = BAL_SYNCCTL then
    let rate := bits x 23 16
    let v := if rate < 10 ∨ 200 < rate then putBits w 23 16 (s.rd BAL_SYNCCTL_RATE) else w
    s.typedWrite deal a v
  else if a = UPD_CMD then s.updCmd (bits x 31 28)
  else if a = UPD_ACTGO then (if bit x 0 = 1 then s.updGo else s)
  else if a = UPD_CONFIRM then s.updConfirm w
  else s.typedWrite deal a w

/-- A write of `w` to the register at `a` by originator `o`, through a deal where `deal`. -/
def State.regApply (s : State) (o : Nat) (deal : Bool) (a : Nat) (w : Word) : State :=
  match a / 4096 - 0x1000 with
  | 1 => s.wrAna deal a w
  | 2 => s.wrAna deal a w
  | 3 => s.wrFlt deal a w
  | 4 => s.wrFur deal a w
  | 5 => s.wrSow deal a w
  | 6 => s.wrTal o deal a w
  | 7 => s.wrPls deal a w
  | 8 => s.wrThr deal a w
  | 9 => s.wrThr deal a w
  | 10 => s.wrPlg deal a w
  | 11 => s.wrPlg deal a w
  | 12 => s.wrInt deal a w
  | 13 => s.wrNvm o deal a w
  | 14 => s.wrRtc o deal a w
  | 15 => s.wrBal deal a w
  | 16 => s.wrSow deal a w
  | 17 => s.wrSow deal a w
  | 18 => s.wrSow deal a w
  | 19 => s.wrSow deal a w
  | 20 => s.wrDuo o deal a w
  | 21 => s.wrPlg deal a w
  | 22 => s.wrHdg o deal a w
  | 23 => s.wrHdg o deal a w
  | 24 => s.wrHdg o deal a w
  | 25 => s.wrHdg o deal a w
  | 26 => s.wrBal deal a w
  | 27 => s.wrBal deal a w
  | _ => s.typedWrite deal a w

end Sys2Proof.Machine
end

