-- ==== Sys2Proof/Machine/Bus.lean ====
section
/-!
DEFINITION. Accesses to the address map (R18 to R21, R363): what a register reads, the effects of reads, who may read
and write what, and the word accesses that ploughs, hosts and rows of the table share.
-/
namespace Sys2Proof.Machine

/-! ### What registers read -/

/-- `w` with the value `v` in the field `f`. -/
def putF (w : Word) (f : Fld) (v : Nat) : Word := putBits w f.hi f.lo v

/-- Whether comparator TRIP is set on either comparator of channel `c` (Table 04-8). -/
def State.tripCh (s : State) (c : Nat) : Bool := s.on (FLT_CMPSTAT_TRIP (2 * c)) || s.on (FLT_CMPSTAT_TRIP (2 * c + 1))

/-- Bits `i` below `n` with `p`, as a word. -/
def wordOf (n : Nat) (p : Nat → Bool) : Word := BitVec.ofNat 32 (maskOf n p)

/-- TB1 less TB0 in nanoseconds, rounded to nearest, as `RTC_TB1DIFF` reads. -/
def State.tb1Diff (s : State) : Int := divRound (((s.tb1.at s.clk : Int) - s.tb0.at s.clk) * 3125) 768

/-- `SYS_CLKSTAT` as it reads (R483). -/
def State.clkView (s : State) (w : Word) : Word :=
  let since := if s.xtlAt < s.clk0 then s.clk0 else s.xtlAt
  putF (putF (putF w SYS_CLKSTAT_HOLD (b2n s.pllHold)) SYS_CLKSTAT_LOCK (b2n s.pllLock))
    SYS_CLKSTAT_XTLOK (b2n (s.xtlRun && decide (since + 16 * 15000 ≤ s.clk)))

/-- `SLC` registers that show other state (R83, R89). -/
def State.slcView (s : State) (a : Nat) (w : Word) : Word :=
  match famOf SLC_CHSTAT 48 a with
  | some c => putF (putF w (SLC_CHSTAT_STEP c) (s.stepNow c)) (SLC_CHSTAT_EXC c) (s.excNow c)
  | none => w

/-- `FLT` registers that show other state (Tables 04-6 to 04-9). -/
def State.fltView (s : State) (a : Nat) (w : Word) : Word :=
  let sat (c : Nat) : Bool := decide (s.rd (FLT_CHSTAT_SAT c) ≠ 0)
  if a = FLT_STAT then putF w FLT_STAT_TRIP (b2n ((List.range 48).any s.tripCh))
  else if a = FLT_SATL then wordOf 32 sat
  else if a = FLT_SATH then wordOf 16 fun i => sat (32 + i)
  else if a = FLT_TRIPL then wordOf 32 s.tripCh
  else if a = FLT_TRIPH then wordOf 16 fun i => s.tripCh (32 + i)
  else if a = FLT_TRQSTAT then putF w FLT_TRQSTAT_COUNT s.tripQ.length
  else w

/-- `TAL` and `PLS` registers that show other state (chapter 05), to originator `o`. -/
def State.talView (s : State) (o a : Nat) (w : Word) : Word :=
  if a = TAL_STAT then putF w TAL_STAT_PEND (b2n ((List.range 16).any fun f => !(s.fieldOf f).cfgQ.isEmpty))
  else if a = TAL_SNAPSEL then BitVec.ofNat 32 (s.snapField o)
  else if a = TAL_SNAPSTAT then putF w TAL_SNAPSTAT_BUSY s.snapBusy
  else if a = PLS_LEVEL then wordOf 16 s.plsBackLevel
  else match famOf PLS_OSTAT 16 a with
    | some n => putF w (PLS_OSTAT_RATE n) (s.pulseRate n)
    | none => w

/-- `THR` and `SIL` registers that show other state (chapter 06), to originator `o`. -/
def State.thrView (s : State) (o a : Nat) (w : Word) : Word :=
  if a = THR_STAT then putF w THR_STAT_BUSY (b2n s.thrRun.isSome)
  else if a = THR_POST then BitVec.ofNat 32 (Sparse.get (fun _ => 0) o s.thrRes)
  else if a = THR_QSTAT then
    putF (putF 0 THR_QSTAT_JOBS s.thrJobs) THR_QSTAT_LANES ((List.range 16).filter fun k => (s.lane k).isSome).length
  else if a = THR_LOAD then BitVec.ofNat 32 s.thrLoad
  else match famOf SIL_WPTR 8 a with
    | some b => BitVec.ofNat 32 (s.siloWptr b)
    | none => w

/-- A gleaner sequence is pending or running. -/
def State.glnBusy (s : State) : Bool := s.gln.reg || s.gln.regWait || s.gln.inj

/-- `PLG`, `HOP` and `GLN` registers that show other state (chapter 07), to originator `o`. -/
def State.plgView (s : State) (o a : Nat) (w : Word) : Word :=
  if a = PLG_START then BitVec.ofNat 32 (Sparse.get (fun _ => 0) o s.startRes)
  else if a = GLN_STAT then
    putF (putF w GLN_STAT_TRIP (b2n ((List.range 4).any fun i => s.on (GLN_WSTAT_TRIP i)))) GLN_STAT_BUSY (b2n s.glnBusy)
  else match famOf PLG_QSTAT 5 a, famOf PLG_SCTO 4 a, famOf HOP_QCFG 4 a with
    | some l, _, _ =>
      let x := s.logiOf l
      putF (putF 0 (PLG_QSTAT_CNT l) (if l = 4 then 8 else x.q.length))
        (PLG_QSTAT_V15 l) (b2n (x.v15 || x.q.any (·.vec = 15)))
    | none, some l, _ =>
      let n := (inWindow s.clk (s.logiOf l).exps).length
      putF w (PLG_SCTO_EXP l) (if 2 < n then 2 else n)
    | none, none, some l => putF w (HOP_QCFG_COUNT l) (s.hopQ l).length
    | none, none, none => w

/-- `INT` registers that show other state (chapter 13). -/
def State.intView (s : State) (a : Nat) (w : Word) : Word :=
  if a = INT_ALSTAT then putF (putF w INT_ALSTAT_LOW0 (b2n s.alert0.low)) INT_ALSTAT_LOW1 (b2n s.alert1.low)
  else if a = INT_RSP 0 then 0
  else match famOf INT_SWCLR 2 a, famOf INT_PEND 8 a, famOf INT_ACT 8 a, famOf INT_TGTSTAT 6 a with
    | some k, _, _, _ => s.rdW (INT_SWSET k)
    | none, some k, _, _ => BitVec.ofNat 32 (s.levels / 2 ^ (32 * k))
    | none, none, some k, _ => wordOf 32 fun i => s.active (32 * k + i)
    | none, none, none, some t => match s.offered t with
      | some i => s.claimWord i ||| 0x80000000#32
      | none => 0
    | none, none, none, none => w

/-- `NVM` registers that show other state (chapter 09), to originator `o`. -/
def State.nvmView (s : State) (o a : Nat) (w : Word) : Word :=
  let b := s.bank o
  if a = NVM_STAT then putF w NVM_STAT_CRIBBUSY (b2n (!s.cribQ.isEmpty || s.cribCopy.isSome))
  else if a = NVM_WCTL then BitVec.ofNat 32 b.ctl
  else if a = NVM_WADDR then BitVec.ofNat 32 b.addr
  else if a = NVM_WRES then BitVec.ofNat 32 b.res
  else if a = NVM_BUF then
    putF (putF 0 NVM_BUF_SEALED (s.nvBuf.filter (·.seal_)).length) NVM_BUF_USED s.nvBuf.length
  else w

/-- Registers of the other blocks that show other state (chapters 10 to 12, 14 to 16), to originator `o`. -/
def State.restView (s : State) (o a : Nat) (w : Word) : Word :=
  if a = RTC_TB1DIFF then BitVec.ofInt 32 (satS 32 s.tb1Diff)
  else if a = BKP_STAT then putF w BKP_STAT_RAMOK (b2n (s.rd BKP_RAMCHK_V = s.ramCrc))
  else if a = BAL_SYNCSTAT then
    putF w BAL_SYNCSTAT_VALID (b2n (s.syncRx.any fun c => decide (s.clk < c + 100 * cyMs)))
  else if a = DEAL_TMO then BitVec.ofNat 32 s.dealTmo
  else if a = UPD_TRIALSTAT then
    putF w UPD_TRIALSTAT_SECS (if s.trial then selWin s.updSel - s.trialSecs else 0)
  else if a = DUO_TXPOST then BitVec.ofNat 32 (Sparse.get (fun _ => 0) o s.duoRes)
  else if a = DUO_TXQ then BitVec.ofNat 32 s.duoQ.length
  else if a = DUO_AGC then putF w DUO_AGC_GAIN (s.rd (if s.on DUO_AGC_FIX then DUO_AGC_GFIX else DUO_AGC_GAIN))
  else if a = DUO_DUTY then BitVec.ofNat 32 (s.dutyCount / 25)
  else if a = TMP_BICWIN then
    BitVec.ofNat 32 (s.bicT.filter fun t => usTick s.clk < usTick t + 1000000).length
  else if a = MSD_REM then BitVec.ofNat 32 (if s.msdOn then (s.msdEnd - s.clk + cySec - 1) / cySec else 0)
  else match famOf YLD_USE 77 a with
    | some i => BitVec.ofNat 32 (s.yldUse i)
    | none => match famOf YLD_EOL 77 a with
      | some i => if s.yldNow i then putF w (YLD_EOL_EOL i) 0 else w
      | none => match famOf YLD_BAND 77 a with
        | some i => putF w (YLD_BAND_NOW i) (b2n (s.yldNow i))
        | none => w

/-- What the register at `a` reads to originator code `o`, without the effect of the read (R7, R8, R20). -/
def State.view (s : State) (o a : Nat) : Word :=
  let w := takeFields (regFields a) (fun t => t ≠ .wo) 0 (s.rdW a)
  match a / 4096 - 0x1000 with
  | 0 => if a = SYS_CLKSTAT then s.clkView w else w
  | 2 => s.slcView a w
  | 3 => s.fltView a w
  | 6 => s.talView o a w
  | 7 => s.talView o a w
  | 8 => s.thrView o a w
  | 9 => s.thrView o a w
  | 10 => s.plgView o a w
  | 11 => s.plgView o a w
  | 12 => s.intView a w
  | 13 => s.nvmView o a w
  | 21 => s.plgView o a w
  | 25 => if s.fx then 0 else s.restView o a w
  | _ => s.restView o a w

/-- The events that the counter `f` has seen in the present cycle (R404). -/
def State.rcNow (s : State) (f : Fld) : Nat :=
  s.rd f - s.rdWas f + (s.setNow.filter fun k => decide (k = (f.addr, 32 + f.lo))).length

/-- The RC fields of the register at `a` in its word `w` as a read returns them: before the events of this cycle (R404). -/
def State.rcWord (s : State) (a : Nat) (w : Word) : Word :=
  (regFields a).foldl (fun w f => if f.acc = .rc then putBits w f.hi f.lo (s.rdWas ⟨a, f.hi, f.lo⟩) else w) w

/-- RC fields of the register at `a` are cleared by the read that returns them (R8), and hold the events of its cycle
(R404). -/
def State.readClear (s : State) (a : Nat) : State :=
  (regFields a).foldl (fun s f =>
    if f.acc = .rc then
      let c : Fld := ⟨a, f.hi, f.lo⟩
      { s.wr c (satU (f.hi + 1 - f.lo) (s.rcNow c)) with
        setNow := s.setNow.filter fun k => decide (k ≠ (a, 32 + f.lo))
        regsWas := Sparse.set regReset a (putF (Sparse.get regReset a s.regsWas) c 0) s.regsWas }
    else s) s

/-- A read of the register at `a` by `o`, with the read's effects: shadows (R65, R135, R163, R176, R321), a claim (R396),
RC fields. -/
def State.regRead (s : State) (o : Orig) (a : Nat) : Word × State :=
  let c := origCode o
  let k := readerOf o
  if SEEDS ≤ a ∧ a < SEEDS + 16384 then s.seedRead k ((a - SEEDS) / 16) ((a - SEEDS) % 16 / 4)
  else if FLT_TRQW 0 ≤ a ∧ a ≤ FLT_TRQW 5 then s.tripRead k ((a - FLT_TRQW 0) / 4)
  else if a = TAL_SCNTL then s.scntRead k 0
  else if a = TAL_SCNTH then s.scntRead k 1
  else if 0x1006800 ≤ a ∧ a < 0x1006C00 then s.snapRead c k ((a - 0x1006800) / 16) ((a - 0x1006800) % 16 / 4)
  else if RTC_SUBSEC ≤ a ∧ a ≤ RTC_YEAR then s.calRead c ((a - RTC_SUBSEC) / 4)
  else match famOf INT_CLAIM 6 a with
    | some t => s.claim t
    | none =>
      let s := if isBackup a then s.bkFlush else s
      (s.rcWord a (s.view c a), s.readClear a)

/-! ### Who may write what -/

/-- The register at `a` is a setting of a sealed channel that is a revenue setting (R141). -/
def State.sealedReg (s : State) (a : Nat) : Bool :=
  match famOf ANA_CHCFG 48 a, famOf ANA_GANG 24 a, famOf FLT_SHIFT 48 a with
  | some c, _, _ => s.isSealed c
  | none, some k, _ => s.isSealed (2 * k) || s.isSealed (2 * k + 1)
  | none, none, some c => s.isSealed c
  | none, none, none => false

/-- How an access ends: done, refused (R21), D fields discarded (R363), a sealed setting discarded (R141). -/
inductive AccOut
  | ok | refused | dfield | sealed_
  deriving DecidableEq, Repr

/-- The effect of a host's or plough's write of `w` to register `a` that its block takes in its own right: commands that
name their sender. -/
def State.senderWrite (s : State) (o : Orig) (a : Nat) (w : Word) : Option (Bool × State) :=
  if a = THR_POST then some (false, (s.jobPost o w.toNat).2)
  else if a = PLG_CMD then some (s.plgCmd o w)
  else if a = PLG_START then some (false, s.plgStart o w)
  else match famOf PLG_KICK 4 a with
    | some l => some (s.kick o l w)
    | none => none

/-- A host write of `SYS_RSTCMD` (R22): A55Ah requests the reset, and a later one joins it. -/
def State.rstWrite (s : State) (w : Word) : State :=
  if w.toNat % 65536 = 0xA55A ∧ s.rstReq.isNone then { s with rstReq := some s.clk } else s

/-- A host's clear of `DUO_STAT.HEDGE` (R386): the modem leaves its safe state. -/
def State.duoStatWrite (s : State) (w : Word) : State := s.typedWrite false DUO_STAT w

/-- A direct write of `w` to the register at `a` by `o`: refused (R21, R409, R410), sealed (R141), or done, its D fields
left out (R363). -/
def State.regWrite (s : State) (o : Orig) (a : Nat) (w : Word) : AccOut × State :=
  let c := origCode o
  let host := match o with | .host _ => true | _ => false
  if inWindowPort a then (.refused, s.refuse c a true)
  else if !host && s.regClass c a w then (.refused, s.regRefuse c a)
  else if a = SYS_RSTCMD then (.ok, s.rstWrite w)
  else if a = DUO_CTL ∧ s.duoCtlBad w then (.refused, s.refuse c a true)
  else if s.sealedReg a then (.sealed_, s.flag TAL_STAT_SEALWR)
  else match s.senderWrite o a w with
    | some (bad, t) => (if bad then .refused else .ok, t)
    | none =>
      let s := s.regApply c false a w
      if hasType a .d then
        (.dfield, ((s.inc DEAL_DWR_COUNT).wr DEAL_DWR_ORIG c).wrW DEAL_DWRADDR (BitVec.ofNat 32 a))
      else (.ok, s)

/-! ### Words of the address map -/

/-- The host may read the word at `a` (Table 01-3). -/
def hostReads (a : Nat) : Bool :=
  decide (a < 0x210000) || (decide (0x400000 ≤ a) && decide (a < 0xC40000)) || (isReg a && !inWindowPort a)
    || (decide (0x1100000 ≤ a) && decide (a < 0x1110000)) || (decide (0x1200000 ≤ a) && decide (a < 0x1250000))

/-- The host may write the word at `a` (Table 01-3), registers apart. -/
def hostWrites (a : Nat) : Bool :=
  decide (a < 0x200000) || (decide (0x1200000 ≤ a) && decide (a < 0x1250000)) || isReg a

/-- The word at the word address `a` that `o` may read, with the effects of the read. -/
def State.wordRead (s : State) (o : Orig) (a : Nat) : Word × State :=
  if isReg a then s.regRead o a
  else if 0x200000 ≤ a ∧ a < 0x210000 then s.granaryRead (readerOf o) ((a - 0x200000) / 16) (a % 16 / 4)
  else if 0x1100000 ≤ a ∧ a < 0x1110000 then (BitVec.ofNat 32 (s.memWord a), s)
  else
    let b := match o with | .plough p _ => ploughAddr p a | .host _ => a
    let s := s.nvmRun
    (BitVec.ofNat 32 (s.load32 (if 0x800000 ≤ b ∧ b < 0xC00000 then s.barnAddr (b - 0x800000) else b)), s)

/-- A host's read of the word at `a`: none where it is refused (R21). -/
def State.hostRead (s : State) (r : Fin 2) (a : Nat) : Option Word × State :=
  if hostReads a then let x := s.wordRead (.host r) a; (some x.1, x.2) else (none, s.refuse (5 + r) a false)

/-- A host's write of the word at `a`. -/
def State.hostWrite (s : State) (r : Fin 2) (a : Nat) (w : Word) : AccOut × State :=
  if isReg a then s.regWrite (.host r) a w
  else if hostWrites a then (.ok, s.store32 a w.toNat)
  else (.refused, s.refuse (5 + r) a true)

/-! ### The rows of the table -/

/-- REGISTER_WRITE (R8): a write of a register word by `o`, with the refusals of R21 and R363. -/
def opRegisterWrite (o : Orig) (a w : Word) (s : State) : State :=
  if isReg a.toNat ∧ a.toNat % 4 = 0 then (s.regWrite o a.toNat w).2 else s

/-- SYS_RSTCMD_WRITE (R22). -/
def opSysRstcmdWrite (o : Orig) (w : Word) (s : State) : State := (s.regWrite o SYS_RSTCMD w).2

/-- FUR_DISABLE (R47): EN of furrow `n` is cleared. -/
def opFurDisable (n : Fin 4) (s : State) : State := s.furDisable n

/-- TRIP_QUEUE_READ (R135): a read of `FLT_TRQWk`. -/
def opTripQueueRead (o : Orig) (k : Fin 6) (s : State) : State :=
  let r := s.tripRead (readerOf o) k
  r.2.setRdata (readerOf o) r.1

/-- TAL_SCNTL_READ (R176): a read of `TAL_SCNTL`. -/
def opTalScntlRead (o : Orig) (s : State) : State :=
  let r := s.scntRead (readerOf o) 0
  r.2.setRdata (readerOf o) r.1

/-- ALERT_LATCH_CLEAR (R400): a write of `INT_ALSTAT`. -/
def opAlertLatchClear (o : Orig) (w : Word) (s : State) : State := (s.regWrite o INT_ALSTAT w).2

/-- HEDGE_WRITE (R407): a write of the hedge register `HDG_PLS` + 4r. -/
def opHedgeWrite (o : Orig) (r : Fin 7) (w : Word) (s : State) : State := (s.regWrite o (HDG_PLS + 4 * r) w).2

/-- SAFE_STATE_FORCE (R411): `HDG_CMD.FORCE`. -/
def opSafeStateForce (o : Orig) (s : State) : State := (s.regWrite o HDG_CMD 2#32).2

/-- SAFE_STATE_CLEAR (R412): `HDG_CMD.CLR`. -/
def opSafeStateClear (o : Orig) (s : State) : State := (s.regWrite o HDG_CMD 1#32).2

/-- DUO_TXPOST (R382): a write of a descriptor address. -/
def opDuoTxpost (o : Orig) (w : Word) (s : State) : State := (s.regWrite o DUO_TXPOST w).2

/-- DUO_DISABLE (R388): a write of `DUO_CTL` with EN = 0. -/
def opDuoDisable (o : Orig) (w : Word) (s : State) : State := (s.regWrite o DUO_CTL (w &&& 0x7FFFFFFF#32)).2

/-- DUO_LEVEL_WRITE (R386): a write of `DUO_TXCTL`. -/
def opDuoLevelWrite (o : Orig) (w : Word) (s : State) : State := (s.regWrite o DUO_TXCTL w).2

/-- MODEM_HEDGE_CLEAR (R386, R409): a write of 1 to `DUO_STAT.HEDGE`. -/
def opModemHedgeClear (o : Orig) (s : State) : State :=
  (s.regWrite o DUO_STAT (BitVec.ofNat 32 (2 ^ DUO_STAT_HEDGE.lo))).2

/-- YLD_RUN (R452): `YLD_CMD.RUN`. -/
def opYldRun (o : Orig) (s : State) : State := (s.regWrite o YLD_CMD 1#32).2

/-- MISDEAL_STOP (R459): `MSD_CMD.STOP`. -/
def opMisdealStop (o : Orig) (s : State) : State := (s.regWrite o MSD_CMD 1#32).2

/-- The shadows of every reader that have lapsed by now are dropped. -/
def lapse (p : Shadow → Bool) (m : Sparse (Option Shadow)) : Sparse (Option Shadow) :=
  m.filter fun x => match x.2 with | some h => !p h | none => false

/-- SHADOW_EXPIRY (R65, R135, R157, R176, R321): shadows lapse after 10 µs, those of the calendar after 1 ms. -/
def opShadowExpiry (s : State) : State :=
  let us (h : Shadow) : Bool := decide (h.at_ + 4915 < s.clk)
  { s with
    shSeed := lapse us s.shSeed, shTrip := lapse us s.shTrip, shBin := lapse us s.shBin, shSnap := lapse us s.shSnap
    shScnt := lapse us s.shScnt, shCal := lapse (fun h => decide (h.at_ + cyMs ≤ s.clk)) s.shCal }

end Sys2Proof.Machine
end

