-- ==== Sys2Proof/Machine/TzInt.lean ====
section
/-!
DEFINITION. Integer, multiply and divide instructions (R245, R246, R257, R258).
-/
namespace Sys2Proof.Machine

/-- A result and its flags into `xi` and `hs`. -/
def Hand.setR (h : Hand) (i : Nat) (r : FpRes) : Hand := (h.setX i r.1).flags r.2

/-- A shift amount: bits [4:0] (R245). -/
def shAmt (w : Word) : Nat := w.toNat % 32

/-- 1 for true, 0 for false. -/
def boolW (b : Bool) : Word := if b then 1 else 0

/-- An integer held to 32 bits, with Q when it is held (R246). -/
def sat32 (z : Int) : FpRes := (BitVec.ofInt 32 (satS 32 z), if satS 32 z = z then 0 else fQ)

/-- Leading zeros, 0 to 32. -/
def lzc (w : Word) : Word := if w = 0 then 32 else BitVec.ofNat 32 (31 - w.toNat.log2)

/-- The Q31 product, rounded half up (R246). -/
def mulQ (a b : Word) : FpRes := sat32 ((a.toInt * b.toInt + 2 ^ 30) / 2 ^ 31)

/-- Signed division (R245). -/
def divS (a b : Word) : FpRes :=
  if b = 0 then (if a.toInt < 0 then 0x80000000#32 else 0x7FFFFFFF#32, fQ)
  else sat32 (a.toInt.tdiv b.toInt)

/-- Unsigned division (R245). -/
def divU (a b : Word) : FpRes := if b = 0 then (0xFFFFFFFF#32, fQ) else (BitVec.ofNat 32 (a.toNat / b.toNat), 0)

/-- Signed remainder (R245). -/
def modS (a b : Word) : FpRes :=
  if b = 0 then (0, fQ)
  else (BitVec.ofInt 32 (a.toInt.tmod b.toInt), if a.toInt.tdiv b.toInt = 2 ^ 31 then fQ else 0)

/-- Unsigned remainder (R245). -/
def modU (a b : Word) : FpRes := if b = 0 then (0, fQ) else (BitVec.ofNat 32 (a.toNat % b.toNat), 0)

/-! ### The rows of the table -/

/-- ADD: xd ← xa + xb (R257). -/
def opAdd (p : Fin 5) (h : Fin 16) (rd ra rb : Fin 32) (s : State) : State :=
  s.regOp p h (encA rd ra rb 0 0x0 0x1) 1 fun x => x.setX rd (x.xr ra + x.xr rb)

/-- SUB: xd ← xa − xb (R257). -/
def opSub (p : Fin 5) (h : Fin 16) (rd ra rb : Fin 32) (s : State) : State :=
  s.regOp p h (encA rd ra rb 0 0x1 0x1) 1 fun x => x.setX rd (x.xr ra - x.xr rb)

/-- AND: bitwise and (R257). -/
def opAnd (p : Fin 5) (h : Fin 16) (rd ra rb : Fin 32) (s : State) : State :=
  s.regOp p h (encA rd ra rb 0 0x2 0x1) 1 fun x => x.setX rd (x.xr ra &&& x.xr rb)

/-- IOR: bitwise inclusive or (R257). -/
def opIor (p : Fin 5) (h : Fin 16) (rd ra rb : Fin 32) (s : State) : State :=
  s.regOp p h (encA rd ra rb 0 0x3 0x1) 1 fun x => x.setX rd (x.xr ra ||| x.xr rb)

/-- EOR: bitwise exclusive or (R257). -/
def opEor (p : Fin 5) (h : Fin 16) (rd ra rb : Fin 32) (s : State) : State :=
  s.regOp p h (encA rd ra rb 0 0x4 0x1) 1 fun x => x.setX rd (x.xr ra ^^^ x.xr rb)

/-- SHL: shift left by xb[4:0] (R245, R257). -/
def opShl (p : Fin 5) (h : Fin 16) (rd ra rb : Fin 32) (s : State) : State :=
  s.regOp p h (encA rd ra rb 0 0x5 0x1) 1 fun x => x.setX rd (x.xr ra <<< shAmt (x.xr rb))

/-- SHRU: logical shift right by xb[4:0] (R257). -/
def opShru (p : Fin 5) (h : Fin 16) (rd ra rb : Fin 32) (s : State) : State :=
  s.regOp p h (encA rd ra rb 0 0x6 0x1) 1 fun x => x.setX rd (x.xr ra >>> shAmt (x.xr rb))

/-- SHRS: arithmetic shift right by xb[4:0] (R257). -/
def opShrs (p : Fin 5) (h : Fin 16) (rd ra rb : Fin 32) (s : State) : State :=
  s.regOp p h (encA rd ra rb 0 0x7 0x1) 1 fun x => x.setX rd ((x.xr ra).sshiftRight (shAmt (x.xr rb)))

/-- LTS: signed less-than (R257). -/
def opLts (p : Fin 5) (h : Fin 16) (rd ra rb : Fin 32) (s : State) : State :=
  s.regOp p h (encA rd ra rb 0 0x8 0x1) 1 fun x => x.setX rd (boolW ((x.xr ra).slt (x.xr rb)))

/-- LTU: unsigned less-than (R257). -/
def opLtu (p : Fin 5) (h : Fin 16) (rd ra rb : Fin 32) (s : State) : State :=
  s.regOp p h (encA rd ra rb 0 0x9 0x1) 1 fun x => x.setX rd (boolW ((x.xr ra).ult (x.xr rb)))

/-- MINS: signed minimum (R257). -/
def opMins (p : Fin 5) (h : Fin 16) (rd ra rb : Fin 32) (s : State) : State :=
  s.regOp p h (encA rd ra rb 0 0xa 0x1) 1 fun x => x.setX rd (if (x.xr ra).slt (x.xr rb) then x.xr ra else x.xr rb)

/-- MAXS: signed maximum (R257). -/
def opMaxs (p : Fin 5) (h : Fin 16) (rd ra rb : Fin 32) (s : State) : State :=
  s.regOp p h (encA rd ra rb 0 0xb 0x1) 1 fun x => x.setX rd (if (x.xr ra).slt (x.xr rb) then x.xr rb else x.xr ra)

/-- MINU: unsigned minimum (R257). -/
def opMinu (p : Fin 5) (h : Fin 16) (rd ra rb : Fin 32) (s : State) : State :=
  s.regOp p h (encA rd ra rb 0 0xc 0x1) 1 fun x => x.setX rd (if (x.xr ra).ult (x.xr rb) then x.xr ra else x.xr rb)

/-- MAXU: unsigned maximum (R257). -/
def opMaxu (p : Fin 5) (h : Fin 16) (rd ra rb : Fin 32) (s : State) : State :=
  s.regOp p h (encA rd ra rb 0 0xd 0x1) 1 fun x => x.setX rd (if (x.xr ra).ult (x.xr rb) then x.xr rb else x.xr ra)

/-- ADDQ: saturating sum, setting Q (R246). -/
def opAddq (p : Fin 5) (h : Fin 16) (rd ra rb : Fin 32) (s : State) : State :=
  s.regOp p h (encA rd ra rb 0 0xe 0x1) 1 fun x => x.setR rd (sat32 ((x.xr ra).toInt + (x.xr rb).toInt))

/-- SUBQ: saturating difference, setting Q (R246). -/
def opSubq (p : Fin 5) (h : Fin 16) (rd ra rb : Fin 32) (s : State) : State :=
  s.regOp p h (encA rd ra rb 0 0xf 0x1) 1 fun x => x.setR rd (sat32 ((x.xr ra).toInt - (x.xr rb).toInt))

/-- ABSQ: saturating absolute value (R246). -/
def opAbsq (p : Fin 5) (h : Fin 16) (rd ra : Fin 32) (s : State) : State :=
  s.regOp p h (encA rd ra 0 0 0x10 0x1) 1 fun x => x.setR rd (sat32 ((x.xr ra).toInt.natAbs : Int))

/-- LZC: leading zeros of xa (R257). -/
def opLzc (p : Fin 5) (h : Fin 16) (rd ra : Fin 32) (s : State) : State :=
  s.regOp p h (encA rd ra 0 0 0x11 0x1) 1 fun x => x.setX rd (lzc (x.xr ra))

/-- ADDK: xd ← xa + sext(imm) (R257). -/
def opAddk (p : Fin 5) (h : Fin 16) (rd ra : Fin 32) (imm : BitVec 16) (s : State) : State :=
  s.regOp p h (encI rd ra 0x2 imm) 1 fun x => x.setX rd (x.xr ra + imm.signExtend 32)

/-- LTSK: signed less-than against sext(imm) (R257). -/
def opLtsk (p : Fin 5) (h : Fin 16) (rd ra : Fin 32) (imm : BitVec 16) (s : State) : State :=
  s.regOp p h (encI rd ra 0x3 imm) 1 fun x => x.setX rd (boolW ((x.xr ra).slt (imm.signExtend 32)))

/-- LTUK: unsigned less-than against sext(imm) (R257). -/
def opLtuk (p : Fin 5) (h : Fin 16) (rd ra : Fin 32) (imm : BitVec 16) (s : State) : State :=
  s.regOp p h (encI rd ra 0x4 imm) 1 fun x => x.setX rd (boolW ((x.xr ra).ult (imm.signExtend 32)))

/-- ANDK: bitwise and with zext(imm) (R257). -/
def opAndk (p : Fin 5) (h : Fin 16) (rd ra : Fin 32) (imm : BitVec 16) (s : State) : State :=
  s.regOp p h (encI rd ra 0x5 imm) 1 fun x => x.setX rd (x.xr ra &&& imm.zeroExtend 32)

/-- IORK: bitwise or with zext(imm) (R257). -/
def opIork (p : Fin 5) (h : Fin 16) (rd ra : Fin 32) (imm : BitVec 16) (s : State) : State :=
  s.regOp p h (encI rd ra 0x6 imm) 1 fun x => x.setX rd (x.xr ra ||| imm.zeroExtend 32)

/-- EORK: bitwise exclusive or with zext(imm) (R257). -/
def opEork (p : Fin 5) (h : Fin 16) (rd ra : Fin 32) (imm : BitVec 16) (s : State) : State :=
  s.regOp p h (encI rd ra 0x7 imm) 1 fun x => x.setX rd (x.xr ra ^^^ imm.zeroExtend 32)

/-- SHLK: shift left by n (R257). -/
def opShlk (p : Fin 5) (h : Fin 16) (rd ra n : Fin 32) (s : State) : State :=
  s.regOp p h (encI rd ra 0x8 (BitVec.ofNat 16 (0 * 2 ^ 14 + n))) 1 fun x => x.setX rd (x.xr ra <<< n.val)

/-- SHRUK: logical shift right by n (R257). -/
def opShruk (p : Fin 5) (h : Fin 16) (rd ra n : Fin 32) (s : State) : State :=
  s.regOp p h (encI rd ra 0x8 (BitVec.ofNat 16 (1 * 2 ^ 14 + n))) 1 fun x => x.setX rd (x.xr ra >>> n.val)

/-- SHRSK: arithmetic shift right by n (R257). -/
def opShrsk (p : Fin 5) (h : Fin 16) (rd ra n : Fin 32) (s : State) : State :=
  s.regOp p h (encI rd ra 0x8 (BitVec.ofNat 16 (2 * 2 ^ 14 + n))) 1 fun x => x.setX rd ((x.xr ra).sshiftRight n.val)

/-- HIK: xd ← imm << 16 (R257). -/
def opHik (p : Fin 5) (h : Fin 16) (rd : Fin 32) (imm : BitVec 16) (s : State) : State :=
  s.regOp p h (encI rd 0 0x9 imm) 1 fun x => x.setX rd (imm.zeroExtend 32 <<< 16)

/-- MULL: bits [31:0] of the product (R258). -/
def opMull (p : Fin 5) (h : Fin 16) (rd ra rb : Fin 32) (s : State) : State :=
  s.regOp p h (encA rd ra rb 0 0x0 0xa) 2 fun x => x.setX rd (x.xr ra * x.xr rb)

/-- MULHS: bits [63:32] of the signed product (R258). -/
def opMulhs (p : Fin 5) (h : Fin 16) (rd ra rb : Fin 32) (s : State) : State :=
  s.regOp p h (encA rd ra rb 0 0x1 0xa) 2 fun x => x.setX rd (BitVec.ofInt 32 ((x.xr ra).toInt * (x.xr rb).toInt / 2 ^ 32))

/-- MULHU: bits [63:32] of the unsigned product (R258). -/
def opMulhu (p : Fin 5) (h : Fin 16) (rd ra rb : Fin 32) (s : State) : State :=
  s.regOp p h (encA rd ra rb 0 0x2 0xa) 2 fun x => x.setX rd (BitVec.ofNat 32 ((x.xr ra).toNat * (x.xr rb).toNat / 2 ^ 32))

/-- MULQ: Q31 product (R246). -/
def opMulq (p : Fin 5) (h : Fin 16) (rd ra rb : Fin 32) (s : State) : State :=
  s.regOp p h (encA rd ra rb 0 0x3 0xa) 2 fun x => x.setR rd (mulQ (x.xr ra) (x.xr rb))

/-- DIVS: signed quotient, saturating (R245). -/
def opDivs (p : Fin 5) (h : Fin 16) (rd ra rb : Fin 32) (s : State) : State :=
  s.regOp p h (encA rd ra rb 0 0x4 0xa) 18 fun x => x.setR rd (divS (x.xr ra) (x.xr rb))

/-- DIVU: unsigned quotient, saturating (R245). -/
def opDivu (p : Fin 5) (h : Fin 16) (rd ra rb : Fin 32) (s : State) : State :=
  s.regOp p h (encA rd ra rb 0 0x5 0xa) 18 fun x => x.setR rd (divU (x.xr ra) (x.xr rb))

/-- MODS: signed remainder, with the sign of the dividend (R245). -/
def opMods (p : Fin 5) (h : Fin 16) (rd ra rb : Fin 32) (s : State) : State :=
  s.regOp p h (encA rd ra rb 0 0x6 0xa) 18 fun x => x.setR rd (modS (x.xr ra) (x.xr rb))

/-- MODU: unsigned remainder (R245). -/
def opModu (p : Fin 5) (h : Fin 16) (rd ra rb : Fin 32) (s : State) : State :=
  s.regOp p h (encA rd ra rb 0 0x7 0xa) 18 fun x => x.setR rd (modU (x.xr ra) (x.xr rb))

end Sys2Proof.Machine
end

