-- ==== Sys2Proof/Machine/TzAcc.lean ====
section
/-!
DEFINITION. Accumulator and complex instructions (R246, R247, R259).
-/
namespace Sys2Proof.Machine

/-- An accumulator's sum, held at ±2^79 with Q (R247). -/
def Hand.setAcc (h : Hand) (i : Nat) (z : Int) : Hand :=
  (h.setK i (satS 80 z)).flags (if satS 80 z = z then 0 else fQ)

/-- Real and imaginary part of a complex Q15 word (R244). -/
def cRe (w : Word) : Int := sx 16 (bits w.toNat 31 16)
def cIm (w : Word) : Int := sx 16 (bits w.toNat 15 0)

/-- The complex multiply-accumulate; `j` is 1, or −1 where b is conjugated. -/
def Hand.cmac (h : Hand) (kp : Nat) (a b : Word) (j : Int) : Hand :=
  let re := h.kr kp + cRe a * cRe b - j * cIm a * cIm b
  let im := h.kr (kp + 1) + j * cRe a * cIm b + cIm a * cRe b
  (h.setAcc kp re).setAcc (kp + 1) im

/-- An accumulator rounded, shifted and held to 32 bits; a shift above 48 is 48 (R247, R259). -/
def kext (k : Int) (w : Word) : FpRes :=
  let n := w.toNat % 64
  let sh := if 48 < n then 48 else n
  sat32 (if sh = 0 then k else (k + 2 ^ (sh - 1)) / 2 ^ sh)

/-! ### The rows of the table -/

/-- KMAC: ka ← ka + xa × xb, signed (R259). -/
def opKmac (p : Fin 5) (h : Fin 16) (ka : Fin 4) (ra rb : Fin 32) (s : State) : State :=
  s.regOp p h (encA ka ra rb 0 0x0 0xB) 2 fun x => x.setAcc ka (x.kr ka + (x.xr ra).toInt * (x.xr rb).toInt)

/-- KMSU: ka ← ka − xa × xb, signed (R259). -/
def opKmsu (p : Fin 5) (h : Fin 16) (ka : Fin 4) (ra rb : Fin 32) (s : State) : State :=
  s.regOp p h (encA ka ra rb 0 0x1 0xB) 2 fun x => x.setAcc ka (x.kr ka - (x.xr ra).toInt * (x.xr rb).toInt)

/-- KMACU: ka ← ka + xa × xb, unsigned (R259). -/
def opKmacu (p : Fin 5) (h : Fin 16) (ka : Fin 4) (ra rb : Fin 32) (s : State) : State :=
  s.regOp p h (encA ka ra rb 0 0x2 0xB) 2 fun x => x.setAcc ka (x.kr ka + ((x.xr ra).toNat * (x.xr rb).toNat : Nat))

/-- CMAC: complex Q15 multiply-accumulate into the pair kp, kp+1 (R246, R259). -/
def opCmac (p : Fin 5) (h : Fin 16) (ka : Fin 4) (ra rb : Fin 32) (s : State) : State :=
  s.regOp p h (encA ka ra rb 0 0x3 0xB) 3 fun x => x.cmac ka (x.xr ra) (x.xr rb) 1

/-- CMACJ: as CMAC with b conjugated (R259). -/
def opCmacj (p : Fin 5) (h : Fin 16) (ka : Fin 4) (ra rb : Fin 32) (s : State) : State :=
  s.regOp p h (encA ka ra rb 0 0x4 0xB) 3 fun x => x.cmac ka (x.xr ra) (x.xr rb) (-1)

/-- KCLR: ka ← 0 (R259). -/
def opKclr (p : Fin 5) (h : Fin 16) (ka : Fin 4) (s : State) : State :=
  s.regOp p h (encA ka 0 0 0 0x5 0xB) 2 fun x => x.setK ka 0

/-- KEXT: kb rounded, shifted and held to 32 bits (R247). -/
def opKext (p : Fin 5) (h : Fin 16) (rd : Fin 32) (kb : Fin 4) (ra : Fin 32) (s : State) : State :=
  s.regOp p h (encA rd ra kb 0 0x6 0xB) 2 fun x => x.setR rd (kext (x.kr kb) (x.xr ra))

/-- KRD: xd ← part pt of kb (R259). -/
def opKrd (p : Fin 5) (h : Fin 16) (rd : Fin 32) (kb : Fin 4) (pt : Fin 32) (s : State) : State :=
  s.regOp p h (encA rd 0 kb pt 0x7 0xB) 2 fun x =>
    x.setX rd (if pt.val = 2 then BitVec.ofInt 32 (x.kr kb / 2 ^ 64) else BitVec.ofInt 32 (x.kr kb / 2 ^ (32 * pt.val)))

/-- KWR: part pt of ka ← xa (R259). -/
def opKwr (p : Fin 5) (h : Fin 16) (ka : Fin 4) (ra : Fin 32) (pt : Fin 32) (s : State) : State :=
  s.regOp p h (encA ka ra 0 pt 0x8 0xB) 2 fun x =>
    let n := tc 80 (x.kr ka)
    let w := 2 ^ (32 * pt.val)
    let top := if pt.val = 2 then 65536 else 2 ^ 32
    x.setK ka ((n - n / w % top * w + (x.xr ra).toNat % top * w : Nat) : Int)

/-- KADD: ka ← ka + kb (R259). -/
def opKadd (p : Fin 5) (h : Fin 16) (ka kb : Fin 4) (s : State) : State :=
  s.regOp p h (encA ka 0 kb 0 0x9 0xB) 2 fun x => x.setAcc ka (x.kr ka + x.kr kb)

/-- KFLT: xd ← binary32 of kb × 2^-s, s = xa[5:0] (R259). -/
def opKflt (p : Fin 5) (h : Fin 16) (rd : Fin 32) (kb : Fin 4) (ra : Fin 32) (s : State) : State :=
  s.regOp p h (encA rd ra kb 0 0xA 0xB) 2 fun x =>
    x.setR rd (fpOfInt x.rm (x.kr kb) (-((x.xr ra).toNat % 64 : Nat)) false)

end Sys2Proof.Machine
end

