-- ==== Sys2Proof/Machine/TzVec.lean ====
section
/-!
DEFINITION. Vector instructions (R261).
-/
namespace Sys2Proof.Machine

/-- A lane-wise result: the flags are the OR over the lanes (R261). -/
def Hand.vop (h : Hand) (i : Nat) (f : Nat → FpRes) : Hand :=
  (h.setV i fun l => (f l).1).flags ((List.range 8).foldl (fun a l => a ||| (f l).2) 0)

/-- Two results added, their flags kept. -/
def flAdd2 (rm : Nat) (a b : FpRes) : FpRes :=
  let r := fpAdd rm a.1 b.1
  (r.1, r.2 ||| a.2 ||| b.2)

/-- ((l0 + l1) + (l2 + l3)) + ((l4 + l5) + (l6 + l7)), each addition rounded (R261). -/
def flSum (rm : Nat) (l : Nat → Word) : FpRes :=
  let p (i : Nat) : FpRes := fpAdd rm (l i) (l (i + 1))
  flAdd2 rm (flAdd2 rm (p 0) (p 2)) (flAdd2 rm (p 4) (p 6))

/-! ### The rows of the table -/

/-- VADD: lane-wise sum (R261). -/
def opVadd (p : Fin 5) (h : Fin 16) (vd va vb : Fin 16) (s : State) : State :=
  s.regOp p h (encA vd va vb 0 0x0 0xD) 2 fun x => x.vop vd fun l => (x.lane va l + x.lane vb l, 0)

/-- VSUB: lane-wise difference (R261). -/
def opVsub (p : Fin 5) (h : Fin 16) (vd va vb : Fin 16) (s : State) : State :=
  s.regOp p h (encA vd va vb 0 0x1 0xD) 2 fun x => x.vop vd fun l => (x.lane va l - x.lane vb l, 0)

/-- VADDQ: lane-wise saturating sum (R261). -/
def opVaddq (p : Fin 5) (h : Fin 16) (vd va vb : Fin 16) (s : State) : State :=
  s.regOp p h (encA vd va vb 0 0x2 0xD) 2 fun x => x.vop vd fun l => sat32 ((x.lane va l).toInt + (x.lane vb l).toInt)

/-- VMULQ: lane-wise Q31 product (R261). -/
def opVmulq (p : Fin 5) (h : Fin 16) (vd va vb : Fin 16) (s : State) : State :=
  s.regOp p h (encA vd va vb 0 0x3 0xD) 3 fun x => x.vop vd fun l => mulQ (x.lane va l) (x.lane vb l)

/-- VMIN: lane-wise signed minimum (R261). -/
def opVmin (p : Fin 5) (h : Fin 16) (vd va vb : Fin 16) (s : State) : State :=
  s.regOp p h (encA vd va vb 0 0x4 0xD) 2 fun x => x.vop vd fun l => (if (x.lane va l).slt (x.lane vb l) then x.lane va l else x.lane vb l, 0)

/-- VMAX: lane-wise signed maximum (R261). -/
def opVmax (p : Fin 5) (h : Fin 16) (vd va vb : Fin 16) (s : State) : State :=
  s.regOp p h (encA vd va vb 0 0x5 0xD) 2 fun x => x.vop vd fun l => (if (x.lane va l).slt (x.lane vb l) then x.lane vb l else x.lane va l, 0)

/-- VFLADD: lane-wise binary32 sum (R261). -/
def opVfladd (p : Fin 5) (h : Fin 16) (vd va vb : Fin 16) (s : State) : State :=
  s.regOp p h (encA vd va vb 0 0x6 0xD) 4 fun x => x.vop vd fun l => fpAdd x.rm (x.lane va l) (x.lane vb l)

/-- VFLSUB: lane-wise binary32 difference (R261). -/
def opVflsub (p : Fin 5) (h : Fin 16) (vd va vb : Fin 16) (s : State) : State :=
  s.regOp p h (encA vd va vb 0 0x7 0xD) 4 fun x => x.vop vd fun l => fpSub x.rm (x.lane va l) (x.lane vb l)

/-- VFLMUL: lane-wise binary32 product (R261). -/
def opVflmul (p : Fin 5) (h : Fin 16) (vd va vb : Fin 16) (s : State) : State :=
  s.regOp p h (encA vd va vb 0 0x8 0xD) 4 fun x => x.vop vd fun l => fpMul x.rm (x.lane va l) (x.lane vb l)

/-- VFLMAC: lane-wise fused multiply-add into vd (R261). -/
def opVflmac (p : Fin 5) (h : Fin 16) (vd va vb : Fin 16) (s : State) : State :=
  s.regOp p h (encA vd va vb 0 0x9 0xD) 5 fun x => x.vop vd fun l => fpMac x.rm (x.lane vd l) (x.lane va l) (x.lane vb l)

/-- VSPLAT: every lane ← xa (R261). -/
def opVsplat (p : Fin 5) (h : Fin 16) (vd : Fin 16) (ra : Fin 32) (s : State) : State :=
  s.regOp p h (encA vd ra 0 0 0xA 0xD) 1 fun x => x.setV vd fun _ => x.xr ra

/-- VINS: lane n ← xa (R261). -/
def opVins (p : Fin 5) (h : Fin 16) (vd : Fin 16) (ra n : Fin 32) (s : State) : State :=
  s.regOp p h (encA vd ra 0 n 0xB 0xD) 1 fun x => x.setLane vd n (x.xr ra)

/-- VEXT: xd ← lane n (R261). -/
def opVext (p : Fin 5) (h : Fin 16) (rd : Fin 32) (va : Fin 16) (n : Fin 32) (s : State) : State :=
  s.regOp p h (encA rd va 0 n 0xC 0xD) 1 fun x => x.setX rd (x.lane va n)

/-- VKDOT: ka ← ka + the exact sum of the lane products (R261). -/
def opVkdot (p : Fin 5) (h : Fin 16) (ka : Fin 4) (va vb : Fin 16) (s : State) : State :=
  s.regOp p h (encA ka va vb 0 0xD 0xD) 4 fun x =>
    x.setAcc ka (x.kr ka + ((List.range 8).map fun l => (x.lane va l).toInt * (x.lane vb l).toInt).sum)

/-- VFLSUM: pairwise binary32 sum of the lanes (R261). -/
def opVflsum (p : Fin 5) (h : Fin 16) (rd : Fin 32) (va : Fin 16) (s : State) : State :=
  s.regOp p h (encA rd va 0 0 0xE 0xD) 6 fun x => x.setR rd (flSum x.rm (x.lane va))

/-- VSHRS: lane-wise arithmetic shift right by n (R261). -/
def opVshrs (p : Fin 5) (h : Fin 16) (vd va : Fin 16) (n : Fin 32) (s : State) : State :=
  s.regOp p h (encA vd va 0 n 0xF 0xD) 2 fun x =>
    x.vop vd fun l => ((x.lane va l).sshiftRight n.val, 0)

/-- VQTOFL: lane-wise Q31 to binary32 (R261). -/
def opVqtofl (p : Fin 5) (h : Fin 16) (vd va : Fin 16) (s : State) : State :=
  s.regOp p h (encA vd va 0 0 0x10 0xD) 4 fun x => x.vop vd fun l => fpFromInt x.rm (x.lane va l) (-31)

end Sys2Proof.Machine
end

