-- ==== Sys2Proof/Machine/TzMem.lean ====
section
/-!
DEFINITION. Loads, stores, atomics (R253, R262, R263), branches and jumps (R264). A load's data comes with LOAD_RETURN,
a posted store's effect with STORE_COMPLETE.
-/
namespace Sys2Proof.Machine

/-- A load of `n` bytes (R256: access check, then alignment); the hand waits for the data. -/
def State.loadOp (s : State) (p h : Nat) (w : Word) (kind rd ra : Nat) (imm : BitVec 16) (n : Nat) : State :=
  s.issue p h w fun x s =>
    let a := effAddr x ra imm
    if !ploughReads a n then s.dataRefused p h x.pc a false false
    else if a % n ≠ 0 then s.raise p h x.pc 5
    else s.handWait p h (.load kind rd a s.clk)

/-- A store of the bytes that `f` gives: refused at issue (R256; R388 for `DUO_CTL`), misaligned, or posted. -/
def State.storeOp (s : State) (p h : Nat) (w : Word) (ra : Nat) (imm : BitVec 16) (n c : Nat) (f : Hand → List Byte) :
    State :=
  s.issue p h w fun x s =>
    let a := effAddr x ra imm
    let bs := f x
    let any (p : Nat → Word → Bool) : Bool := isReg a && (List.range (n / 4)).any fun i =>
      p (a + 4 * i) (BitVec.ofNat 32 (ofLe ((bs.drop (4 * i)).take 4)))
    let cls := any (s.regClass p)
    let duo := any fun b v => b == DUO_CTL && s.duoCtlBad v
    if (!ploughWrites a n && !(isReg a && n = 32)) || cls || duo then s.dataRefused p h x.pc a true cls
    else if a % n ≠ 0 then s.raise p h x.pc 5
    else s.post p h x c (.mem h a bs)

/-- The load latency of Table 07-5 without contention, in fabric cycles. -/
def loadLat (a : Nat) : Nat :=
  if isReg a then 10 else if 0xF00000 ≤ a ∧ a < 0xF10000 then 2
  else if a < fieldRam ∨ 0x1100000 ≤ a then 6 else 8

/-- An atomic on field RAM or the own tile (R263); `k` is the access's outcome. A refused one, which would both read and
write, is recorded with `SYS_MAPSRC.WR` = 1: the manual does not say which. DESIGN CHOICE (log 125). -/
def State.atomicOp (s : State) (p h : Nat) (w : Word) (rd ra k : Nat) (f : Word → Hand → Option Word) : State :=
  s.issue p h w fun x s => s.afterStores p h fun s =>
    let a := (x.xr ra).toNat
    let b := ploughAddr p a
    if !ploughWrites a 4 || isReg a then s.dataRefused p h x.pc a true false
    else if a % 4 ≠ 0 then s.raise p h x.pc 5
    else
      let r := s.access p a k
      let s := r.2
      if r.1 then s.raise p h x.pc 6
      else
        let t := BitVec.ofNat 32 (s.load32 b)
        let s := match f t x with
          | some v => s.store32 b v.toNat
          | none => s
        s.retire p h (x.setX rd t) (3 + loadLat a)

/-- A branch: 2 cycles when taken, 1 when not (R264); the target is pc + 4 × sext(off16) (R251). -/
def State.branchOp (s : State) (p h : Nat) (w : Word) (off : BitVec 16) (c : Hand → Bool) : State :=
  s.issue p h w fun x s =>
    if c x then
      s.setHand p h { x with pc := tc 32 (x.pc + 4 * off.toInt), st := .ready (s.clk + 2) }
    else s.retire p h x 1

/-- A jump to pc + 4 × sext(off26), after the hand's change `g` (R251, R264). -/
def State.jumpOp (s : State) (p h : Nat) (w : Word) (off : BitVec 26) (g : Hand → Hand) : State :=
  s.issue p h w fun x s => s.setHand p h { g x with pc := tc 32 (x.pc + 4 * off.toInt), st := .ready (s.clk + 2) }

/-! ### The rows of the table -/

/-- LDB: loads a byte, sign-extended (R262). -/
def opLdb (p : Fin 5) (h : Fin 16) (rd ra : Fin 32) (imm : BitVec 16) (s : State) : State :=
  s.loadOp p h (encI rd ra 0x10 imm) 0 rd ra imm 1

/-- LDBU: loads a byte, zero-extended (R262). -/
def opLdbu (p : Fin 5) (h : Fin 16) (rd ra : Fin 32) (imm : BitVec 16) (s : State) : State :=
  s.loadOp p h (encI rd ra 0x11 imm) 1 rd ra imm 1

/-- LDH: loads a halfword, sign-extended (R262). -/
def opLdh (p : Fin 5) (h : Fin 16) (rd ra : Fin 32) (imm : BitVec 16) (s : State) : State :=
  s.loadOp p h (encI rd ra 0x12 imm) 2 rd ra imm 2

/-- LDHU: loads a halfword, zero-extended (R262). -/
def opLdhu (p : Fin 5) (h : Fin 16) (rd ra : Fin 32) (imm : BitVec 16) (s : State) : State :=
  s.loadOp p h (encI rd ra 0x13 imm) 3 rd ra imm 2

/-- LDW: loads a word, with the register's read effects (R262). -/
def opLdw (p : Fin 5) (h : Fin 16) (rd ra : Fin 32) (imm : BitVec 16) (s : State) : State :=
  s.loadOp p h (encI rd ra 0x14 imm) 4 rd ra imm 4

/-- LDV: loads eight words (R262). -/
def opLdv (p : Fin 5) (h : Fin 16) (vd : Fin 16) (ra : Fin 32) (imm : BitVec 16) (s : State) : State :=
  s.loadOp p h (encI vd ra 0x15 imm) 5 vd ra imm 32

/-- STB: posts a byte store (R262). -/
def opStb (p : Fin 5) (h : Fin 16) (rs ra : Fin 32) (imm : BitVec 16) (s : State) : State :=
  s.storeOp p h (encI rs ra 0x18 imm) ra imm 1 1 fun x => leBytes 1 (x.xr rs).toNat

/-- STH: posts a halfword store (R262). -/
def opSth (p : Fin 5) (h : Fin 16) (rs ra : Fin 32) (imm : BitVec 16) (s : State) : State :=
  s.storeOp p h (encI rs ra 0x19 imm) ra imm 2 1 fun x => leBytes 2 (x.xr rs).toNat

/-- STW: posts a word store (R262). -/
def opStw (p : Fin 5) (h : Fin 16) (rs ra : Fin 32) (imm : BitVec 16) (s : State) : State :=
  s.storeOp p h (encI rs ra 0x1a imm) ra imm 4 1 fun x => leBytes 4 (x.xr rs).toNat

/-- STV: posts a store of eight words (R262). -/
def opStv (p : Fin 5) (h : Fin 16) (vs : Fin 16) (ra : Fin 32) (imm : BitVec 16) (s : State) : State :=
  s.storeOp p h (encI vs ra 0x1B imm) ra imm 32 2 fun x => (List.range 8).flatMap fun l => leBytes 4 (x.lane vs l).toNat

/-- AADD: atomic add, returning the old value (R263). -/
def opAadd (p : Fin 5) (h : Fin 16) (rd ra rb : Fin 32) (k : Fin 5) (s : State) : State :=
  s.atomicOp p h (encA rd ra rb 0 0x0 0x1C) rd ra k fun t x => some (t + x.xr rb)

/-- ASWAP: atomic swap (R263). -/
def opAswap (p : Fin 5) (h : Fin 16) (rd ra rb : Fin 32) (k : Fin 5) (s : State) : State :=
  s.atomicOp p h (encA rd ra rb 0 0x1 0x1C) rd ra k fun _ x => some (x.xr rb)

/-- ACAS: atomic compare-and-swap (R263). -/
def opAcas (p : Fin 5) (h : Fin 16) (rd ra rb : Fin 32) (k : Fin 5) (s : State) : State :=
  s.atomicOp p h (encA rd ra rb 0 0x2 0x1C) rd ra k fun t x => if t = x.xr rd then some (x.xr rb) else none

/-- BREQ: conditional branch (R264). -/
def opBreq (p : Fin 5) (h : Fin 16) (ra rb : Fin 32) (off : BitVec 16) (s : State) : State :=
  s.branchOp p h (encB ra rb 0x20 off) off fun x => decide (x.xr ra = x.xr rb)

/-- BRNE: conditional branch (R264). -/
def opBrne (p : Fin 5) (h : Fin 16) (ra rb : Fin 32) (off : BitVec 16) (s : State) : State :=
  s.branchOp p h (encB ra rb 0x21 off) off fun x => decide (x.xr ra ≠ x.xr rb)

/-- BRLT: conditional branch (R264). -/
def opBrlt (p : Fin 5) (h : Fin 16) (ra rb : Fin 32) (off : BitVec 16) (s : State) : State :=
  s.branchOp p h (encB ra rb 0x22 off) off fun x => (x.xr ra).slt (x.xr rb)

/-- BRGE: conditional branch (R264). -/
def opBrge (p : Fin 5) (h : Fin 16) (ra rb : Fin 32) (off : BitVec 16) (s : State) : State :=
  s.branchOp p h (encB ra rb 0x23 off) off fun x => !(x.xr ra).slt (x.xr rb)

/-- BRLTU: conditional branch (R264). -/
def opBrltu (p : Fin 5) (h : Fin 16) (ra rb : Fin 32) (off : BitVec 16) (s : State) : State :=
  s.branchOp p h (encB ra rb 0x24 off) off fun x => (x.xr ra).ult (x.xr rb)

/-- BRGEU: conditional branch (R264). -/
def opBrgeu (p : Fin 5) (h : Fin 16) (ra rb : Fin 32) (off : BitVec 16) (s : State) : State :=
  s.branchOp p h (encB ra rb 0x25 off) off fun x => !(x.xr ra).ult (x.xr rb)

/-- CALL: x31 ← pc + 4; jump (R264). -/
def opCall (p : Fin 5) (h : Fin 16) (off : BitVec 26) (s : State) : State :=
  s.jumpOp p h (encJ 0x26 off) off fun x => x.setX 31 (BitVec.ofNat 32 (x.pc + 4))

/-- JUMP: jump (R264). -/
def opJump (p : Fin 5) (h : Fin 16) (off : BitVec 26) (s : State) : State :=
  s.jumpOp p h (encJ 0x27 off) off fun x => x

/-- JREG: jump through a register, writing the link; a target that is no multiple of 4 raises 03h (R254, R264). -/
def opJreg (p : Fin 5) (h : Fin 16) (rd ra : Fin 32) (imm : BitVec 16) (s : State) : State :=
  s.issue p h (encI rd ra 0x28 imm) fun x s =>
    let t := effAddr x ra imm
    if t % 4 ≠ 0 then s.raise p h x.pc 3
    else s.setHand p h { x.setX rd (BitVec.ofNat 32 (x.pc + 4)) with pc := t, st := .ready (s.clk + 2) }

end Sys2Proof.Machine
end

