-- ==== Sys2Proof/Machine/Deal.lean ====
section
/-!
DEFINITION. Deals (R357 to R365, R273, R274): entries, authentication, the check on a copy, application, timeouts, and
the instruction `DREQ`.
-/
namespace Sys2Proof.Machine

/-! ### Which registers a deal may write -/

/-- The register at `a` may be written through a deal (R358): it has a D field, or its chapter allows it. -/
def dealable (a : Nat) : Bool :=
  let b := a / 4096
  decide (a % 4 = 0) &&
    (hasType a .d
      || (hasType a .rw && b != 0x1005 && b != 0x1008 && b != 0x100F && b != 0x101A && b != 0x101B && a != INT_RSP 0)
      || a == SIL_CMD || a == TAL_SNAPCMD || a == NVM_WDL || a == NVM_WDH
      || (decide (HDG_PLS ≤ a) && decide (a ≤ HDG_MSD)) || (decide (SEEDS ≤ a) && decide (a < SEEDS + 16384)))

/-- A barn offset of the calibration region, which a deal pushes to only with authentication. -/
def calRegion (a : Nat) : Bool := decide (0x210000 ≤ a) && decide (a < 0x220000)

/-- An entry that changes only through an authenticated deal (R110, R141, R280, R306, R415, R422, R463). -/
def State.needsAuth (s : State) (a : Nat) (w : Word) : Bool :=
  let b := a / 4096
  let x := w.toNat
  ((b == 0x1006 || b == 0x1007 || b == 0x1019) && hasType a .d) || s.sealedReg a
    || a == RTC_TB1TRIM || a == RTC_TB0FTRIM || (a == ANA_REFCTL && decide (bits x 1 0 ≠ 0))
    || (a == TMP_TAP && decide (bit x 8 = 1)) || a == HDG_KEYREV
    || (a == NVM_WADDR && calRegion (x % 2 ^ 22)) || (a == NVM_WDH && calRegion (s.bank 14).addr)

/-- The deal needs authentication (R358). -/
def State.dealNeeds (s : State) (es : List (Nat × Word)) : Bool := es.any fun e => s.needsAuth e.1 e.2

/-- A plough's deal may name the register at `a`: its block is granted, and it is not the host's alone (R222, R405,
Table 14-1). -/
def State.dealGrant (s : State) (a : Nat) : Bool :=
  let b := (a - 0x1000000) / 4096
  decide (0x1000000 ≤ a) && decide (b < 32) && decide (bit (s.rd HDG_DGRANT_V) b = 1)
    && !(decide (INT_RSP 0 ≤ a) && decide (a ≤ INT_RSP 127)) && !(decide (PLG_SCTO 0 ≤ a) && decide (a ≤ PLG_SCTO 3))

/-! ### The check (R359) -/

/-- The flags by which blocks report a write that they discard or refuse. -/
def errFlags : List Fld :=
  [ANA_STAT_CFGERR, ANA_STAT_CMDERR, SLC_STAT_CMDERR, FLT_STAT_CFGERR, FUR_STAT_CFGERR 0, FUR_STAT_CFGERR 1,
    FUR_STAT_CFGERR 2, FUR_STAT_CFGERR 3, SOWC_STAT_BUSYWR, SOWC_STAT_BADSEED, TAL_STAT_SNAPLOST, SIL_STAT_CFGERR,
    SIL_STAT_ARMERR, PLG_STAT_CFGERR, HOP_STAT_CFGERR, GLN_STAT_CFGERR, NVM_STAT_REFUSED, RTC_STAT_BADWR,
    RTC_STAT_HEDGE, HDG_STAT_CFGERR, HDG_STAT_VIOL]

/-- Ranges and state conditions of an entry that its block would discard without a flag. -/
def State.entryOk (s : State) (a : Nat) (w : Word) : Bool :=
  let x := w.toNat
  if isBackup a then !s.iso
  else if a / 4096 = 0x1019 ∧ s.fx then false
  else if a = TMP_TAP ∧ s.fx then decide (bit x 8 = 0)
  else if a = NVM_CTL then
    decide (1 ≤ bits x 7 0 ∧ bits x 7 0 ≤ 240 ∧ 5 ≤ bits x 15 8 ∧ bits x 15 8 ≤ 60)
  else if a = RTC_TB1TRIM ∨ a = RTC_TB0FTRIM then decide ((sx 18 (bits x 17 0)).natAbs ≤ 100000)
  else if a = DUO_CTL then !s.duoCtlBad w
  else if a = DUO_RXLEN then decide (64 ≤ bits x 20 5)
  else if a = DUO_IMPCTL then decide (6 ≤ bits x 4 0 ∧ bits x 4 0 ≤ 30)
  else if a = YLD_CTL then decide (bits x 15 0 ≠ 0 ∧ bits x 15 0 ≠ 65535)
  else if HDG_PLS ≤ a ∧ a ≤ HDG_MSD then s.hedgeTight ((a - HDG_PLS) / 4) w
  else if a = HDG_KEYREV then
    let valid := s.rd HDG_KEYSTAT_VALID
    let rev := s.rd HDG_KEYSTAT_REV ||| bits x 3 0
    decide (bits x 3 0 &&& valid = bits x 3 0) && decide (valid &&& rev ≠ valid)
  else if a = MSD_CTL then
    decide (1 ≤ bits x 11 0 ∧ bits x 11 0 ≤ 3600)
      && (decide (bit x 31 = 0) || (s.on HDG_MSD_PERMIT && !s.on HDG_STAT_SAFE && !s.msdOn))
  else if a = MSD_DUO then decide (1 ≤ bits x 22 16 ∧ bits x 22 16 ≤ 112)
  else if a = MSD_DUOOFS then decide (bits x 6 0 ≤ 111)
  else if a = MSD_BIC then decide (1 ≤ bits x 15 8)
  else match famOf MSD_RDLY 2 a, famOf PLS_SPARE 4 a with
    | some _, _ => decide (1 ≤ bits x 9 0 ∧ bits x 9 0 ≤ 1000)
    | none, some _ => decide (bits x 3 0 ≤ 11)
    | none, none => true

/-- The entries applied in order: the first that its block refuses, if any, and the state. -/
def State.dealRun (s : State) : Nat → List (Nat × Word) → Option Nat × State
  | _, [] => (none, s)
  | i, (a, w) :: es =>
    if !s.entryOk a w then (some i, s)
    else
      let t := (errFlags.foldl (fun s f => s.wr f 0) s).regApply 14 true a w
      if errFlags.any t.on then (some i, t) else t.dealRun (i + 1) es

/-- The register at `a` is one of field `f`'s. -/
def fieldReg (f a : Nat) : Bool := decide (TAL_FCFG f ≤ a) && decide (a ≤ TAL_FCMD f)

/-- The rules on a whole configuration (R104, R140, R165, R169): the registers each depends on, and whether `t` keeps
it. -/
def State.wholeRules (t : State) : List ((Nat → Bool) × Bool) :=
  (List.range 16).map (fun f =>
    let g := t.cfgRegs f
    (fun a => a == TAL_FCFG f || a == TAL_FCHV f || a == TAL_FCHI f
        || g.used.any (fun c => a == ANA_CHCFG c || a == FLT_SHIFT c || a == ANA_GANG (c / 2)), t.fieldOk f))
  ++ (List.range 16).map (fun f => (fieldReg f, decide ((t.fieldOf f).cfgQ.length < 4)))
  ++ (List.range 24).map (fun k =>
    (fun a => a == ANA_GANG k || a == ANA_CHCFG (2 * k) || a == ANA_CHCFG (2 * k + 1),
      !t.on (ANA_GANG_MODE k) || (t.on (ANA_CHCFG_EN (2 * k)) && t.on (ANA_CHCFG_EN (2 * k + 1)))))
  ++ [(fun a => decide (ANA_GANG 0 ≤ a) && decide (a ≤ ANA_GANG 23), decide (t.gangCount ≤ 12))]
  ++ (List.range 16).map (fun n =>
    (fun a => a == PLS_CFG n || a == PLS_CONSTL n || a == PLS_CONSTH n,
      !t.on (PLS_CFG_EN n) || (decide (t.pulseK n ≠ 0) && decide (t.pulseK n < 2 ^ 95))))

/-- The last entry whose address satisfies `p`. -/
def lastEntry (p : Nat → Bool) (es : List (Nat × Word)) : Option Nat :=
  (es.zipIdx.filter fun e => p e.1.1).getLast?.map (·.2)

/-- The entry against which the check of R359 fails, if it fails. -/
def State.dealCheck (s : State) (es : List (Nat × Word)) : Option Nat :=
  match s.dealRun 0 es with
  | (some i, _) => some i
  | (none, t) =>
    (t.wholeRules.filterMap fun r => if r.2 then none else lastEntry r.1 es).foldl (fun b i => match b with
      | some j => some (if i < j then i else j)
      | none => some i) none

/-- A check that fails at an enable of the misdeal unit without PERMIT is a class 5 violation (R459). -/
def State.checkViol (s : State) (es : List (Nat × Word)) (i : Nat) : State :=
  match es[i]? with
  | some (a, w) =>
    if a = MSD_CTL ∧ bit w.toNat 31 = 1 ∧ !s.on HDG_MSD_PERMIT then s.violate 5 14 0 MSD_CTL else s
  | none => s

/-! ### Authentication (R360, R361) -/

/-- `n` as `k` little-endian bytes, of a register. -/
def State.regBytes (s : State) (a : Nat) : List Byte := leBytes 4 (s.rdW a).toNat

/-- The message of a play (R360). -/
def State.playMsg (s : State) (d : Deal) (p : Play) : List Byte :=
  s.regBytes DEAL_UIDL ++ s.regBytes DEAL_UIDH ++ s.regBytes DEAL_ANONCE ++ leBytes 4 p.word ++ leBytes 4 p.nsec
    ++ leBytes 4 p.sec ++ leBytes 4 d.entries.length
    ++ d.entries.flatMap fun e => leBytes 4 e.1 ++ leBytes 4 e.2.toNat

/-- A verification of `mac` over `msg`: whether it passes, and the state in which `DEAL_ANONCE` has advanced. -/
def State.authVerify (s : State) (msg : List Byte) (mac : Option (List Byte)) : Bool × State :=
  (mac == some (hmac Config.deviceKey msg), s.wrW DEAL_ANONCE (s.rdW DEAL_ANONCE + 1))

/-- A verification would raise `DEAL_ANONCE` to the committed ceiling (R361). -/
def State.ceilNeed (s : State) : Bool := decide (s.dealCeil ≤ (s.rdW DEAL_ANONCE).toNat + 1)

/-- The ceiling 4096 higher is pushed and a commit asked for; none where `PFWARN` is taken or a push refused (R361). -/
def State.ceilPush (s : State) : Option State :=
  let c := s.dealCeil + 4096
  let ws := s.bootWords 4 [c]
  let r := s.updPush ws []
  if s.pfTaken ∨ r.1.length ≠ ws.length then none
  else some (({ r.2.2 with dealCeilNew := some c } : State).commitReq 1)

/-- The play being checked is verified. -/
def State.dealVerify (s : State) : State :=
  match s.deal with
  | some d => match d.checking with
    | some p =>
      if p.ok.isNone then
        let r := s.authVerify (s.playMsg d p) p.mac
        { r.2 with deal := some { d with checking := some { p with ok := some r.1 } } }
      else s
    | none => s
  | none => s

/-- A commit has closed: a ceiling whose words are all written is in force, and a verification that waited is made. -/
def State.ceilClosed (s : State) : State :=
  match s.dealCeilNew with
  | some c =>
    if s.nvBuf.any (fun e => !e.crib && decide (0x201000 ≤ e.addr) && decide (e.addr < 0x201400)) then s
    else ({ s with dealCeil := c, dealCeilNew := none } : State).dealVerify
  | none => s

/-! ### Requests of an owner

Each answers a status of Table 11-4; a plough's `DREQ` maps it to Table 08-23. -/

/-- The deal that `owner` may act on now: OPEN, and no play being checked (R357). -/
def State.openDeal (s : State) (owner : Nat) : Option Deal :=
  match s.deal with
  | some d => if d.owner = owner ∧ d.play.isNone ∧ d.checking.isNone then some d else none
  | none => none

/-- An open (R357). -/
def State.dealOpen (s : State) (owner tmo : Nat) (seed : Bool) : Nat × State :=
  if tmo = 0 ∨ 255 < tmo then (4, s)
  else if s.deal.isSome then (7, s)
  else (0, ({ s with deal := some { owner := owner, seed := seed, openAt := s.clk, tmo := tmo } } : State).dealShow false)

/-- An entry (R358). -/
def State.dealEntry (s : State) (owner a : Nat) (w : Word) : Nat × State :=
  match s.openDeal owner with
  | some d =>
    if !dealable a then (9, s)
    else if 512 ≤ d.entries.length then (8, s)
    else
      let es := d.entries ++ [(a, w)]
      let s : State := { s with deal := some { d with entries := es } }
      (0, s.dealShow (s.dealNeeds es))
  | none => (7, s)

/-- A play's words name no reserved bit, and a UTC instant that is valid (R274, R362). -/
def playOk (p : Play) : Bool :=
  decide (bits p.word 31 10 = 0 ∧ bits p.word 7 6 = 0 ∧ bits p.word 3 2 = 0 ∧ bits p.word 1 0 ≠ 3)
    && (decide (bits p.word 1 0 ≠ 2) || decide (p.nsec ≤ 999999999))

/-- A play's instant is refused (Table 11-7). -/
def State.playLate (s : State) (p : Play) : Bool :=
  match bits p.word 1 0 with
  | 1 => !s.on (FUR_CTL_EN (bits p.word 5 4))
  | 2 => decide (768 * (p.sec * 1000000000 + p.nsec) < s.tb0.at s.clk * 3125 + 768 * 20000)
  | _ => false

/-- A play (R359 to R362): refused, or its checks begin, and 0 stands for that. -/
def State.dealPlay (s : State) (owner : Nat) (p : Play) : Nat × State :=
  if !playOk p then (4, s)
  else match s.openDeal owner with
    | none => (7, s)
    | some d =>
      if s.playLate p then (14, s)
      else
        let hold (s : State) (p : Play) : State := { s with deal := some { d with checking := some p } }
        if !s.dealNeeds d.entries && p.mac.isNone then (0, hold s { p with ok := some true })
        else if s.dealCeilNew.isSome then (0, hold s p)
        else if s.ceilNeed then match s.ceilPush with
          | some t => (0, hold t p)
          | none => (7, s)
        else (0, (hold s p).dealVerify)

/-- A fold (R357). -/
def State.dealFold (s : State) (owner : Nat) : Nat × State :=
  match s.deal with
  | some d => if d.owner = owner ∧ d.checking.isNone then (0, s.dealEnd 2 0) else (7, s)
  | none => (7, s)

/-! ### The end of the checks, the timeout, the application -/

/-- Whoever played is answered: a host request with `st`, and the entry `idx` where that names one, a hand with `hand`. -/
def State.playAnswer (s : State) (p : Play) (st : Nat) (idx : Option Nat) (hand : Nat) : State :=
  let s := match p.req with
    | some id => s.respondId id st idx []
    | none => s
  s.dealHand p.hand hand

/-- DEAL_CHECK_END (R359 to R362): the play's checks end: AUTHFAIL, CHECKFAIL, or HELD. A plough's deal that needs
authentication after all has no status in Table 08-23: its hand reads a free one. -/
def opDealCheckEnd (s : State) : State :=
  match s.deal with
  | some d => match d.checking with
    | some p => match p.ok with
      | none => s
      | some false =>
        let r := s.draw
        ((r.2.flag DEAL_STAT_AUTHFAIL).dealEnd 4 0).tamper 7 |>.playAnswer p 11 none r.1.toNat
      | some true => match s.dealCheck d.entries with
        | some i =>
          let s : State := { s with deal := some { d with checking := none } }
          let s := (s.wr DEAL_RES_OUT 5).wr DEAL_RES_IDX i
          (s.checkViol d.entries i).playAnswer p 10 (some i) 5
        | none =>
          let s : State := { s with deal := some { d with checking := none, play := some p, chkEnd := s.clk } }
          let s := (s.dealShow (s.on DEAL_STAT_AUTH)).playAnswer p 0 none 0
          if bits p.word 1 0 = 1 ∧ !s.on (FUR_CTL_EN (bits p.word 5 4)) then s.dealLate 7 0 else s
    | none => s
  | none => s

/-- DEAL_TIMEOUT (R357): an OPEN deal has run its timeout, and no play of it is being checked. -/
def opDealTimeout (s : State) : State :=
  match s.deal with
  | some d =>
    if d.play.isNone ∧ d.checking.isNone ∧ d.openAt + d.tmo * cySec ≤ s.clk then
      (s.flag DEAL_STAT_TMOFOLD).dealEnd 3 0
    else s
  | none => s

/-- A field's registers were written by the deal: its configuration joins the pending ones (R164). -/
def State.cfgPush (s : State) (f : Nat) : State :=
  let g := { s.cfgRegs f with clear := decide (bit (s.rdW (TAL_FCMD f)).toNat 0 = 1) }
  let x := s.fieldOf f
  let s := s.setField f { x with cfgQ := x.cfgQ ++ [g] }
  (s.wrW (TAL_FCMD f) 0).wr (TAL_FSTAT_NPEND f) (x.cfgQ.length + 1)

/-- Every entry takes effect, in order, in this cycle (R364). -/
def State.dealApply (s : State) (es : List (Nat × Word)) : State :=
  let s := es.foldl (fun s e => s.regApply 14 true e.1 e.2) s
  ((List.range 16).filter fun f => es.any fun e => fieldReg f e.1).foldl State.cfgPush s

/-- The application cycle of a held deal has come (Table 11-7). -/
def State.dealDue (s : State) (d : Deal) (p : Play) : Bool :=
  if d.seed then d.trig.any fun t => decide (t < s.clk) else s.dealInstant d p

/-- A held deal whose application cycle has come (R364, R365): the check is made again; the deal fails, or is applied
whole. -/
def State.dealCome (s : State) : State :=
  match s.deal with
  | some d => match d.play with
    | some p =>
      if s.dealDue d p then match s.dealCheck d.entries with
        | some i => (s.checkViol d.entries i).dealLate 6 i
        | none =>
          let s := (s.dealApply d.entries).took objRegs 1
          let s := (s.flag DEAL_STAT_APPLIED).wrW DEAL_APPCNT_V.addr (s.rdW DEAL_APPCNT + 1)
          (s.wrWords (DEAL_ATS 0) (s.stamp (bits p.word 5 4))).dealEnd 1 0
      else s
    | none => s
  | none => s

/-- DEAL_APPLICATION (R364). -/
def opDealApplication (s : State) : State := s.dealCome

/-! ### `DREQ` (Table 08-21) -/

/-- A status of Table 11-4 as Table 08-23 gives it. -/
def dreqStatus (st : Nat) : Nat :=
  match st with
  | 0 => 0
  | 7 => 1
  | 8 => 2
  | 14 => 5
  | _ => 4

/-- A `DREQ` that is answered at once with what `f` gives for the logical plough; in the safe state with 3. -/
def State.dreq (s : State) (p h : Nat) (w : Word) (rd : Nat) (f : Hand → Nat → State → Nat × State) : State :=
  s.issue p h w fun x s => s.afterStores p h fun s =>
    let r := if s.on HDG_STAT_SAFE then (3, s) else f x (s.logOf p) s
    r.2.retire p h (x.setX rd (BitVec.ofNat 32 r.1)) 11

/-- DREQ_OPEN (R273). -/
def opDreqOpen (p : Fin 5) (h : Fin 16) (rd ra : Fin 32) (s : State) : State :=
  s.dreq p h (encA rd ra 0 0 8 0x31) rd fun x l s =>
    let r := s.dealOpen l (x.xr ra).toNat false
    (dreqStatus r.1, r.2)

/-- DREQ_WRITE (R274): an entry outside the grant, or one that needs authentication, is a violation of class 4. -/
def opDreqWrite (p : Fin 5) (h : Fin 16) (rd ra rb : Fin 32) (s : State) : State :=
  s.dreq p h (encA rd ra rb 1 8 0x31) rd fun x l s =>
    let a := (x.xr ra).toNat
    if (s.openDeal l).isNone then (1, s)
    else if !s.dealGrant a || (dealable a && s.needsAuth a (x.xr rb)) then (3, s.violate 4 p 0 a)
    else
      let r := s.dealEntry l a (x.xr rb)
      (dreqStatus r.1, r.2)

/-- DREQ_PLAY (R273, R362): refused at once, or the hand waits until the checks end. -/
def opDreqPlay (p : Fin 5) (h : Fin 16) (rd ra rb : Fin 32) (s : State) : State :=
  s.issue p h (encA rd ra rb 2 8 0x31) fun x s => s.afterStores p h fun s =>
    if s.on HDG_STAT_SAFE then s.retire p h (x.setX rd 3) 11
    else
      let w := (x.xr ra).toNat
      let q : Play := {
        word := w, nsec := (x.xr rb).toNat, sec := (x.xr (rb + 1)).toNat + bits w 9 8 * 2 ^ 32, mac := none
        at_ := s.clk, hand := some (p, h, rd) }
      let r := s.dealPlay (s.logOf p) q
      if r.1 = 0 then r.2.handWait p h (.deal rd)
      else r.2.retire p h (x.setX rd (BitVec.ofNat 32 (dreqStatus r.1))) 11

/-- DREQ_FOLD (R273). -/
def opDreqFold (p : Fin 5) (h : Fin 16) (rd : Fin 32) (s : State) : State :=
  s.dreq p h (encA rd 0 0 3 8 0x31) rd fun _ l s =>
    let r := s.dealFold l
    (dreqStatus r.1, r.2)

end Sys2Proof.Machine
end

