-- ==== Sys2Proof/Machine/Frames.lean ====
section
/-!
DEFINITION. The rings (chapter 11): links, reception and forwarding, enumeration, requests and their execution, BULK,
EVENT and SYNC frames, hop delays, BOOTCMD.
-/
namespace Sys2Proof.Machine

/-! ### Links (R337) -/

/-- The receiver of ring `r` is UP. -/
def State.linkUp (s : State) (r : Nat) : Bool := decide (s.rd (BAL_LSTAT_STATE r) = 2)

/-- Errors of the receiver of ring `r` count for the day (Table 16-2, items 73 and 74). -/
def State.ringErrs (s : State) (r n : Nat) : State :=
  { s with ringErr := Sparse.set (fun _ => 0) r (Sparse.get (fun _ => 0) r s.ringErr + n) s.ringErr }

/-- LINK_SIGNAL_DETECT (R337): a receiver in DOWN detects a signal. -/
def opLinkSignalDetect (r : Fin 2) (s : State) : State :=
  if s.rd (BAL_LSTAT_STATE r) = 0 then
    { s.wr (BAL_LSTAT_STATE r) 1 with trainAt := Sparse.set (fun _ => 0) r.val s.clk s.trainAt }
  else s

/-- LINK_TRAIN_COMPLETE (R337): commas have been aligned for 1 ms; the receiver shows its neighbour's position. -/
def opLinkTrainComplete (r : Fin 2) (valid : Bool) (pos : Fin 64) (s : State) : State :=
  if s.rd (BAL_LSTAT_STATE r) = 1 ∧ Sparse.get (fun _ => 0) r.val s.trainAt + cyMs ≤ s.clk then
    ((s.wr (BAL_LSTAT_STATE r) 2).wr (BAL_LSTAT_NBV r) (b2n valid)).wr (BAL_LSTAT_NB r) pos
  else s

/-- LINK_DOWN (R337): the signal is lost, or `viol` code violations have come; 16 within 1 ms bring the receiver down. -/
def opLinkDown (r : Fin 2) (viol : Fin 17) (s : State) : State :=
  let s := (s.add (BAL_ERR_VIOL r) viol).ringErrs r viol
  if s.rd (BAL_LSTAT_STATE r) = 0 then s
  else
    let s := s.logEv 0x000B r (s.rd (BAL_LSTAT_NB r)) 0
    ((s.wr (BAL_LSTAT_STATE r) 0).wr (BAL_LSTAT_NBV r) 0).flag (BAL_LSTAT_WENTDOWN r)

/-! ### Enumeration (R351) -/

/-- A frame goes on along its ring (R342). -/
def State.forward (s : State) (r : Nat) (f : Frame) : State := s.txPut r f 0 false

/-- An ENUM frame on ring `r`: position and chain are taken, kept or refused, and the value is stepped. -/
def State.enumIn (s : State) (r : Nat) (f : Frame) : State :=
  let v := bits f.w1 6 0
  if 64 ≤ v then (s.flag BAL_PLOT_OVER).forward r f
  else
    let s :=
      if !s.on BAL_PLOT_POSVALID ∨ bit f.w1 9 = 1 then
        ((s.wr BAL_PLOT_POSVALID 1).wr BAL_PLOT_POS v).wr BAL_PLOT_CHAIN f.chain
      else if s.myPos ≠ v then s.flag BAL_PLOT_POSCONF else s
    let n := if bit f.w1 8 = 1 then (s.myPos + 127) % 128 else s.myPos + 1
    s.forward r { f with w1 := f.w1 - v + n }

/-! ### Time and angle (R353 to R355) -/

/-- Payload words of a SYNC frame sent now (Table 11-5). -/
def State.syncWords (s : State) : List Word :=
  let t := s.tb0.at s.clk
  let sec := secOf t
  let flags (n : Nat) : Nat :=
    b2n (s.on (FUR_STAT_LOCK n)) * 8 + b2n (s.on (FUR_STAT_HOLD n)) * 4 + b2n (s.on (FUR_STAT_SLEW n)) * 2
      + b2n (s.on (FUR_CTL_EN n))
  let ns := [0, 1, 2, 3]
  [BitVec.ofNat 32 (nsecOf t), BitVec.ofNat 32 sec,
    BitVec.ofNat 32 (bits sec 33 32 + s.rd RTC_TBSTAT_EPOCH * 256 + b2n (decide (s.rd RTC_TBSTAT_STATE ≠ 2)) * 4096
      + s.rd RTC_LEAP_LS * 65536), 0]
  ++ ns.flatMap (fun n => [BitVec.ofNat 32 (s.angle n), BitVec.ofNat 32 (s.angle n / 2 ^ 32)])
  ++ ns.map (fun n => BitVec.ofNat 32 (s.rd (FUR_FREQ_FREQ n)))
  ++ [BitVec.ofNat 32 (ns.foldl (fun x n => x + flags n * 16 ^ n) 0), 0]

/-- A header that this device originates: CLS 10b, its position and chain, a TAG; ARG2 has no stated value. -/
def State.ownFrame (s : State) (op tag att arg1 : Nat) (pay : List Word) : Frame × State :=
  let d := s.draw
  ({ w0 := hdr0 2 s.myPos tag op att pay.length, w1 := arg1, w2 := s.myChain * 2 ^ 24 + d.1.toNat % 65536, pay := pay },
    d.2)

/-- SYNC_SEND (R353): RATE times per second, on both rings. -/
def opSyncSend (s : State) : State :=
  let due := match s.syncTx with
    | some t => decide (t + cySec / s.rd BAL_SYNCCTL_RATE ≤ s.clk)
    | none => true
  if s.on BAL_SYNCCTL_BCST && due then
    let d := s.draw
    let f := d.2.ownFrame 9 d.1.toNat 0 0 s.syncWords
    let s := (f.2.txPut 0 f.1 0 true).txPut 1 f.1 0 true
    { s with syncTx := some s.clk }
  else s

/-- Fabric time between a SYNC frame's start delimiter and its end, in 1/16 ns: 90 symbols at 1.25 Gb/s. -/
abbrev syncLen : Nat := 90 * 8 * 16

/-- TB0 now less the frame's time and its delays, in 1/12288 ns (R355). -/
def State.syncErr (s : State) (r : Nat) (pay : List Word) : Int :=
  let p (i : Nat) : Nat := (pay.getD i 0).toNat
  let sec := p 1 + p 2 % 4 * 2 ^ 32
  ((s.tb0.at s.clk * 50000 : Nat) : Int)
    - 768 * (16 * (sec * 1000000000 + p 0) + p 3 + s.rd (BAL_HOPDLY_V r) + syncLen : Nat)

/-- The comparison with local TB0, and the step (R310, R355). -/
def State.syncAdopt (s : State) (r : Nat) (pay : List Word) : State :=
  if s.on BAL_SYNCCTL_ADOPT ∧ s.rd RTC_TBSTAT_STATE = 0 then
    let e := s.syncErr r pay
    let s := s.wrS BAL_SYNCERR_V (satS 32 (divRound e 12288))
    if 12288000 < e.natAbs then
      (s.tbStep ((s.tb0.at s.clk : Int) - divRound e 50000).toNat).flag BAL_SYNCSTAT_STEP
    else s
  else s

/-- Furrow `n` takes the angle of its remote furrow, brought to this cycle by local TB0 (R36). -/
def State.syncFurrow (s : State) (pay : List Word) (n : Nat) : State :=
  let p (i : Nat) : Nat := (pay.getD i 0).toNat
  let m := s.rd (FUR_SRC_RFW n)
  let fl := p 16 / 16 ^ m
  if s.on (FUR_CTL_EN n) && decide (s.rd (FUR_SRC_SRC n) = 6) && decide (bit fl 0 = 1) && decide (bit fl 3 = 1) then
    let sec := p 1 + p 2 % 4 * 2 ^ 32
    let d : Int := ((s.tb0.at s.clk * 3125 : Nat) : Int) - 768 * (sec * 1000000000 + p 0 : Nat)
    let rate := bits (p (12 + m)) 22 0
    let adv : Int := ((rate * 16777216 : Nat) : Int) * (2 * d) / ((3125 * angDen : Nat) : Int)
    let a : Nat := p (4 + 2 * m) + p (5 + 2 * m) * 2 ^ 32
    (s.setFurrow n { s.furrow n with bSeen := true }).srcFix n (tc 64 ((a : Int) + adv)) rate
  else s

/-- A SYNC frame of ring `r` is accepted (R355). -/
def State.syncTake (s : State) (r : Nat) (pay : List Word) : State :=
  let s : State := { s.inc BAL_SYNCSTAT_CNT with syncRx := some s.clk }
  [0, 1, 2, 3].foldl (fun (s : State) n => s.syncFurrow pay n) (s.syncAdopt r pay)

/-- A SYNC frame goes on: CORR grows by the residence time of 160 ns and the incoming hop's delay (R353). -/
def State.syncForward (s : State) (r : Nat) (f : Frame) : State :=
  s.forward r { f with pay := f.pay.set 3 (f.pay.getD 3 0 + BitVec.ofNat 32 (2560 + s.rd (BAL_HOPDLY_V r))) }

/-- The position of this device lies in a broadcast's range (R343). -/
def State.inRange (s : State) (f : Frame) : Bool :=
  s.on BAL_PLOT_POSVALID && decide (f.pos ≤ s.myPos) && decide (s.myPos ≤ f.arg2 % 64)

/-- A SYNC frame that is forwarded: of a device, or of the host to a range of positions; a host's of another chain is
counted (R342). -/
def State.syncIn (s : State) (r : Nat) (f : Frame) : State :=
  let t := s.syncForward r f
  if f.cls ≠ 2 ∧ s.inRange f ∧ f.chain ≠ s.myChain then t.inc (BAL_DROP_V r)
  else
    let ok := decide (f.pay.length = 18) && (if f.cls = 2 then !f.bc && decide (f.pos = s.rd BAL_SYNCCTL_RPOS)
      else s.on BAL_SYNCCTL_HOST && s.inRange f)
    if ok then t.syncTake r f.pay else t

/-- HOP_DELAY_MEASURE (R354): once per second, of the incoming hop of ring `r`, in 1/16 ns. -/
def opHopDelayMeasure (r : Fin 2) (d : Fin 65536) (s : State) : State :=
  let last := Sparse.get (fun _ => 0) r.val s.hopAt
  if s.linkUp r && (decide (last = 0) || decide (last - 1 + cySec ≤ s.clk)) then
    { s.wr (BAL_HOPDLY_V r) d with hopAt := Sparse.set (fun _ => 0) r.val (s.clk + 1) s.hopAt }
  else s

/-! ### EVENT frames (R350, R402) -/

/-- The attempt `e` is sent on its ring. -/
def State.evSend (s : State) (e : EvOut) : State :=
  let f := s.ownFrame 8 e.tag e.att e.ev.arg1 e.ev.words
  ({ f.2 with evOut := some { e with at_ := s.clk } } : State).txPut e.ring f.1 0 true

/-- EVENT_SEND (R350): the oldest frame that waits is sent, where none is unacknowledged. -/
def opEventSend (s : State) : State :=
  if s.evOut.isNone && s.on BAL_CTL_EVEN then match s.evWait with
    | e :: es =>
      let d := s.draw
      ({ d.2 with evWait := es } : State).evSend
        { tag := d.1.toNat % 64, ev := e, att := 0, at_ := s.clk, ring := s.rd BAL_CTL_EVRING }
    | [] => s
  else s

/-- The host acknowledges the event of tag `t` (R350). -/
def State.evAck (s : State) (t : Nat) : State :=
  match s.evOut with
  | some e => if e.tag = t then { s with evOut := none } else s
  | none => s

/-- EVENT_RETRY_TIMEOUT (R350): 100 µs without acknowledgement; the other ring, or the end after three attempts. -/
def opEventRetryTimeout (s : State) : State :=
  match s.evOut with
  | some e =>
    if s.clk < e.at_ + cyUs 100 then s
    else if e.att < 2 then s.evSend { e with att := e.att + 1, ring := 1 - e.ring }
    else { s.inc BAL_RETRYCNT_EVFAIL with evOut := none }
  | none => s

/-! ### Word transfers -/

/-- `n` words read for ring `r` from address `a`, the one of index `at_` with outcome `k`: the words before a failure, the
status of Table 11-4. -/
def State.readWords (s : State) (r : Fin 2) (at_ k : Nat) : Nat → Nat → Nat → List Word × Nat × State
  | _, _, 0 => ([], 0, s)
  | i, a, n + 1 =>
    let e := if i = at_ ∧ hostReads a then s.access (5 + r) a k else (false, s)
    if e.1 then ([], 3, e.2)
    else match e.2.hostRead r a with
      | (none, t) => ([], 2, t)
      | (some w, t) =>
        let q := t.readWords r at_ k (i + 1) (a + 4) n
        (w :: q.1, q.2)

/-- Words written for ring `r` from address `a`, the one of index `at_` with outcome `k`: the status of Table 11-4 (the
first of DFIELD and SEALED stays) and the words done. -/
def State.writeWords (s : State) (r : Fin 2) (at_ k : Nat) : Nat → Nat → List Word → Nat × Nat × State
  | _, _, [] => (0, 0, s)
  | i, a, w :: ws =>
    let e := if i = at_ ∧ hostWrites a then s.mismatch (5 + r) a k else (false, s)
    if e.1 then (3, 0, e.2)
    else
      let x := e.2.hostWrite r a w
      if x.1 = .refused then (2, 0, x.2)
      else
        let own := match x.1 with | .dfield => 6 | .sealed_ => 15 | _ => 0
        let q := x.2.writeWords r at_ k (i + 1) (a + 4) ws
        (if q.1 = 2 ∨ q.1 = 3 ∨ own = 0 then q.1 else own, q.2.1 + 1, q.2.2)

/-- Words entered into the host's deal from address `a` (R358): the status and the words entered. -/
def State.entryWords (s : State) : Nat → List Word → Nat × Nat × State
  | _, [] => (0, 0, s)
  | a, w :: ws =>
    let x := s.dealEntry 8 a w
    if x.1 ≠ 0 then (x.1, 0, x.2)
    else
      let q := x.2.entryWords (a + 4) ws
      (q.1, q.2.1 + 1, q.2.2)

/-! ### Reception (R342 to R346) -/

/-- A response that was sent on ring `1 - r` within the last 1 ms to the tag `t`. -/
def State.keptOf (s : State) (r t : Nat) : Option Kept :=
  s.kept.find? fun k => k.ring == r && k.tag == t && decide (s.clk < k.at_ + cyMs)

/-- The operation takes a request slot; EVENT is none of the host's, and OP 0Ch to 1Fh are unknown. -/
def slotOp (op : Nat) : Bool := decide (1 ≤ op) && decide (op ≤ 11) && decide (op ≠ 8) && decide (op ≠ 9)

/-- WR and LAST of a BULK frame. -/
def Frame.wrBit (f : Frame) : Bool := decide (bit f.w2 15 = 1)
def Frame.lastBit (f : Frame) : Bool := decide (bit f.w2 14 = 1)

/-- A request is a BULK write. -/
def Request.bulkWr (q : Request) : Bool := decide (q.frame.op = 10) && q.frame.wrBit

/-- The words of a BULK write's frames up to its first gap, and whether there is none. -/
def bulkData (base : Nat) : List Frame → List Word × Bool
  | [] => ([], true)
  | f :: fs =>
    if f.arg1 ≠ base ∨ f.pay.isEmpty then ([], false)
    else
      let q := bulkData (base + 4 * f.pay.length) fs
      (f.pay ++ q.1, q.2)

/-- The frames of a BULK write are all there: LAST, a gap, or as many as 4 KiB take. -/
def bulkWhole (base : Nat) (fs : List Frame) : Bool :=
  fs.any Frame.lastBit || !(bulkData base fs).2 || decide (16 ≤ fs.length)

/-- A further frame of the BULK write that holds a slot under its ring and tag. -/
def State.bulkMore (s : State) (r : Nat) (f : Frame) : Option State :=
  if f.op = 10 ∧ f.wrBit ∧ f.att = 0 then
    match s.reqs.find? fun q => q.bulkWr && q.ring == r && q.frame.tag == f.tag && !q.last with
    | some q =>
      let d := q.data ++ [f]
      let q' : Request := { q with data := d, last := bulkWhole q.frame.arg1 d }
      some { s with reqs := s.reqs.map fun x => if x.id == q.id then q' else x }
    | none => none
  else none

/-- A request addressed to this device: a retry, a slot, NAK_BUSY, BADOP. -/
def State.requestIn (s : State) (r : Nat) (f : Frame) : State :=
  let fresh (s : State) : State :=
    if !slotOp f.op then
      let x := s.respFrame f 5 none none []
      x.2.answer r f [x.1]
    else if 64 ≤ s.reqs.length then
      let d := s.draw
      let x := d.2.respFrame f 1 none none [BitVec.ofNat 32 (d.1.toNat % 65536)]
      (x.2.inc BAL_NAKCNT_V).answer r f [x.1]
    else
      let wr := decide (f.op = 10) && f.wrBit
      let q : Request :=
        { id := s.reqId, ring := r, frame := f, data := if wr then [f] else []
          last := !wr || bulkWhole f.arg1 [f] }
      ({ s with reqs := s.reqs ++ [q], reqId := s.reqId + 1 } : State).slotShow
  match s.bulkMore r f with
  | some t => t
  | none =>
    if f.att = 0 then fresh s
    else match s.keptOf r f.tag with
      | some k => k.frames.foldl (fun (s : State) g => s.txPut (1 - r) g 0 true) (s.inc BAL_RETRYCNT_RETRY)
      | none => if s.reqs.any fun q => q.ring == r && q.frame.tag == f.tag then s else fresh s

/-- A broadcast (R343): forwarded; a WRITE with LED = 0 is done by every device in its range, never answered. -/
def State.bcastIn (s : State) (r : Fin 2) (f : Frame) (at_ k : Nat) : State :=
  let s := s.forward r f
  if (f.cls ≠ 0 ∧ f.cls ≠ 3) ∨ !s.inRange f then s
  else if f.cls = 0 ∧ f.op = 2 ∧ !f.led ∧ f.chain = s.myChain then
    if f.pay.isEmpty ∨ 64 < f.pay.length ∨ f.arg1 % 4 ≠ 0 then s else (s.writeWords r at_ k 0 f.arg1 f.pay).2.2
  else s.inc (BAL_DROP_V r)

/-- A whole frame with a good CRC on ring `r` (R342). -/
def State.frameIn (s : State) (r : Fin 2) (f : Frame) (at_ k : Nat) : State :=
  if f.cls = 0 ∧ f.op = 0 then s.enumIn r f
  else if f.op = 9 ∧ (f.cls = 2 ∨ (f.cls = 0 ∧ f.bc)) then s.syncIn r f
  else if f.bc then s.bcastIn r f at_ k
  else if (f.cls = 0 ∨ f.cls = 3) ∧ s.on BAL_PLOT_POSVALID ∧ f.pos = s.myPos then
    if f.chain ≠ s.myChain then s.inc (BAL_DROP_V r)
    else if f.cls = 3 then s.evAck f.tag
    else if f.op = 9 then
      if s.on BAL_SYNCCTL_HOST ∧ f.pay.length = 18 then s.syncTake r f.pay else s
    else s.requestIn r f
  else s.forward r f

/-- FRAME_RECEIVE (R342): a frame of header `w0`, `w1`, `w2` and payload `pay` ends on ring `r`, its CRC good (`ok`) or not,
or ended by the abort delimiter; `at_` and `k` are the outcome of a broadcast's writes. -/
def opFrameReceive (r : Fin 2) (ok abort : Bool) (w0 w1 w2 : Word) (pay : List Word) (at_ : Fin 64) (k : Fin 5)
    (s : State) : State :=
  let f : Frame := { w0 := w0.toNat, w1 := w1.toNat, w2 := w2.toNat, pay := pay }
  if !s.linkUp r then s
  else if abort then s.txPut r f 2 false
  else if !ok then ((s.inc (BAL_ERR_CRC r)).ringErrs r 1).txPut r f 2 false
  else s.frameIn r f at_ k

/-- ENUM (R351): an ENUM frame on ring `r`; CLS and OP of `w0` are read as 0. -/
def opEnum (r : Fin 2) (w0 w1 w2 : Word) (s : State) : State :=
  if s.linkUp r then s.enumIn r { w0 := (w0 &&& 0x3FFE0FFF#32).toNat, w1 := w1.toNat, w2 := w2.toNat, pay := [] } else s

/-- SYNC (R355): a SYNC frame of the host to every position, or of the device at `pos`, on ring `r`. -/
def opSync (r : Fin 2) (host : Bool) (pos : Fin 64) (pay : List Word) (s : State) : State :=
  let f : Frame :=
    if host then { w0 := hdr0 0 0 0 9 0 18 + 2 ^ 29, w1 := 0, w2 := s.myChain * 2 ^ 24 + 63, pay := pay }
    else { w0 := hdr0 2 pos 0 9 0 18, w1 := 0, w2 := s.myChain * 2 ^ 24, pay := pay }
  if s.linkUp r then s.syncIn r f else s

/-- EVENT_ACK (R350): a CLS 11b frame to this device with tag `tag`. -/
def opEventAck (tag : Fin 64) (s : State) : State := s.evAck tag

/-! ### Execution (R340, R346, R348, R349) -/

/-- The request executed next, BULK apart, if its operation is `op`: the oldest whose response is not already under
way. -/
def State.nextReq (s : State) (op : Nat) (f : Request → State → State) : State :=
  match s.reqs.find? fun q => !q.busy && decide (q.frame.op ≠ 10) with
  | some q => if q.frame.op = op then f q s else s
  | none => s

/-- The ring of a request. -/
def Request.r (q : Request) : Fin 2 := Fin.ofNat 2 q.ring

/-- READ (R340): 1 to 64 words, the one of index `at_` with outcome `k`. -/
def opRead (at_ : Fin 64) (k : Fin 5) (s : State) : State :=
  s.nextReq 1 fun q s =>
    let f := q.frame
    if f.arg1 % 4 ≠ 0 ∨ f.arg2 = 0 ∨ 64 < f.arg2 ∨ !f.pay.isEmpty then s.respond q 4 none []
    else
      let x := s.readWords q.r at_ k 0 f.arg1 f.arg2
      x.2.2.respond q x.2.1 (if x.2.1 = 2 then some x.1.length else none) x.1

/-- A confirmation that a WRITE has just made waits, with its response, for the selector's commit (R443). -/
def State.confirmWait (s : State) (q : Request) (was n : Nat) : Option State :=
  match s.updQ.getLast? with
  | some j => match j.fin with
    | .confirm sel none 0 =>
      if was < s.updQ.length then
        some (({ s with updQ := s.updQ.dropLast ++ [{ j with fin := .confirm sel (some q.id) n }] } : State).reqBusy q.id)
      else none
    | _ => none
  | none => none

/-- WRITE (R340): words to consecutive addresses, the one of index `at_` with outcome `k`, or into the ledger. -/
def opWrite (at_ : Fin 64) (k : Fin 5) (s : State) : State :=
  s.nextReq 2 fun q s =>
    let f := q.frame
    if f.pay.isEmpty ∨ 64 < f.pay.length ∨ f.arg1 % 4 ≠ 0 then s.respond q 4 (some 0) []
    else if f.led then
      let x := s.entryWords f.arg1 f.pay
      x.2.2.respond q x.1 (some x.2.1) []
    else
      let x := s.writeWords q.r at_ k 0 f.arg1 f.pay
      match x.2.2.confirmWait q s.updQ.length x.2.1 with
      | some t => t
      | none => x.2.2.respond q x.1 (some x.2.1) []

/-- RMW (R340): atomic, with outcome `k`. -/
def opRmw (k : Fin 5) (s : State) : State :=
  s.nextReq 3 fun q s =>
    let a := q.frame.arg1
    match q.frame.pay with
    | [m, v] =>
      if a % 4 ≠ 0 then s.respond q 4 none []
      else if !hostReads a ∨ !hostWrites a then (s.refuse (5 + q.r) a true).respond q 2 (some 0) []
      else
        let e := s.access (5 + q.r) a k
        if e.1 then e.2.respond q 3 none []
        else
          let x := e.2.wordRead (.host q.r) a
          let y := x.2.hostWrite q.r a ((x.1 &&& ~~~m) ||| (v &&& m))
          match y.1 with
          | .ok => y.2.respond q 0 none [x.1]
          | .dfield => y.2.respond q 6 none [x.1]
          | .sealed_ => y.2.respond q 15 none [x.1]
          | .refused => y.2.respond q 2 (some 0) []
    | _ => s.respond q 4 none []

/-- DEAL_OPEN (R357). -/
def opDealOpen (s : State) : State :=
  s.nextReq 4 fun q s =>
    if !q.frame.pay.isEmpty then s.respond q 4 none []
    else
      let x := s.dealOpen 8 (bits q.frame.arg1 7 0) (decide (bit q.frame.arg1 8 = 1))
      x.2.respond q x.1 none []

/-- DEAL_PLAY (R360 to R362): refused at once, or answered when its checks end. -/
def opDealPlay (s : State) : State :=
  s.nextReq 5 fun q s =>
    let f := q.frame
    if f.pay.length ≠ 2 ∧ f.pay.length ≠ 10 then s.respond q 4 none []
    else
      let mac := if f.pay.length = 10 then some ((f.pay.drop 2).flatMap fun w => leBytes 4 w.toNat) else none
      let x := s.dealPlay 8 {
        word := f.arg1, nsec := (f.pay.getD 0 0).toNat
        sec := (f.pay.getD 1 0).toNat + bits f.arg1 9 8 * 2 ^ 32, mac := mac, at_ := s.clk, req := some q.id }
      if x.1 = 0 then x.2.reqBusy q.id else x.2.respond q x.1 none []

/-- DEAL_FOLD (R357). -/
def opDealFold (s : State) : State :=
  s.nextReq 6 fun q s =>
    if !q.frame.pay.isEmpty ∨ q.frame.arg1 ≠ 0 then s.respond q 4 none []
    else
      let x := s.dealFold 8
      x.2.respond q x.1 none []

/-- MAILBOX (R349): OK, MBFULL or NOPLOUGH. -/
def opMailbox (s : State) : State :=
  s.nextReq 7 fun q s => match q.frame.pay with
    | [w] =>
      let x := s.mailFrame q.ring (bits q.frame.arg1 2 0) w
      x.2.respond q (match x.1 with | 0 => 0 | 1 => 12 | _ => 13) none []
    | _ => s.respond q 4 none []

/-! ### BULK (R348) -/

/-- The oldest BULK request, if none of them is under way and all its frames have come. -/
def State.nextBulk (s : State) (p : Request → Bool) (f : Request → State → State) : State :=
  match s.reqs.find? fun q => decide (q.frame.op = 10) with
  | some q => if !q.busy && q.last && p q then f q s else s
  | none => s

/-- Data frames of a BULK read from byte offset `o`: up to 64 words each, the final one with LAST and the status. -/
def State.bulkFrames (s : State) (q : Frame) (st : Nat) : Nat → Nat → List Word → List Frame × State
  | 0, _, _ => ([], s)
  | n + 1, o, ws =>
    if ws.length ≤ 64 then
      let x := s.respFrame q st (some o) (some 0x4000) ws
      ([x.1], x.2)
    else
      let x := s.respFrame q 0 (some o) (some 0) (ws.take 64)
      let y := x.2.bulkFrames q st n (o + 256) (ws.drop 64)
      (x.1 :: y.1, y.2)

/-- BULK_READ (R348): the word of index `at_` has outcome `k`. -/
def opBulkRead (at_ : Nat) (k : Fin 5) (s : State) : State :=
  s.nextBulk (fun q => !q.frame.wrBit) fun q s =>
    let a := q.frame.arg1
    match q.frame.pay with
    | [l] =>
      let n := l.toNat
      if a % 4 ≠ 0 ∨ n % 4 ≠ 0 ∨ n < 4 ∨ 0x1000000 < n then s.respond q 4 none []
      else
        let x := s.readWords q.r at_ k 0 a (n / 4)
        let y := x.2.2.bulkFrames q.frame x.2.1 (n / 256 + 1) 0 x.1
        y.2.respondAll q y.1
    | _ => s.respond q 4 none []

/-- A BULK write goes to the download window. -/
def Request.toPort (q : Request) : Bool := decide (0x101B800 ≤ q.frame.arg1) && decide (q.frame.arg1 < 0x101B800 + 4096)

/-- The words of a BULK write before its first gap or beyond 4 KiB, and whether it is well formed. -/
def Request.bulkIn (q : Request) : List Word × Bool :=
  let x := bulkData q.frame.arg1 q.data
  (x.1.take 1024, x.2 && decide (x.1.length ≤ 1024) && (q.data.getLast?.any Frame.lastBit))

/-- Field RAM words written from `a`, the one of index `at_` with outcome `k`. -/
def State.bulkPut (s : State) (r : Fin 2) (at_ k : Nat) : Nat → Nat → List Word → Nat × Nat × State
  | _, _, [] => (0, 0, s)
  | i, a, w :: ws =>
    if fieldRam ≤ a then (2, 0, s.refuse (5 + r) a true)
    else
      let e := if i = at_ then s.mismatch (5 + r) a k else (false, s)
      if e.1 then (3, 0, e.2)
      else
        let q := (e.2.store32 a w.toNat).bulkPut r at_ k (i + 1) (a + 4) ws
        (q.1, q.2.1 + 1, q.2.2)

/-- BULK_WRITE (R348): a write to field RAM, or to an address that it may not target. -/
def opBulkWrite (at_ : Fin 1024) (k : Fin 5) (s : State) : State :=
  s.nextBulk (fun q => q.bulkWr && !q.toPort) fun q s =>
    let x := q.bulkIn
    if q.frame.arg1 % 4 ≠ 0 then s.respond q 4 (some 0) []
    else
      let y := s.bulkPut q.r at_ k 0 q.frame.arg1 x.1
      y.2.2.respond q (if y.1 = 0 ∧ !x.2 then 4 else y.1) (some y.2.1) []

/-- DOWNLOAD_BLOCK (R438): a BULK write to `UPD_DLPORT` is a block's bytes from offset 0. -/
def opDownloadBlock (s : State) : State :=
  s.nextBulk (fun q => q.bulkWr && q.toPort) fun q s =>
    let x := q.bulkIn
    if q.frame.arg1 ≠ 0x101B800 ∨ !x.2 then s.blockBad q
    else s.dlBlock q (x.1.flatMap fun w => leBytes 4 w.toNat)

/-! ### BOOTCMD (R447) -/

/-- The message of a RECOVER. -/
def State.recoverMsg (s : State) (arg1 : Nat) : List Byte :=
  s.regBytes DEAL_UIDL ++ s.regBytes DEAL_UIDH ++ s.regBytes DEAL_ANONCE ++ leBytes 4 arg1

/-- The event record of a start-up, made when it ends (R297, Table 16-4). -/
def State.bootLog (s : State) : State := s.logEv 0x0012 (s.rdW NVM_BOOT).toNat (s.rdW UPD_BOOT).toNat s.rstCause

/-- A start-up ends in recovery mode (R430, R445, R446): the all-channel calibration runs. -/
def State.bootRecover (s : State) : State :=
  s.bootLog.recover.calBegin { all := true, ch := 0, start := s.clk, enable := false }

/-- A RECOVER whose MAC is `mac`, in the `GPIO00` wait, with the counter free to advance. -/
def State.recoverAuth (s : State) (q : Request) (mac : List Byte) : State :=
  let v := s.authVerify (s.recoverMsg q.frame.arg1) (some mac)
  if v.1 then (v.2.respond q 0 none []).bootRecover else (v.2.tamper 7).respond q 11 none []

/-- BOOTCMD_RECOVER (R361, R447): it waits while a ceiling is being committed, and so commits one that is needed. -/
def opBootcmdRecover (s : State) : State :=
  s.nextReq 11 fun q s =>
    let f := q.frame
    if bits f.arg1 7 0 = 2 then s
    else if f.arg1 ≠ 1 ∨ f.arg2 ≠ 0 ∨ f.pay.length ≠ 8 then s.respond q 4 none []
    else if s.boot ≠ 1 then s.respond q 2 (some 0) []
    else if s.dealCeilNew.isSome then s
    else if s.ceilNeed then match s.ceilPush with
      | some t => t
      | none => s.respond q 7 none []
    else s.recoverAuth q (f.pay.flatMap fun w => leBytes 4 w.toNat)

/-- BOOTCMD_LEAVE (R447): in recovery mode, answered and followed by a warm reset. -/
def opBootcmdLeave (s : State) : State :=
  s.nextReq 11 fun q s =>
    let f := q.frame
    if bits f.arg1 7 0 ≠ 2 then s
    else if f.arg1 ≠ 2 ∨ f.arg2 ≠ 0 ∨ !f.pay.isEmpty then s.respond q 4 none []
    else if !s.on UPD_STAT_RECOV then s.respond q 2 (some 0) []
    else
      let s := s.respond q 0 none []
      if s.rstReq.isNone then { s with rstReq := some s.clk } else s

end Sys2Proof.Machine
end

