-- ==== Sys2Proof/Machine/Alarm.lean ====
section
/-!
DEFINITION. The end of a fabric cycle: alarm groups and their responses in trump order (R399 to R402), the alert balls
(R400), the entry into the safe state (R411), and the passing of time that every command carries.
-/
namespace Sys2Proof.Machine

/-! ### Alert balls (R400, Table 14-1) -/

/-- Ball `b` is held low: the safe state, its latch, or an asserted source of `now` whose field for it is 01b. -/
def State.alertHeld (s : State) (b now : Nat) : Bool :=
  s.on HDG_STAT_SAFE || s.on (bitFld INT_ALSTAT (2 + b))
    || (onBits 128 now).any fun i => decide (1 ≤ i) && decide (bits (s.rdW (INT_RSP i)).toNat (21 + 2 * b) (20 + 2 * b) = 1)

/-- The cycle before which a low ball may not be released. -/
def State.alertFree (s : State) (a : Alert) : Nat :=
  let m := a.since + s.rd HDG_ALERT_MINAS * cyMs
  match a.released with
  | some r => Nat.max m (r + s.rd HDG_ALERT_GAP * 10 * cyMs)
  | none => m

/-- A ball's state in this cycle: asserted, released, or its release deferred. -/
def State.alertNext (s : State) (a : Alert) (held : Bool) : Alert :=
  if held then { a with low := true, since := if a.low then a.since else s.clk, deferred := false }
  else if !a.low then a
  else
    let r := s.alertFree a
    if r ≤ s.clk then { a with low := false, released := some (if a.deferred then r else s.clk), deferred := false }
    else { a with deferred := true }

/-- Both balls follow R400 for the levels `now`. -/
def State.alerts (s : State) (now : Nat) : State :=
  { s with alert0 := s.alertNext s.alert0 (s.alertHeld 0 now), alert1 := s.alertNext s.alert1 (s.alertHeld 1 now) }

/-- ALERT_RELEASE_DEFERRED (R400): the deferred release of ball `k` falls due. -/
def opAlertReleaseDeferred (k : Fin 2) (s : State) : State :=
  let a := if k.val = 0 then s.alert0 else s.alert1
  if a.deferred then
    let a := s.alertNext a (s.alertHeld k s.levels)
    if k.val = 0 then { s with alert0 := a } else { s with alert1 := a }
  else s

/-! ### Alarm groups (R399 to R402) -/

/-- IDs four or eight to a word, unused bytes FFh. -/
def idWords (n : Nat) : Nat → List Nat → List Nat
  | 0, _ => []
  | fuel + 1, ids =>
    if ids.isEmpty then []
    else ofLe (((ids.take n).map fun i => BitVec.ofNat 8 i) ++ List.replicate (n - (ids.take n).length) 0xFF#8)
      :: idWords n fuel (ids.drop n)

/-- The alert latches set and cleared by a group's members: a set beats a clear. -/
def State.latchGroup (s : State) (b : Nat) (fs : List Nat) : State :=
  let f := bitFld INT_ALSTAT (2 + b)
  if fs.contains 2 then s.wr f 1 else if fs.contains 3 then s.wr f 0 else s

/-- The EVENT frame of a group is prepared, or lost (R402). -/
def State.eventGroup (s : State) (g : List Nat) : State :=
  match s.topOf (g.filter (s.qualifies 5)) with
  | none => s
  | some t =>
    if !s.on BAL_CTL_EVEN then s
    else if (if s.evOut.isSome then 4 else 5) ≤ s.evWait.length then s.inc INT_EVLOST_V
    else
      let ids := g.take 40
      let ws := s.stamp (s.rd INT_CTL_FW)
        ++ BitVec.ofNat 32 (ids.length + b2n (decide (40 < g.length)) * 256)
          :: (idWords 4 40 ids).map fun w => BitVec.ofNat 32 w
      { s with evWait := s.evWait ++ [{ arg1 := t + s.rd (INT_PRI_of t) * 256, words := ws }] }

/-- The alarm record of a group's members with LOG = 1 (R401). -/
def State.logGroup (s : State) (g : List Nat) : State :=
  let ms := g.filter fun i => decide (i < 128) && s.on (INT_RSP_LOG i)
  if ms.isEmpty then s
  else if 32 ≤ s.alq.length then s.inc INT_LOGLOST_V
  else
    let rsp := ms.foldl (fun x i => x ||| bits (s.rdW (INT_RSP i)).toNat 31 16) 0
    { s with alq := s.alq ++ [{
        type := 0x0100
        payload := packStamp (s.stamp (s.rd INT_CTL_FW)) ++ [dw rsp ms.length]
          ++ (idWords 8 16 ms).map fun w => BitVec.ofNat 64 w }] }

/-- The responses of the alarm group `g` in trump order (Table 13-2), with the levels `now`. -/
def State.respondGroup (s : State) (g : List Nat) (now : Nat) : State :=
  let hw := g.filter fun i => i < 128
  let s := if hw.any fun i => s.on (INT_RSP_SAFE i) then s.safeCause 0 else s
  let s := ((List.range 8).filter fun b => hw.any fun i => s.on (INT_RSP_CAP i) && decide (s.rd (INT_RSP_BUF i) = b)).foldl
    (fun (s : State) b => s.siloTrigger 9 b 2 0 s.clk false) s
  let s := (s.latchGroup 0 (hw.map fun i => s.rd (INT_RSP_AL0 i))).latchGroup 1 (hw.map fun i => s.rd (INT_RSP_AL1 i))
  ((s.alerts now).eventGroup g).logGroup g

/-! ### The safe state (R411) -/

/-- The entry into the safe state: pulse outputs idle, the alert balls low, the modem's output stopped, a plough's deal
folded, the misdeal unit stopped (Table 14-4). -/
def State.safeEnter (s : State) : State :=
  let s := (s.wr HDG_STAT_SAFE 1).duoQuiet
  let s := (s.msdStop 2).dealPlough
  let s := (List.range 16).foldl (fun (s : State) n =>
    if (s.pulseOf n).on then s.plsMoved (s.setPulse n { s.pulseOf n with on := false }) else s) s
  let low (a : Alert) : Alert := { a with low := true, since := s.clk, deferred := false }
  { s with alert0 := low s.alert0, alert1 := low s.alert1 }

/-- The causes of the last cycle enter the safe state in this one, each counted and logged. -/
def State.safeRun (s : State) : State :=
  if s.safeQ.isEmpty then s
  else
    let s := s.safeQ.foldl (fun (s : State) c => (s.inc HDG_SAFECNT_V).logEv 0x000D c 0 0) s
    let s : State := { s with safeQ := [], safeClk := s.clk }
    if s.on HDG_STAT_SAFE then s else s.safeEnter

/-! ### Time -/

/-- The next fabric cycle begins. -/
def State.nextCycle (s : State) : State :=
  { s with clk := s.clk + 1, clrNow := [], setNow := [], txNow := [], taken := [], hopNow := [], ffDrop := [], regsWas := s.regs }

/-- The present fabric cycle ends and the next begins. In reset nothing rises and nothing is answered. -/
def State.cycleEnd (s : State) : State :=
  if s.inReset then s.nextCycle
  else
  let s := s.yldEvents.tbKeep.flagsKeep
  let now := s.levels
  let g := (onBits 192 (now &&& (now ^^^ s.lvl))).filter fun i => 1 ≤ i
  let s := if g.isEmpty then s.alerts now else s.respondGroup g now
  ({ s with lvl := now } : State).nextCycle.safeRun

/-- `dt` fabric cycles pass before a command: the cycle of the last command ends, and so does the next where the safe
state was entered in it; in the rest nothing happens that is not a command of its own, but the commit engine writes. -/
def State.advance (dt : Nat) (s : State) : State :=
  match dt with
  | 0 => s
  | 1 => s.cycleEnd.nvmRun
  | 2 => s.cycleEnd.cycleEnd.nvmRun
  | n + 3 =>
    let s := s.cycleEnd.cycleEnd
    let s := ({ s with clk := s.clk + n } : State).nextCycle.nvmRun
    { s with setNow := [], regsWas := s.regs }

end Sys2Proof.Machine
end

