-- ==== Sys2Proof/Machine/Order.lean ====
section
/-!
DEFINITION. Requests that meet in one cycle. Where a rule orders the requests that reach one object in the same fabric cycle
(R17, R66, R216, R276, R364), each is carried out as a pair of the object and its place in that order. A request that comes
behind one of a later place has missed the cycle: it is of the next one. DESIGN CHOICE (log 118).
-/
namespace Sys2Proof.Machine

/-! ### The objects -/

/-- The live bins of field `f`, and the program bins (R17). -/
def objBins (b : Nat) : Nat := if b < 1024 then b / 64 else 16

/-- Seed `i` (R276). -/
def objSeed (i : Nat) : Nat := 1000 + i

/-- The mailbox of logical plough `l` (R276). -/
def objMail (l : Nat) : Nat := 100 + l

/-- The start queue of logical plough `l` (R276). -/
def objStart (l : Nat) : Nat := 110 + l

/-- The deal ledger (R276). -/
def objLedger : Nat := 120

/-- The interrupt controller's claims (R276). -/
def objClaims : Nat := 121

/-- The software interrupt sources (R403). -/
def objSoft : Nat := 123

/-! ### Being late -/

/-- A request of the places `ks` comes behind one of a later place in the present cycle. -/
def State.late (s : State) (ks : List (Nat × Nat)) : Bool :=
  ks.any fun k => s.taken.any fun j => decide (j.1 = k.1) && decide (k.2 < j.2)

/-- The state in which a command given `dt` cycles after the one before acts: a late one in the next cycle. -/
def State.turn (s : State) (dt : Nat) (ks : State → List (Nat × Nat)) : State :=
  let t := s.advance dt
  if t.late (ks t) then t.advance 1 else t

/-! ### The places of the commands -/

/-- The place of an originator among those of R276: ring A, ring B, the ploughs ascending. -/
def origPlace : Orig → Nat
  | .host r => r
  | .plough p _ => 2 + p

/-- A direct write of a register (R364). -/
def dirKeys (_ : State) : List (Nat × Nat) := [(objRegs, 0)]

/-- The places of `n` words from address `a`, read or written by an originator of place `pl`: bins after every write of
them, claims by their target, seeds and software sources by the originator, a start after the seeds'. -/
def accessKeys (pl : Nat) (wr : Bool) (a n : Nat) : List (Nat × Nat) :=
  let e := a + 4 * n
  let seeds := if e ≤ SEEDS ∨ SEEDS + 16384 ≤ a then []
    else (List.range 1024).filterMap fun i =>
      if a < SEEDS + 16 * i + 16 ∧ SEEDS + 16 * i < e then some (objSeed i, pl) else none
  let bins := (List.range 17).filterMap fun f =>
    let b := 0x200000 + 1024 * f
    if a < (if f = 16 then 0x210000 else b + 1024) ∧ b < e then some (f, 8) else none
  let claims := (List.range 6).filterMap fun t =>
    if a ≤ INT_CLAIM t ∧ INT_CLAIM t < e then some (objClaims, t) else none
  if wr then
    let soft := if a < INT_SWCLR 1 + 4 ∧ INT_SWSET 0 < e then [(objSoft, pl)] else []
    let starts := if a ≤ PLG_START ∧ PLG_START < e then (List.range 5).map fun l => (objStart l, 2) else []
    (objRegs, 0) :: (seeds ++ soft ++ starts)
  else bins ++ claims

/-- A write of `a` by `o`. -/
def writeKeys (o : Orig) (a : Nat) (_ : State) : List (Nat × Nat) := accessKeys (origPlace o) true a 1

/-- A read of bin `b`, of the live granary or of the snapshot window. -/
def binReadKeys (snap : Bool) (b : Nat) (_ : State) : List (Nat × Nat) := if snap then [] else [(objBins b, 8)]

/-- TALLY_ROUND, SNAPSHOT_BOUNDARY: the live bins (R17). -/
def tallyKeys (_ : State) : List (Nat × Nat) := (List.range 16).map fun f => (f, 0)
def snapKeys (_ : State) : List (Nat × Nat) := (List.range 16).map fun f => (f, 1)

/-- TRANSFORM_BOUNDARY: the program bins, where the transform's results go there (R17). -/
def thresherKeys (s : State) : List (Nat × Nat) :=
  let ws := match s.thrRun with
    | some r => match r.lane with
      | some k => (match s.lane k with | some l => l.words | none => [])
      | none => (match s.thrQ.find? (·.id = r.job) with | some j => j.words | none => [])
    | none => []
  if ws ≠ [] ∧ dscDest ws ≠ 0 then [(16, 2)] else []

/-- STORE_COMPLETE: the oldest posted store of plough `p`. -/
def storeKeys (p : Nat) (s : State) : List (Nat × Nat) :=
  match (s.ploughOf p).sb with
  | .mem _ a bs :: _ => accessKeys (2 + p) true a ((bs.length + 3) / 4)
  | .bin _ b _ _ :: _ => [(objBins b, 3 + p)]
  | .idone _ _ :: _ => dirKeys s
  | [] => []

/-- LOAD_RETURN: the load for which hand `h` of plough `p` waits. -/
def loadKeys (p h : Nat) (s : State) : List (Nat × Nat) :=
  match (s.handOf p h).st with
  | .wait (.load kind _ a _) => if kind = 6 then [(objBins a, 8)] else accessKeys (2 + p) false a (if kind = 5 then 8 else 1)
  | _ => []

/-- The request of operation `op` executed next, BULK apart: its places. -/
def reqKeys (op : Nat) (f : Request → List (Nat × Nat)) (s : State) : List (Nat × Nat) :=
  match s.reqs.find? fun q => !q.busy && decide (q.frame.op ≠ 10) with
  | some q => if q.frame.op = op then f q else []
  | none => []

/-- READ, WRITE, RMW and BULK_READ of a host (R340, R348). -/
def readKeys (s : State) : List (Nat × Nat) := reqKeys 1 (fun q => accessKeys q.ring false q.frame.arg1 q.frame.arg2) s
def hostWriteKeys (s : State) : List (Nat × Nat) :=
  reqKeys 2 (fun q => if q.frame.led then [(objLedger, q.ring)]
    else accessKeys q.ring true q.frame.arg1 q.frame.pay.length) s
def rmwKeys (s : State) : List (Nat × Nat) :=
  reqKeys 3 (fun q => accessKeys q.ring false q.frame.arg1 1 ++ accessKeys q.ring true q.frame.arg1 1) s
def bulkKeys (s : State) : List (Nat × Nat) :=
  match s.reqs.find? fun q => decide (q.frame.op = 10) with
  | some q => accessKeys q.ring false q.frame.arg1 ((q.frame.pay.getD 0 0).toNat / 4)
  | none => []

/-- FRAME_RECEIVE: a broadcast WRITE is carried out as it comes (R343). -/
def frameKeys (r : Nat) (w0 w1 w2 : Word) (pay : List Word) (_ : State) : List (Nat × Nat) :=
  let f : Frame := { w0 := w0.toNat, w1 := w1.toNat, w2 := w2.toNat, pay := pay }
  if f.bc ∧ f.cls = 0 ∧ f.op = 2 ∧ !f.led then accessKeys r true f.arg1 pay.length else []

/-- DEAL_OPEN, DEAL_PLAY and DEAL_FOLD, by their operation (R276). -/
def ledgerKeys (op : Nat) (s : State) : List (Nat × Nat) := reqKeys op (fun q => [(objLedger, q.ring)]) s

/-- MAILBOX (R276). -/
def mailKeys (s : State) : List (Nat × Nat) := reqKeys 7 (fun q => [(objMail (bits q.frame.arg1 2 0), q.ring)]) s

/-- DREQ, SARM and SDIS, MSND, SPAWN, ICLM of a hand (R276). -/
def dreqKeys (p : Nat) (_ : State) : List (Nat × Nat) := [(objLedger, 2 + p)]
def seedOpKeys (p h : Nat) (rn : Fin 32) (s : State) : List (Nat × Nat) :=
  [(objSeed (((s.handOf p h).xr rn).toNat % 1024), 2 + p)]
def msndKeys (p h : Nat) (ra : Fin 32) (s : State) : List (Nat × Nat) :=
  [(objMail (((s.handOf p h).xr ra).toNat % 8), 2 + p)]
def spawnKeys (p h : Nat) (ra : Fin 32) (s : State) : List (Nat × Nat) :=
  [(objStart (bits ((s.handOf p h).xr ra).toNat 18 16), 3 + p)]
def claimKeys (p : Nat) (s : State) : List (Nat × Nat) := [(objClaims, s.logOf p)]

/-- INTERRUPT_CLAIM of target `t` (R276). -/
def intClaimKeys (t : Nat) (_ : State) : List (Nat × Nat) := [(objClaims, t)]

/-- A write of seed `i` whose sender is not told comes after those of R276 that are, before the sowing engine's update. -/
def seedRowKeys (i : Nat) (_ : State) : List (Nat × Nat) := [(objRegs, 0), (objSeed i, 7)]

/-- SEED_DUE: the sowing engine's own update (R276). -/
def seedDueKeys (i : Nat) (_ : State) : List (Nat × Nat) := [(objSeed i, 8)]

/-- VECTOR15_REQUEST, SEED_DISPATCH and START_REQUEST: the start queues (R216, R276). -/
def v15Keys (l : Nat) (_ : State) : List (Nat × Nat) := [(objStart l, 0)]
def dispatchKeys (s : State) : List (Nat × Nat) :=
  s.seedQ.filterMap fun q => if bits q.w3 28 26 = 0 then some (objStart (bits q.w3 6 4), 1) else none
def startKeys (w : Word) (_ : State) : List (Nat × Nat) := [(objRegs, 0), (objStart (bits w.toNat 18 16), 2)]

end Sys2Proof.Machine
end

