-- ==== Sys2Proof/WellFormed.lean ====
section
/-!
DEFINITION. Which commands can reach the device: the lengths of the operands that are lists. Every other operand is
bounded by its type.
-/
namespace Sys2Proof

/-- A frame whose CRC is good carries the LEN words of its header (R339). -/
def wfFrame (ok abort : Bool) (w0 : Word) (pay : List Word) : Bool :=
  !ok || abort || decide (pay.length = w0.toNat % 128)

/-- A SYNC frame has 18 payload words (Table 11-3). -/
def wfSync (pay : List Word) : Bool := decide (pay.length = 18)

/-- A calibration finds the coefficients of five slices and one or six PGA corrections (Table 03-10). -/
def wfCal (out : List CalOut) : Bool :=
  out.all fun o => decide (o.co.length = 5) && (decide (o.pga.length = 1) || decide (o.pga.length = 6))

/-- A beacon has 268 payload bytes (R377). -/
def wfBeacon (bs : List Byte) : Bool := decide (bs.length = 268)

/-- A modem frame has at least its MAC header of 8 bytes (R374). -/
def wfMac (bs : List Byte) : Bool := decide (8 ≤ bs.length)

/-- A coarse sample comes of eight conversions and the integrator's result, a wide one of the results of S2 to S6, a fine one
of that of S7; a raw gang sample is of samples that are there (R77, R115, R125). -/
def wfSample (t : Tap) (xs : List Int) : Bool :=
  decide (xs.length = match t with | .c => 9 | .w => 5 | .f => 1 | .raw => 0)

/-- The commands whose operands have the lengths that such an event has. -/
def Instr.wf : Instr → Bool
  | .frameReceive _ _ ok abort w0 _ _ pay _ _ => wfFrame ok abort w0 pay
  | .sync _ _ _ _ pay => wfSync pay
  | .calibrationEnd _ out => wfCal out
  | .beaconReceive _ bs _ _ _ => wfBeacon bs
  | .streamSample _ _ t xs _ => wfSample t xs
  | .modemFrameReceive _ _ _ _ _ _ bs _ _ => wfMac bs
  | _ => true

end Sys2Proof
end

