-- ==== Sys2Proof/Machine/Meaning.lean ====
section
/-!
DEFINITION. The form every meaning has: time passes up to the command, then the command has its effect.
-/
namespace Sys2Proof.Machine

/-- A command of the main domain: none happens while the internal reset is held (R469). -/
def mainCmd (dt : Nat) (f : State → State) (s : State) : Res State :=
  let t := s.advance dt
  .next (if t.inReset then t else f t)

/-- A command of the supplies, the reset pins, the PLL or the backup domain, which the internal reset does not hold
(R319, R468, R469). -/
def anyCmd (dt : Nat) (f : State → State) (s : State) : Res State := .next (f (s.advance dt))

/-- A command of the main domain whose requests have the places `ks` in the orders of their cycle. -/
def ordCmd (dt : Nat) (ks : State → List (Nat × Nat)) (f : State → State) (s : State) : Res State :=
  let t := s.turn dt ks
  .next (if t.inReset then t else f { t with taken := t.taken ++ ks t })

/-- A command whose lists have lengths that no such event has does not happen: the machine stops. -/
def wfCmd (ok : Bool) (r : Res State) : Res State := if ok then r else .fault .illFormed

end Sys2Proof.Machine
end

