-- ==== Sys2Proof/Machine/Sowing.lean ====
section
/-!
DEFINITION. The sowing engine (R61, R64 to R69): seeds fall due, wait for dispatch, run their DELAY and act.
-/
namespace Sys2Proof.Machine

/-- A deal held for a positive zero crossing that falls in this cycle is applied before the cycle's seeds are dispatched
(R66). -/
def State.dealFirst (s : State) : State :=
  match s.deal.bind (·.play) with
  | some p => if p.word % 4 = 1 then s.dealCome else s
  | none => s

/-- An occurrence of seed `i` is missed (R68). -/
def State.seedMiss (s : State) (i : Nat) : State := (s.ovInc SOWC_MISS_COUNT 1).sowFlag SOWC_STAT_MISS i

/-- A due seed's target advances by PERIOD, or a once seed's EN is cleared (R64). -/
def State.seedAdvance (s : State) (i : Nat) : State :=
  let p := s.seedW i 2
  if p = 0 then s.seedSpent i else s.setSeedTarget i ((s.seedTarget i + p) % 2 ^ 64)

/-- A seed that has fallen due waits for dispatch: in the order of due cycles, then of seed numbers (R67). -/
def seedIns (q : SeedWait) : List SeedWait → List SeedWait
  | [] => [q]
  | r :: rs => if q.due < r.due ∨ (q.due = r.due ∧ q.seed < r.seed) then q :: r :: rs else r :: seedIns q rs

/-- The receiving block of a seed's word 3 (R67). -/
def seedBlock (w3 : Nat) : Nat :=
  let arg := bits w3 6 0
  match bits w3 28 26 with
  | 0 => bits arg 6 4
  | 1 => 8
  | 2 => 9
  | 3 => 16 + arg % 8
  | 4 => 16 + arg % 8
  | 5 => 10 + arg % 2
  | _ => 12

/-- A sync output is driven (Table 02-21): toggled, high or low. -/
def syncNext (old : Bool) (op : Nat) : Bool := if op = 0 then !old else decide (op = 1)

/-- The action of seed `i` with word 3 `w3` is issued in this cycle (R60, R64). A start that finds the queue full is a missed
occurrence (R68) while `SOWC_CTL.EN` = 0 too: Table 02-23's "no occurrence is missed" is read as of seeds that would fall
due then, and this one fell due before. DEDUCED (log 117). -/
def State.seedAct (s : State) (i w3 : Nat) : State :=
  let arg := bits w3 6 0
  match bits w3 28 26 with
  | 0 =>
    let r := s.startReq (bits arg 6 4) (bits arg 3 0) i
    if r.1 then r.2 else r.2.seedMiss i
  | 1 => s.glnInject
  | 2 => (s.snapRequest (s.rd (SOWC_SNAPMASK_FIELDS (arg % 8))) (decide (bit (s.rdW TAL_SNAPCTL).toNat (arg % 8) = 1))).2
  | 3 => s.siloArm (arg % 8)
  | 4 => s.siloTrigger 9 (arg % 8) 1 i s.clk false
  | 5 =>
    if arg % 2 = 0 then { s with sync0 := syncNext s.sync0 (bits arg 2 1) }
    else { s with sync1 := syncNext s.sync1 (bits arg 2 1) }
  | 6 => s.dealSeed
  | _ => s

/-- The cycles that DELAY takes: 2 ns steps (R59). -/
def seedDelay (w3 : Nat) : Nat := (bits w3 25 7 * 98304 + 99999) / 100000

/-- A waiting seed is dispatched: its action is issued now, or after its DELAY. -/
def State.seedSend (s : State) (q : SeedWait) : State :=
  if seedDelay q.w3 = 0 then s.seedAct q.seed q.w3
  else { s with seedD := s.seedD ++ [{ seed := q.seed, w3 := q.w3, at_ := s.clk + seedDelay q.w3 }] }

/-- One pass over the waiting seeds (R67): those dispatched and those left, with `used` the blocks served. -/
def dispatch (used : List Nat) : List SeedWait → List SeedWait × List SeedWait × List Nat
  | [] => ([], [], used)
  | q :: qs =>
    let b := seedBlock q.w3
    if 8 ≤ used.length ∨ used.contains b then
      let r := dispatch used qs
      (r.1, q :: r.2.1, r.2.2)
    else
      let r := dispatch (b :: used) qs
      (q :: r.1, r.2.1, r.2.2)

/-- A seed that waits is counted once (R67). -/
def State.seedLate (s : State) (q : SeedWait) : State :=
  if q.late then s else (s.inc SOWC_LATE_COUNT).sowFlag SOWC_STAT_LATE q.seed

/-! ### The rows of the table -/

/-- SEED_DUE (R61, R64, R68): the furrow's angle has reached the seed's target. A gated seed, or one whose delayed action is
pending, misses the occurrence. A deal applied at the crossing in this cycle comes first (R66). -/
def opSeedDue (i : Fin 1024) (s : State) : State :=
  let s := s.dealFirst
  let w3 := s.seedW i 3
  let n := bits w3 30 29
  if s.on SOWC_CTL_EN && s.seedArmed i && s.on (FUR_CTL_EN n) && (s.furrow n).run
      && decide (0 ≤ angDiff (s.angle n) (s.seedTarget i)) then
    let gated := bit (s.rd SOWC_CTL_GATE) n = 1 ∧ (s.rd (FUR_STAT_LOCK n) = 0 ∨ s.on (FUR_STAT_HOLD n))
    let s := if gated ∨ s.seedD.any (·.seed == i.val) then s.seedMiss i
      else { s with seedQ := seedIns { seed := i, w3 := w3, due := s.clk, late := false } s.seedQ }
    s.seedAdvance i
  else s

/-- SEED_DISPATCH (R67): up to eight waiting seeds in a cycle, one for each receiving block, after a deal applied at the
crossing in this cycle (R66). -/
def opSeedDispatch (s : State) : State :=
  let s := s.dealFirst
  let used := if s.dispClk = s.clk then s.dispUsed else []
  let r := dispatch used s.seedQ
  let s := r.2.1.foldl State.seedLate s
  let s : State := { s with
    seedQ := r.2.1.map fun q => { q with late := true }, dispClk := s.clk, dispUsed := r.2.2 }
  r.1.foldl State.seedSend s

/-- SEED_DELAY_EXPIRY (R64): the delayed action of seed `i` is issued. It is issued though the seed's furrow has been disabled
since the seed fell due, as a waiting seed is dispatched then: R47's "seeds of the furrow do not act" is read as R69 says it,
that they do not fall due, and R67 drops no waiting seed. DEDUCED (log 115). -/
def opSeedDelayExpiry (i : Fin 1024) (s : State) : State :=
  match s.seedD.find? fun q => q.seed == i.val && decide (q.at_ ≤ s.clk) with
  | some q => ({ s with seedD := s.seedD.filter (· ≠ q) } : State).seedAct i q.w3
  | none => s

/-- SEED_WORD0_READ (R65). -/
def opSeedWord0Read (o : Orig) (i : Fin 1024) (s : State) : State :=
  let r := s.seedRead (readerOf o) i 0
  r.2.setRdata (readerOf o) r.1

end Sys2Proof.Machine
end

