-- ==== Sys2Proof/Machine/ExecAngle.lean ====
section
/-!
DEFINITION. The meanings of the furrow, seed and sowing commands.
-/
namespace Sys2Proof.Machine

/-- FUR_ENABLE (R45). -/
def execFurEnable (dt : Nat) (n : Fin 4) (s : State) : Res State := ordCmd dt dirKeys (opFurEnable n) s

/-- FIRST_LOCK (R45). -/
def execFirstLock (dt : Nat) (n : Fin 4) (_ : Unit) (s : State) : Res State := mainCmd dt (opFirstLock n) s

/-- LOCK_SET (R39). -/
def execLockSet (dt : Nat) (n : Fin 4) (s : State) : Res State := mainCmd dt (opLockSet n) s

/-- LOCK_CLEAR (R39). -/
def execLockClear (dt : Nat) (n : Fin 4) (s : State) : Res State := mainCmd dt (opLockClear n) s

/-- SOURCE_LOST (R41). -/
def execSourceLost (dt : Nat) (n : Fin 4) (s : State) : Res State := mainCmd dt (opSourceLost n) s

/-- FREQ_OUT_OF_RANGE (R40). -/
def execFreqOutOfRange (dt : Nat) (n : Fin 4) (_ : Unit) (s : State) : Res State := mainCmd dt (opFreqOutOfRange n) s

/-- RANGE_HOLDOVER_EXPIRY (R40). -/
def execRangeHoldoverExpiry (dt : Nat) (n : Fin 4) (s : State) : Res State := mainCmd dt (opRangeHoldoverExpiry n) s

/-- SOURCE_RETURN (R42). -/
def execSourceReturn (dt : Nat) (n : Fin 4) (_ _ : Unit) (s : State) : Res State := mainCmd dt (opSourceReturn n) s

/-- SLEW_END (R42). -/
def execSlewEnd (dt : Nat) (n : Fin 4) (_ : Unit) (s : State) : Res State := mainCmd dt (opSlewEnd n) s

/-- FORCEH_SET (R41). -/
def execForcehSet (dt : Nat) (n : Fin 4) (s : State) : Res State := ordCmd dt dirKeys (opForcehSet n) s

/-- FORCEH_CLEAR (R42). -/
def execForcehClear (dt : Nat) (n : Fin 4) (_ _ : Unit) (s : State) : Res State := ordCmd dt dirKeys (opForcehClear n) s

/-- SOURCE_CHANGE (R43). -/
def execSourceChange (dt : Nat) (n : Fin 4) (w : Word) (s : State) : Res State := ordCmd dt dirKeys (opSourceChange n w) s

/-- ENCODER_INDEX (R34). -/
def execEncoderIndex (dt : Nat) (k : Fin 2) (s : State) : Res State := mainCmd dt (opEncoderIndex k) s

/-- ANGIN_EDGE (R35). -/
def execAnginEdge (dt : Nat) (k : Fin 2) (s : State) : Res State := mainCmd dt (opAnginEdge k) s

/-- ZERO_CROSSING (R31). -/
def execZeroCrossing (dt : Nat) (n : Fin 4) (_ : Unit) (s : State) : Res State := mainCmd dt (opZeroCrossing n) s

/-- FUR_LATCH (R58). -/
def execFurLatch (dt : Nat) (s : State) : Res State := ordCmd dt dirKeys opFurLatch s

/-- SEED_ARM (R62). -/
def execSeedArm (dt : Nat) (i : Fin 1024) (w : Word) (s : State) : Res State := ordCmd dt (seedRowKeys i) (opSeedArm i w) s

/-- SEED_DISARM (R63). -/
def execSeedDisarm (dt : Nat) (i : Fin 1024) (w : Word) (s : State) : Res State := ordCmd dt (seedRowKeys i) (opSeedDisarm i w) s

/-- SEED_BUSY_WRITE (R63). -/
def execSeedBusyWrite (dt : Nat) (i : Fin 1024) (k : Fin 4) (w : Word) (s : State) : Res State :=
  ordCmd dt (seedRowKeys i) (opSeedBusyWrite i k w) s

/-- SEED_WORD0_READ (R65). -/
def execSeedWord0Read (dt : Nat) (o : Orig) (i : Fin 1024) (s : State) : Res State :=
  mainCmd dt (opSeedWord0Read o i) s

/-- SOWC_ENABLE (R70). -/
def execSowcEnable (dt : Nat) (s : State) : Res State := ordCmd dt dirKeys opSowcEnable s

/-- SOWC_DISABLE (R70). -/
def execSowcDisable (dt : Nat) (s : State) : Res State := ordCmd dt dirKeys opSowcDisable s

/-- SEED_DUE (R64). -/
def execSeedDue (dt : Nat) (i : Fin 1024) (s : State) : Res State := ordCmd dt (seedDueKeys i) (opSeedDue i) s

/-- SEED_DISPATCH (R67). -/
def execSeedDispatch (dt : Nat) (s : State) : Res State := ordCmd dt dispatchKeys opSeedDispatch s

/-- SEED_DELAY_EXPIRY (R64). -/
def execSeedDelayExpiry (dt : Nat) (i : Fin 1024) (s : State) : Res State := mainCmd dt (opSeedDelayExpiry i) s

/-- ENCODER_COUNT_EDGE (R34). -/
def execEncoderCountEdge (dt : Nat) (k : Fin 2) (up : Bool) (s : State) : Res State :=
  mainCmd dt (opEncoderCountEdge k up) s

end Sys2Proof.Machine
end

