-- ==== Sys2Proof/Machine/TzFloat.lean ====
section
/-!
DEFINITION. Binary32 instructions (R248, R260).
-/
namespace Sys2Proof.Machine

/-! ### The rows of the table -/

/-- FLADD: xa + xb (R260). -/
def opFladd (p : Fin 5) (h : Fin 16) (rd ra rb : Fin 32) (s : State) : State :=
  s.regOp p h (encA rd ra rb 0 0x0 0xC) 3 fun x => x.setR rd (fpAdd x.rm (x.xr ra) (x.xr rb))

/-- FLSUB: xa − xb (R260). -/
def opFlsub (p : Fin 5) (h : Fin 16) (rd ra rb : Fin 32) (s : State) : State :=
  s.regOp p h (encA rd ra rb 0 0x1 0xC) 3 fun x => x.setR rd (fpSub x.rm (x.xr ra) (x.xr rb))

/-- FLMUL: xa × xb (R260). -/
def opFlmul (p : Fin 5) (h : Fin 16) (rd ra rb : Fin 32) (s : State) : State :=
  s.regOp p h (encA rd ra rb 0 0x2 0xC) 3 fun x => x.setR rd (fpMul x.rm (x.xr ra) (x.xr rb))

/-- FLDIV: xa / xb (R260). -/
def opFldiv (p : Fin 5) (h : Fin 16) (rd ra rb : Fin 32) (s : State) : State :=
  s.regOp p h (encA rd ra rb 0 0x3 0xC) 12 fun x => x.setR rd (fpDiv x.rm (x.xr ra) (x.xr rb))

/-- FLSQRT: √xa (R260). -/
def opFlsqrt (p : Fin 5) (h : Fin 16) (rd ra : Fin 32) (s : State) : State :=
  s.regOp p h (encA rd ra 0 0 0x4 0xC) 14 fun x => x.setR rd (fpSqrt x.rm (x.xr ra))

/-- FLMAC: xd ← xd + xa × xb with one rounding (R260). -/
def opFlmac (p : Fin 5) (h : Fin 16) (rd ra rb : Fin 32) (s : State) : State :=
  s.regOp p h (encA rd ra rb 0 0x5 0xC) 4 fun x => x.setR rd (fpMac x.rm (x.xr rd) (x.xr ra) (x.xr rb))

/-- FLMIN: minimum of IEEE 754-2019 (R248). -/
def opFlmin (p : Fin 5) (h : Fin 16) (rd ra rb : Fin 32) (s : State) : State :=
  s.regOp p h (encA rd ra rb 0 0x6 0xC) 3 fun x => x.setR rd (fpMin (x.xr ra) (x.xr rb))

/-- FLMAX: maximum of IEEE 754-2019 (R248). -/
def opFlmax (p : Fin 5) (h : Fin 16) (rd ra rb : Fin 32) (s : State) : State :=
  s.regOp p h (encA rd ra rb 0 0x7 0xC) 3 fun x => x.setR rd (fpMax (x.xr ra) (x.xr rb))

/-- FLABS: sign bit cleared (R248). -/
def opFlabs (p : Fin 5) (h : Fin 16) (rd ra : Fin 32) (s : State) : State :=
  s.regOp p h (encA rd ra 0 0 0x8 0xC) 1 fun x => x.setR rd (fpAbs (x.xr ra))

/-- FLNEG: sign bit inverted (R248). -/
def opFlneg (p : Fin 5) (h : Fin 16) (rd ra : Fin 32) (s : State) : State :=
  s.regOp p h (encA rd ra 0 0 0x9 0xC) 1 fun x => x.setR rd (fpNeg (x.xr ra))

/-- FLCEQ: quiet equality (R248). -/
def opFlceq (p : Fin 5) (h : Fin 16) (rd ra rb : Fin 32) (s : State) : State :=
  s.regOp p h (encA rd ra rb 0 0xa 0xC) 3 fun x => x.setR rd (fpEq (x.xr ra) (x.xr rb))

/-- FLCLT: signalling less-than (R248). -/
def opFlclt (p : Fin 5) (h : Fin 16) (rd ra rb : Fin 32) (s : State) : State :=
  s.regOp p h (encA rd ra rb 0 0xb 0xC) 3 fun x => x.setR rd (fpLt (x.xr ra) (x.xr rb))

/-- FLCLE: signalling less-or-equal (R248). -/
def opFlcle (p : Fin 5) (h : Fin 16) (rd ra rb : Fin 32) (s : State) : State :=
  s.regOp p h (encA rd ra rb 0 0xc 0xC) 3 fun x => x.setR rd (fpLe (x.xr ra) (x.xr rb))

/-- FLTOI: binary32 to int32 (R248). -/
def opFltoi (p : Fin 5) (h : Fin 16) (rd ra : Fin 32) (s : State) : State :=
  s.regOp p h (encA rd ra 0 0 0xd 0xC) 3 fun x => x.setR rd (fpToInt x.rm (x.xr ra) 0)

/-- ITOFL: int32 to binary32 (R260). -/
def opItofl (p : Fin 5) (h : Fin 16) (rd ra : Fin 32) (s : State) : State :=
  s.regOp p h (encA rd ra 0 0 0xe 0xC) 3 fun x => x.setR rd (fpFromInt x.rm (x.xr ra) 0)

/-- QTOFL: Q31 to binary32 (R260). -/
def opQtofl (p : Fin 5) (h : Fin 16) (rd ra : Fin 32) (s : State) : State :=
  s.regOp p h (encA rd ra 0 0 0xf 0xC) 3 fun x => x.setR rd (fpFromInt x.rm (x.xr ra) (-31))

/-- FLTOQ: binary32 to Q31 (R248). -/
def opFltoq (p : Fin 5) (h : Fin 16) (rd ra : Fin 32) (s : State) : State :=
  s.regOp p h (encA rd ra 0 0 0x10 0xC) 3 fun x => x.setR rd (fpToInt x.rm (x.xr ra) 31)

end Sys2Proof.Machine
end

