-- ==== Sys2Proof/Machine/ExecArith.lean ====
section
/-!
DEFINITION. The meanings of the Tchiez arithmetic instructions.
-/
namespace Sys2Proof.Machine

/-- ADD (R257). -/
def execAdd (dt : Nat) (p : Fin 5) (h : Fin 16) (rd ra rb : Fin 32) (s : State) : Res State :=
  mainCmd dt (opAdd p h rd ra rb) s

/-- SUB (R257). -/
def execSub (dt : Nat) (p : Fin 5) (h : Fin 16) (rd ra rb : Fin 32) (s : State) : Res State :=
  mainCmd dt (opSub p h rd ra rb) s

/-- AND (R257). -/
def execAnd (dt : Nat) (p : Fin 5) (h : Fin 16) (rd ra rb : Fin 32) (s : State) : Res State :=
  mainCmd dt (opAnd p h rd ra rb) s

/-- IOR (R257). -/
def execIor (dt : Nat) (p : Fin 5) (h : Fin 16) (rd ra rb : Fin 32) (s : State) : Res State :=
  mainCmd dt (opIor p h rd ra rb) s

/-- EOR (R257). -/
def execEor (dt : Nat) (p : Fin 5) (h : Fin 16) (rd ra rb : Fin 32) (s : State) : Res State :=
  mainCmd dt (opEor p h rd ra rb) s

/-- SHL (R257). -/
def execShl (dt : Nat) (p : Fin 5) (h : Fin 16) (rd ra rb : Fin 32) (s : State) : Res State :=
  mainCmd dt (opShl p h rd ra rb) s

/-- SHRU (R257). -/
def execShru (dt : Nat) (p : Fin 5) (h : Fin 16) (rd ra rb : Fin 32) (s : State) : Res State :=
  mainCmd dt (opShru p h rd ra rb) s

/-- SHRS (R257). -/
def execShrs (dt : Nat) (p : Fin 5) (h : Fin 16) (rd ra rb : Fin 32) (s : State) : Res State :=
  mainCmd dt (opShrs p h rd ra rb) s

/-- LTS (R257). -/
def execLts (dt : Nat) (p : Fin 5) (h : Fin 16) (rd ra rb : Fin 32) (s : State) : Res State :=
  mainCmd dt (opLts p h rd ra rb) s

/-- LTU (R257). -/
def execLtu (dt : Nat) (p : Fin 5) (h : Fin 16) (rd ra rb : Fin 32) (s : State) : Res State :=
  mainCmd dt (opLtu p h rd ra rb) s

/-- MINS (R257). -/
def execMins (dt : Nat) (p : Fin 5) (h : Fin 16) (rd ra rb : Fin 32) (s : State) : Res State :=
  mainCmd dt (opMins p h rd ra rb) s

/-- MAXS (R257). -/
def execMaxs (dt : Nat) (p : Fin 5) (h : Fin 16) (rd ra rb : Fin 32) (s : State) : Res State :=
  mainCmd dt (opMaxs p h rd ra rb) s

/-- MINU (R257). -/
def execMinu (dt : Nat) (p : Fin 5) (h : Fin 16) (rd ra rb : Fin 32) (s : State) : Res State :=
  mainCmd dt (opMinu p h rd ra rb) s

/-- MAXU (R257). -/
def execMaxu (dt : Nat) (p : Fin 5) (h : Fin 16) (rd ra rb : Fin 32) (s : State) : Res State :=
  mainCmd dt (opMaxu p h rd ra rb) s

/-- ADDQ (R246). -/
def execAddq (dt : Nat) (p : Fin 5) (h : Fin 16) (rd ra rb : Fin 32) (s : State) : Res State :=
  mainCmd dt (opAddq p h rd ra rb) s

/-- SUBQ (R246). -/
def execSubq (dt : Nat) (p : Fin 5) (h : Fin 16) (rd ra rb : Fin 32) (s : State) : Res State :=
  mainCmd dt (opSubq p h rd ra rb) s

/-- ABSQ (R246). -/
def execAbsq (dt : Nat) (p : Fin 5) (h : Fin 16) (rd ra : Fin 32) (s : State) : Res State :=
  mainCmd dt (opAbsq p h rd ra) s

/-- LZC (R257). -/
def execLzc (dt : Nat) (p : Fin 5) (h : Fin 16) (rd ra : Fin 32) (s : State) : Res State :=
  mainCmd dt (opLzc p h rd ra) s

/-- ADDK (R257). -/
def execAddk (dt : Nat) (p : Fin 5) (h : Fin 16) (rd ra : Fin 32) (imm : BitVec 16) (s : State) : Res State :=
  mainCmd dt (opAddk p h rd ra imm) s

/-- LTSK (R257). -/
def execLtsk (dt : Nat) (p : Fin 5) (h : Fin 16) (rd ra : Fin 32) (imm : BitVec 16) (s : State) : Res State :=
  mainCmd dt (opLtsk p h rd ra imm) s

/-- LTUK (R257). -/
def execLtuk (dt : Nat) (p : Fin 5) (h : Fin 16) (rd ra : Fin 32) (imm : BitVec 16) (s : State) : Res State :=
  mainCmd dt (opLtuk p h rd ra imm) s

/-- ANDK (R257). -/
def execAndk (dt : Nat) (p : Fin 5) (h : Fin 16) (rd ra : Fin 32) (imm : BitVec 16) (s : State) : Res State :=
  mainCmd dt (opAndk p h rd ra imm) s

/-- IORK (R257). -/
def execIork (dt : Nat) (p : Fin 5) (h : Fin 16) (rd ra : Fin 32) (imm : BitVec 16) (s : State) : Res State :=
  mainCmd dt (opIork p h rd ra imm) s

/-- EORK (R257). -/
def execEork (dt : Nat) (p : Fin 5) (h : Fin 16) (rd ra : Fin 32) (imm : BitVec 16) (s : State) : Res State :=
  mainCmd dt (opEork p h rd ra imm) s

/-- SHLK (R257). -/
def execShlk (dt : Nat) (p : Fin 5) (h : Fin 16) (rd ra n : Fin 32) (s : State) : Res State :=
  mainCmd dt (opShlk p h rd ra n) s

/-- SHRUK (R257). -/
def execShruk (dt : Nat) (p : Fin 5) (h : Fin 16) (rd ra n : Fin 32) (s : State) : Res State :=
  mainCmd dt (opShruk p h rd ra n) s

/-- SHRSK (R257). -/
def execShrsk (dt : Nat) (p : Fin 5) (h : Fin 16) (rd ra n : Fin 32) (s : State) : Res State :=
  mainCmd dt (opShrsk p h rd ra n) s

/-- HIK (R257). -/
def execHik (dt : Nat) (p : Fin 5) (h : Fin 16) (rd : Fin 32) (imm : BitVec 16) (s : State) : Res State :=
  mainCmd dt (opHik p h rd imm) s

/-- MULL (R258). -/
def execMull (dt : Nat) (p : Fin 5) (h : Fin 16) (rd ra rb : Fin 32) (s : State) : Res State :=
  mainCmd dt (opMull p h rd ra rb) s

/-- MULHS (R258). -/
def execMulhs (dt : Nat) (p : Fin 5) (h : Fin 16) (rd ra rb : Fin 32) (s : State) : Res State :=
  mainCmd dt (opMulhs p h rd ra rb) s

/-- MULHU (R258). -/
def execMulhu (dt : Nat) (p : Fin 5) (h : Fin 16) (rd ra rb : Fin 32) (s : State) : Res State :=
  mainCmd dt (opMulhu p h rd ra rb) s

/-- MULQ (R246). -/
def execMulq (dt : Nat) (p : Fin 5) (h : Fin 16) (rd ra rb : Fin 32) (s : State) : Res State :=
  mainCmd dt (opMulq p h rd ra rb) s

/-- DIVS (R245). -/
def execDivs (dt : Nat) (p : Fin 5) (h : Fin 16) (rd ra rb : Fin 32) (s : State) : Res State :=
  mainCmd dt (opDivs p h rd ra rb) s

/-- DIVU (R245). -/
def execDivu (dt : Nat) (p : Fin 5) (h : Fin 16) (rd ra rb : Fin 32) (s : State) : Res State :=
  mainCmd dt (opDivu p h rd ra rb) s

/-- MODS (R245). -/
def execMods (dt : Nat) (p : Fin 5) (h : Fin 16) (rd ra rb : Fin 32) (s : State) : Res State :=
  mainCmd dt (opMods p h rd ra rb) s

/-- MODU (R245). -/
def execModu (dt : Nat) (p : Fin 5) (h : Fin 16) (rd ra rb : Fin 32) (s : State) : Res State :=
  mainCmd dt (opModu p h rd ra rb) s

/-- KMAC (R259). -/
def execKmac (dt : Nat) (p : Fin 5) (h : Fin 16) (ka : Fin 4) (ra rb : Fin 32) (s : State) : Res State :=
  mainCmd dt (opKmac p h ka ra rb) s

/-- KMSU (R259). -/
def execKmsu (dt : Nat) (p : Fin 5) (h : Fin 16) (ka : Fin 4) (ra rb : Fin 32) (s : State) : Res State :=
  mainCmd dt (opKmsu p h ka ra rb) s

/-- KMACU (R259). -/
def execKmacu (dt : Nat) (p : Fin 5) (h : Fin 16) (ka : Fin 4) (ra rb : Fin 32) (s : State) : Res State :=
  mainCmd dt (opKmacu p h ka ra rb) s

/-- CMAC (R259). -/
def execCmac (dt : Nat) (p : Fin 5) (h : Fin 16) (ka : Fin 4) (ra rb : Fin 32) (s : State) : Res State :=
  mainCmd dt (opCmac p h ka ra rb) s

/-- CMACJ (R259). -/
def execCmacj (dt : Nat) (p : Fin 5) (h : Fin 16) (ka : Fin 4) (ra rb : Fin 32) (s : State) : Res State :=
  mainCmd dt (opCmacj p h ka ra rb) s

/-- KCLR (R259). -/
def execKclr (dt : Nat) (p : Fin 5) (h : Fin 16) (ka : Fin 4) (s : State) : Res State := mainCmd dt (opKclr p h ka) s

/-- KEXT (R247). -/
def execKext (dt : Nat) (p : Fin 5) (h : Fin 16) (rd : Fin 32) (kb : Fin 4) (ra : Fin 32) (s : State) : Res State :=
  mainCmd dt (opKext p h rd kb ra) s

/-- KRD (R259). -/
def execKrd (dt : Nat) (p : Fin 5) (h : Fin 16) (rd : Fin 32) (kb : Fin 4) (pt : Fin 32) (s : State) : Res State :=
  mainCmd dt (opKrd p h rd kb pt) s

/-- KWR (R259). -/
def execKwr (dt : Nat) (p : Fin 5) (h : Fin 16) (ka : Fin 4) (ra : Fin 32) (pt : Fin 32) (s : State) : Res State :=
  mainCmd dt (opKwr p h ka ra pt) s

/-- KADD (R259). -/
def execKadd (dt : Nat) (p : Fin 5) (h : Fin 16) (ka kb : Fin 4) (s : State) : Res State :=
  mainCmd dt (opKadd p h ka kb) s

/-- KFLT (R259). -/
def execKflt (dt : Nat) (p : Fin 5) (h : Fin 16) (rd : Fin 32) (kb : Fin 4) (ra : Fin 32) (s : State) : Res State :=
  mainCmd dt (opKflt p h rd kb ra) s

/-- FLADD (R260). -/
def execFladd (dt : Nat) (p : Fin 5) (h : Fin 16) (rd ra rb : Fin 32) (s : State) : Res State :=
  mainCmd dt (opFladd p h rd ra rb) s

/-- FLSUB (R260). -/
def execFlsub (dt : Nat) (p : Fin 5) (h : Fin 16) (rd ra rb : Fin 32) (s : State) : Res State :=
  mainCmd dt (opFlsub p h rd ra rb) s

/-- FLMUL (R260). -/
def execFlmul (dt : Nat) (p : Fin 5) (h : Fin 16) (rd ra rb : Fin 32) (s : State) : Res State :=
  mainCmd dt (opFlmul p h rd ra rb) s

/-- FLDIV (R260). -/
def execFldiv (dt : Nat) (p : Fin 5) (h : Fin 16) (rd ra rb : Fin 32) (s : State) : Res State :=
  mainCmd dt (opFldiv p h rd ra rb) s

/-- FLSQRT (R260). -/
def execFlsqrt (dt : Nat) (p : Fin 5) (h : Fin 16) (rd ra : Fin 32) (s : State) : Res State :=
  mainCmd dt (opFlsqrt p h rd ra) s

/-- FLMAC (R260). -/
def execFlmac (dt : Nat) (p : Fin 5) (h : Fin 16) (rd ra rb : Fin 32) (s : State) : Res State :=
  mainCmd dt (opFlmac p h rd ra rb) s

/-- FLMIN (R248). -/
def execFlmin (dt : Nat) (p : Fin 5) (h : Fin 16) (rd ra rb : Fin 32) (s : State) : Res State :=
  mainCmd dt (opFlmin p h rd ra rb) s

/-- FLMAX (R248). -/
def execFlmax (dt : Nat) (p : Fin 5) (h : Fin 16) (rd ra rb : Fin 32) (s : State) : Res State :=
  mainCmd dt (opFlmax p h rd ra rb) s

/-- FLABS (R248). -/
def execFlabs (dt : Nat) (p : Fin 5) (h : Fin 16) (rd ra : Fin 32) (s : State) : Res State :=
  mainCmd dt (opFlabs p h rd ra) s

/-- FLNEG (R248). -/
def execFlneg (dt : Nat) (p : Fin 5) (h : Fin 16) (rd ra : Fin 32) (s : State) : Res State :=
  mainCmd dt (opFlneg p h rd ra) s

/-- FLCEQ (R248). -/
def execFlceq (dt : Nat) (p : Fin 5) (h : Fin 16) (rd ra rb : Fin 32) (s : State) : Res State :=
  mainCmd dt (opFlceq p h rd ra rb) s

/-- FLCLT (R248). -/
def execFlclt (dt : Nat) (p : Fin 5) (h : Fin 16) (rd ra rb : Fin 32) (s : State) : Res State :=
  mainCmd dt (opFlclt p h rd ra rb) s

/-- FLCLE (R248). -/
def execFlcle (dt : Nat) (p : Fin 5) (h : Fin 16) (rd ra rb : Fin 32) (s : State) : Res State :=
  mainCmd dt (opFlcle p h rd ra rb) s

/-- FLTOI (R248). -/
def execFltoi (dt : Nat) (p : Fin 5) (h : Fin 16) (rd ra : Fin 32) (s : State) : Res State :=
  mainCmd dt (opFltoi p h rd ra) s

/-- ITOFL (R260). -/
def execItofl (dt : Nat) (p : Fin 5) (h : Fin 16) (rd ra : Fin 32) (s : State) : Res State :=
  mainCmd dt (opItofl p h rd ra) s

/-- QTOFL (R260). -/
def execQtofl (dt : Nat) (p : Fin 5) (h : Fin 16) (rd ra : Fin 32) (s : State) : Res State :=
  mainCmd dt (opQtofl p h rd ra) s

/-- FLTOQ (R248). -/
def execFltoq (dt : Nat) (p : Fin 5) (h : Fin 16) (rd ra : Fin 32) (s : State) : Res State :=
  mainCmd dt (opFltoq p h rd ra) s

/-- VADD (R261). -/
def execVadd (dt : Nat) (p : Fin 5) (h : Fin 16) (vd va vb : Fin 16) (s : State) : Res State :=
  mainCmd dt (opVadd p h vd va vb) s

/-- VSUB (R261). -/
def execVsub (dt : Nat) (p : Fin 5) (h : Fin 16) (vd va vb : Fin 16) (s : State) : Res State :=
  mainCmd dt (opVsub p h vd va vb) s

/-- VADDQ (R261). -/
def execVaddq (dt : Nat) (p : Fin 5) (h : Fin 16) (vd va vb : Fin 16) (s : State) : Res State :=
  mainCmd dt (opVaddq p h vd va vb) s

/-- VMULQ (R261). -/
def execVmulq (dt : Nat) (p : Fin 5) (h : Fin 16) (vd va vb : Fin 16) (s : State) : Res State :=
  mainCmd dt (opVmulq p h vd va vb) s

/-- VMIN (R261). -/
def execVmin (dt : Nat) (p : Fin 5) (h : Fin 16) (vd va vb : Fin 16) (s : State) : Res State :=
  mainCmd dt (opVmin p h vd va vb) s

/-- VMAX (R261). -/
def execVmax (dt : Nat) (p : Fin 5) (h : Fin 16) (vd va vb : Fin 16) (s : State) : Res State :=
  mainCmd dt (opVmax p h vd va vb) s

/-- VFLADD (R261). -/
def execVfladd (dt : Nat) (p : Fin 5) (h : Fin 16) (vd va vb : Fin 16) (s : State) : Res State :=
  mainCmd dt (opVfladd p h vd va vb) s

/-- VFLSUB (R261). -/
def execVflsub (dt : Nat) (p : Fin 5) (h : Fin 16) (vd va vb : Fin 16) (s : State) : Res State :=
  mainCmd dt (opVflsub p h vd va vb) s

/-- VFLMUL (R261). -/
def execVflmul (dt : Nat) (p : Fin 5) (h : Fin 16) (vd va vb : Fin 16) (s : State) : Res State :=
  mainCmd dt (opVflmul p h vd va vb) s

/-- VFLMAC (R261). -/
def execVflmac (dt : Nat) (p : Fin 5) (h : Fin 16) (vd va vb : Fin 16) (s : State) : Res State :=
  mainCmd dt (opVflmac p h vd va vb) s

/-- VSPLAT (R261). -/
def execVsplat (dt : Nat) (p : Fin 5) (h : Fin 16) (vd : Fin 16) (ra : Fin 32) (s : State) : Res State :=
  mainCmd dt (opVsplat p h vd ra) s

/-- VINS (R261). -/
def execVins (dt : Nat) (p : Fin 5) (h : Fin 16) (vd : Fin 16) (ra n : Fin 32) (s : State) : Res State :=
  mainCmd dt (opVins p h vd ra n) s

/-- VEXT (R261). -/
def execVext (dt : Nat) (p : Fin 5) (h : Fin 16) (rd : Fin 32) (va : Fin 16) (n : Fin 32) (s : State) : Res State :=
  mainCmd dt (opVext p h rd va n) s

/-- VKDOT (R261). -/
def execVkdot (dt : Nat) (p : Fin 5) (h : Fin 16) (ka : Fin 4) (va vb : Fin 16) (s : State) : Res State :=
  mainCmd dt (opVkdot p h ka va vb) s

/-- VFLSUM (R261). -/
def execVflsum (dt : Nat) (p : Fin 5) (h : Fin 16) (rd : Fin 32) (va : Fin 16) (s : State) : Res State :=
  mainCmd dt (opVflsum p h rd va) s

/-- VSHRS (R261). -/
def execVshrs (dt : Nat) (p : Fin 5) (h : Fin 16) (vd va : Fin 16) (n : Fin 32) (s : State) : Res State :=
  mainCmd dt (opVshrs p h vd va n) s

/-- VQTOFL (R261). -/
def execVqtofl (dt : Nat) (p : Fin 5) (h : Fin 16) (vd va : Fin 16) (s : State) : Res State :=
  mainCmd dt (opVqtofl p h vd va) s

end Sys2Proof.Machine
end

