-- ==== Sys2Proof/Machine/ExecInputs.lean ====
section
/-!
DEFINITION. The meanings of the input, slice, stream and gleaner commands.
-/
namespace Sys2Proof.Machine

/-- CHANNEL_CFG_WRITE (R76). -/
def execChannelCfgWrite (dt : Nat) (c : Fin 48) (w : Word) (s : State) : Res State :=
  ordCmd dt dirKeys (opChannelCfgWrite c w) s

/-- CHANNEL_CFG_TAKE_EFFECT (R76). -/
def execChannelCfgTakeEffect (dt : Nat) (c : Fin 48) (s : State) : Res State :=
  mainCmd dt (opChannelCfgTakeEffect c) s

/-- CHANNEL_ENABLE (R75). -/
def execChannelEnable (dt : Nat) (c : Fin 48) (s : State) : Res State := ordCmd dt dirKeys (opChannelEnable c) s

/-- CHANNEL_POWERUP_DONE (R75). -/
def execChannelPowerupDone (dt : Nat) (c : Fin 48) (s : State) : Res State := mainCmd dt (opChannelPowerupDone c) s

/-- CHANNEL_DISABLE (R75). -/
def execChannelDisable (dt : Nat) (c : Fin 48) (s : State) : Res State := ordCmd dt dirKeys (opChannelDisable c) s

/-- HANDOVER_SLOT (R82). -/
def execHandoverSlot (dt : Nat) (c : Fin 48) (res : Residual) (co : Coefs) (s : State) : Res State :=
  mainCmd dt (opHandoverSlot c res co) s

/-- FALLOW_STEP_CHANGE (R83). -/
def execFallowStepChange (dt : Nat) (c : Fin 48) (co : Coefs) (s : State) : Res State :=
  mainCmd dt (opFallowStepChange c co) s

/-- SHADOW_EXTENSION (R85). -/
def execShadowExtension (dt : Nat) (c : Fin 48) (res : Residual) (co : Coefs) (s : State) : Res State :=
  mainCmd dt (opShadowExtension c res co) s

/-- COEFFICIENT_EXCURSION (R89). -/
def execCoefficientExcursion (dt : Nat) (c : Fin 48) (sl : Fin 5) (co : Coefs) (s : State) : Res State :=
  mainCmd dt (opCoefficientExcursion c sl co) s

/-- SLICE_RETIREMENT (R92). -/
def execSliceRetirement (dt : Nat) (c : Fin 48) (sl : Fin 5) (s : State) : Res State :=
  mainCmd dt (opSliceRetirement c sl) s

/-- RETIREMENT_HANDOVER (R93). -/
def execRetirementHandover (dt : Nat) (c : Fin 48) (res : Residual) (co : Coefs) (s : State) : Res State :=
  mainCmd dt (opRetirementHandover c res co) s

/-- SLC_ROTATE_NOW (R86). -/
def execSlcRotateNow (dt : Nat) (c : Fin 64) (s : State) : Res State := ordCmd dt dirKeys (opSlcRotateNow c) s

/-- SLC_RETIRE (R91). -/
def execSlcRetire (dt : Nat) (c : Fin 64) (sl : Fin 8) (s : State) : Res State := ordCmd dt dirKeys (opSlcRetire c sl) s

/-- CALIBRATION_START (R98). -/
def execCalibrationStart (dt : Nat) (one : Bool) (c : Fin 64) (s : State) : Res State :=
  ordCmd dt dirKeys (opCalibrationStart one c) s

/-- CALIBRATION_END (R101). -/
def execCalibrationEnd (dt : Nat) (out : List CalOut) (s : State) : Res State :=
  wfCmd (wfCal out) (mainCmd dt (opCalibrationEnd out) s)

/-- REFERENCE_CHECK (R111). -/
def execReferenceCheck (dt : Nat) (s : State) : Res State := ordCmd dt dirKeys opReferenceCheck s

/-- REFERENCE_CHECK_DONE (R111). -/
def execReferenceCheckDone (dt : Nat) (d : Int) (s : State) : Res State := mainCmd dt (opReferenceCheckDone d) s

/-- GANG_MODE_CHANGE (R105). -/
def execGangModeChange (dt : Nat) (k : Fin 24) (s : State) : Res State := mainCmd dt (opGangModeChange k) s

/-- REF_RATIO_AVERAGE (R107). -/
def execRefRatioAverage (dt : Nat) (ab ca cb : Int) (s : State) : Res State :=
  mainCmd dt (opRefRatioAverage ab ca cb) s

/-- REFERENCE_ARBITRATION (R108). -/
def execReferenceArbitration (dt : Nat) (ca cb : Int) (s : State) : Res State :=
  mainCmd dt (opReferenceArbitration ca cb) s

/-- REFERENCE_SWAP (R109). -/
def execReferenceSwap (dt : Nat) (s : State) : Res State := mainCmd dt opReferenceSwap s

/-- REF_RETIRE_SETTLE_EXPIRY (R110). -/
def execRefRetireSettleExpiry (dt : Nat) (s : State) : Res State := mainCmd dt opRefRetireSettleExpiry s

/-- SETTLING_CLOSE (R126). -/
def execSettlingClose (dt : Nat) (c : Fin 48) (t : Tap) (s : State) : Res State := mainCmd dt (opSettlingClose c t) s

/-- COMPARATOR_TRIP (R133). -/
def execComparatorTrip (dt : Nat) (k : Fin 96) (s : State) : Res State := mainCmd dt (opComparatorTrip k) s

/-- HALF_CYCLE_RMS_PUBLISH (R167). -/
def execHalfCycleRmsPublish (dt : Nat) (f : Fin 16) (k : Fin 8) (s : State) : Res State :=
  mainCmd dt (opHalfCycleRmsPublish f k) s

/-- GLN_REGULAR_START (R233). -/
def execGlnRegularStart (dt : Nat) (s : State) : Res State := mainCmd dt opGlnRegularStart s

/-- GLN_CMD_REGULAR (R233). -/
def execGlnCmdRegular (dt : Nat) (s : State) : Res State := ordCmd dt dirKeys opGlnCmdRegular s

/-- GLN_INJECT_TRIGGER (R233). -/
def execGlnInjectTrigger (dt : Nat) (s : State) : Res State := mainCmd dt opGlnInjectTrigger s

/-- GLN_INJECT_DELAY_EXPIRY (R234). -/
def execGlnInjectDelayExpiry (dt : Nat) (s : State) : Res State := mainCmd dt opGlnInjectDelayExpiry s

/-- GLN_CONVERSION_DONE (R235). -/
def execGlnConversionDone (dt : Nat) (r : Fin 4096) (s : State) : Res State := mainCmd dt (opGlnConversionDone r) s

/-- GLN_SEQUENCE_END (R234). -/
def execGlnSequenceEnd (dt : Nat) (s : State) : Res State := mainCmd dt opGlnSequenceEnd s

/-- STREAM_SAMPLE (R120). -/
def execStreamSample (dt : Nat) (c : Fin 48) (t : Tap) (xs : List Int) (ps : List Phasor) (s : State) : Res State :=
  wfCmd (wfSample t xs) (mainCmd dt (opStreamSample c t xs ps) s)

/-- RESAMPLED_SAMPLE (R52). -/
def execResampledSample (dt : Nat) (n : Fin 4) (c : Fin 48) (x : Int) (inv : Bool) (s : State) : Res State :=
  mainCmd dt (opResampledSample n c x inv) s

/-- COEFFICIENT_RETURN (R89). -/
def execCoefficientReturn (dt : Nat) (c : Fin 48) (sl : Fin 5) (co : Coefs) (s : State) : Res State :=
  mainCmd dt (opCoefficientReturn c sl co) s

end Sys2Proof.Machine
end

