-- ==== Sys2Proof/Machine/ExecLines.lean ====
section
/-!
DEFINITION. The meanings of the ring, deal and modem commands.
-/
namespace Sys2Proof.Machine

/-- DREQ_OPEN (R273). -/
def execDreqOpen (dt : Nat) (p : Fin 5) (h : Fin 16) (rd ra : Fin 32) (s : State) : Res State :=
  ordCmd dt (dreqKeys p) (opDreqOpen p h rd ra) s

/-- DREQ_WRITE (R274). -/
def execDreqWrite (dt : Nat) (p : Fin 5) (h : Fin 16) (rd ra rb : Fin 32) (s : State) : Res State :=
  ordCmd dt (dreqKeys p) (opDreqWrite p h rd ra rb) s

/-- DREQ_PLAY (R273). -/
def execDreqPlay (dt : Nat) (p : Fin 5) (h : Fin 16) (rd ra rb : Fin 32) (s : State) : Res State :=
  ordCmd dt (dreqKeys p) (opDreqPlay p h rd ra rb) s

/-- DREQ_FOLD (R273). -/
def execDreqFold (dt : Nat) (p : Fin 5) (h : Fin 16) (rd : Fin 32) (s : State) : Res State :=
  ordCmd dt (dreqKeys p) (opDreqFold p h rd) s

/-- LINK_SIGNAL_DETECT (R337). -/
def execLinkSignalDetect (dt : Nat) (r : Fin 2) (s : State) : Res State := mainCmd dt (opLinkSignalDetect r) s

/-- LINK_TRAIN_COMPLETE (R337). -/
def execLinkTrainComplete (dt : Nat) (r : Fin 2) (valid : Bool) (pos : Fin 64) (s : State) : Res State :=
  mainCmd dt (opLinkTrainComplete r valid pos) s

/-- LINK_DOWN (R337). -/
def execLinkDown (dt : Nat) (r : Fin 2) (viol : Fin 17) (s : State) : Res State := mainCmd dt (opLinkDown r viol) s

/-- FRAME_RECEIVE (R342). -/
def execFrameReceive (dt : Nat) (r : Fin 2) (ok abort : Bool) (w0 w1 w2 : Word) (pay : List Word) (at_ : Fin 64) (k :
    Fin 5) (s : State) : Res State :=
  wfCmd (wfFrame ok abort w0 pay) (ordCmd dt (frameKeys r w0 w1 w2 pay) (opFrameReceive r ok abort w0 w1 w2 pay at_ k) s)

/-- RESPONSE_KEEP_EXPIRY (R345). -/
def execResponseKeepExpiry (dt : Nat) (s : State) : Res State := mainCmd dt opResponseKeepExpiry s

/-- ENUM (R351). -/
def execEnum (dt : Nat) (r : Fin 2) (w0 w1 w2 : Word) (s : State) : Res State := mainCmd dt (opEnum r w0 w1 w2) s

/-- READ (R340). -/
def execRead (dt : Nat) (at_ : Fin 64) (k : Fin 5) (s : State) : Res State := ordCmd dt readKeys (opRead at_ k) s

/-- WRITE (R340). -/
def execWrite (dt : Nat) (at_ : Fin 64) (k : Fin 5) (s : State) : Res State := ordCmd dt hostWriteKeys (opWrite at_ k) s

/-- RMW (R340). -/
def execRmw (dt : Nat) (k : Fin 5) (s : State) : Res State := ordCmd dt rmwKeys (opRmw k) s

/-- DEAL_OPEN (R357). -/
def execDealOpen (dt : Nat) (s : State) : Res State := ordCmd dt (ledgerKeys 4) opDealOpen s

/-- DEAL_PLAY (R362). -/
def execDealPlay (dt : Nat) (s : State) : Res State := ordCmd dt (ledgerKeys 5) opDealPlay s

/-- DEAL_CHECK_END (R359). -/
def execDealCheckEnd (dt : Nat) (s : State) : Res State := mainCmd dt opDealCheckEnd s

/-- DEAL_FOLD (R357). -/
def execDealFold (dt : Nat) (s : State) : Res State := ordCmd dt (ledgerKeys 6) opDealFold s

/-- DEAL_TIMEOUT (R357). -/
def execDealTimeout (dt : Nat) (s : State) : Res State := mainCmd dt opDealTimeout s

/-- DEAL_APPLICATION (R364). -/
def execDealApplication (dt : Nat) (s : State) : Res State := mainCmd dt opDealApplication s

/-- MAILBOX (R349). -/
def execMailbox (dt : Nat) (s : State) : Res State := ordCmd dt mailKeys opMailbox s

/-- EVENT_SEND (R350). -/
def execEventSend (dt : Nat) (s : State) : Res State := mainCmd dt opEventSend s

/-- EVENT_ACK (R350). -/
def execEventAck (dt : Nat) (tag : Fin 64) (s : State) : Res State := mainCmd dt (opEventAck tag) s

/-- EVENT_RETRY_TIMEOUT (R350). -/
def execEventRetryTimeout (dt : Nat) (s : State) : Res State := mainCmd dt opEventRetryTimeout s

/-- SYNC_SEND (R353). -/
def execSyncSend (dt : Nat) (s : State) : Res State := mainCmd dt opSyncSend s

/-- SYNC (R355). -/
def execSync (dt : Nat) (r : Fin 2) (host : Bool) (pos : Fin 64) (pay : List Word) (s : State) : Res State :=
  wfCmd (wfSync pay) (mainCmd dt (opSync r host pos pay) s)

/-- HOP_DELAY_MEASURE (R354). -/
def execHopDelayMeasure (dt : Nat) (r : Fin 2) (d : Fin 65536) (s : State) : Res State :=
  mainCmd dt (opHopDelayMeasure r d) s

/-- BULK_READ (R348). -/
def execBulkRead (dt : Nat) (at_ : Nat) (k : Fin 5) (s : State) : Res State := ordCmd dt bulkKeys (opBulkRead at_ k) s

/-- BULK_WRITE (R348). -/
def execBulkWrite (dt : Nat) (at_ : Fin 1024) (k : Fin 5) (s : State) : Res State := mainCmd dt (opBulkWrite at_ k) s

/-- BOOTCMD_RECOVER (R447). -/
def execBootcmdRecover (dt : Nat) (s : State) : Res State := mainCmd dt opBootcmdRecover s

/-- BOOTCMD_LEAVE (R447). -/
def execBootcmdLeave (dt : Nat) (s : State) : Res State := mainCmd dt opBootcmdLeave s

/-- BEACON_SEND (R376). -/
def execBeaconSend (dt : Nat) (s : State) : Res State := mainCmd dt opBeaconSend s

/-- BEACON_RECEIVE (R378). -/
def execBeaconReceive (dt : Nat) (bs : List Byte) (er : Fin 18) (snr : Fin 256) (gain : Fin 8) (s : State) : Res State
    :=
  wfCmd (wfBeacon bs) (mainCmd dt (opBeaconReceive bs er snr gain) s)

/-- BEACON_MISS (R378). -/
def execBeaconMiss (dt : Nat) (s : State) : Res State := mainCmd dt opBeaconMiss s

/-- JOIN_SEND (R379). -/
def execJoinSend (dt : Nat) (pair : Fin 32) (s : State) : Res State := mainCmd dt (opJoinSend pair) s

/-- JOIN_BACKOFF_EXPIRY (R379). -/
def execJoinBackoffExpiry (dt : Nat) (s : State) : Res State := mainCmd dt opJoinBackoffExpiry s

/-- MODEM_FRAME_RECEIVE (R373). -/
def execModemFrameReceive (dt : Nat) (mode : Fin 4) (sy er : Fin 113) (fc crc : Bool) (bs : List Byte) (snr : Fin 256)
    (gain : Fin 8) (s : State) : Res State :=
  wfCmd (wfMac bs) (mainCmd dt (opModemFrameReceive mode sy er fc crc bs snr gain) s)

/-- MODEM_RUN_START (R383). -/
def execModemRunStart (dt : Nat) (k : Fin 64) (s : State) : Res State := mainCmd dt (opModemRunStart k) s

/-- MODEM_TRANSMIT_END (R387). -/
def execModemTransmitEnd (dt : Nat) (s : State) : Res State := mainCmd dt opModemTransmitEnd s

/-- MODEM_ACK_TIMEOUT (R381). -/
def execModemAckTimeout (dt : Nat) (s : State) : Res State := mainCmd dt opModemAckTimeout s

/-- TXEN_READBACK_FAULT (R386). -/
def execTxenReadbackFault (dt : Nat) (s : State) : Res State := mainCmd dt opTxenReadbackFault s

/-- DOWNLOAD_BLOCK (R438). -/
def execDownloadBlock (dt : Nat) (s : State) : Res State := mainCmd dt opDownloadBlock s

/-- MODEM_SYMBOL (R372). -/
def execModemSymbol (dt : Nat) (e : Nat) (gain : Fin 8) (s : State) : Res State :=
  mainCmd dt (opModemSymbol e gain) s

/-- MISDEAL_FRAME_RELEASE (R460). -/
def execMisdealFrameRelease (dt : Nat) (r : Fin 2) (s : State) : Res State := mainCmd dt (opMisdealFrameRelease r) s

end Sys2Proof.Machine
end

