-- ==== Sys2Proof/Machine/ExecMeter.lean ====
section
/-!
DEFINITION. The meanings of the tally, thresher, silo and chain commands.
-/
namespace Sys2Proof.Machine

/-- SHIFT_CHANGE (R119). -/
def execShiftChange (dt : Nat) (c : Fin 48) (w : Word) (s : State) : Res State := ordCmd dt dirKeys (opShiftChange c w) s

/-- COMPARATOR_WRITE (R137). -/
def execComparatorWrite (dt : Nat) (k : Fin 96) (r : Fin 4) (w : Word) (s : State) : Res State :=
  ordCmd dt dirKeys (opComparatorWrite k r w) s

/-- COMPARATOR_RETURN (R132). -/
def execComparatorReturn (dt : Nat) (k : Fin 96) (s : State) : Res State := mainCmd dt (opComparatorReturn k) s

/-- GRANARY_WORD0_READ (R157). -/
def execGranaryWord0Read (dt : Nat) (o : Orig) (snap : Bool) (b : Fin 4096) (s : State) : Res State :=
  ordCmd dt (binReadKeys snap b) (opGranaryWord0Read o snap b) s

/-- SNAPSHOT_REQUEST (R159). -/
def execSnapshotRequest (dt : Nat) (fields : Fin 65536) (aligned : Bool) (s : State) : Res State :=
  ordCmd dt dirKeys (opSnapshotRequest fields aligned) s

/-- SNAPSHOT_BOUNDARY (R161). -/
def execSnapshotBoundary (dt : Nat) (s : State) : Res State := ordCmd dt snapKeys opSnapshotBoundary s

/-- CONFIG_BOUNDARY (R164). -/
def execConfigBoundary (dt : Nat) (f : Fin 16) (s : State) : Res State := mainCmd dt (opConfigBoundary f) s

/-- PULSE_START (R171). -/
def execPulseStart (dt : Nat) (n : Fin 16) (s : State) : Res State := mainCmd dt (opPulseStart n) s

/-- PULSE_END (R171). -/
def execPulseEnd (dt : Nat) (n : Fin 16) (s : State) : Res State := mainCmd dt (opPulseEnd n) s

/-- PULSE_READBACK_FAULT (R173). -/
def execPulseReadbackFault (dt : Nat) (n : Fin 16) (s : State) : Res State := mainCmd dt (opPulseReadbackFault n) s

/-- PULSE_SPARE_HANDOVER (R174). -/
def execPulseSpareHandover (dt : Nat) (k : Fin 4) (s : State) : Res State := mainCmd dt (opPulseSpareHandover k) s

/-- JOB_CANCEL (R183). -/
def execJobCancel (dt : Nat) (a : Word) (s : State) : Res State := ordCmd dt dirKeys (opJobCancel a) s

/-- WINDOW_READY (R184). -/
def execWindowReady (dt : Nat) (n : Fin 4) (s : State) : Res State := mainCmd dt (opWindowReady n) s

/-- TRANSFORM_BOUNDARY (R182). -/
def execTransformBoundary (dt : Nat) (s : State) : Res State := ordCmd dt thresherKeys opTransformBoundary s

/-- LANE_BLOCK_DUE (R188). -/
def execLaneBlockDue (dt : Nat) (k : Fin 16) (s : State) : Res State := mainCmd dt (opLaneBlockDue k) s

/-- SILO_ARM (R199). -/
def execSiloArm (dt : Nat) (b : Fin 8) (s : State) : Res State := ordCmd dt dirKeys (opSiloArm b) s

/-- SILO_TRIGGER (R200). -/
def execSiloTrigger (dt : Nat) (b : Fin 8) (s : State) : Res State := ordCmd dt dirKeys (opSiloTrigger b) s

/-- SILO_STOP (R201). -/
def execSiloStop (dt : Nat) (b : Fin 8) (s : State) : Res State := ordCmd dt dirKeys (opSiloStop b) s

/-- SILO_WAVEFRONT_RERUN (R202). -/
def execSiloWavefrontRerun (dt : Nat) (b : Fin 8) (s : State) : Res State := ordCmd dt dirKeys (opSiloWavefrontRerun b) s

/-- SILO_FREEZE (R198). -/
def execSiloFreeze (dt : Nat) (b : Fin 8) (s : State) : Res State := mainCmd dt (opSiloFreeze b) s

/-- WAVEFRONT_DONE (R202). -/
def execWavefrontDone (dt : Nat) (b : Fin 8) (s : State) : Res State := mainCmd dt (opWavefrontDone b) s

/-- PULSE_HEDGE_CLEAR (R408). -/
def execPulseHedgeClear (dt : Nat) (n : Fin 16) (s : State) : Res State := ordCmd dt dirKeys (opPulseHedgeClear n) s

end Sys2Proof.Machine
end

