-- ==== Sys2Proof/Machine/TzEng.lean ====
section
/-!
DEFINITION. Hopper, granary, angle, seed, thresher, mailbox, interrupt and hand-control instructions (R265 to R272), and
the ends of their waits. `DREQ` stands in Deal.lean.
-/
namespace Sys2Proof.Machine

/-- The hands of plough `p` that wait for a hopper entry: hand, suit, and when the wait began; none while the plough does not
issue (R223). -/
def State.hopWaiters (s : State) (p : Nat) : List (Nat × Nat × Nat) :=
  if !s.ploughActive p then [] else (List.range 16).filterMap fun h => match (s.handOf p h).st with
    | .wait (.hpop _ _ t) => some (h, (s.handOf p h).suit, t)
    | _ => none

/-- The hands of plough `p` that wait for a message. -/
def State.mailWaiters (s : State) (p : Nat) : List (Nat × Nat × Nat) :=
  if !s.ploughActive p then [] else (List.range 16).filterMap fun h => match (s.handOf p h).st with
    | .wait (.mrcv _ _ t) => some (h, (s.handOf p h).suit, t)
    | _ => none

/-- Of waiting hands, the one of highest suit that began to wait first (R221, R231). -/
def bestWaiter (ws : List (Nat × Nat × Nat)) : Option Nat :=
  (ws.foldl (fun (b : Option (Nat × Nat × Nat)) w => match b with
    | some k => if k.2.1 < w.2.1 ∨ (k.2.1 = w.2.1 ∧ w.2.2 < k.2.2) then some w else b
    | none => some w) none).map (·.1)

/-- The address that `SYS_MAPERR` records for a refused bin number `n` (R21): the byte address at which the granary would
have the bin, modulo 2^32. The manual gives no address for a number above 4095. DESIGN CHOICE (log 124). -/
def binAddr (n : Nat) : Nat := (0x200000 + 16 * n) % 2 ^ 32

/-- A posted write to a program bin; bins 0 to 1023 and numbers above 4095 are refused (R266). -/
def State.binOp (s : State) (p h : Nat) (w : Word) (rn : Nat) (set : Bool) (z : Hand → Int) : State :=
  s.issue p h w fun x s =>
    let n := (x.xr rn).toNat
    if n < 1024 ∨ 4096 ≤ n then s.dataRefused p h x.pc (binAddr n) true false
    else s.post p h x 1 (.bin h n set (z x))

/-! ### The rows of the table -/

/-- ILLEGAL_INSTRUCTION (R250, R254): hand `h` issues the word at its pc, which is illegal, or whose fetch is refused or
fails with outcome `k`. A fetch miss with a corrected single-bit error fills the line and is counted (R219); a legal word
then issues by its own command. -/
def opIllegalInstruction (p : Fin 5) (h : Fin 16) (w : Word) (k : Fin 5) (s : State) : State :=
  let pc := (s.handOf p h).pc
  let miss := s.issues p h && execOk pc && (s.cached p pc).isNone
  let r := if miss then s.access p pc k else (false, s)
  let s := r.2
  if r.1 then (s.setPlough p { s.ploughOf p with issued := some s.clk }).raise p h pc 6
  else if !tzLegal w then s.issue p h w fun _ s => s
  else if miss && decide (k.val = 1) then s.fill p pc
  else s

/-- D_WAIT_END (R252): every earlier store of the hand has completed; its instruction issues. -/
def opDWaitEnd (p : Fin 5) (h : Fin 16) (s : State) : State :=
  if (s.handOf p h).st = .wait .drain ∧ !s.storing p h then
    s.setHand p h { s.handOf p h with st := .ready s.clk }
  else s

/-- HPOP_WAIT_END (R231): an entry is there for the hands of plough `p` that wait in `HPOP`. -/
def opHpopWaitEnd (p : Fin 5) (s : State) : State :=
  match s.hopQ (s.logOf p), bestWaiter (s.hopWaiters p) with
  | e :: q, some h => match (s.handOf p h).st with
    | .wait (.hpop rd rt _) =>
      (s.hopPop (s.logOf p) q).retire p h (((s.handOf p h).setX rd e.val).setX rt e.tag) 3
    | _ => s
  | _, _ => s

/-- MRCV_WAIT_END (R221): a message is there for the hands of plough `p` that wait in `MRCV`. -/
def opMrcvWaitEnd (p : Fin 5) (s : State) : State :=
  let l := s.logOf p
  match (s.logiOf l).mail, bestWaiter (s.mailWaiters p) with
  | e :: q, some h => match (s.handOf p h).st with
    | .wait (.mrcv rd rt _) =>
      (s.setLogi l { s.logiOf l with mail := q }).retire p h (((s.handOf p h).setX rd e.1).setX rt e.2) 3
    | _ => s
  | _, _ => s

/-- ICLM_WAIT_END (R271): the request line of the waiting hand's plough is asserted; it claims. -/
def opIclmWaitEnd (p : Fin 5) (h : Fin 16) (s : State) : State :=
  match (s.handOf p h).st with
  | .wait (.iclm rd) =>
    if s.ploughActive p && s.reqLine (s.logOf p) then
      let r := s.claim (s.logOf p)
      r.2.retire p h ((r.2.handOf p h).setX rd r.1) 11
    else s
  | _ => s

/-- AWAIT_END (R269): the target was reached in the cycle before, the furrow is disabled, or the timeout passes. -/
def opAwaitEnd (p : Fin 5) (h : Fin 16) (s : State) : State :=
  match (s.handOf p h).st with
  | .wait (.await rd fw t tmo) =>
    let hd := s.handOf p h
    if !s.on (FUR_CTL_EN fw) then s.retire p h (hd.setX rd 1) 1
    else if 0 ≤ angDiff ((s.furrow fw).angle (s.clk - 1)) t then s.retire p h (hd.setX rd 0) 1
    else match tmo with
      | some u => if u ≤ usTick s.clk then s.retire p h (hd.setX rd 2) 1 else s
      | none => s
  | _ => s

/-- HPOP: removes the oldest entry of the queue of its plough, or waits (R231, R265). -/
def opHpop (p : Fin 5) (h : Fin 16) (rd rt : Fin 32) (s : State) : State :=
  s.issue p h (encA rd 0 rt 0 0x0 0x30) fun x s =>
    match s.hopQ (s.logOf p), s.hopWaiters p with
    | e :: q, [] => (s.hopPop (s.logOf p) q).retire p h ((x.setX rd e.val).setX rt e.tag) 3
    | _, _ => s.handWait p h (.hpop rd rt s.clk)

/-- HPEEK: the oldest entry without removal, or an empty indication (R265). -/
def opHpeek (p : Fin 5) (h : Fin 16) (rd rt : Fin 32) (s : State) : State :=
  s.issue p h (encA rd 0 rt 0 0x1 0x30) fun x s =>
    match s.hopQ (s.logOf p) with
    | e :: _ => s.retire p h ((x.setX rd e.val).setX rt e.tag) 3
    | [] => s.retire p h ((x.setX rd 0).setX rt 0xFFFFFFFF#32) 3

/-- GADD: posts bin ← bin + sext96(xb) × 2^s (R266). -/
def opGadd (p : Fin 5) (h : Fin 16) (rn rb sh : Fin 32) (s : State) : State :=
  s.binOp p h (encA 0 rn rb sh 0x2 0x30) rn false fun x => (x.xr rb).toInt * 2 ^ sh.val

/-- GSET: posts bin ← sext96(xb) × 2^s (R266). -/
def opGset (p : Fin 5) (h : Fin 16) (rn rb sh : Fin 32) (s : State) : State :=
  s.binOp p h (encA 0 rn rb sh 0x3 0x30) rn true fun x => (x.xr rb).toInt * 2 ^ sh.val

/-- GADDK: posts bin ← bin + sext96(kb) (R266). -/
def opGaddk (p : Fin 5) (h : Fin 16) (rn : Fin 32) (kb : Fin 4) (s : State) : State :=
  s.binOp p h (encA 0 rn kb 0 0x4 0x30) rn false fun x => x.kr kb

/-- GRD: reads the four words of a bin in one access (R266). -/
def opGrd (p : Fin 5) (h : Fin 16) (vd : Fin 16) (rn : Fin 32) (s : State) : State :=
  s.issue p h (encA vd rn 0 0 0x5 0x30) fun x s =>
    let n := (x.xr rn).toNat
    if 4096 ≤ n then s.dataRefused p h x.pc (binAddr n) false false
    else s.handWait p h (.load 6 vd n s.clk)

/-- GSNAP: requests a snapshot as a write of `TAL_SNAPCMD` does (R266, Table 08-23). -/
def opGsnap (p : Fin 5) (h : Fin 16) (rd ra : Fin 32) (s : State) : State :=
  s.issue p h (encA rd ra 0 0 0x6 0x30) fun x s => s.afterStores p h fun s =>
    let w := (x.xr ra).toNat
    if w % 65536 = 0 then s.retire p h (x.setX rd 2) 11
    else
      let r := s.snapRequest (w % 65536) (bit w 16 = 1)
      r.2.retire p h (x.setX rd (if r.1 then 0 else 1)) 11

/-- AWAIT: waits until a furrow angle reaches a target (R268, R269). -/
def opAwait (p : Fin 5) (h : Fin 16) (rd ra rt : Fin 32) (fw : Fin 4) (s : State) : State :=
  s.issue p h (encA rd ra rt fw 0x8 0x30) fun x s =>
    let t := x.pair ra
    if !s.on (FUR_CTL_EN fw) then s.retire p h (x.setX rd 1) 2
    else if 0 ≤ angDiff (s.angle fw) t then s.retire p h (x.setX rd 0) 2
    else
      let us := (x.xr rt).toNat
      s.handWait p h (.await rd fw t (if us = 0 then none else some (usTick s.clk + us)))

/-- ARD: xd, xd+1 ← the furrow's angle word (R268). -/
def opArd (p : Fin 5) (h : Fin 16) (rd : Fin 32) (fw : Fin 4) (s : State) : State :=
  s.issue p h (encA rd 0 0 fw 0x9 0x30) fun x s => s.retire p h (x.setPair rd (s.angle fw)) 2

/-- ATS: lanes 0 to 4 ← the timestamp on a furrow, lanes 5 to 7 ← 0 (R268). -/
def opAts (p : Fin 5) (h : Fin 16) (vd : Fin 16) (fw : Fin 4) (s : State) : State :=
  s.issue p h (encA vd 0 0 fw 0xA 0x30) fun x s => s.retire p h (x.setV vd fun l => (s.stamp fw).getD l 0) 3

/-- SARM: writes and arms a seed in one cycle (R270, Table 08-23). -/
def opSarm (p : Fin 5) (h : Fin 16) (rd rn : Fin 32) (vs : Fin 16) (s : State) : State :=
  s.issue p h (encA rd rn vs 0 0xC 0x30) fun x s => s.afterStores p h fun s =>
    let i := (x.xr rn).toNat % 1024
    if s.seedArmed i then (s.sowFlag SOWC_STAT_BUSYWR i).retire p h (x.setX rd 3) 11
    else
      let s := s.wrWords (seedWord i 0) [x.lane vs 0, x.lane vs 1, x.lane vs 2]
      let w := x.lane vs 3 ||| 0x80000000#32
      let s := s.seedArm i w
      let st := if s.seedArmed i then 0 else if seedOk w.toNat (s.seedW i 2) then 2 else 1
      s.retire p h (x.setX rd (BitVec.ofNat 32 st)) 11

/-- SDIS: clears EN of a seed (R63, R270). -/
def opSdis (p : Fin 5) (h : Fin 16) (rd rn : Fin 32) (s : State) : State :=
  s.issue p h (encA rd rn 0 0 0xD 0x30) fun x s => s.afterStores p h fun s =>
    let i := (x.xr rn).toNat % 1024
    let was := s.seedArmed i
    (s.seedDisarm i (s.rdW (seedWord i 3) &&& 0x7FFFFFFF#32)).retire p h (x.setX rd (if was then 0 else 1)) 11

/-- TPOST: posts a thresher descriptor with the hand's suit (R180, R270). -/
def opTpost (p : Fin 5) (h : Fin 16) (rd ra : Fin 32) (s : State) : State :=
  s.issue p h (encA rd ra 0 0 0xE 0x30) fun x s => s.afterStores p h fun s =>
    let r := s.jobPost (.plough p h) (x.xr ra).toNat
    r.2.retire p h (x.setX rd (BitVec.ofNat 32 r.1)) 11

/-- MSND: sends xb to the mailbox of logical plough xl[2:0] (R221, R271). -/
def opMsnd (p : Fin 5) (h : Fin 16) (rd ra rb : Fin 32) (s : State) : State :=
  s.issue p h (encA rd ra rb 0 0x0 0x31) fun x s => s.afterStores p h fun s =>
    let r := s.mailSend ((x.xr ra).toNat % 8) (x.xr rb) (BitVec.ofNat 32 (s.logOf p * 2 ^ 28 + h))
    r.2.retire p h (x.setX rd (BitVec.ofNat 32 r.1)) 3

/-- MRCV: takes the oldest mailbox message, waiting or not (R221, R271). -/
def opMrcv (p : Fin 5) (h : Fin 16) (rd rt : Fin 32) (nb : Bool) (s : State) : State :=
  s.issue p h (encA rd 0 rt (b2n nb) 0x1 0x31) fun x s =>
    let l := s.logOf p
    match (s.logiOf l).mail, s.mailWaiters p with
    | e :: q, [] => (s.setLogi l { s.logiOf l with mail := q }).retire p h ((x.setX rd e.1).setX rt e.2) 3
    | _, _ =>
      if nb then s.retire p h ((x.setX rd 0).setX rt 0xFFFFFFFF#32) 3 else s.handWait p h (.mrcv rd rt s.clk)

/-- ICLM: claims the source offered to the plough's target, at once or when its line is asserted (R271, R396). -/
def opIclm (p : Fin 5) (h : Fin 16) (rd : Fin 32) (w : Bool) (s : State) : State :=
  s.issue p h (encA rd 0 0 (b2n w) 0x2 0x31) fun x s =>
    let t := s.logOf p
    if w && !s.reqLine t then s.handWait p h (.iclm rd)
    else
      let r := s.claim t
      r.2.retire p h (x.setX rd r.1) 11

/-- IDONE: posts a completion to `INT_DONEt` of the plough's target (R271). -/
def opIdone (p : Fin 5) (h : Fin 16) (ra : Fin 32) (s : State) : State :=
  s.issue p h (encA 0 ra 0 0 0x3 0x31) fun x s => s.post p h x 1 (.idone h (x.xr ra))

/-- SPAWN: a start request to a logical plough and vector (R213, R272). -/
def opSpawn (p : Fin 5) (h : Fin 16) (rd ra rb : Fin 32) (s : State) : State :=
  s.issue p h (encA rd ra rb 0 0x4 0x31) fun x s => s.afterStores p h fun s =>
    let w := (x.xr ra).toNat
    let l := bits w 18 16
    let v := bits w 3 0
    if w ≠ l * 65536 + v then s.retire p h (x.setX rd 3) 3
    else if 14 ≤ v then s.retire p h (x.setX rd 2) 3
    else
      let r := s.startReq l v (2 * 2 ^ 28 + h * 65536 + (x.xr rb).toNat % 1024)
      r.2.retire p h (x.setX rd (if r.1 then 0 else 1)) 3

/-- YIELD: not READY for n cycles; with n = 0 behind its suit for one round (R272). -/
def opYield (p : Fin 5) (h : Fin 16) (ra : Fin 32) (s : State) : State :=
  s.issue p h (encA 0 ra 0 0 0x5 0x31) fun x s => s.retire p h x (1 + (x.xr ra).toNat % 65536)

/-- HALT: the hand goes to IDLE; claims and posted stores stay (R272). -/
def opHalt (p : Fin 5) (h : Fin 16) (s : State) : State :=
  s.issue p h (encA 0 0 0 0 0x6 0x31) fun _ s => s.handIdle p h

/-- SUIT: xd ← the hand's suit, which becomes xa[1:0] where m[0] = 1 (R272). -/
def opSuit (p : Fin 5) (h : Fin 16) (rd ra : Fin 32) (put : Bool) (s : State) : State :=
  s.regOp p h (encA rd ra 0 (b2n put) 0x7 0x31) 1 fun x =>
    let y := x.setX rd (BitVec.ofNat 32 x.suit)
    if put then { y with suit := (x.xr ra).toNat % 4 } else y

/-- DRAIN: waits for the earlier stores of the hand (R272). -/
def opDrain (p : Fin 5) (h : Fin 16) (s : State) : State :=
  s.issue p h (encA 0 0 0 0 0x9 0x31) fun x s => s.afterStores p h fun s => s.retire p h x 1

/-- HSRD: xd ← hs (R272). -/
def opHsrd (p : Fin 5) (h : Fin 16) (rd : Fin 32) (s : State) : State :=
  s.regOp p h (encA rd 0 0 0 0xA 0x31) 1 fun x => x.setX rd (BitVec.ofNat 32 x.hs)

/-- HSWR: the RW fields of hs ← xa (R243, R272). -/
def opHswr (p : Fin 5) (h : Fin 16) (ra : Fin 32) (s : State) : State :=
  s.regOp p h (encA 0 ra 0 0 0xB 0x31) 1 fun x => { x with hs := (x.xr ra &&& 0x00011F03#32).toNat }

/-- WHO: physical plough, logical plough and hand number (R272). -/
def opWho (p : Fin 5) (h : Fin 16) (rd : Fin 32) (s : State) : State :=
  s.issue p h (encA rd 0 0 0 0xC 0x31) fun x s =>
    s.retire p h (x.setX rd (BitVec.ofNat 32 (p * 256 + s.logOf p * 16 + h))) 1

/-- CYCRD: xd, xd+1 ← the 64-bit fabric cycle counter (R272). -/
def opCycrd (p : Fin 5) (h : Fin 16) (rd : Fin 32) (s : State) : State :=
  s.issue p h (encA rd 0 0 0 0xD 0x31) fun x s => s.retire p h (x.setPair rd ((s.clk - s.clk0) % 2 ^ 64)) 2

/-- BRK: raises the breakpoint exception (R254, R272). -/
def opBrk (p : Fin 5) (h : Fin 16) (k : Fin 32) (s : State) : State :=
  s.issue p h (encA 0 0 0 k 0xE 0x31) fun x s => s.raise p h x.pc 7

end Sys2Proof.Machine
end

