-- ==== Sys2Proof/Machine/Mem.lean ====
section
/-!
DEFINITION. What the store buffer and the load path bring to an end: LOAD_RETURN, STORE_COMPLETE and YIELD_END (R218,
R252, R253, R272).
-/
namespace Sys2Proof.Machine

/-- The address range that a posted store touches. -/
def Post.range : Post → Nat × Nat
  | .mem _ a bs => (a, bs.length)
  | .bin _ b _ _ => (0x200000 + 16 * b, 16)
  | .idone _ _ => (0, 0)

/-- A load of hand `h` of plough `p` from `n` bytes at `a` waits for an earlier store of the hand (R253). -/
def State.overlaps (s : State) (p h a n : Nat) : Bool :=
  (s.ploughOf p).sb.any fun x =>
    let r := x.range
    decide (x.hand = h) && decide (r.1 < a + n) && decide (a < r.1 + r.2)

/-- `n` words from the word address `a`, read in ascending order. -/
def State.wordsRead (s : State) (o : Orig) : Nat → Nat → List Word × State
  | _, 0 => ([], s)
  | a, n + 1 =>
    let r := s.wordRead o a
    let q := r.2.wordsRead o (a + 4) n
    (r.1 :: q.1, q.2)

/-- The bytes a load of kind `kind` takes (Table 08-11). -/
def loadBytes (kind : Nat) : Nat := match kind with | 0 => 1 | 1 => 1 | 2 => 2 | 3 => 2 | 4 => 4 | 5 => 32 | _ => 16

/-- The value of a load of kind 0 to 4 from address `a`, in the word `w` that holds it. -/
def loadValue (kind a : Nat) (w : Word) : Word :=
  let x := w.toNat / 256 ^ (a % 4)
  match kind with
  | 0 => BitVec.ofInt 32 (sx 8 (x % 256))
  | 1 => BitVec.ofNat 32 (x % 256)
  | 2 => BitVec.ofInt 32 (sx 16 (x % 65536))
  | 3 => BitVec.ofNat 32 (x % 65536)
  | _ => w

/-- A waiting hand's load is done with destination `rd` (Table 08-11, R266). -/
def State.loadDone (s : State) (p : Fin 5) (h : Fin 16) (kind rd a : Nat) : State :=
  let o := Orig.plough p h
  if kind = 6 then
    let ws := s.binWords a
    s.retire p h ((s.handOf p h).setV rd fun l => ws.getD l 0) 1
  else if kind = 5 then
    let r := s.wordsRead o a 8
    r.2.retire p h ((r.2.handOf p h).setV rd fun l => r.1.getD l 0) 2
  else
    let r := s.wordRead o (a / 4 * 4)
    r.2.retire p h ((r.2.handOf p h).setX rd (loadValue kind a r.1)) 1

/-- LOAD_RETURN (R218, R253): the data of hand `h`'s load comes with outcome `k`, after its latency and after the hand's
overlapping stores. -/
def opLoadReturn (p : Fin 5) (h : Fin 16) (k : Fin 5) (s : State) : State :=
  match (s.handOf p h).st with
  | .wait (.load kind rd a t) =>
    let b := if kind = 6 then 0x200000 + 16 * a else a
    if s.clk < t + loadLat b || s.overlaps p h b (loadBytes kind) then s
    else
      let r := s.access p b k
      if r.1 then r.2.raise p h (r.2.handOf p h).pc 6 else r.2.loadDone p h kind rd a
  | _ => s

/-- Words of a store to registers, each written whole (R21). -/
def State.regStores (s : State) (o : Orig) : Nat → List Word → State
  | _, [] => s
  | a, w :: ws => (s.regWrite o a w).2.regStores o (a + 4) ws

/-- Bytes as little-endian words. -/
def wordsOf (bs : List Byte) : List Word :=
  (List.range (bs.length / 4)).map fun i => BitVec.ofNat 32 (ofLe ((bs.drop (4 * i)).take 4))

/-- A posted store takes effect at its target (R253, R266, R271). -/
def State.postDone (s : State) (p : Fin 5) : Post → State
  | .mem h a bs =>
    if isReg a then s.regStores (.plough p (Fin.ofNat 16 h)) a (wordsOf bs) else s.setBytes (ploughAddr p a) bs
  | .bin _ b set z => s.progWrite b p set false z
  | .idone _ w => s.complete (s.logOf p) (w.toNat % 256)

/-- A hand that waits for room in the store buffer issues again. -/
def State.roomWake (s : State) (p : Nat) : State :=
  (List.range 16).foldl (fun s h =>
    if (s.handOf p h).st = .wait .room then s.setHand p h { s.handOf p h with st := .ready s.clk } else s) s

/-- STORE_COMPLETE (R218, R253): the oldest posted store of plough `p` completes with outcome `k`; one that meets a
mismatch is dropped (R255). -/
def opStoreComplete (p : Fin 5) (k : Fin 5) (s : State) : State :=
  match (s.ploughOf p).sb with
  | [] => s
  | x :: q =>
    let s := s.setPlough p { s.ploughOf p with sb := q }
    let a := match x with | .idone _ _ => INT_DONE (s.logOf p) | _ => x.range.1
    let r := s.mismatch p a k
    (((if r.1 then r.2 else s.postDone p x).roomWake p).drained p).actReset

/-- YIELD_END (R272): the n cycles of a yielding hand have passed; it is READY. -/
def opYieldEnd (p : Fin 5) (h : Fin 16) (s : State) : State :=
  match (s.handOf p h).st with
  | .ready t => if t ≤ s.clk then s.setHand p h { s.handOf p h with st := .ready s.clk } else s
  | _ => s

end Sys2Proof.Machine
end

