-- ==== Sys2Proof/Machine/ExecPlough.lean ====
section
/-!
DEFINITION. The meanings of the plough and hand commands, and the Tchiez instructions of control and memory.
-/
namespace Sys2Proof.Machine

/-- JOB_POST (R180). -/
def execJobPost (dt : Nat) (o : Orig) (a : Word) (s : State) : Res State := ordCmd dt dirKeys (opJobPost o a) s

/-- START_REQUEST (R213). -/
def execStartRequest (dt : Nat) (o : Orig) (w : Word) (s : State) : Res State := ordCmd dt (startKeys w) (opStartRequest o w) s

/-- START_DISPATCH (R214). -/
def execStartDispatch (dt : Nat) (l : Fin 4) (s : State) : Res State := mainCmd dt (opStartDispatch l) s

/-- START_AGE_EXPIRY (R215). -/
def execStartAgeExpiry (dt : Nat) (l : Fin 4) (s : State) : Res State := mainCmd dt (opStartAgeExpiry l) s

/-- VECTOR15_REQUEST (R216). -/
def execVector15Request (dt : Nat) (l : Fin 4) (s : State) : Res State := ordCmd dt (v15Keys l) (opVector15Request l) s

/-- SCARECROW_KICK (R222). -/
def execScarecrowKick (dt : Nat) (o : Orig) (l : Fin 4) (w : Word) (s : State) : Res State :=
  ordCmd dt dirKeys (opScarecrowKick o l w) s

/-- SCARECROW_EXPIRY (R223). -/
def execScarecrowExpiry (dt : Nat) (l : Fin 4) (s : State) : Res State := mainCmd dt (opScarecrowExpiry l) s

/-- PLOUGH_RESTART_END (R206). -/
def execPloughRestartEnd (dt : Nat) (l : Fin 4) (s : State) : Res State := mainCmd dt (opPloughRestartEnd l) s

/-- PLOUGH_SWAP_CMD (R225). -/
def execPloughSwapCmd (dt : Nat) (r : Fin 2) (l : Fin 8) (s : State) : Res State :=
  ordCmd dt dirKeys (opPloughSwapCmd r l) s

/-- ICACHE_INVALIDATE (R220). -/
def execIcacheInvalidate (dt : Nat) (o : Orig) (l : Fin 8) (s : State) : Res State :=
  ordCmd dt dirKeys (opIcacheInvalidate o l) s

/-- PLOUGH_RESTART_CMD (R223). -/
def execPloughRestartCmd (dt : Nat) (r : Fin 2) (l : Fin 8) (s : State) : Res State :=
  ordCmd dt dirKeys (opPloughRestartCmd r l) s

/-- SELF_TEST_END (R225). -/
def execSelfTestEnd (dt : Nat) (p : Fin 5) (pass : Bool) (s : State) : Res State :=
  mainCmd dt (opSelfTestEnd p pass) s

/-- OVERLOAD_MONITOR (R238). -/
def execOverloadMonitor (dt : Nat) (s : State) : Res State := mainCmd dt opOverloadMonitor s

/-- ILLEGAL_INSTRUCTION (R250). -/
def execIllegalInstruction (dt : Nat) (p : Fin 5) (h : Fin 16) (w : Word) (k : Fin 5) (s : State) : Res State :=
  mainCmd dt (opIllegalInstruction p h w k) s

/-- LDB (R262). -/
def execLdb (dt : Nat) (p : Fin 5) (h : Fin 16) (rd ra : Fin 32) (imm : BitVec 16) (s : State) : Res State :=
  mainCmd dt (opLdb p h rd ra imm) s

/-- LDBU (R262). -/
def execLdbu (dt : Nat) (p : Fin 5) (h : Fin 16) (rd ra : Fin 32) (imm : BitVec 16) (s : State) : Res State :=
  mainCmd dt (opLdbu p h rd ra imm) s

/-- LDH (R262). -/
def execLdh (dt : Nat) (p : Fin 5) (h : Fin 16) (rd ra : Fin 32) (imm : BitVec 16) (s : State) : Res State :=
  mainCmd dt (opLdh p h rd ra imm) s

/-- LDHU (R262). -/
def execLdhu (dt : Nat) (p : Fin 5) (h : Fin 16) (rd ra : Fin 32) (imm : BitVec 16) (s : State) : Res State :=
  mainCmd dt (opLdhu p h rd ra imm) s

/-- LDW (R262). -/
def execLdw (dt : Nat) (p : Fin 5) (h : Fin 16) (rd ra : Fin 32) (imm : BitVec 16) (s : State) : Res State :=
  mainCmd dt (opLdw p h rd ra imm) s

/-- LDV (R262). -/
def execLdv (dt : Nat) (p : Fin 5) (h : Fin 16) (vd : Fin 16) (ra : Fin 32) (imm : BitVec 16) (s : State) : Res State
    :=
  mainCmd dt (opLdv p h vd ra imm) s

/-- STB (R262). -/
def execStb (dt : Nat) (p : Fin 5) (h : Fin 16) (rs ra : Fin 32) (imm : BitVec 16) (s : State) : Res State :=
  mainCmd dt (opStb p h rs ra imm) s

/-- STH (R262). -/
def execSth (dt : Nat) (p : Fin 5) (h : Fin 16) (rs ra : Fin 32) (imm : BitVec 16) (s : State) : Res State :=
  mainCmd dt (opSth p h rs ra imm) s

/-- STW (R262). -/
def execStw (dt : Nat) (p : Fin 5) (h : Fin 16) (rs ra : Fin 32) (imm : BitVec 16) (s : State) : Res State :=
  mainCmd dt (opStw p h rs ra imm) s

/-- STV (R262). -/
def execStv (dt : Nat) (p : Fin 5) (h : Fin 16) (vs : Fin 16) (ra : Fin 32) (imm : BitVec 16) (s : State) : Res State
    :=
  mainCmd dt (opStv p h vs ra imm) s

/-- LOAD_RETURN (R218). -/
def execLoadReturn (dt : Nat) (p : Fin 5) (h : Fin 16) (k : Fin 5) (s : State) : Res State :=
  ordCmd dt (loadKeys p h) (opLoadReturn p h k) s

/-- STORE_COMPLETE (R253). -/
def execStoreComplete (dt : Nat) (p : Fin 5) (k : Fin 5) (s : State) : Res State :=
  ordCmd dt (storeKeys p) (opStoreComplete p k) s

/-- FIXED_FUNCTION_RETRY (R419). -/
def execFixedFunctionRetry (dt : Nat) (k : Fin 6) (f : Fin 16) (a : Word) (n : Fin 17) (s : State) : Res State :=
  mainCmd dt (opFixedFunctionRetry k f a n) s

/-- D_WAIT_END (R252). -/
def execDWaitEnd (dt : Nat) (p : Fin 5) (h : Fin 16) (s : State) : Res State := mainCmd dt (opDWaitEnd p h) s

/-- AADD (R263). -/
def execAadd (dt : Nat) (p : Fin 5) (h : Fin 16) (rd ra rb : Fin 32) (k : Fin 5) (s : State) : Res State :=
  mainCmd dt (opAadd p h rd ra rb k) s

/-- ASWAP (R263). -/
def execAswap (dt : Nat) (p : Fin 5) (h : Fin 16) (rd ra rb : Fin 32) (k : Fin 5) (s : State) : Res State :=
  mainCmd dt (opAswap p h rd ra rb k) s

/-- ACAS (R263). -/
def execAcas (dt : Nat) (p : Fin 5) (h : Fin 16) (rd ra rb : Fin 32) (k : Fin 5) (s : State) : Res State :=
  mainCmd dt (opAcas p h rd ra rb k) s

/-- BREQ (R264). -/
def execBreq (dt : Nat) (p : Fin 5) (h : Fin 16) (ra rb : Fin 32) (off : BitVec 16) (s : State) : Res State :=
  mainCmd dt (opBreq p h ra rb off) s

/-- BRNE (R264). -/
def execBrne (dt : Nat) (p : Fin 5) (h : Fin 16) (ra rb : Fin 32) (off : BitVec 16) (s : State) : Res State :=
  mainCmd dt (opBrne p h ra rb off) s

/-- BRLT (R264). -/
def execBrlt (dt : Nat) (p : Fin 5) (h : Fin 16) (ra rb : Fin 32) (off : BitVec 16) (s : State) : Res State :=
  mainCmd dt (opBrlt p h ra rb off) s

/-- BRGE (R264). -/
def execBrge (dt : Nat) (p : Fin 5) (h : Fin 16) (ra rb : Fin 32) (off : BitVec 16) (s : State) : Res State :=
  mainCmd dt (opBrge p h ra rb off) s

/-- BRLTU (R264). -/
def execBrltu (dt : Nat) (p : Fin 5) (h : Fin 16) (ra rb : Fin 32) (off : BitVec 16) (s : State) : Res State :=
  mainCmd dt (opBrltu p h ra rb off) s

/-- BRGEU (R264). -/
def execBrgeu (dt : Nat) (p : Fin 5) (h : Fin 16) (ra rb : Fin 32) (off : BitVec 16) (s : State) : Res State :=
  mainCmd dt (opBrgeu p h ra rb off) s

/-- CALL (R264). -/
def execCall (dt : Nat) (p : Fin 5) (h : Fin 16) (off : BitVec 26) (s : State) : Res State :=
  mainCmd dt (opCall p h off) s

/-- JUMP (R264). -/
def execJump (dt : Nat) (p : Fin 5) (h : Fin 16) (off : BitVec 26) (s : State) : Res State :=
  mainCmd dt (opJump p h off) s

/-- JREG (R264). -/
def execJreg (dt : Nat) (p : Fin 5) (h : Fin 16) (rd ra : Fin 32) (imm : BitVec 16) (s : State) : Res State :=
  mainCmd dt (opJreg p h rd ra imm) s

/-- HPOP (R265). -/
def execHpop (dt : Nat) (p : Fin 5) (h : Fin 16) (rd rt : Fin 32) (s : State) : Res State :=
  mainCmd dt (opHpop p h rd rt) s

/-- HPOP_WAIT_END (R231). -/
def execHpopWaitEnd (dt : Nat) (p : Fin 5) (s : State) : Res State := mainCmd dt (opHpopWaitEnd p) s

/-- HPEEK (R265). -/
def execHpeek (dt : Nat) (p : Fin 5) (h : Fin 16) (rd rt : Fin 32) (s : State) : Res State :=
  mainCmd dt (opHpeek p h rd rt) s

/-- GADD (R266). -/
def execGadd (dt : Nat) (p : Fin 5) (h : Fin 16) (rn rb sh : Fin 32) (s : State) : Res State :=
  mainCmd dt (opGadd p h rn rb sh) s

/-- GSET (R266). -/
def execGset (dt : Nat) (p : Fin 5) (h : Fin 16) (rn rb sh : Fin 32) (s : State) : Res State :=
  mainCmd dt (opGset p h rn rb sh) s

/-- GADDK (R266). -/
def execGaddk (dt : Nat) (p : Fin 5) (h : Fin 16) (rn : Fin 32) (kb : Fin 4) (s : State) : Res State :=
  mainCmd dt (opGaddk p h rn kb) s

/-- GRD (R266). -/
def execGrd (dt : Nat) (p : Fin 5) (h : Fin 16) (vd : Fin 16) (rn : Fin 32) (s : State) : Res State :=
  mainCmd dt (opGrd p h vd rn) s

/-- GSNAP (R266). -/
def execGsnap (dt : Nat) (p : Fin 5) (h : Fin 16) (rd ra : Fin 32) (s : State) : Res State :=
  mainCmd dt (opGsnap p h rd ra) s

/-- AWAIT (R268). -/
def execAwait (dt : Nat) (p : Fin 5) (h : Fin 16) (rd ra rt : Fin 32) (fw : Fin 4) (s : State) : Res State :=
  mainCmd dt (opAwait p h rd ra rt fw) s

/-- AWAIT_END (R269). -/
def execAwaitEnd (dt : Nat) (p : Fin 5) (h : Fin 16) (s : State) : Res State := mainCmd dt (opAwaitEnd p h) s

/-- ARD (R268). -/
def execArd (dt : Nat) (p : Fin 5) (h : Fin 16) (rd : Fin 32) (fw : Fin 4) (s : State) : Res State :=
  mainCmd dt (opArd p h rd fw) s

/-- ATS (R268). -/
def execAts (dt : Nat) (p : Fin 5) (h : Fin 16) (vd : Fin 16) (fw : Fin 4) (s : State) : Res State :=
  mainCmd dt (opAts p h vd fw) s

/-- SARM (R270). -/
def execSarm (dt : Nat) (p : Fin 5) (h : Fin 16) (rd rn : Fin 32) (vs : Fin 16) (s : State) : Res State :=
  ordCmd dt (seedOpKeys p h rn) (opSarm p h rd rn vs) s

/-- SDIS (R270). -/
def execSdis (dt : Nat) (p : Fin 5) (h : Fin 16) (rd rn : Fin 32) (s : State) : Res State :=
  ordCmd dt (seedOpKeys p h rn) (opSdis p h rd rn) s

/-- TPOST (R270). -/
def execTpost (dt : Nat) (p : Fin 5) (h : Fin 16) (rd ra : Fin 32) (s : State) : Res State :=
  mainCmd dt (opTpost p h rd ra) s

/-- MSND (R271). -/
def execMsnd (dt : Nat) (p : Fin 5) (h : Fin 16) (rd ra rb : Fin 32) (s : State) : Res State :=
  ordCmd dt (msndKeys p h ra) (opMsnd p h rd ra rb) s

/-- MRCV (R271). -/
def execMrcv (dt : Nat) (p : Fin 5) (h : Fin 16) (rd rt : Fin 32) (nb : Bool) (s : State) : Res State :=
  mainCmd dt (opMrcv p h rd rt nb) s

/-- MRCV_WAIT_END (R221). -/
def execMrcvWaitEnd (dt : Nat) (p : Fin 5) (s : State) : Res State := mainCmd dt (opMrcvWaitEnd p) s

/-- ICLM (R271). -/
def execIclm (dt : Nat) (p : Fin 5) (h : Fin 16) (rd : Fin 32) (w : Bool) (s : State) : Res State :=
  ordCmd dt (claimKeys p) (opIclm p h rd w) s

/-- ICLM_WAIT_END (R271). -/
def execIclmWaitEnd (dt : Nat) (p : Fin 5) (h : Fin 16) (s : State) : Res State := ordCmd dt (claimKeys p) (opIclmWaitEnd p h) s

/-- IDONE (R271). -/
def execIdone (dt : Nat) (p : Fin 5) (h : Fin 16) (ra : Fin 32) (s : State) : Res State :=
  mainCmd dt (opIdone p h ra) s

/-- SPAWN (R272). -/
def execSpawn (dt : Nat) (p : Fin 5) (h : Fin 16) (rd ra rb : Fin 32) (s : State) : Res State :=
  ordCmd dt (spawnKeys p h ra) (opSpawn p h rd ra rb) s

/-- YIELD (R272). -/
def execYield (dt : Nat) (p : Fin 5) (h : Fin 16) (ra : Fin 32) (s : State) : Res State :=
  mainCmd dt (opYield p h ra) s

/-- YIELD_END (R272). -/
def execYieldEnd (dt : Nat) (p : Fin 5) (h : Fin 16) (s : State) : Res State := mainCmd dt (opYieldEnd p h) s

/-- HALT (R272). -/
def execHalt (dt : Nat) (p : Fin 5) (h : Fin 16) (s : State) : Res State := mainCmd dt (opHalt p h) s

/-- SUIT (R272). -/
def execSuit (dt : Nat) (p : Fin 5) (h : Fin 16) (rd ra : Fin 32) (put : Bool) (s : State) : Res State :=
  mainCmd dt (opSuit p h rd ra put) s

/-- DRAIN (R272). -/
def execDrain (dt : Nat) (p : Fin 5) (h : Fin 16) (s : State) : Res State := mainCmd dt (opDrain p h) s

/-- HSRD (R272). -/
def execHsrd (dt : Nat) (p : Fin 5) (h : Fin 16) (rd : Fin 32) (s : State) : Res State :=
  mainCmd dt (opHsrd p h rd) s

/-- HSWR (R272). -/
def execHswr (dt : Nat) (p : Fin 5) (h : Fin 16) (ra : Fin 32) (s : State) : Res State :=
  mainCmd dt (opHswr p h ra) s

/-- WHO (R272). -/
def execWho (dt : Nat) (p : Fin 5) (h : Fin 16) (rd : Fin 32) (s : State) : Res State := mainCmd dt (opWho p h rd) s

/-- CYCRD (R272). -/
def execCycrd (dt : Nat) (p : Fin 5) (h : Fin 16) (rd : Fin 32) (s : State) : Res State :=
  mainCmd dt (opCycrd p h rd) s

/-- BRK (R272). -/
def execBrk (dt : Nat) (p : Fin 5) (h : Fin 16) (k : Fin 32) (s : State) : Res State := mainCmd dt (opBrk p h k) s

end Sys2Proof.Machine
end

