-- ==== Sys2Proof/Machine/ExecStore.lean ====
section
/-!
DEFINITION. The meanings of the barn, crib, timebase and calendar commands.
-/
namespace Sys2Proof.Machine

/-- TALLY_ROUND (R143). -/
def execTallyRound (dt : Nat) (_ : Unit) (s : State) : Res State := ordCmd dt tallyKeys opTallyRound s

/-- NVM_PUSH (R282). -/
def execNvmPush (dt : Nat) (o : Orig) (w : Word) (s : State) : Res State := ordCmd dt dirKeys (opNvmPush o w) s

/-- COMMIT_TIMER_EXPIRY (R286). -/
def execCommitTimerExpiry (dt : Nat) (s : State) : Res State := mainCmd dt opCommitTimerExpiry s

/-- COMMIT_NOW (R286). -/
def execCommitNow (dt : Nat) (s : State) : Res State := ordCmd dt dirKeys opCommitNow s

/-- SCRUB_NOW (R298). -/
def execScrubNow (dt : Nat) (s : State) : Res State := ordCmd dt dirKeys opScrubNow s

/-- CRIB_COPY_NOW (R301). -/
def execCribCopyNow (dt : Nat) (s : State) : Res State := ordCmd dt dirKeys opCribCopyNow s

/-- CRIB_PAGE_PROGRAM_END (R287). -/
def execCribPageProgramEnd (dt : Nat) (s : State) : Res State := mainCmd dt opCribPageProgramEnd s

/-- SCRUB_TIMER (R298). -/
def execScrubTimer (dt : Nat) (sgl dbl : Scrubbed) (s : State) : Res State := mainCmd dt (opScrubTimer sgl dbl) s

/-- CRIB_COPY_TIMER (R301). -/
def execCribCopyTimer (dt : Nat) (s : State) : Res State := mainCmd dt opCribCopyTimer s

/-- CRIB_COPY_END (R301). -/
def execCribCopyEnd (dt : Nat) (s : State) : Res State := mainCmd dt opCribCopyEnd s

/-- BACKUP_ISOLATION_END (R331). -/
def execBackupIsolationEnd (dt : Nat) (s : State) : Res State := anyCmd dt opBackupIsolationEnd s

/-- PPS_EDGE (R307). -/
def execPpsEdge (dt : Nat) (fall : Bool) (z : Int) (s : State) : Res State := mainCmd dt (opPpsEdge fall z) s

/-- PPS_EDGE_MISSING (R308). -/
def execPpsEdgeMissing (dt : Nat) (s : State) : Res State := mainCmd dt opPpsEdgeMissing s

/-- TB0_LOAD_AT_PPS (R311). -/
def execTb0LoadAtPps (dt : Nat) (o : Orig) (s : State) : Res State := ordCmd dt dirKeys (opTb0LoadAtPps o) s

/-- TB0_LOAD_NOW (R311). -/
def execTb0LoadNow (dt : Nat) (o : Orig) (s : State) : Res State := ordCmd dt dirKeys (opTb0LoadNow o) s

/-- CALENDAR_SECOND (R313). -/
def execCalendarSecond (dt : Nat) (s : State) : Res State := anyCmd dt opCalendarSecond s

/-- DST_SET_CMD (R317). -/
def execDstSetCmd (dt : Nat) (o : Orig) (s : State) : Res State := ordCmd dt dirKeys (opDstSetCmd o) s

/-- DST_CLEAR_CMD (R317). -/
def execDstClearCmd (dt : Nat) (o : Orig) (s : State) : Res State := ordCmd dt dirKeys (opDstClearCmd o) s

/-- FOLD_END (R317). -/
def execFoldEnd (dt : Nat) (s : State) : Res State := anyCmd dt opFoldEnd s

/-- CALENDAR_WRITE (R318). -/
def execCalendarWrite (dt : Nat) (o : Orig) (w : Word) (s : State) : Res State := ordCmd dt dirKeys (opCalendarWrite o w) s

/-- CALENDAR_SHIFT (R320). -/
def execCalendarShift (dt : Nat) (o : Orig) (w : Word) (s : State) : Res State := ordCmd dt dirKeys (opCalendarShift o w) s

/-- SHIFT_HOLD_END (R320). -/
def execShiftHoldEnd (dt : Nat) (s : State) : Res State := anyCmd dt opShiftHoldEnd s

/-- CALENDAR_FREEZE_READ (R321). -/
def execCalendarFreezeRead (dt : Nat) (o : Orig) (s : State) : Res State := mainCmd dt (opCalendarFreezeRead o) s

/-- CALENDAR_YEAR_READ (R321). -/
def execCalendarYearRead (dt : Nat) (o : Orig) (s : State) : Res State := mainCmd dt (opCalendarYearRead o) s

/-- BACKUP_WRITE_APPLY (R334). -/
def execBackupWriteApply (dt : Nat) (s : State) : Res State := anyCmd dt opBackupWriteApply s

/-- XTAL32_STOP (R327). -/
def execXtal32Stop (dt : Nat) (s : State) : Res State := anyCmd dt opXtal32Stop s

/-- SUPPLY_CHANGEOVER (R329). -/
def execSupplyChangeover (dt : Nat) (s : State) : Res State := anyCmd dt opSupplyChangeover s

/-- CELL_CHECK (R330). -/
def execCellCheck (dt : Nat) (low : Bool) (s : State) : Res State := anyCmd dt (opCellCheck low) s

/-- BACKUP_DOMAIN_RESET (R330). -/
def execBackupDomainReset (dt : Nat) (s : State) : Res State := anyCmd dt opBackupDomainReset s

/-- XTAL32_RESTART (R327). -/
def execXtal32Restart (dt : Nat) (s : State) : Res State := anyCmd dt opXtal32Restart s

/-- XTAL32_MEASUREMENT (R326). -/
def execXtal32Measurement (dt : Nat) (e : Int) (ovr : Bool) (s : State) : Res State :=
  mainCmd dt (opXtal32Measurement e ovr) s

end Sys2Proof.Machine
end

