-- ==== Sys2Proof/Machine/Boot.lean ====
section
/-!
DEFINITION. Resets and start-up (R22, R24, R289, R290, R361, R427 to R446, R468 to R470), and the close of a commit with
what waits for it (R287).
-/
namespace Sys2Proof.Machine

/-! ### Resets (R9, R468, R470) -/

/-- The fields of the register at `a` that `p` keeps, over its reset value. -/
def keepWord (p : ResetBy → Bool) (a : Nat) (w : Word) : Word :=
  (regFields a).foldl (fun x f => if p f.dom then putBits x f.hi f.lo (bits w.toNat f.hi f.lo) else x) (regReset a)

/-- A register whose P fields come from OTP or from tables outside the address map, and so outlast a power failure: the
ceilings, `SYS_ID`, `HDG_KEYSTAT`, `TMP_OTPc`, `DEAL_UIDL`, `DEAL_UIDH`, `NVM_SPAREr`. -/
def lasting (a : Nat) : Bool :=
  (decide (HDG_KEYSTAT ≤ a) && decide (a < 0x1016140)) || (decide (TMP_OTP 0 ≤ a) && decide (a ≤ TMP_OTP 7))
    || a == SYS_ID || a == DEAL_UIDL || a == DEAL_UIDH || (decide (NVM_SPARE 0 ≤ a) && decide (a ≤ NVM_SPARE 7))

/-- The registers after a power-on reset, or a `warm` one; but for the hedge registers. -/
def plainReset (warm : Bool) (m : Sparse Word) : Sparse Word :=
  m.filterMap fun e =>
    let w := keepWord (fun d => d = .b || (d = .p && (warm || lasting e.1))) e.1 e.2
    if w = regReset e.1 then none else some (e.1, w)

/-- The registers after a reset: each hedge register is loaded with its OTP ceiling (R406), and through a warm reset a
Retired plough stays so (R226). -/
def resetRegs (warm : Bool) (m : Sparse Word) : Sparse Word :=
  let x := (List.range 7).foldl (fun x k =>
    Sparse.set regReset (HDG_PLS + 4 * k) (Sparse.get regReset (HDG_PLS + 256 + 4 * k) x) x) (plainReset warm m)
  (List.range 5).foldl (fun x p =>
    let a := PLG_PSTAT p
    if warm ∧ bits (Sparse.get regReset a m).toNat 2 0 = 3 then
      Sparse.set regReset a (putF (putF (Sparse.get regReset a x) (PLG_PSTAT_STATE p) 3) (PLG_PSTAT_LOG p) 7) x
    else x) x

/-- The device enters reset: a power-on reset, or a `warm` one. Main-domain state takes its reset values; the barn, the
crib and the backup domain stay, and so do, through a warm reset, the silo's memory and what counts since power-up. A reset
that no warning and no commit of kind reset came before is noted (R290). `PFWARN` is watched from a power-on reset on
(R469). -/
def State.resetInto (s : State) (warm : Bool) (cause : Nat) : State :=
  let noPf := if s.inReset then s.noPf else decide (cause ≠ 2) && !s.pfTaken
  let s := s.nvCut
  let now (a : Alert) : Alert := { a with low := true, since := if a.low then a.since else s.clk, deferred := false }
  { State.reset with
    clk := s.clk, fresh := s.fresh, pending := s.pending, rdata := s.rdata
    regs := resetRegs warm s.regs
    mem := s.mem.filter fun c => decide ((if warm then 0x400000 else 0x800000) ≤ c.1) && decide (c.1 < 0xC40000)
    inReset := true, rstCause := cause, clk0 := s.clk0
    refin := s.refin, xtlRun := s.xtlRun, xtlAt := s.xtlAt
    pllLock := s.pllLock, pllHold := s.pllHold, pllAt := s.pllAt, pllWas := s.pllWas
    alert0 := now s.alert0, alert1 := now s.alert1
    otpDue := if warm then s.otpDue else [], burnFail := if warm then s.burnFail else 0
    loops := s.loops
    nvTaken := s.nvTaken, nvFailed := s.nvFailed, nvScrubs := s.nvScrubs, scrubClk := s.scrubClk
    pfBall := s.pfBall, pfRel := if s.pfBall then none else if warm then s.pfRel else some s.clk
    noPf := noPf
    utc := s.utc, cal60 := s.cal60, subN := s.subN, subAt := s.subAt, holdN := s.holdN
    fold := s.fold, foldN := s.foldN, dstReq := s.dstReq, dstAt := s.dstAt
    adj := s.adj, iso := true, onVbat := s.onVbat
    lifeExc := if warm then s.lifeExc else [], lifeSwap := if warm then s.lifeSwap else 0
    dayClk := if warm then s.dayClk else 0
    cribProg := s.cribProg, duoDuty := s.duoDuty }

/-- POWER_ON_RESET (R468): a rail falls below its falling threshold. -/
def opPowerOnReset (s : State) : State := s.resetInto false 0

/-- RST_N_LOW (R470): a warm reset without a commit. -/
def opRstNLow (s : State) : State := s.resetInto true 1

/-- SOFTWARE_RESET_DELAY_EXPIRY (R22): 10 µs after the request the commit of kind reset runs (R290); a power-fail commit
that runs then closes first. -/
def opSoftwareResetDelayExpiry (s : State) : State :=
  match s.rstReq with
  | some t =>
    if t + cyUs 10 ≤ s.clk ∧ !s.pfRuns then s.commitFail 3 else s
  | none => s

/-! ### The close of a commit (R287) -/

/-- A commit has closed: the update engine and the authenticator go on (R361, R431). -/
def State.commitClosed (s : State) : State := s.updClosed.ceilClosed

/-- COMMIT_CLOSE (R287): the running commit has written its close record; `bad` are the rows whose read-back failed, each
remapped before it (R299). A commit of kind reset is followed by the reset (R22); otherwise a held start begins. -/
def opCommitClose (bad : List (Fin 8192)) (s : State) : State :=
  match s.nvC with
  | some c =>
    if c.kind ≠ 2 ∧ c.bnd.isSome ∧ c.todo.isEmpty ∧ c.wrote + cyRemap * bad.length ≤ s.clk then
      let s := bad.foldl (fun (s : State) (r : Fin 8192) => s.rowBad r 0) s
      let s := s.commitEnd c
      if c.kind = 3 then s.resetInto true 2 else s.commitHeld.commitClosed
    else s
  | none => s

/-- POWER_FAIL_COMMIT_CLOSE (R289): the power-fail commit has written its close record. -/
def opPowerFailCommitClose (s : State) : State :=
  match s.nvC with
  | some c => if c.kind = 2 ∧ c.bnd.isSome ∧ c.todo.isEmpty then (s.pfClose c).commitClosed else s
  | none => s

/-! ### `PFWARN` (R289, R290, R331) -/

/-- A job is the commit of an activation's selector. -/
def UpdJob.activates (j : UpdJob) : Bool := match j.fin with
  | .activate _ => true
  | _ => false

/-- An activation whose selector is not sealed is abandoned, be its job at work or still waiting (R441). -/
def State.actDrop (s : State) : State :=
  match s.updQ.find? UpdJob.activates with
  | some j =>
    if s.nvBuf.any (fun e => e.seal_ && j.sent.contains e.addr) then s
    else { s.wr UPD_STAT_ACTPEND 0 with
      updQ := s.updQ.filter fun j => !j.activates
      nvBuf := s.nvBuf.filter fun e => !(!e.crib && j.sent.contains e.addr) }
  | none => s

/-- PFWARN_ASSERT (R289): the warning has been stable for 2 µs. It is taken, unless one is held that has not been released;
in reset it only holds the device there (R469). OTP bits that are due are left to the next power-up (R417). -/
def opPfwarnAssert (s : State) : State :=
  if s.inReset then { s with pfBall := true, pfRel := none }
  else if s.pfTaken && s.pfRel.isNone then s
  else
    let s : State := { s.wr NVM_STAT_PFHOLD 1 with
      pfBall := true, pfTaken := true, pfClk := s.clk, pfRel := none
      burnCat := none, burnFail := s.burnFail ||| s.rd TMP_BURNPEND_V }
    (s.isolate.actDrop).commitFail 2

/-- PFWARN_RELEASE (R290): the 10 ms timer starts, and a second assertion is seen again. -/
def opPfwarnRelease (s : State) : State := if s.pfBall then { s with pfBall := false, pfRel := some s.clk } else s

/-- PFWARN_RELEASE_EXPIRY (R290, R331): normal operation resumes; isolation ends 1 ms later. A held command starts; the next
timer start is that of the next period boundary. -/
def opPfwarnReleaseExpiry (s : State) : State :=
  match s.pfRel with
  | some t =>
    if s.pfTaken ∧ !s.pfBall ∧ !s.pfRuns ∧ t + 10 * cyMs ≤ s.clk then
      let s : State := { s.wr NVM_STAT_PFHOLD 0 with pfTaken := false, pfRel := none, isoEnd := some (s.clk + cyMs) }
      ({ s with nvHeld := s.nvHeld &&& 2 } : State).commitHeld.updKick.burnNext
    else s
  | none => s

/-! ### Step 1 (R428) -/

/-- The physical ploughs that are not retired take logical numbers in ascending order (R207, R226). -/
def State.ploughMap (s : State) (passed : Nat) : State :=
  let was (p : Nat) : Bool := decide (s.rstCause ≠ 0) && decide (s.rd (PLG_PSTAT_STATE p) = 3)
  let live := (List.range 5).filter fun p => decide (bit passed p = 1) && !was p
  let s := (List.range 5).foldl (fun (s : State) p =>
    let s := if was p then s else s.wr (PLG_PSTAT_PASS p) (bit passed p)
    match live.findIdx? (· == p) with
    | some l => (s.wr (PLG_PSTAT_LOG p) l).wr (PLG_PSTAT_STATE p) (if l = 4 then 1 else 0)
    | none => (s.wr (PLG_PSTAT_LOG p) 7).wr (PLG_PSTAT_STATE p) 3) s
  s.wr PLG_MAP_V ((List.range 5).foldl (fun x l => x + live.getD l 15 * 16 ^ l) 0)

/-- TB0 and TB1 are loaded (R312). -/
def State.tbBoot (s : State) : State :=
  let ok := !s.on RTC_STAT_OSF
  let sec := ((s.utc : Int) + s.rdS RTC_LEAP_LS).toNat
  let n := if ok then sec * tickSec + s.subsec * tickSec / 32768 else 0
  { s.wr RTC_TBSTAT_TIMEVALID (b2n ok) with
    tb0 := { t0 := s.clk, ticks := n, trim := s.tb0.trim }, tb1 := { t0 := s.clk, ticks := n, trim := s.tb1.trim } }

/-- The retirement map and the reference states (R94, R95). -/
def State.mapBoot (s : State) : State :=
  match s.recordAny 0x30 24 (locMap 0) (locMap 1) with
  | some (_, pl) =>
    let one (s : State) (c : Nat) : State :=
      let x := pl.getD (c / 2) 0 / 2 ^ (32 * (c % 2)) % 65536
      let ret := bits x 2 0
      if ret < 5 then
        let s := (((s.wr (SLC_CHSTAT_RET c) ret).wr (SLC_CHSTAT_FAL c) 7).wr (SLC_CHSTAT_NOSPARE c) 1).wr (nospareBit c) 1
        (((s.wr (SLC_PHMAP_PH0 c) (bits x 5 3)).wr (SLC_PHMAP_PH1 c) (bits x 8 6)).wr (SLC_PHMAP_PH2 c) (bits x 11 9)).wr
          (SLC_PHMAP_PH3 c) (bits x 14 12)
      else s
    let s := (List.range 48).foldl one s
    let r := pl.getD 0 0 / 65536
    let s := (((s.wr ANA_REFSTAT_ARET (bit r 0)).wr ANA_REFSTAT_BRET (bit r 1)).wr ANA_REFSTAT_LO (bits r 3 2)).wr
      ANA_REFSTAT_HI (bits r 5 4)
    let s := s.wr SLC_RETCNT_COUNT ((List.range 48).filter fun c => s.on (SLC_CHSTAT_NOSPARE c)).length
    if s.refCIn then s.wr ANA_REFSTAT_CON 1 else s
  | none => s

/-- The revenue configuration record, as one application without a check (R437). -/
def State.revBoot (s : State) : State :=
  let s := match s.recordAny 0x50 313 (locRev 0) (locRev 1) with
    | some (_, pl) => pl.foldl (fun (s : State) x => s.regApply 14 true (x % 2 ^ 32) (BitVec.ofNat 32 (x / 2 ^ 32))) s
    | none => s
  let s := (List.range 16).foldl (fun (s : State) f => s.setField f { s.fieldOf f with cfg := s.cfgRegs f, cfgQ := [] }) s
  { s with revDirty := false }

/-- The live bins of field `f` from its newest energy sheaf; without one they are 0 with CFG (R297). RESID marks a
sheaf of a commit before `c`. -/
def State.energyBoot (s : State) (c : Option Nat) (f : Nat) : State :=
  match s.recordAny (0x10 + f) 115 (locEnergy f 0) (locEnergy f 1) with
  | some (_, w :: pl) =>
    let old := c.any fun n => seqNewer n (w / 2 ^ 32)
    let wide (o : Nat) : Nat := pl.getD (2 * o) 0 + pl.getD (2 * o + 1) 0 % 2 ^ 32 * 2 ^ 64
    let tag (o : Nat) : Nat := pl.getD (2 * o + 1) 0 / 2 ^ 32
    let s := (List.range 57).foldl (fun (s : State) o => s.setBin (64 * f + o) (sx 96 (wide o))) s
    let s := s.setField f { s.fieldOf f with
      flags := bits (tag 0) 30 23 * 2 ^ 23 ||| (if old then mfRESID else 0)
      ovf := maskOf 57 fun o => bit (tag o) 31 = 1 }
    if old then s.wr (bitFld NVM_BOOT 0) 1 else s
  | _ => (s.fieldFlags f mfCFG).wr (bitFld NVM_BOOT 2) 1

/-- The pulse outputs' remainders and PENDING counts (R297). -/
def State.pulseBoot (s : State) : State :=
  let s := match s.recordAny 0x20 33 (locPulse 0) (locPulse 1) with
    | some (_, _ :: pl) =>
      (List.range 16).foldl (fun (s : State) n =>
        let hi := pl.getD (2 * n + 1) 0
        (s.setPulse n { s.pulseOf n with r := sx 96 (pl.getD (2 * n) 0 + hi % 2 ^ 32 * 2 ^ 64) }).wr
          (PLS_OSTAT_PENDING n) (hi / 2 ^ 32)) s
    | _ => s
  (List.range 16).foldl State.pulsesResync s

/-- Energy, pulses and what the newest commit left behind (R290, R297). -/
def State.loadBoot (s : State) : State :=
  let opn := (s.record 1 1 (locOpen 0) (locOpen 1)).map fun r => r.2.getD 0 0
  let closes := [locClose 0, locClose 1].filterMap fun a => (s.sheafAt 2 1 a).map fun r => r.2.getD 0 0 / 2 ^ 32
  let cut := match opn with
    | some w => if closes.contains (w / 2 ^ 32) then none else some (w / 2 ^ 32)
    | none => none
  let s := if cut.isSome then s.wr (bitFld NVM_BOOT 0) 1 else s
  let s : State := if s.noPf then { s.wr (bitFld NVM_BOOT 1) 1 with noPf := false } else s
  let last := match closes with
    | [a, b] => if seqNewer b a then b else a
    | [a] => a
    | _ => 0
  let s : State := { s.wr NVM_CNUM_V last with nvNum := match opn with | some w => w / 2 ^ 32 | none => last }
  ((List.range 16).foldl (fun (s : State) f => s.energyBoot cut f) s).pulseBoot

/-- The events that the field `f` counted on backup power are one event of category `c`; where its OTP bit is found not due
the count is cleared at once (R416). -/
def State.tamperLate (s : State) (c : Nat) (f : Fld) : State :=
  if s.rd f = 0 then s
  else
    let s := s.tamperN c (s.rd f)
    if s.on (bitFld TMP_BURNPEND c) then s else s.wr f 0

/-- Full categories are shown (R417). At a main power-up, events of the time on backup power (R330, R416); a bit that was
left to be burned in it is its category's bit of this power-up (R417, log 172). Burns that are due begin. -/
def State.tamperBoot (s : State) : State :=
  let s := (List.range 8).foldl (fun (s : State) c =>
    if s.rd (TMP_OTP_V c) = 64 then s.wr (bitFld TMP_STAT (16 + c)) 1 else s) s
  if s.rstCause ≠ 0 then s.burnNext
  else
    let late := onBits 8 (s.rd TMP_BURNPEND_V)
    let s : State := { s with otpDue := late.foldl (fun m c => Sparse.set (fun _ => none) c (some s.clk) m) s.otpDue }
    let s := (s.tamperLate 0 TMP_BKCNT_CAT0).tamperLate 3 TMP_BKCNT_CAT3
    (if s.on BKP_STAT_BRST then (s.tamper 6).wr BKP_STAT_BRST 0 else s).burnNext

/-- The newest valid record of the event log (R457). -/
def State.logBoot (s : State) : State :=
  let all := (List.range 3840).filterMap fun k =>
    (sheafOf (fun t => t == 0x100 || t == 0x101) 30 fun i => s.barnWord (logSlot k + 8 * i)).map fun r => (r.2.1, k)
  match all.foldl (fun (b : Option (Nat × Nat)) r => match b with
    | some x => if seqNewer r.1 x.1 then some r else b
    | none => some r) none with
  | some r => (s.wr YLD_LOGSEQ_V r.1).wr YLD_LOGSLOT_V r.2
  | none => s

/-- The boot records in force (R431). -/
def State.updBoot (s : State) : State :=
  let m := [0, 1].foldl (fun m k => Sparse.set (fun _ => ([] : List Nat)) k ((s.bootRead (1 + k)).getD []) m) []
  ({ s with updSel := (s.bootRead 0).getD [], updMark := m } : State).updShow

/-- The authentication counter and its new ceiling (R361). -/
def State.ceilBoot (s : State) : State :=
  let c := ((s.bootRead 4).getD [0]).getD 0 0 % 2 ^ 32
  let s : State := { s.wrW DEAL_ANONCE (BitVec.ofNat 32 c) with dealCeil := c }
  (s.ceilPush).getD s

/-- The permitted frequency of REFIN within 2 % of which a measured `hz` lies (R24, Table 01-10). -/
def refSel (hz : Nat) : Option Nat :=
  [10000000, 19200000, 25000000].findIdx? fun f => decide (49 * f ≤ 50 * hz ∧ 50 * hz ≤ 51 * f)

/-- After a power-on reset the frequency of REFIN, measured as `hz`, is selected and the PLL locks to it before the release;
none where REFIN is absent or lies off (R24). A warm reset changes neither (R483). -/
def State.clkStart (s : State) (hz : Nat) : Option State :=
  if s.rstCause ≠ 0 then some s
  else if !s.refin then none
  else (refSel hz).map fun k => { s.wr SYS_CLKSTAT_REFSEL k with pllLock := true, pllHold := false }

/-- RESET_RELEASE (R24, R469): the clocks are there, and `PFWARN` has been low for 10 ms. `hz` is what REFIN measured. Step 1
of the start-up runs (R428): `rom` and `ram` are the results of its tests, `passed` those of the ploughs, `sgl` and `dbl`
the rows its scan of the boot-record, calibration and energy regions found. -/
def opResetRelease (hz : Nat) (gpio00 rom ram : Bool) (passed : Fin 32) (sgl dbl : List (Fin 8192)) (s : State) :
    State :=
  let warned := s.pfBall || s.pfRel.any fun t => decide (s.clk < t + 10 * cyMs)
  if (!s.inReset && decide (s.boot ≠ 0)) || warned || !rom then s
  else match s.clkStart hz with
  | none => s
  | some s =>
    let s : State := { s with
      inReset := false, clk0 := s.clk, roundClk := s.clk, pfRel := none
      iso := true, isoEnd := some (s.clk + cyMs)
      mem := s.mem.filter fun c => decide (0x400000 ≤ c.1) && decide (c.1 < 0xC40000) }
    let s := s.ploughMap passed
    let seen (r : Fin 8192) : Bool := decide (4096 ≤ r.val) && decide (r.val < 4480)
    let t := s.scrub (sgl.filter seen) (dbl.filter seen)
    let s : State := { t with scrubClk := s.scrubClk, ramScrub := s.clk }
    let s := (s.tbBoot.mapBoot.revBoot.loadBoot.yldLoad.logBoot.tamperBoot.updBoot).ceilBoot
    let s : State := { s with cribNext := s.clk + s.rd NVM_CTL_CRIBPER * 60 * cySec }
    let s := if ram then s else s.wr (bitFld UPD_BOOT 3) 1
    let s := if gpio00 then s else s.wr (bitFld UPD_BOOT 5) 1
    if !ram then s.bootRecover else { s with boot := if gpio00 then 2 else 1, bootAt := s.clk }

/-- GPIO00_WAIT_EXPIRY (R445): 2 s without a RECOVER. -/
def opGpio00WaitExpiry (s : State) : State :=
  if s.boot = 1 ∧ s.bootAt + 2 * cySec ≤ s.clk then { s with boot := 2 } else s

/-! ### Step 2 (R432) -/

/-- The image of slot `k` is verified; a rejected one is R421's event. -/
def State.slotTry (s : State) (k : Nat) : Bool × State := if s.imgOk k then (true, s) else (false, s.tamper 7)

/-- The update engine writes boot records that the state already shows. -/
def State.bootWrite (s : State) (recs : List (Nat × List Nat)) : State := s.updJob { recs := recs }

/-- Slot `k` will be loaded. -/
def State.slotTake (s : State) (k : Nat) : State := { s with bootSlot := some k, boot := 3 }

/-- Without a selector: slot A, then slot B (R432 step 1). -/
def State.slotScan (s : State) : List Nat → State
  | [] => s.bootRecover
  | k :: ks =>
    if mkState (s.marker k) = 3 then
      let r := s.slotTry k
      if r.1 then r.2.slotTake k else r.2.slotScan ks
    else s.slotScan ks

/-- Seconds of the trial that its last committed progress record holds (R442). -/
def State.trialHeld (s : State) : Nat :=
  let w := ((s.bootRead 3).getD [0]).getD 0 0
  if w / 2 ^ 32 = selHash s.updSel then w % 2 ^ 32 else 0

/-- The selector's slot is verified, and the other one where it fails (R432 steps 3 to 5). -/
def State.slotPick (s : State) : State :=
  let p := s.updSel
  let k := selSlot p
  let r := s.slotTry k
  if r.1 then
    if s.trial then
      let q := selWith p 1 (selBoots p + 1)
      ((r.2.setSel q).bootWrite [(0, q)]).slotTake k
    else r.2.slotTake k
  else
    let o := 1 - k
    if mkState (s.marker o) = 3 then
      let v := r.2.slotTry o
      if v.1 then
        let bank := if selPrev p = o then selPrevBank p else selBank p
        let h := (mkHash (s.marker o)).getD 0 0 % 2 ^ 32
        let q := mkSel 0 o o bank bank 0 h 0 h
        let m := markWith (s.marker k) 4
        let s := (((v.2.setSel q).setMark k m).wr (bitFld UPD_BOOT 0) 1).logEv 0x000F 1 k (selHash p)
        (s.bootWrite [(0, q), (1 + k, m)]).slotTake o
      else v.2.bootRecover
    else r.2.bootRecover

/-- SLOT_SELECTION (R432, R443): step 2. A trial that has had its boots or its window is reverted first. -/
def opSlotSelection (s : State) : State :=
  if s.boot ≠ 2 then s
  else if s.updSel.isEmpty then (s.wr (bitFld UPD_BOOT 4) 1).slotScan [0, 1]
  else if s.trial then
    let held := s.trialHeld
    let s : State := { s with trialBase := held, trialClk := s.clk0, trialN := held / 10 }
    let p := s.updSel
    if selBoots p = 3 ∨ selWin p ≤ held then
      let q := mkSel 0 (selPrev p) (selPrev p) (selPrevBank p) (selPrevBank p) 0 (selPrevHash p) 0 (selPrevHash p)
      let m := markWith (s.marker (selSlot p)) 5
      let s := ((s.setMark (selSlot p) m).setSel q).wr (bitFld UPD_BOOT 1) 1
      let s := (s.logEv 0x000F 3 (selSlot p) (selHash q)).bootWrite [(0, q), (1 + selSlot p, m)]
      let r := s.slotTry (selPrev p)
      if r.1 then r.2.slotTake (selPrev p) else r.2.bootRecover
    else s.slotPick
  else s.slotPick

/-! ### Steps 3 to 6 -/

/-- The image of slot `k` is loaded and the ploughs start (Table 15-1 step 3). -/
def State.loadStart (s : State) (k : Nat) : State :=
  let s := s.imgLoad k
  let s := (List.range 5).foldl (fun (s : State) p => if s.rd (PLG_PSTAT_STATE p) = 4 then s.wr (PLG_PSTAT_STATE p) 0 else s) s
  let s : State := { s with
    logi := (List.range 4).foldl (fun x l =>
      Sparse.set (fun _ => ({} : Logi)) l { s.logiOf l with kick := s.clk } x) s.logi }
  s.vec0

/-- IMAGE_LOAD_DONE (R427 step 3, R441, R443): at start-up, once the records of step 2 are committed, and then step 4
begins; after an activation or a reversion, once the store buffers have drained. -/
def opImageLoadDone (s : State) : State :=
  if s.boot = 3 then match s.bootSlot with
    | some k =>
      if s.updQ.isEmpty && s.cal.isNone then
        let s : State := { s.loadStart k with boot := 4 }
        s.calBegin { all := true, ch := 0, start := s.clk, enable := false }
      else s
    | none => s
  else if s.updLoad ∧ (List.range 5).all fun p => (s.ploughOf p).sb.isEmpty then
    let k := selSlot s.updSel
    let s : State := { s with updLoad := false }
    if s.trial || s.imgOk k then
      let s := s.loadStart k
      let s : State := if s.trial then { s with trialBase := 0, trialClk := s.clk, trialN := 0 } else s
      if s.on UPD_STAT_RECOV then { s.wr UPD_STAT_RECOV 0 with healthy := true, boot := 6 } else s
    else (s.tamper 7).recover
  else s

/-- The furrows that an enabled field names and that are enabled and not locked (R429). -/
def State.unlocked (s : State) : List Nat :=
  (List.range 4).filter fun n => s.on (FUR_CTL_EN n) && !s.on (FUR_STAT_LOCK n)
    && s.enabledFields.any fun f => (s.fieldOf f).cfg.fw == n

/-- FURROW_LOCK_WAIT_END (R427, R429): 3 ms after the calibration the named furrows are locked, or 400 ms more pass. -/
def opFurrowLockWaitEnd (s : State) : State :=
  match s.rotT0 with
  | some t =>
    if s.boot = 4 ∧ s.cal.isNone ∧ t + 3 * cyMs ≤ s.clk ∧ (s.unlocked.isEmpty ∨ t + 403 * cyMs ≤ s.clk) then
      let s := if s.unlocked.isEmpty then s else s.wr (bitFld UPD_BOOT 2) 1
      { s.bootLog with healthy := true, boot := 6 }
    else s
  | none => s

end Sys2Proof.Machine
end

