-- ==== Sys2Proof/Machine/ExecSystem.lean ====
section
/-!
DEFINITION. The meanings of the register, interrupt, hedge, reset, update and health commands.
-/
namespace Sys2Proof.Machine

/-- POWER_ON_RESET (R468). -/
def execPowerOnReset (dt : Nat) (s : State) : Res State := anyCmd dt opPowerOnReset s

/-- RST_N_LOW (R470). -/
def execRstNLow (dt : Nat) (s : State) : Res State := anyCmd dt opRstNLow s

/-- RESET_RELEASE (R469). -/
def execResetRelease (dt : Nat) (hz : Nat) (gpio00 rom ram : Bool) (passed : Fin 32) (sgl dbl : List (Fin 8192))
    (s : State) : Res State :=
  anyCmd dt (opResetRelease hz gpio00 rom ram passed sgl dbl) s

/-- REFIN_LOSS (R25). -/
def execRefinLoss (dt : Nat) (s : State) : Res State := anyCmd dt opRefinLoss s

/-- REFIN_RETURN (R25). -/
def execRefinReturn (dt : Nat) (s : State) : Res State := anyCmd dt opRefinReturn s

/-- SYS_RSTCMD_WRITE (R22). -/
def execSysRstcmdWrite (dt : Nat) (o : Orig) (w : Word) (s : State) : Res State :=
  ordCmd dt dirKeys (opSysRstcmdWrite o w) s

/-- SOFTWARE_RESET_DELAY_EXPIRY (R22). -/
def execSoftwareResetDelayExpiry (dt : Nat) (s : State) : Res State := mainCmd dt opSoftwareResetDelayExpiry s

/-- REGISTER_WRITE (R8). -/
def execRegisterWrite (dt : Nat) (o : Orig) (a w : Word) (s : State) : Res State :=
  ordCmd dt (writeKeys o a.toNat) (opRegisterWrite o a w) s

/-- FUR_DISABLE (R47). -/
def execFurDisable (dt : Nat) (n : Fin 4) (s : State) : Res State := ordCmd dt dirKeys (opFurDisable n) s

/-- TRIP_QUEUE_READ (R135). -/
def execTripQueueRead (dt : Nat) (o : Orig) (k : Fin 6) (s : State) : Res State := mainCmd dt (opTripQueueRead o k) s

/-- COMMIT_CLOSE (R287). -/
def execCommitClose (dt : Nat) (bad : List (Fin 8192)) (s : State) : Res State := mainCmd dt (opCommitClose bad) s

/-- PFWARN_ASSERT (R289). -/
def execPfwarnAssert (dt : Nat) (s : State) : Res State := anyCmd dt opPfwarnAssert s

/-- POWER_FAIL_COMMIT_CLOSE (R289). -/
def execPowerFailCommitClose (dt : Nat) (s : State) : Res State := mainCmd dt opPowerFailCommitClose s

/-- PFWARN_RELEASE_EXPIRY (R290). -/
def execPfwarnReleaseExpiry (dt : Nat) (s : State) : Res State := mainCmd dt opPfwarnReleaseExpiry s

/-- DUO_TXPOST (R382). -/
def execDuoTxpost (dt : Nat) (o : Orig) (w : Word) (s : State) : Res State := ordCmd dt dirKeys (opDuoTxpost o w) s

/-- DUO_DISABLE (R388). -/
def execDuoDisable (dt : Nat) (o : Orig) (w : Word) (s : State) : Res State := ordCmd dt dirKeys (opDuoDisable o w) s

/-- DUO_LEVEL_WRITE (R386). -/
def execDuoLevelWrite (dt : Nat) (o : Orig) (w : Word) (s : State) : Res State := ordCmd dt dirKeys (opDuoLevelWrite o w) s

/-- INTERRUPT_CLAIM (R396). -/
def execInterruptClaim (dt : Nat) (o : Orig) (t : Fin 6) (s : State) : Res State :=
  ordCmd dt (intClaimKeys t) (opInterruptClaim o t) s

/-- INTERRUPT_COMPLETE (R397). -/
def execInterruptComplete (dt : Nat) (t : Fin 6) (w : Word) (s : State) : Res State :=
  ordCmd dt dirKeys (opInterruptComplete t w) s

/-- INT_SWSET (R392). -/
def execIntSwset (dt : Nat) (k : Fin 2) (w : Word) (s : State) : Res State := ordCmd dt dirKeys (opIntSwset k w) s

/-- INT_SWCLR (R392). -/
def execIntSwclr (dt : Nat) (k : Fin 2) (w : Word) (s : State) : Res State := ordCmd dt dirKeys (opIntSwclr k w) s

/-- ALARM_RECORD_WRITE (R401). -/
def execAlarmRecordWrite (dt : Nat) (s : State) : Res State := mainCmd dt opAlarmRecordWrite s

/-- ALERT_LATCH_CLEAR (R400). -/
def execAlertLatchClear (dt : Nat) (o : Orig) (w : Word) (s : State) : Res State :=
  ordCmd dt dirKeys (opAlertLatchClear o w) s

/-- ALERT_RELEASE_DEFERRED (R400). -/
def execAlertReleaseDeferred (dt : Nat) (k : Fin 2) (s : State) : Res State :=
  mainCmd dt (opAlertReleaseDeferred k) s

/-- HEDGE_WRITE (R407). -/
def execHedgeWrite (dt : Nat) (o : Orig) (r : Fin 7) (w : Word) (s : State) : Res State :=
  ordCmd dt dirKeys (opHedgeWrite o r w) s

/-- SAFE_STATE_FORCE (R411). -/
def execSafeStateForce (dt : Nat) (o : Orig) (s : State) : Res State := ordCmd dt dirKeys (opSafeStateForce o) s

/-- SAFE_STATE_CLEAR (R412). -/
def execSafeStateClear (dt : Nat) (o : Orig) (s : State) : Res State := ordCmd dt dirKeys (opSafeStateClear o) s

/-- TAMPER_LOOP_EVENT (R414). -/
def execTamperLoopEvent (dt : Nat) (n : Fin 4) (bs : List Bool) (s : State) : Res State :=
  anyCmd dt (opTamperLoopEvent n bs) s

/-- MAGNETIC_CHECK (R413). -/
def execMagneticCheck (dt : Nat) (code : Fin 4096) (s : State) : Res State := mainCmd dt (opMagneticCheck code) s

/-- TEMPERATURE_CHECK (R413). -/
def execTemperatureCheck (dt : Nat) (t0 t1 t2 t3 : Fin 256) (s : State) : Res State :=
  mainCmd dt (opTemperatureCheck t0 t1 t2 t3) s

/-- SUPPLY_EXCURSION (R413). -/
def execSupplyExcursion (dt : Nat) (s : State) : Res State := mainCmd dt opSupplyExcursion s

/-- TAP_INSTRUCTION_LOAD (R415). -/
def execTapInstructionLoad (dt : Nat) (i : Fin 5) (s : State) : Res State := mainCmd dt (opTapInstructionLoad i) s

/-- TEST_EN_HIGH (R415). -/
def execTestEnHigh (dt : Nat) (s : State) : Res State := mainCmd dt opTestEnHigh s

/-- OTP_BURN_DONE (R417). -/
def execOtpBurnDone (dt : Nat) (ok : Bool) (s : State) : Res State := mainCmd dt (opOtpBurnDone ok) s

/-- SLOT_SELECTION (R432). -/
def execSlotSelection (dt : Nat) (s : State) : Res State := mainCmd dt opSlotSelection s

/-- IMAGE_LOAD_DONE (R427). -/
def execImageLoadDone (dt : Nat) (s : State) : Res State := mainCmd dt opImageLoadDone s

/-- FURROW_LOCK_WAIT_END (R429). -/
def execFurrowLockWaitEnd (dt : Nat) (s : State) : Res State := mainCmd dt opFurrowLockWaitEnd s

/-- GPIO00_WAIT_EXPIRY (R445). -/
def execGpio00WaitExpiry (dt : Nat) (s : State) : Res State := mainCmd dt opGpio00WaitExpiry s

/-- UPD_BEGIN_FULL (R438). -/
def execUpdBeginFull (dt : Nat) (s : State) : Res State := ordCmd dt dirKeys opUpdBeginFull s

/-- UPD_BEGIN_DELTA (R438). -/
def execUpdBeginDelta (dt : Nat) (s : State) : Res State := ordCmd dt dirKeys opUpdBeginDelta s

/-- UPD_RESUME (R438). -/
def execUpdResume (dt : Nat) (s : State) : Res State := ordCmd dt dirKeys opUpdResume s

/-- UPD_VERIFY (R438). -/
def execUpdVerify (dt : Nat) (s : State) : Res State := ordCmd dt dirKeys opUpdVerify s

/-- UPD_VERIFY_DONE (R438). -/
def execUpdVerifyDone (dt : Nat) (s : State) : Res State := mainCmd dt opUpdVerifyDone s

/-- UPD_CANCEL (R440). -/
def execUpdCancel (dt : Nat) (s : State) : Res State := ordCmd dt dirKeys opUpdCancel s

/-- UPD_REVERT (R443). -/
def execUpdRevert (dt : Nat) (s : State) : Res State := ordCmd dt dirKeys opUpdRevert s

/-- UPD_ERASE (R438). -/
def execUpdErase (dt : Nat) (s : State) : Res State := ordCmd dt dirKeys opUpdErase s

/-- ACTIVATION_SCHEDULE (R440). -/
def execActivationSchedule (dt : Nat) (s : State) : Res State := ordCmd dt dirKeys opActivationSchedule s

/-- ACTIVATION (R441). -/
def execActivation (dt : Nat) (s : State) : Res State := mainCmd dt opActivation s

/-- TRIAL_PROGRESS (R442). -/
def execTrialProgress (dt : Nat) (s : State) : Res State := mainCmd dt opTrialProgress s

/-- TRIAL_CONFIRM (R443). -/
def execTrialConfirm (dt : Nat) (w : Word) (s : State) : Res State := ordCmd dt dirKeys (opTrialConfirm w) s

/-- TRIAL_WINDOW_EXPIRY (R443). -/
def execTrialWindowExpiry (dt : Nat) (s : State) : Res State := mainCmd dt opTrialWindowExpiry s

/-- YIELD_DAY (R452). -/
def execYieldDay (dt : Nat) (cell vbat cycles osc0 osc1 osc2 osc3 : Word) (s : State) : Res State :=
  mainCmd dt (opYieldDay cell vbat cycles osc0 osc1 osc2 osc3) s

/-- YLD_RUN (R452). -/
def execYldRun (dt : Nat) (o : Orig) (s : State) : Res State := ordCmd dt dirKeys (opYldRun o) s

/-- LOG_RECORD_WRITE (R457). -/
def execLogRecordWrite (dt : Nat) (s : State) : Res State := mainCmd dt opLogRecordWrite s

/-- MISDEAL_STOP (R459). -/
def execMisdealStop (dt : Nat) (o : Orig) (s : State) : Res State := ordCmd dt dirKeys (opMisdealStop o) s

/-- MISDEAL_DURATION_EXPIRY (R459). -/
def execMisdealDurationExpiry (dt : Nat) (s : State) : Res State := mainCmd dt opMisdealDurationExpiry s

/-- PLL_LOCK_REGAINED (R25). -/
def execPllLockRegained (dt : Nat) (s : State) : Res State := anyCmd dt opPllLockRegained s

/-- REFIN_PERIOD_DEVIATION (R413). -/
def execRefinPeriodDeviation (dt : Nat) (s : State) : Res State := mainCmd dt opRefinPeriodDeviation s

/-- PFWARN_RELEASE (R290). -/
def execPfwarnRelease (dt : Nat) (s : State) : Res State := anyCmd dt opPfwarnRelease s

/-- MODEM_HEDGE_CLEAR (R386). -/
def execModemHedgeClear (dt : Nat) (o : Orig) (s : State) : Res State := ordCmd dt dirKeys (opModemHedgeClear o) s

/-- SHADOW_EXPIRY (R65). -/
def execShadowExpiry (dt : Nat) (s : State) : Res State := mainCmd dt opShadowExpiry s

/-- TAL_SCNTL_READ (R176). -/
def execTalScntlRead (dt : Nat) (o : Orig) (s : State) : Res State := mainCmd dt (opTalScntlRead o) s

end Sys2Proof.Machine
end

