-- ==== Sys2Proof/Machine/Dispatch.lean ====
section
/-!
DEFINITION. The effect of every command on everything but the queue: one arm per row of spec/opcode_table.json.
-/
namespace Sys2Proof.Machine

/-- The effect of command `i`. -/
def exec (i : Instr) (s : State) : Host.Outcome State Fault Refusal :=
  match i with
  | .powerOnReset dt => Sys2Proof.Machine.execPowerOnReset dt s
  | .rstNLow dt => Sys2Proof.Machine.execRstNLow dt s
  | .resetRelease dt hz gpio00 rom ram passed sgl dbl => Sys2Proof.Machine.execResetRelease dt hz gpio00 rom ram passed sgl dbl s
  | .refinLoss dt => Sys2Proof.Machine.execRefinLoss dt s
  | .refinReturn dt => Sys2Proof.Machine.execRefinReturn dt s
  | .sysRstcmdWrite dt o w => Sys2Proof.Machine.execSysRstcmdWrite dt o w s
  | .softwareResetDelayExpiry dt => Sys2Proof.Machine.execSoftwareResetDelayExpiry dt s
  | .registerWrite dt o a w => Sys2Proof.Machine.execRegisterWrite dt o a w s
  | .furEnable dt n => Sys2Proof.Machine.execFurEnable dt n s
  | .furDisable dt n => Sys2Proof.Machine.execFurDisable dt n s
  | .firstLock dt n rate => Sys2Proof.Machine.execFirstLock dt n rate s
  | .lockSet dt n => Sys2Proof.Machine.execLockSet dt n s
  | .lockClear dt n => Sys2Proof.Machine.execLockClear dt n s
  | .sourceLost dt n => Sys2Proof.Machine.execSourceLost dt n s
  | .freqOutOfRange dt n high => Sys2Proof.Machine.execFreqOutOfRange dt n high s
  | .rangeHoldoverExpiry dt n => Sys2Proof.Machine.execRangeHoldoverExpiry dt n s
  | .sourceReturn dt n e rate => Sys2Proof.Machine.execSourceReturn dt n e rate s
  | .slewEnd dt n rate => Sys2Proof.Machine.execSlewEnd dt n rate s
  | .forcehSet dt n => Sys2Proof.Machine.execForcehSet dt n s
  | .forcehClear dt n e rate => Sys2Proof.Machine.execForcehClear dt n e rate s
  | .sourceChange dt n w => Sys2Proof.Machine.execSourceChange dt n w s
  | .encoderIndex dt k => Sys2Proof.Machine.execEncoderIndex dt k s
  | .anginEdge dt k => Sys2Proof.Machine.execAnginEdge dt k s
  | .zeroCrossing dt n rate => Sys2Proof.Machine.execZeroCrossing dt n rate s
  | .furLatch dt => Sys2Proof.Machine.execFurLatch dt s
  | .seedArm dt idx w => Sys2Proof.Machine.execSeedArm dt idx w s
  | .seedDisarm dt idx w => Sys2Proof.Machine.execSeedDisarm dt idx w s
  | .seedBusyWrite dt idx k w => Sys2Proof.Machine.execSeedBusyWrite dt idx k w s
  | .seedWord0Read dt o idx => Sys2Proof.Machine.execSeedWord0Read dt o idx s
  | .sowcEnable dt => Sys2Proof.Machine.execSowcEnable dt s
  | .sowcDisable dt => Sys2Proof.Machine.execSowcDisable dt s
  | .seedDue dt idx => Sys2Proof.Machine.execSeedDue dt idx s
  | .seedDispatch dt => Sys2Proof.Machine.execSeedDispatch dt s
  | .seedDelayExpiry dt idx => Sys2Proof.Machine.execSeedDelayExpiry dt idx s
  | .channelCfgWrite dt c w => Sys2Proof.Machine.execChannelCfgWrite dt c w s
  | .channelCfgTakeEffect dt c => Sys2Proof.Machine.execChannelCfgTakeEffect dt c s
  | .channelEnable dt c => Sys2Proof.Machine.execChannelEnable dt c s
  | .channelPowerupDone dt c => Sys2Proof.Machine.execChannelPowerupDone dt c s
  | .channelDisable dt c => Sys2Proof.Machine.execChannelDisable dt c s
  | .handoverSlot dt c res co => Sys2Proof.Machine.execHandoverSlot dt c res co s
  | .fallowStepChange dt c co => Sys2Proof.Machine.execFallowStepChange dt c co s
  | .shadowExtension dt c res co => Sys2Proof.Machine.execShadowExtension dt c res co s
  | .coefficientExcursion dt c sl co => Sys2Proof.Machine.execCoefficientExcursion dt c sl co s
  | .sliceRetirement dt c sl => Sys2Proof.Machine.execSliceRetirement dt c sl s
  | .retirementHandover dt c res co => Sys2Proof.Machine.execRetirementHandover dt c res co s
  | .slcRotateNow dt c => Sys2Proof.Machine.execSlcRotateNow dt c s
  | .slcRetire dt c sl => Sys2Proof.Machine.execSlcRetire dt c sl s
  | .calibrationStart dt one c => Sys2Proof.Machine.execCalibrationStart dt one c s
  | .calibrationEnd dt out => Sys2Proof.Machine.execCalibrationEnd dt out s
  | .referenceCheck dt => Sys2Proof.Machine.execReferenceCheck dt s
  | .referenceCheckDone dt d => Sys2Proof.Machine.execReferenceCheckDone dt d s
  | .gangModeChange dt k => Sys2Proof.Machine.execGangModeChange dt k s
  | .refRatioAverage dt ab ca cb => Sys2Proof.Machine.execRefRatioAverage dt ab ca cb s
  | .referenceArbitration dt ca cb => Sys2Proof.Machine.execReferenceArbitration dt ca cb s
  | .referenceSwap dt => Sys2Proof.Machine.execReferenceSwap dt s
  | .refRetireSettleExpiry dt => Sys2Proof.Machine.execRefRetireSettleExpiry dt s
  | .shiftChange dt c w => Sys2Proof.Machine.execShiftChange dt c w s
  | .settlingClose dt c t => Sys2Proof.Machine.execSettlingClose dt c t s
  | .comparatorWrite dt k r w => Sys2Proof.Machine.execComparatorWrite dt k r w s
  | .comparatorTrip dt k => Sys2Proof.Machine.execComparatorTrip dt k s
  | .comparatorReturn dt k => Sys2Proof.Machine.execComparatorReturn dt k s
  | .tripQueueRead dt o k => Sys2Proof.Machine.execTripQueueRead dt o k s
  | .tallyRound dt qs => Sys2Proof.Machine.execTallyRound dt qs s
  | .granaryWord0Read dt o snap b => Sys2Proof.Machine.execGranaryWord0Read dt o snap b s
  | .snapshotRequest dt fields aligned => Sys2Proof.Machine.execSnapshotRequest dt fields aligned s
  | .snapshotBoundary dt => Sys2Proof.Machine.execSnapshotBoundary dt s
  | .configBoundary dt f => Sys2Proof.Machine.execConfigBoundary dt f s
  | .halfCycleRmsPublish dt f k => Sys2Proof.Machine.execHalfCycleRmsPublish dt f k s
  | .pulseStart dt n => Sys2Proof.Machine.execPulseStart dt n s
  | .pulseEnd dt n => Sys2Proof.Machine.execPulseEnd dt n s
  | .pulseReadbackFault dt n => Sys2Proof.Machine.execPulseReadbackFault dt n s
  | .pulseSpareHandover dt k => Sys2Proof.Machine.execPulseSpareHandover dt k s
  | .jobPost dt o a => Sys2Proof.Machine.execJobPost dt o a s
  | .jobCancel dt a => Sys2Proof.Machine.execJobCancel dt a s
  | .windowReady dt n => Sys2Proof.Machine.execWindowReady dt n s
  | .transformBoundary dt => Sys2Proof.Machine.execTransformBoundary dt s
  | .laneBlockDue dt k => Sys2Proof.Machine.execLaneBlockDue dt k s
  | .siloArm dt b => Sys2Proof.Machine.execSiloArm dt b s
  | .siloTrigger dt b => Sys2Proof.Machine.execSiloTrigger dt b s
  | .siloStop dt b => Sys2Proof.Machine.execSiloStop dt b s
  | .siloWavefrontRerun dt b => Sys2Proof.Machine.execSiloWavefrontRerun dt b s
  | .siloFreeze dt b => Sys2Proof.Machine.execSiloFreeze dt b s
  | .wavefrontDone dt b => Sys2Proof.Machine.execWavefrontDone dt b s
  | .startRequest dt o w => Sys2Proof.Machine.execStartRequest dt o w s
  | .startDispatch dt l => Sys2Proof.Machine.execStartDispatch dt l s
  | .startAgeExpiry dt l => Sys2Proof.Machine.execStartAgeExpiry dt l s
  | .vector15Request dt l => Sys2Proof.Machine.execVector15Request dt l s
  | .scarecrowKick dt o l w => Sys2Proof.Machine.execScarecrowKick dt o l w s
  | .scarecrowExpiry dt l => Sys2Proof.Machine.execScarecrowExpiry dt l s
  | .ploughRestartEnd dt l => Sys2Proof.Machine.execPloughRestartEnd dt l s
  | .ploughSwapCmd dt r l => Sys2Proof.Machine.execPloughSwapCmd dt r l s
  | .icacheInvalidate dt o l => Sys2Proof.Machine.execIcacheInvalidate dt o l s
  | .ploughRestartCmd dt r l => Sys2Proof.Machine.execPloughRestartCmd dt r l s
  | .selfTestEnd dt p pass => Sys2Proof.Machine.execSelfTestEnd dt p pass s
  | .overloadMonitor dt => Sys2Proof.Machine.execOverloadMonitor dt s
  | .glnRegularStart dt => Sys2Proof.Machine.execGlnRegularStart dt s
  | .glnCmdRegular dt => Sys2Proof.Machine.execGlnCmdRegular dt s
  | .glnInjectTrigger dt => Sys2Proof.Machine.execGlnInjectTrigger dt s
  | .glnInjectDelayExpiry dt => Sys2Proof.Machine.execGlnInjectDelayExpiry dt s
  | .glnConversionDone dt r => Sys2Proof.Machine.execGlnConversionDone dt r s
  | .glnSequenceEnd dt => Sys2Proof.Machine.execGlnSequenceEnd dt s
  | .illegalInstruction dt p h w k => Sys2Proof.Machine.execIllegalInstruction dt p h w k s
  | .add dt p h rd ra rb => Sys2Proof.Machine.execAdd dt p h rd ra rb s
  | .sub dt p h rd ra rb => Sys2Proof.Machine.execSub dt p h rd ra rb s
  | .and dt p h rd ra rb => Sys2Proof.Machine.execAnd dt p h rd ra rb s
  | .ior dt p h rd ra rb => Sys2Proof.Machine.execIor dt p h rd ra rb s
  | .eor dt p h rd ra rb => Sys2Proof.Machine.execEor dt p h rd ra rb s
  | .shl dt p h rd ra rb => Sys2Proof.Machine.execShl dt p h rd ra rb s
  | .shru dt p h rd ra rb => Sys2Proof.Machine.execShru dt p h rd ra rb s
  | .shrs dt p h rd ra rb => Sys2Proof.Machine.execShrs dt p h rd ra rb s
  | .lts dt p h rd ra rb => Sys2Proof.Machine.execLts dt p h rd ra rb s
  | .ltu dt p h rd ra rb => Sys2Proof.Machine.execLtu dt p h rd ra rb s
  | .mins dt p h rd ra rb => Sys2Proof.Machine.execMins dt p h rd ra rb s
  | .maxs dt p h rd ra rb => Sys2Proof.Machine.execMaxs dt p h rd ra rb s
  | .minu dt p h rd ra rb => Sys2Proof.Machine.execMinu dt p h rd ra rb s
  | .maxu dt p h rd ra rb => Sys2Proof.Machine.execMaxu dt p h rd ra rb s
  | .addq dt p h rd ra rb => Sys2Proof.Machine.execAddq dt p h rd ra rb s
  | .subq dt p h rd ra rb => Sys2Proof.Machine.execSubq dt p h rd ra rb s
  | .absq dt p h rd ra => Sys2Proof.Machine.execAbsq dt p h rd ra s
  | .lzc dt p h rd ra => Sys2Proof.Machine.execLzc dt p h rd ra s
  | .addk dt p h rd ra imm => Sys2Proof.Machine.execAddk dt p h rd ra imm s
  | .ltsk dt p h rd ra imm => Sys2Proof.Machine.execLtsk dt p h rd ra imm s
  | .ltuk dt p h rd ra imm => Sys2Proof.Machine.execLtuk dt p h rd ra imm s
  | .andk dt p h rd ra imm => Sys2Proof.Machine.execAndk dt p h rd ra imm s
  | .iork dt p h rd ra imm => Sys2Proof.Machine.execIork dt p h rd ra imm s
  | .eork dt p h rd ra imm => Sys2Proof.Machine.execEork dt p h rd ra imm s
  | .shlk dt p h rd ra n => Sys2Proof.Machine.execShlk dt p h rd ra n s
  | .shruk dt p h rd ra n => Sys2Proof.Machine.execShruk dt p h rd ra n s
  | .shrsk dt p h rd ra n => Sys2Proof.Machine.execShrsk dt p h rd ra n s
  | .hik dt p h rd imm => Sys2Proof.Machine.execHik dt p h rd imm s
  | .mull dt p h rd ra rb => Sys2Proof.Machine.execMull dt p h rd ra rb s
  | .mulhs dt p h rd ra rb => Sys2Proof.Machine.execMulhs dt p h rd ra rb s
  | .mulhu dt p h rd ra rb => Sys2Proof.Machine.execMulhu dt p h rd ra rb s
  | .mulq dt p h rd ra rb => Sys2Proof.Machine.execMulq dt p h rd ra rb s
  | .divs dt p h rd ra rb => Sys2Proof.Machine.execDivs dt p h rd ra rb s
  | .divu dt p h rd ra rb => Sys2Proof.Machine.execDivu dt p h rd ra rb s
  | .mods dt p h rd ra rb => Sys2Proof.Machine.execMods dt p h rd ra rb s
  | .modu dt p h rd ra rb => Sys2Proof.Machine.execModu dt p h rd ra rb s
  | .kmac dt p h ka ra rb => Sys2Proof.Machine.execKmac dt p h ka ra rb s
  | .kmsu dt p h ka ra rb => Sys2Proof.Machine.execKmsu dt p h ka ra rb s
  | .kmacu dt p h ka ra rb => Sys2Proof.Machine.execKmacu dt p h ka ra rb s
  | .cmac dt p h ka ra rb => Sys2Proof.Machine.execCmac dt p h ka ra rb s
  | .cmacj dt p h ka ra rb => Sys2Proof.Machine.execCmacj dt p h ka ra rb s
  | .kclr dt p h ka => Sys2Proof.Machine.execKclr dt p h ka s
  | .kext dt p h rd kb ra => Sys2Proof.Machine.execKext dt p h rd kb ra s
  | .krd dt p h rd kb pt => Sys2Proof.Machine.execKrd dt p h rd kb pt s
  | .kwr dt p h ka ra pt => Sys2Proof.Machine.execKwr dt p h ka ra pt s
  | .kadd dt p h ka kb => Sys2Proof.Machine.execKadd dt p h ka kb s
  | .kflt dt p h rd kb ra => Sys2Proof.Machine.execKflt dt p h rd kb ra s
  | .fladd dt p h rd ra rb => Sys2Proof.Machine.execFladd dt p h rd ra rb s
  | .flsub dt p h rd ra rb => Sys2Proof.Machine.execFlsub dt p h rd ra rb s
  | .flmul dt p h rd ra rb => Sys2Proof.Machine.execFlmul dt p h rd ra rb s
  | .fldiv dt p h rd ra rb => Sys2Proof.Machine.execFldiv dt p h rd ra rb s
  | .flsqrt dt p h rd ra => Sys2Proof.Machine.execFlsqrt dt p h rd ra s
  | .flmac dt p h rd ra rb => Sys2Proof.Machine.execFlmac dt p h rd ra rb s
  | .flmin dt p h rd ra rb => Sys2Proof.Machine.execFlmin dt p h rd ra rb s
  | .flmax dt p h rd ra rb => Sys2Proof.Machine.execFlmax dt p h rd ra rb s
  | .flabs dt p h rd ra => Sys2Proof.Machine.execFlabs dt p h rd ra s
  | .flneg dt p h rd ra => Sys2Proof.Machine.execFlneg dt p h rd ra s
  | .flceq dt p h rd ra rb => Sys2Proof.Machine.execFlceq dt p h rd ra rb s
  | .flclt dt p h rd ra rb => Sys2Proof.Machine.execFlclt dt p h rd ra rb s
  | .flcle dt p h rd ra rb => Sys2Proof.Machine.execFlcle dt p h rd ra rb s
  | .fltoi dt p h rd ra => Sys2Proof.Machine.execFltoi dt p h rd ra s
  | .itofl dt p h rd ra => Sys2Proof.Machine.execItofl dt p h rd ra s
  | .qtofl dt p h rd ra => Sys2Proof.Machine.execQtofl dt p h rd ra s
  | .fltoq dt p h rd ra => Sys2Proof.Machine.execFltoq dt p h rd ra s
  | .vadd dt p h vd va vb => Sys2Proof.Machine.execVadd dt p h vd va vb s
  | .vsub dt p h vd va vb => Sys2Proof.Machine.execVsub dt p h vd va vb s
  | .vaddq dt p h vd va vb => Sys2Proof.Machine.execVaddq dt p h vd va vb s
  | .vmulq dt p h vd va vb => Sys2Proof.Machine.execVmulq dt p h vd va vb s
  | .vmin dt p h vd va vb => Sys2Proof.Machine.execVmin dt p h vd va vb s
  | .vmax dt p h vd va vb => Sys2Proof.Machine.execVmax dt p h vd va vb s
  | .vfladd dt p h vd va vb => Sys2Proof.Machine.execVfladd dt p h vd va vb s
  | .vflsub dt p h vd va vb => Sys2Proof.Machine.execVflsub dt p h vd va vb s
  | .vflmul dt p h vd va vb => Sys2Proof.Machine.execVflmul dt p h vd va vb s
  | .vflmac dt p h vd va vb => Sys2Proof.Machine.execVflmac dt p h vd va vb s
  | .vsplat dt p h vd ra => Sys2Proof.Machine.execVsplat dt p h vd ra s
  | .vins dt p h vd ra n => Sys2Proof.Machine.execVins dt p h vd ra n s
  | .vext dt p h rd va n => Sys2Proof.Machine.execVext dt p h rd va n s
  | .vkdot dt p h ka va vb => Sys2Proof.Machine.execVkdot dt p h ka va vb s
  | .vflsum dt p h rd va => Sys2Proof.Machine.execVflsum dt p h rd va s
  | .vshrs dt p h vd va n => Sys2Proof.Machine.execVshrs dt p h vd va n s
  | .vqtofl dt p h vd va => Sys2Proof.Machine.execVqtofl dt p h vd va s
  | .ldb dt p h rd ra imm => Sys2Proof.Machine.execLdb dt p h rd ra imm s
  | .ldbu dt p h rd ra imm => Sys2Proof.Machine.execLdbu dt p h rd ra imm s
  | .ldh dt p h rd ra imm => Sys2Proof.Machine.execLdh dt p h rd ra imm s
  | .ldhu dt p h rd ra imm => Sys2Proof.Machine.execLdhu dt p h rd ra imm s
  | .ldw dt p h rd ra imm => Sys2Proof.Machine.execLdw dt p h rd ra imm s
  | .ldv dt p h vd ra imm => Sys2Proof.Machine.execLdv dt p h vd ra imm s
  | .stb dt p h rs ra imm => Sys2Proof.Machine.execStb dt p h rs ra imm s
  | .sth dt p h rs ra imm => Sys2Proof.Machine.execSth dt p h rs ra imm s
  | .stw dt p h rs ra imm => Sys2Proof.Machine.execStw dt p h rs ra imm s
  | .stv dt p h vs ra imm => Sys2Proof.Machine.execStv dt p h vs ra imm s
  | .loadReturn dt p h k => Sys2Proof.Machine.execLoadReturn dt p h k s
  | .storeComplete dt p k => Sys2Proof.Machine.execStoreComplete dt p k s
  | .fixedFunctionRetry dt k f a n => Sys2Proof.Machine.execFixedFunctionRetry dt k f a n s
  | .dWaitEnd dt p h => Sys2Proof.Machine.execDWaitEnd dt p h s
  | .aadd dt p h rd ra rb k => Sys2Proof.Machine.execAadd dt p h rd ra rb k s
  | .aswap dt p h rd ra rb k => Sys2Proof.Machine.execAswap dt p h rd ra rb k s
  | .acas dt p h rd ra rb k => Sys2Proof.Machine.execAcas dt p h rd ra rb k s
  | .breq dt p h ra rb off => Sys2Proof.Machine.execBreq dt p h ra rb off s
  | .brne dt p h ra rb off => Sys2Proof.Machine.execBrne dt p h ra rb off s
  | .brlt dt p h ra rb off => Sys2Proof.Machine.execBrlt dt p h ra rb off s
  | .brge dt p h ra rb off => Sys2Proof.Machine.execBrge dt p h ra rb off s
  | .brltu dt p h ra rb off => Sys2Proof.Machine.execBrltu dt p h ra rb off s
  | .brgeu dt p h ra rb off => Sys2Proof.Machine.execBrgeu dt p h ra rb off s
  | .call dt p h off => Sys2Proof.Machine.execCall dt p h off s
  | .jump dt p h off => Sys2Proof.Machine.execJump dt p h off s
  | .jreg dt p h rd ra imm => Sys2Proof.Machine.execJreg dt p h rd ra imm s
  | .hpop dt p h rd rt => Sys2Proof.Machine.execHpop dt p h rd rt s
  | .hpopWaitEnd dt p => Sys2Proof.Machine.execHpopWaitEnd dt p s
  | .hpeek dt p h rd rt => Sys2Proof.Machine.execHpeek dt p h rd rt s
  | .gadd dt p h rn rb sh => Sys2Proof.Machine.execGadd dt p h rn rb sh s
  | .gset dt p h rn rb sh => Sys2Proof.Machine.execGset dt p h rn rb sh s
  | .gaddk dt p h rn kb => Sys2Proof.Machine.execGaddk dt p h rn kb s
  | .grd dt p h vd rn => Sys2Proof.Machine.execGrd dt p h vd rn s
  | .gsnap dt p h rd ra => Sys2Proof.Machine.execGsnap dt p h rd ra s
  | .await dt p h rd ra rt fw => Sys2Proof.Machine.execAwait dt p h rd ra rt fw s
  | .awaitEnd dt p h => Sys2Proof.Machine.execAwaitEnd dt p h s
  | .ard dt p h rd fw => Sys2Proof.Machine.execArd dt p h rd fw s
  | .ats dt p h vd fw => Sys2Proof.Machine.execAts dt p h vd fw s
  | .sarm dt p h rd rn vs => Sys2Proof.Machine.execSarm dt p h rd rn vs s
  | .sdis dt p h rd rn => Sys2Proof.Machine.execSdis dt p h rd rn s
  | .tpost dt p h rd ra => Sys2Proof.Machine.execTpost dt p h rd ra s
  | .msnd dt p h rd ra rb => Sys2Proof.Machine.execMsnd dt p h rd ra rb s
  | .mrcv dt p h rd rt nb => Sys2Proof.Machine.execMrcv dt p h rd rt nb s
  | .mrcvWaitEnd dt p => Sys2Proof.Machine.execMrcvWaitEnd dt p s
  | .iclm dt p h rd w => Sys2Proof.Machine.execIclm dt p h rd w s
  | .iclmWaitEnd dt p h => Sys2Proof.Machine.execIclmWaitEnd dt p h s
  | .idone dt p h ra => Sys2Proof.Machine.execIdone dt p h ra s
  | .spawn dt p h rd ra rb => Sys2Proof.Machine.execSpawn dt p h rd ra rb s
  | .yield dt p h ra => Sys2Proof.Machine.execYield dt p h ra s
  | .yieldEnd dt p h => Sys2Proof.Machine.execYieldEnd dt p h s
  | .halt dt p h => Sys2Proof.Machine.execHalt dt p h s
  | .suit dt p h rd ra put => Sys2Proof.Machine.execSuit dt p h rd ra put s
  | .drain dt p h => Sys2Proof.Machine.execDrain dt p h s
  | .hsrd dt p h rd => Sys2Proof.Machine.execHsrd dt p h rd s
  | .hswr dt p h ra => Sys2Proof.Machine.execHswr dt p h ra s
  | .who dt p h rd => Sys2Proof.Machine.execWho dt p h rd s
  | .cycrd dt p h rd => Sys2Proof.Machine.execCycrd dt p h rd s
  | .brk dt p h k => Sys2Proof.Machine.execBrk dt p h k s
  | .dreqOpen dt p h rd ra => Sys2Proof.Machine.execDreqOpen dt p h rd ra s
  | .dreqWrite dt p h rd ra rb => Sys2Proof.Machine.execDreqWrite dt p h rd ra rb s
  | .dreqPlay dt p h rd ra rb => Sys2Proof.Machine.execDreqPlay dt p h rd ra rb s
  | .dreqFold dt p h rd => Sys2Proof.Machine.execDreqFold dt p h rd s
  | .nvmPush dt o w => Sys2Proof.Machine.execNvmPush dt o w s
  | .commitTimerExpiry dt => Sys2Proof.Machine.execCommitTimerExpiry dt s
  | .commitNow dt => Sys2Proof.Machine.execCommitNow dt s
  | .scrubNow dt => Sys2Proof.Machine.execScrubNow dt s
  | .cribCopyNow dt => Sys2Proof.Machine.execCribCopyNow dt s
  | .commitClose dt bad => Sys2Proof.Machine.execCommitClose dt bad s
  | .cribPageProgramEnd dt => Sys2Proof.Machine.execCribPageProgramEnd dt s
  | .scrubTimer dt sgl dbl => Sys2Proof.Machine.execScrubTimer dt sgl dbl s
  | .cribCopyTimer dt => Sys2Proof.Machine.execCribCopyTimer dt s
  | .cribCopyEnd dt => Sys2Proof.Machine.execCribCopyEnd dt s
  | .pfwarnAssert dt => Sys2Proof.Machine.execPfwarnAssert dt s
  | .powerFailCommitClose dt => Sys2Proof.Machine.execPowerFailCommitClose dt s
  | .pfwarnReleaseExpiry dt => Sys2Proof.Machine.execPfwarnReleaseExpiry dt s
  | .backupIsolationEnd dt => Sys2Proof.Machine.execBackupIsolationEnd dt s
  | .ppsEdge dt fall z => Sys2Proof.Machine.execPpsEdge dt fall z s
  | .ppsEdgeMissing dt => Sys2Proof.Machine.execPpsEdgeMissing dt s
  | .tb0LoadAtPps dt o => Sys2Proof.Machine.execTb0LoadAtPps dt o s
  | .tb0LoadNow dt o => Sys2Proof.Machine.execTb0LoadNow dt o s
  | .calendarSecond dt => Sys2Proof.Machine.execCalendarSecond dt s
  | .dstSetCmd dt o => Sys2Proof.Machine.execDstSetCmd dt o s
  | .dstClearCmd dt o => Sys2Proof.Machine.execDstClearCmd dt o s
  | .foldEnd dt => Sys2Proof.Machine.execFoldEnd dt s
  | .calendarWrite dt o w => Sys2Proof.Machine.execCalendarWrite dt o w s
  | .calendarShift dt o w => Sys2Proof.Machine.execCalendarShift dt o w s
  | .shiftHoldEnd dt => Sys2Proof.Machine.execShiftHoldEnd dt s
  | .calendarFreezeRead dt o => Sys2Proof.Machine.execCalendarFreezeRead dt o s
  | .calendarYearRead dt o => Sys2Proof.Machine.execCalendarYearRead dt o s
  | .backupWriteApply dt => Sys2Proof.Machine.execBackupWriteApply dt s
  | .xtal32Stop dt => Sys2Proof.Machine.execXtal32Stop dt s
  | .supplyChangeover dt => Sys2Proof.Machine.execSupplyChangeover dt s
  | .cellCheck dt low => Sys2Proof.Machine.execCellCheck dt low s
  | .backupDomainReset dt => Sys2Proof.Machine.execBackupDomainReset dt s
  | .linkSignalDetect dt r => Sys2Proof.Machine.execLinkSignalDetect dt r s
  | .linkTrainComplete dt r valid pos => Sys2Proof.Machine.execLinkTrainComplete dt r valid pos s
  | .linkDown dt r viol => Sys2Proof.Machine.execLinkDown dt r viol s
  | .frameReceive dt r ok abort w0 w1 w2 pay at_ k => Sys2Proof.Machine.execFrameReceive dt r ok abort w0 w1 w2 pay at_ k s
  | .responseKeepExpiry dt => Sys2Proof.Machine.execResponseKeepExpiry dt s
  | .enum dt r w0 w1 w2 => Sys2Proof.Machine.execEnum dt r w0 w1 w2 s
  | .read dt at_ k => Sys2Proof.Machine.execRead dt at_ k s
  | .write dt at_ k => Sys2Proof.Machine.execWrite dt at_ k s
  | .rmw dt k => Sys2Proof.Machine.execRmw dt k s
  | .dealOpen dt => Sys2Proof.Machine.execDealOpen dt s
  | .dealPlay dt => Sys2Proof.Machine.execDealPlay dt s
  | .dealCheckEnd dt => Sys2Proof.Machine.execDealCheckEnd dt s
  | .dealFold dt => Sys2Proof.Machine.execDealFold dt s
  | .dealTimeout dt => Sys2Proof.Machine.execDealTimeout dt s
  | .dealApplication dt => Sys2Proof.Machine.execDealApplication dt s
  | .mailbox dt => Sys2Proof.Machine.execMailbox dt s
  | .eventSend dt => Sys2Proof.Machine.execEventSend dt s
  | .eventAck dt tag => Sys2Proof.Machine.execEventAck dt tag s
  | .eventRetryTimeout dt => Sys2Proof.Machine.execEventRetryTimeout dt s
  | .syncSend dt => Sys2Proof.Machine.execSyncSend dt s
  | .sync dt r host pos pay => Sys2Proof.Machine.execSync dt r host pos pay s
  | .hopDelayMeasure dt r d => Sys2Proof.Machine.execHopDelayMeasure dt r d s
  | .bulkRead dt at_ k => Sys2Proof.Machine.execBulkRead dt at_ k s
  | .bulkWrite dt at_ k => Sys2Proof.Machine.execBulkWrite dt at_ k s
  | .bootcmdRecover dt => Sys2Proof.Machine.execBootcmdRecover dt s
  | .bootcmdLeave dt => Sys2Proof.Machine.execBootcmdLeave dt s
  | .beaconSend dt => Sys2Proof.Machine.execBeaconSend dt s
  | .beaconReceive dt bs er snr gain => Sys2Proof.Machine.execBeaconReceive dt bs er snr gain s
  | .beaconMiss dt => Sys2Proof.Machine.execBeaconMiss dt s
  | .joinSend dt pair => Sys2Proof.Machine.execJoinSend dt pair s
  | .joinBackoffExpiry dt => Sys2Proof.Machine.execJoinBackoffExpiry dt s
  | .modemFrameReceive dt mode sy er fc crc bs snr gain => Sys2Proof.Machine.execModemFrameReceive dt mode sy er fc crc bs snr gain s
  | .modemRunStart dt k => Sys2Proof.Machine.execModemRunStart dt k s
  | .modemTransmitEnd dt => Sys2Proof.Machine.execModemTransmitEnd dt s
  | .modemAckTimeout dt => Sys2Proof.Machine.execModemAckTimeout dt s
  | .duoTxpost dt o w => Sys2Proof.Machine.execDuoTxpost dt o w s
  | .duoDisable dt o w => Sys2Proof.Machine.execDuoDisable dt o w s
  | .duoLevelWrite dt o w => Sys2Proof.Machine.execDuoLevelWrite dt o w s
  | .txenReadbackFault dt => Sys2Proof.Machine.execTxenReadbackFault dt s
  | .interruptClaim dt o t => Sys2Proof.Machine.execInterruptClaim dt o t s
  | .interruptComplete dt t w => Sys2Proof.Machine.execInterruptComplete dt t w s
  | .intSwset dt k w => Sys2Proof.Machine.execIntSwset dt k w s
  | .intSwclr dt k w => Sys2Proof.Machine.execIntSwclr dt k w s
  | .alarmRecordWrite dt => Sys2Proof.Machine.execAlarmRecordWrite dt s
  | .alertLatchClear dt o w => Sys2Proof.Machine.execAlertLatchClear dt o w s
  | .alertReleaseDeferred dt k => Sys2Proof.Machine.execAlertReleaseDeferred dt k s
  | .hedgeWrite dt o r w => Sys2Proof.Machine.execHedgeWrite dt o r w s
  | .safeStateForce dt o => Sys2Proof.Machine.execSafeStateForce dt o s
  | .safeStateClear dt o => Sys2Proof.Machine.execSafeStateClear dt o s
  | .tamperLoopEvent dt n bs => Sys2Proof.Machine.execTamperLoopEvent dt n bs s
  | .magneticCheck dt code => Sys2Proof.Machine.execMagneticCheck dt code s
  | .temperatureCheck dt t0 t1 t2 t3 => Sys2Proof.Machine.execTemperatureCheck dt t0 t1 t2 t3 s
  | .supplyExcursion dt => Sys2Proof.Machine.execSupplyExcursion dt s
  | .tapInstructionLoad dt idx => Sys2Proof.Machine.execTapInstructionLoad dt idx s
  | .testEnHigh dt => Sys2Proof.Machine.execTestEnHigh dt s
  | .otpBurnDone dt ok => Sys2Proof.Machine.execOtpBurnDone dt ok s
  | .slotSelection dt => Sys2Proof.Machine.execSlotSelection dt s
  | .imageLoadDone dt => Sys2Proof.Machine.execImageLoadDone dt s
  | .furrowLockWaitEnd dt => Sys2Proof.Machine.execFurrowLockWaitEnd dt s
  | .gpio00WaitExpiry dt => Sys2Proof.Machine.execGpio00WaitExpiry dt s
  | .updBeginFull dt => Sys2Proof.Machine.execUpdBeginFull dt s
  | .updBeginDelta dt => Sys2Proof.Machine.execUpdBeginDelta dt s
  | .updResume dt => Sys2Proof.Machine.execUpdResume dt s
  | .updVerify dt => Sys2Proof.Machine.execUpdVerify dt s
  | .updVerifyDone dt => Sys2Proof.Machine.execUpdVerifyDone dt s
  | .updCancel dt => Sys2Proof.Machine.execUpdCancel dt s
  | .updRevert dt => Sys2Proof.Machine.execUpdRevert dt s
  | .updErase dt => Sys2Proof.Machine.execUpdErase dt s
  | .downloadBlock dt => Sys2Proof.Machine.execDownloadBlock dt s
  | .activationSchedule dt => Sys2Proof.Machine.execActivationSchedule dt s
  | .activation dt => Sys2Proof.Machine.execActivation dt s
  | .trialProgress dt => Sys2Proof.Machine.execTrialProgress dt s
  | .trialConfirm dt w => Sys2Proof.Machine.execTrialConfirm dt w s
  | .trialWindowExpiry dt => Sys2Proof.Machine.execTrialWindowExpiry dt s
  | .yieldDay dt cell vbat cycles osc0 osc1 osc2 osc3 => Sys2Proof.Machine.execYieldDay dt cell vbat cycles osc0 osc1 osc2 osc3 s
  | .yldRun dt o => Sys2Proof.Machine.execYldRun dt o s
  | .logRecordWrite dt => Sys2Proof.Machine.execLogRecordWrite dt s
  | .misdealStop dt o => Sys2Proof.Machine.execMisdealStop dt o s
  | .misdealDurationExpiry dt => Sys2Proof.Machine.execMisdealDurationExpiry dt s
  | .streamSample dt c t xs ps => Sys2Proof.Machine.execStreamSample dt c t xs ps s
  | .resampledSample dt n c x inv => Sys2Proof.Machine.execResampledSample dt n c x inv s
  | .coefficientReturn dt c sl co => Sys2Proof.Machine.execCoefficientReturn dt c sl co s
  | .pllLockRegained dt => Sys2Proof.Machine.execPllLockRegained dt s
  | .xtal32Restart dt => Sys2Proof.Machine.execXtal32Restart dt s
  | .xtal32Measurement dt e ovr => Sys2Proof.Machine.execXtal32Measurement dt e ovr s
  | .refinPeriodDeviation dt => Sys2Proof.Machine.execRefinPeriodDeviation dt s
  | .pfwarnRelease dt => Sys2Proof.Machine.execPfwarnRelease dt s
  | .modemSymbol dt e gain => Sys2Proof.Machine.execModemSymbol dt e gain s
  | .pulseHedgeClear dt n => Sys2Proof.Machine.execPulseHedgeClear dt n s
  | .modemHedgeClear dt o => Sys2Proof.Machine.execModemHedgeClear dt o s
  | .misdealFrameRelease dt r => Sys2Proof.Machine.execMisdealFrameRelease dt r s
  | .shadowExpiry dt => Sys2Proof.Machine.execShadowExpiry dt s
  | .talScntlRead dt o => Sys2Proof.Machine.execTalScntlRead dt o s
  | .encoderCountEdge dt k up => Sys2Proof.Machine.execEncoderCountEdge dt k up s

end Sys2Proof.Machine
end

