-- ==== Sys2Proof/Machine/Step.lean ====
section
/-!
DEFINITION. One step: the command at the front of the queue. On an empty queue one fabric cycle passes.
-/
namespace Sys2Proof.Machine

/-- One step. With no command waiting, the fabric clock ticks once: the cycle of the last command ends.
DESIGN CHOICE (log 5). -/
def step (s : State) : Host.Outcome State Fault Refusal :=
  match s.pending with
  | [] => .next (s.advance 1)
  | c :: cs => exec c { s with pending := cs }

/-- `s` with the command that a table word spells at the front of its queue; `s` where it spells none. -/
def State.withFetchWord (s : State) (nbits w : Nat) : State :=
  match decodeTableWord nbits w with
  | some c => { s with pending := c :: s.pending }
  | none => s

end Sys2Proof.Machine
end

