-- ==== Sys2Proof/Safety.lean ====
section
/-!
DEFINITION. What counts as a safe state and a safe run, and the terms in which claims say what a command changes.
-/
namespace Sys2Proof.Machine

/-- Memory and registers are in their canonical form: keys strictly rise, and no entry repeats what an unlisted key
reads as. -/
abbrev State.Inv (s : State) : Prop := Memory.wf s.mem = true ∧ Sparse.wf regReset s.regs = true

/-- No queue holds more than the manual lets it: thresher jobs (R179), trips (R135), alarms (R401), EVENT frames (R402:
four that wait and one about to be sent), commit buffer (R282), request slots (R346), descriptors (R381), entries of the
open deal (R357). -/
abbrev State.Fits (s : State) : Prop :=
  s.thrQ.length ≤ 32 ∧ s.tripQ.length ≤ 16 ∧ s.alq.length ≤ 32 ∧ s.evWait.length ≤ 5 ∧ s.nvBuf.length ≤ 1024 ∧
    s.reqs.length ≤ 64 ∧ s.duoQ.length ≤ 8 ∧ ∀ d, s.deal = some d → d.entries.length ≤ 512

/-- The step from `s` does not stop. -/
def State.Goes (s : State) : Prop := ∃ t, step s = .next t

/-- Every command waiting can reach the device. -/
def State.PendingWf (s : State) : Prop := ∀ c ∈ s.pending, Instr.wf c = true

/-- `dt` cycles after the last command the device stands in `u` and no reset is held: a command acts there. -/
def State.Awake (s : State) (dt : Nat) (u : State) : Prop := s.advance dt = u ∧ u.inReset = false

/-- A request of the places `ks` finds the device in `u`, no reset held: `dt` cycles after the last command, or one cycle
later where it came behind one of a later place in its cycle's order; its places are noted as taken. -/
def State.AwakeFor (s : State) (dt : Nat) (ks : State → List (Nat × Nat)) (u : State) : Prop :=
  (s.turn dt ks).inReset = false ∧ u = { s.turn dt ks with taken := (s.turn dt ks).taken ++ ks (s.turn dt ks) }

/-- The parts of the state beside its registers and memory. -/
inductive Part
  | clock | furrow | alarm | chan | tally | engine | nvm | cal | health | modem | ring | deal | upd | rdata | fresh
  deriving DecidableEq, Repr

/-- From `u` to `t` nothing changes but the parts `B`, registers and memory: not the queue of commands, not the time. -/
def State.SameParts (u t : State) (B : List Part) : Prop :=
  (Part.clock ∈ B ∨ t.toClockSt = u.toClockSt) ∧ (Part.furrow ∈ B ∨ t.toFurrowSt = u.toFurrowSt) ∧
  (Part.alarm ∈ B ∨ t.toAlarmSt = u.toAlarmSt) ∧ (Part.chan ∈ B ∨ t.toChanSt = u.toChanSt) ∧
  (Part.tally ∈ B ∨ t.toTallySt = u.toTallySt) ∧ (Part.engine ∈ B ∨ t.toEngineSt = u.toEngineSt) ∧
  (Part.nvm ∈ B ∨ t.toNvmSt = u.toNvmSt) ∧ (Part.cal ∈ B ∨ t.toCalSt = u.toCalSt) ∧
  (Part.health ∈ B ∨ t.toHealthSt = u.toHealthSt) ∧ (Part.modem ∈ B ∨ t.toModemSt = u.toModemSt) ∧
  (Part.ring ∈ B ∨ t.toRingSt = u.toRingSt) ∧ (Part.deal ∈ B ∨ t.toDealSt = u.toDealSt) ∧
  (Part.upd ∈ B ∨ t.toUpdSt = u.toUpdSt) ∧ (Part.rdata ∈ B ∨ t.rdata = u.rdata) ∧
  (Part.fresh ∈ B ∨ t.fresh = u.fresh) ∧ t.pending = u.pending ∧ t.clk = u.clk ∧ t.inReset = u.inReset

/-- Every register but those of `A` reads as before. -/
def State.SameRegs (u t : State) (A : Nat → Prop) : Prop := ∀ a, ¬ A a → t.rdW a = u.rdW a

/-- Every byte of memory reads as before. -/
def State.SameMem (u t : State) : Prop := ∀ a, t.byte a = u.byte a

/-- From `u` to `t` nothing changes but the parts `B` and the registers `A`: no byte of memory, not the queue of
commands, not the time. -/
def State.Only (u t : State) (B : List Part) (A : Nat → Prop) : Prop :=
  u.SameParts t B ∧ u.SameRegs t A ∧ u.SameMem t

/-- The repeat counters of the interrupt sources, which a flag set or cleared may advance (R403). -/
def RepReg (a : Nat) : Prop := INT_REP 0 ≤ a ∧ a ≤ INT_REP 28

/-- The registers of the block whose page of the address map is `n` (Table 01-4). -/
def Block (n a : Nat) : Prop := a / 4096 = 0x1000 + n

/-- The words of the sowing table. -/
def SeedReg (a : Nat) : Prop := SEEDS ≤ a ∧ a < SEEDS + 16384

/-- From `u` to `t` furrow `n` enters holdover, or stays in it (R41): HOLD reads 1, SLEW 0, the rate is the last tracked
frequency and no angle word steps; an entry sets LOSS and counts. -/
def State.EntersHold (u t : State) (n : Nat) : Prop :=
  t.rd (FUR_STAT_HOLD n) = 1 ∧ t.rd (FUR_STAT_SLEW n) = 0 ∧ (t.furrow n).rate = (u.furrow n).rate ∧
    (∀ k, t.angle k = u.angle k) ∧
    if u.rd (FUR_STAT_HOLD n) = 1 ∧ u.rd (FUR_STAT_SLEW n) = 0 then
      t.rd (FUR_HOLDCNT_COUNT n) = u.rd (FUR_HOLDCNT_COUNT n)
    else t.rd (FUR_STAT_LOSS n) = 1 ∧ t.rd (FUR_HOLDCNT_COUNT n) = satU 16 (u.rd (FUR_HOLDCNT_COUNT n) + 1)

/-- From `u` to `t` furrow `n` leaves holdover (R42): the measured phase error is recorded, RANGE clears, the source's
frequency is tracked, no angle word steps; within 256 tines HOLD clears at once, otherwise a slew begins that closes the
error. -/
def State.LeavesHold (u t : State) (n : Nat) : Prop :=
  let e := u.phaseErr n
  t.rdS (FUR_HOLDERR_ERR n) = e ∧ t.rd (FUR_STAT_RANGE n) = 0 ∧ (t.furrow n).rate = Machine.inRange (u.furrow n).sRate ∧
    (∀ k, t.angle k = u.angle k) ∧
    if -256 ≤ e ∧ e ≤ 256 then t.rd (FUR_STAT_HOLD n) = 0 ∧ t.rd (FUR_STAT_SLEW n) = 0
    else t.rd (FUR_STAT_HOLD n) = 1 ∧ t.rd (FUR_STAT_SLEW n) = 1 ∧ (t.furrow n).up = decide (0 < e)

/-- From `u` to `t` furrow `n` has taken a fix of its source (R38, R481), frequency `r`, 0 for none: it keeps its frequency
before its first lock and in holdover, has the source's in a slew, and moves to it otherwise, by at most 20 %; a limit
of the range ends with a frequency inside it (R40). -/
def State.Follows (u t : State) (n r : Nat) : Prop :=
  (t.rd (FUR_STAT_RANGE n) =
    if freqOk r = true ∧ u.rd (FUR_STAT_HOLD n) = 0 then 0 else u.rd (FUR_STAT_RANGE n)) ∧
  ((u.furrow n).run = false ∨ r = 0 ∨ (u.rd (FUR_STAT_HOLD n) = 1 ∧ u.rd (FUR_STAT_SLEW n) = 0) →
    (t.furrow n).rate = (u.furrow n).rate) ∧
  ((u.furrow n).run = true → r ≠ 0 → u.rd (FUR_STAT_SLEW n) = 1 → (t.furrow n).rate = Machine.inRange r) ∧
  ((u.furrow n).run = true → freqOk r = true → u.rd (FUR_STAT_HOLD n) = 0 → u.rd (FUR_STAT_SLEW n) = 0 →
    (t.furrow n).rate = Machine.trackRate (u.furrow n).rate r)

/-- The registers of hands other than `h` of plough `p` are as before. -/
def State.OtherHands (u t : State) (p h : Nat) : Prop :=
  ∀ q k, k < 16 → (q ≠ p ∨ k ≠ h) → t.handOf q k = u.handOf q k

/-- It is hand `h` of plough `p` that issues in this cycle (R211), and its fetch brings `w` (R220). -/
def State.Turn (u : State) (p h : Nat) (w : Word) : Prop :=
  u.issues p h = true ∧ execOk (u.handOf p h).pc = true ∧ u.fetches p (u.handOf p h).pc w = true

/-- From `u` to `t` hand `h` of plough `p` holds `x` and goes on at the next instruction after `c` cycles; no other hand
changes. -/
def State.Retires (u t : State) (p h : Nat) (x : Hand) (c : Nat) : Prop :=
  t.handOf p h = { x with pc := (x.pc + 4) % 2 ^ 32, st := .ready (u.clk + c) } ∧ u.OtherHands t p h

/-- From `u` to `t` hand `h` of plough `p` waits, its registers and pc as they were; no other hand changes. -/
def State.Waits (u t : State) (p h : Nat) (w : Wait) : Prop :=
  t.handOf p h = { u.handOf p h with st := .wait w } ∧ u.OtherHands t p h

/-- From `u` to `t` nothing changes but hands and what plough `p` notes of its issue and its cache (whose choice of a line
to replace is drawn); its posted stores stay. -/
def State.IssueOnly (u t : State) (p : Nat) : Prop :=
  u.Only t [.engine, .fresh] (fun _ => False) ∧ t.toEngineSt = { u.toEngineSt with hand := t.hand, plough := t.plough } ∧
    (t.ploughOf p).sb = (u.ploughOf p).sb ∧ ∀ q, q ≠ p → t.ploughOf q = u.ploughOf q

/-- From `u` to `t` hand `h` of plough `p` raises the exception `cause` (R217, R254, R255): it goes to IDLE with its
registers as they were, address, hand and cause are recorded, and vector 14 is requested unless the hand was started
from it; no memory changes, no posted store, and no register but those and `A`. -/
def State.Traps (u t : State) (p h cause : Nat) (B : List Part) (A : Nat → Prop) : Prop :=
  let l := u.logOf p
  let d := u.handOf p h
  t.handOf p h = { d with st := .idle } ∧ u.OtherHands t p h ∧ t.rdW (PLG_EXC l) = BitVec.ofNat 32 d.pc ∧
    t.rd (PLG_EXCC_HAND l) = h ∧ t.rd (PLG_EXCC_CAUSE l) = cause ∧ t.rd PLG_STAT_EXC = 1 ∧
    (d.vec = 14 → t.rd PLG_STAT_DBLEXC = 1 ∧ t.logi = u.logi) ∧
    (d.vec ≠ 14 → u.startFull l = false →
      (t.logiOf l).q = (u.logiOf l).q ++ [{ vec := 14, word := 4 * 2 ^ 28 + h * 2 ^ 16 + cause, at_ := u.clk }]) ∧
    (d.vec ≠ 14 → l < 4 → (u.physOf l).isSome = true → 8 ≤ (u.logiOf l).q.length →
      (t.logiOf l).q = (u.logiOf l).q ∧ (t.logiOf l).wait = (u.logiOf l).wait ++
        [{ vec := 14, word := 4 * 2 ^ 28 + h * 2 ^ 16 + cause, at_ := u.clk }]) ∧
    (t.ploughOf p).sb = (u.ploughOf p).sb ∧ u.SameParts t (.engine :: .fresh :: B) ∧ u.SameMem t ∧
    u.SameRegs t (fun a => a = PLG_EXC l ∨ a = PLG_EXCC l ∨ a = PLG_STAT ∨ RepReg a ∨ A a)

/-- Originator `o` may change the calendars or TB0 by `mag` / 32,768 ns now (R328): the host always, a plough outside the
safe state within what its last 24 h leave of the budget, which is given in 100 ms. -/
def State.Affords (u : State) (o mag : Nat) : Prop :=
  5 ≤ o ∨ u.rd HDG_STAT_SAFE = 0 ∧
    ((u.adj.filter fun p => decide (u.clk < p.1 + cyDay)).map (·.2)).sum + mag ≤ u.rd HDG_CLK_BUD * 3276800000000

end Sys2Proof.Machine
end

