-- ==== Sys2Proof/Certificates/Slice0/Obligations.lean ====
section
/-!
DEFINITION. The statements for the provers. `u` is the state in which a command acts: the state it is given to, after
the fabric cycles `dt` that its first operand says have passed.
-/
open Sys2Proof Sys2Proof.Machine

/-- The queue of commands, first in, first out. The idle cycle and the fault are the model's choices (logs 5 and 6). -/
def Obligations.Steps : Prop :=
  (∀ (c : Instr) (q : List Instr) (s : State), s.pending = c :: q → step s = exec c { s with pending := q }) ∧
  (∀ s : State, s.pending = [] → step s = .next (s.advance 1)) ∧
  ∀ (c : Instr) (s : State), c.wf = false → exec c s = .fault .illFormed

/-- The values that the manual's Reset columns give (R8); the empty memory's reading is the model's choice (log 2). -/
def Obligations.ResetState : Prop :=
  let s := State.reset
  s.Inv ∧ s.Fits ∧ s.pending = [] ∧ s.inReset = false ∧ s.mem = [] ∧ (∀ a, s.rdW a = regReset a) ∧
    (∀ n, n < 4 → s.rd (FUR_CTL_EN n) = 0 ∧ s.rd (FUR_STAT_LOCK n) = 0) ∧
    (∀ a, SeedReg a → s.rdW a = 0) ∧ (∀ b, b < 8 → s.rd (SIL_BSTAT_STATE b) = 0) ∧
    (∀ r, r < 2 → s.rd (BAL_LSTAT_STATE r) = 0) ∧ s.rd BAL_PLOT_POSVALID = 0 ∧ s.deal = none ∧
    s.rd DEAL_STAT_STATE = 0 ∧ s.rd HDG_STAT_SAFE = 0 ∧ s.rd DUO_CTL_EN = 0 ∧ s.rd DUO_STAT_NODE = 255 ∧
    s.rd INT_CTL_FW = 0 ∧ s.thrQ = [] ∧ s.tripQ = [] ∧ s.alq = [] ∧ s.evWait = [] ∧ s.reqs = [] ∧ s.duoQ = [] ∧
    (∀ l, l < 4 → (s.logiOf l).q = [] ∧ (s.logiOf l).mail = []) ∧ ∀ p h, (s.handOf p h).st = .idle

/-- No step stops on a command that can reach the device, and every step keeps `Inv` and `Fits` (R135, R181, R282, R346,
R358, R381, R401). -/
def Obligations.StepKeeps : Prop :=
  ∀ s : State, (∀ c, s.pending.head? = some c → c.wf = true) →
    ∃ t, step s = .next t ∧ t.pending = s.pending.tail ∧ s.clk ≤ t.clk ∧ (s.Inv → s.Fits → t.Inv ∧ t.Fits)

/-- R397. A source is claimed by one target at a time (R395, R396), which is the premise on the claims. -/
def Obligations.Completions : Prop :=
  ∀ (s u : State) (dt : Nat), (∀ a ∈ u.claims, ∀ b ∈ u.claims, a.1 = b.1 → a = b) →
    let done := fun (v : State) (t i : Nat) =>
      ((i, t) ∈ u.claims →
        (∀ c, c ∈ v.claims ↔ c ∈ u.claims ∧ c.1 ≠ i) ∧ v.rdW INT_BADDONE = u.rdW INT_BADDONE ∧
        (u.level i = true → v.level i = true ∧ ∀ k, u.qualifies k i = true → v.qualifies k i = true ∧
          v.active i = false)) ∧
      ((i, t) ∉ u.claims →
        v.claims = u.claims ∧ v.rd INT_BADDONE_COUNT = satU 16 (u.rd INT_BADDONE_COUNT + 1) ∧
        v.rd INT_BADDONE_ID = i ∧ v.rd INT_BADDONE_TGT = t)
    (∀ (t : Fin 6) (w : Word), s.AwakeFor dt dirKeys u →
      ∃ v, exec (.interruptComplete dt t w) s = .next v ∧ done v t (w.toNat % 256) ∧
        u.Only v [.alarm] (· = INT_BADDONE)) ∧
    (∀ (t : Fin 6) (r : Fin 2) (w : Word), s.AwakeFor dt (writeKeys (.host r) (INT_DONE t)) u →
      ∃ v, exec (.registerWrite dt (.host r) (BitVec.ofNat 32 (INT_DONE t)) w) s = .next v ∧
        done v t (w.toNat % 256) ∧ u.Only v [.alarm] (· = INT_BADDONE)) ∧
    ∀ (p : Fin 5) (h : Fin 16) (rn : Fin 32),
      let sb := (u.ploughOf p).sb
      let x := (u.handOf p h).xr rn
      (s.Awake dt u → u.Turn p h (encA 0 rn 0 0 3 0x31) → sb.length < 4 →
        ∃ v, exec (.idone dt p h rn) s = .next v ∧ (v.ploughOf p).sb = sb ++ [.idone h x] ∧ v.claims = u.claims) ∧
      ∀ (k : Nat) (w : Word) (q : List Post), s.AwakeFor dt (storeKeys p) u → sb = .idone k w :: q →
        ∃ v, exec (.storeComplete dt p 0) s = .next (((v.roomWake p).drained p).actReset) ∧
          (v.ploughOf p).sb = q ∧ done v (u.logOf p) (w.toNat % 256)

/-- R349. -/
def Obligations.MailboxFrames : Prop :=
  ∀ (s u : State) (dt : Nat) (q : Request) (w : Word), s.AwakeFor dt mailKeys u →
    (u.reqs.find? fun x => !x.busy && decide (x.frame.op ≠ 10)) = some q → q.frame.op = 7 → q.frame.pay = [w] →
      q.ring < 2 →
    let l := q.frame.arg1 % 8
    let x := u.logiOf l
    let there := l < 4 ∧ (u.physOf l).isSome = true
    ∃ t g ks, exec (.mailbox dt) s = .next t ∧
      t.kept = { ring := q.ring, tag := q.frame.tag, at_ := u.clk, frames := [g] } :: ks ∧ g.cls = 1 ∧ g.op = 7 ∧
      g.tag = q.frame.tag ∧ (∀ k, k ≠ l → t.logiOf k = u.logiOf k) ∧
      (there → x.mail.length < 16 → bits g.w2 23 16 = 0 ∧ ∃ o : Word, t.logiOf l = { x with mail := x.mail ++ [(w, o)]
        } ∧
        bits o.toNat 31 28 = (if q.ring = 0 then 8 else 9) ∧ bits o.toNat 27 0 = 0) ∧
      (there → 16 ≤ x.mail.length → bits g.w2 23 16 = 12 ∧ t.logiOf l = x) ∧
      (¬ there → bits g.w2 23 16 = 13 ∧ t.logiOf l = x)

/-- R39, R40: LOCK_SET, LOCK_CLEAR and FREQ_OUT_OF_RANGE, with their frame. -/
def Obligations.FurrowLock : Prop :=
  ∀ (s u : State) (dt : Nat) (n : Fin 4), s.Awake dt u →
    let f := u.furrow n
    (u.rd (FUR_CTL_EN n) = 1 → f.run = true → f.present = true → u.rd (FUR_STAT_RANGE n) = 0 →
      (u.rd (FUR_STAT_HOLD n) = 0 ∨ u.rd (FUR_STAT_SLEW n) = 1) → u.rd (FUR_STAT_LOCK n) = 0 →
      (u.phaseErr n).natAbs < 4096 → (∃ c, f.okClk = some c ∧ c + twoCycles f.rate ≤ u.clk) →
      ∃ t, exec (.lockSet dt n) s = .next t ∧ t.rd (FUR_STAT_LOCK n) = 1 ∧ (∀ k, t.angle k = u.angle k) ∧
        (∀ k, k ≠ n.val → t.furrow k = u.furrow k) ∧ u.Only t [.furrow] (· = FUR_STAT n)) ∧
    (u.rd (FUR_STAT_LOCK n) = 1 → 16384 < (u.phaseErr n).natAbs →
      ∃ t, exec (.lockClear dt n) s = .next t ∧ t.rd (FUR_STAT_LOCK n) = 0 ∧ (∀ k, t.angle k = u.angle k) ∧
        (∀ k, k ≠ n.val → t.furrow k = u.furrow k) ∧ u.Only t [.furrow] (· = FUR_STAT n)) ∧
    (u.rd (FUR_CTL_EN n) = 1 → f.sRate ≠ 0 → (f.sRate < 10000 ∨ 4000000 < f.sRate) → u.rd (FUR_STAT_RANGE n) = 0 →
      (u.rd (FUR_STAT_HOLD n) = 0 ∨ u.rd (FUR_STAT_SLEW n) = 1) →
      ∃ t, exec (.freqOutOfRange dt n) s = .next t ∧ t.rd (FUR_STAT_RANGE n) = 1 ∧ t.rd (FUR_STAT_LOCK n) = 0 ∧
        (t.furrow n).rate = (if 4000000 < f.sRate then 4000000 else 10000) ∧ (∀ k, t.angle k = u.angle k) ∧
        (∀ k, k ≠ n.val → t.furrow k = u.furrow k) ∧ u.Only t [.furrow] (· = FUR_STAT n))

/-- R41, R43: the four commands that enter holdover, with their frame. -/
def Obligations.HoldoverEntry : Prop :=
  ∀ (s u : State) (dt : Nat) (n : Fin 4),
    let A := fun a => a = FUR_STAT n ∨ a = FUR_HOLDCNT n ∨ RepReg a
    (s.Awake dt u → u.rd (FUR_CTL_EN n) = 1 → u.srcLost n = true →
      ∃ t, exec (.sourceLost dt n) s = .next t ∧ u.EntersHold t n ∧ t.rd (FUR_STAT_LOCK n) = 0 ∧
        (t.furrow n).present = false ∧ (∀ k, k ≠ n.val → t.furrow k = u.furrow k) ∧ u.Only t [.furrow] A) ∧
    (s.Awake dt u → u.rd (FUR_STAT_RANGE n) = 1 →
      (u.furrow n).rangeClk + twoCycles (inRange (u.furrow n).sRate) ≤ u.clk →
      ∃ t, exec (.rangeHoldoverExpiry dt n) s = .next t ∧ u.EntersHold t n ∧ (t.furrow n).present = false ∧
        (∀ k, k ≠ n.val → t.furrow k = u.furrow k) ∧ u.Only t [.furrow] A) ∧
    (s.AwakeFor dt dirKeys u →
      (∃ t, exec (.forcehSet dt n) s = .next t ∧ t.rd (FUR_CTL_FORCEH n) = 1 ∧
        (u.rd (FUR_CTL_EN n) = 1 → u.EntersHold t n) ∧ (∀ k, k ≠ n.val → t.furrow k = u.furrow k) ∧
        u.Only t [.furrow, .nvm] (fun a => a = FUR_CTL n ∨ A a)) ∧
      ∀ w : Word,
        let x := w.toNat
        (bits x 2 0 ≠ 7 → bits x 13 8 ≤ 47 → bits x 21 16 ≤ 47 → bits x 29 24 ≤ 47 →
          ∃ t, exec (.sourceChange dt n w) s = .next t ∧ t.rdW (FUR_SRC n) = w &&& 0x3F3F3F37#32 ∧
            (u.rd (FUR_CTL_EN n) = 1 → u.EntersHold t n ∧ (t.furrow n).present = false) ∧
            (∀ k, k ≠ n.val → t.furrow k = u.furrow k) ∧ u.Only t [.furrow, .nvm] (fun a => a = FUR_SRC n ∨ A a)) ∧
        ((bits x 2 0 = 7 ∨ 47 < bits x 13 8 ∨ 47 < bits x 21 16 ∨ 47 < bits x 29 24) →
          ∃ t, exec (.sourceChange dt n w) s = .next t ∧ t.rd (FUR_STAT_CFGERR n) = 1 ∧
            u.Only t [] (fun a => a = FUR_STAT n ∨ RepReg a)))

/-- R42: the ways out of holdover, with their frame. -/
def Obligations.HoldoverExit : Prop :=
  ∀ (s u : State) (dt : Nat) (n : Fin 4),
    let A := fun a => a = FUR_STAT n ∨ a = FUR_HOLDERR n ∨ RepReg a
    let f := u.furrow n
    let ok := u.srcPresent n = true ∧ 10000 ≤ f.sRate ∧ f.sRate ≤ 4000000
    let held := f.run = true ∧ u.rd (FUR_STAT_HOLD n) = 1 ∧ u.rd (FUR_STAT_SLEW n) = 0
    (s.Awake dt u → u.rd (FUR_CTL_EN n) = 1 → ok →
      ∃ t, exec (.sourceReturn dt n) s = .next t ∧ (t.furrow n).present = true ∧
        (held → u.rd (FUR_CTL_FORCEH n) = 0 → u.LeavesHold t n) ∧
        (f.run = false ∨ u.rd (FUR_CTL_FORCEH n) = 1 → t.rd (FUR_STAT_HOLD n) = u.rd (FUR_STAT_HOLD n)) ∧
        (∀ k, t.angle k = u.angle k) ∧
        (∀ k, k ≠ n.val → t.furrow k = u.furrow k) ∧ u.Only t [.furrow, .fresh] A) ∧
    (s.AwakeFor dt dirKeys u →
      ∃ t, exec (.forcehClear dt n) s = .next t ∧ t.rd (FUR_CTL_FORCEH n) = 0 ∧
        (u.rd (FUR_CTL_EN n) = 1 → ok → held → f.present = true → u.LeavesHold t n) ∧
        (u.rd (FUR_CTL_EN n) = 0 ∨ u.srcPresent n = false → t.rdW (FUR_STAT n) = u.rdW (FUR_STAT n)) ∧
        (∀ k, t.angle k = u.angle k) ∧ (∀ k, k ≠ n.val → t.furrow k = u.furrow k) ∧
        u.Only t [.furrow, .nvm, .fresh] (fun a => a = FUR_CTL n ∨ A a)) ∧
    (s.Awake dt u → u.rd (FUR_STAT_SLEW n) = 1 → -256 ≤ u.phaseErr n → u.phaseErr n ≤ 256 →
      ∃ t, exec (.slewEnd dt n) s = .next t ∧ t.rd (FUR_STAT_HOLD n) = 0 ∧ t.rd (FUR_STAT_SLEW n) = 0 ∧
        (t.furrow n).rate = inRange f.sRate ∧ (∀ k, t.angle k = u.angle k) ∧
        (∀ k, k ≠ n.val → t.furrow k = u.furrow k) ∧
        u.Only t [.furrow, .fresh] (fun a => a = FUR_STAT n ∨ RepReg a))

/-- R45, R46: the two loads of an angle word (R29), with their frame. -/
def Obligations.FurrowStart : Prop :=
  ∀ (s u : State) (dt : Nat) (n : Fin 4),
    let cyc := u.rd (FUR_CYCSETL_CYCLO n) + u.rd (FUR_CYCSETH_CYCHI n) * 2 ^ 32
    let f := u.furrow n
    (s.AwakeFor dt dirKeys u → u.rd (FUR_CTL_EN n) = 0 →
      ∃ t, exec (.furEnable dt n) s = .next t ∧ t.rd (FUR_CTL_EN n) = 1 ∧ t.rd (FUR_STAT_LOCK n) = 0 ∧
        t.rd (FUR_FREQ_FREQ n) = 0 ∧ t.angle n = (cyc * 2 ^ 24 + 2 ^ 64 - 1) % 2 ^ 64 ∧ (t.furrow n).run = false ∧
        (t.furrow n).cfgClk = u.clk ∧ (t.furrow n).present = false ∧
        (u.rd (FUR_CTL_FORCEH n) = 1 → t.rd (FUR_STAT_HOLD n) = 1 ∧ t.rd (FUR_STAT_SLEW n) = 0) ∧
        t.furRate n = 0 ∧ (∀ k, k ≠ n.val → t.furrow k = u.furrow k) ∧
        u.Only t [.furrow, .engine, .nvm] fun a =>
          a = FUR_CTL n ∨ a = FUR_STAT n ∨ a = FUR_FREQ n ∨ a = FUR_HOLDCNT n ∨ RepReg a) ∧
    (s.Awake dt u → u.rd (FUR_CTL_EN n) = 1 → f.run = false → u.srcPresent n = true → 10000 ≤ f.sRate →
      f.sRate ≤ 4000000 → u.rd (FUR_CTL_FORCEH n) = 0 → (u.rd (FUR_SRC_SRC n) = 6 ∨ u.srcPass n = true) →
      ∃ t, exec (.firstLock dt n) s = .next t ∧ t.rd (FUR_STAT_LOCK n) = 1 ∧ t.rd (FUR_STAT_HOLD n) = 0 ∧
        t.rd (FUR_STAT_SLEW n) = 0 ∧ t.rd (FUR_STAT_RANGE n) = 0 ∧ (t.furrow n).run = true ∧
        (t.furrow n).rate = f.sRate ∧
        t.angle n = (if u.rd (FUR_SRC_SRC n) = 6 then u.srcAngle n u.clk % 2 ^ 64 else cyc * 2 ^ 24 % 2 ^ 64) ∧
        (∀ k, k ≠ n.val → t.furrow k = u.furrow k) ∧
        u.Only t [.furrow, .engine] fun a => a = FUR_STAT n ∨ a = SOWC_STAT ∨ SeedReg a ∨ RepReg a)

/-- R31, R34, R35, R58: what the furrow inputs do, with their frame. -/
def Obligations.FurrowInputs : Prop :=
  ∀ (s u : State) (dt : Nat),
    let F := fun a => a = FUR_STAT 0 ∨ a = FUR_STAT 1 ∨ a = FUR_STAT 2 ∨ a = FUR_STAT 3 ∨ RepReg a
    (s.Awake dt u → ∀ k : Fin 2, ∃ t, exec (.encoderIndex dt k) s = .next t ∧ (∀ j, t.angle j = u.angle j) ∧
      u.Only t [.furrow, .fresh] F ∧ ∀ n < 4,
        let f := u.furrow n
        let g := t.furrow n
        if u.rd (FUR_CTL_EN n) = 1 ∧ u.rd (FUR_SRC_SRC n) = 2 + k.val then
          g.idx = true ∧ g.pos = 0 ∧ g.sAng = 0 ∧ g.sClk = u.clk ∧ g.sRate = f.sRate ∧ u.Follows t n f.sRate ∧
          t.rd (FUR_STAT_ENCERR n) =
            if f.idx = true ∧ 2 < (f.pos - 4 * (u.rd (FUR_ENC_LINES n) : Int)).natAbs then 1
            else u.rd (FUR_STAT_ENCERR n)
        else g = f) ∧
    (s.Awake dt u → ∀ (k : Fin 2) (up : Bool), ∃ t, exec (.encoderCountEdge dt k up) s = .next t ∧
      (∀ j, t.angle j = u.angle j) ∧ u.Only t [.furrow, .fresh] F ∧ ∀ n < 4,
        let f := u.furrow n
        let g := t.furrow n
        let on := up != u.on (FUR_ENC_DIR n)
        if u.rd (FUR_CTL_EN n) = 1 ∧ u.rd (FUR_SRC_SRC n) = 2 + k.val then
          g.pos = (if on then f.pos + 1 else f.pos - 1) ∧ g.sAng = u.encAngle n g.pos ∧ g.sClk = u.clk ∧
          (on = false → g.sRate = f.sRate ∧ g.cntClk = f.cntClk) ∧
          (on = true → g.cntClk = u.clk ∧ (f.cntSeen = true → f.cntClk < u.clk →
            g.sRate = u.rd (FUR_ENC_PP n) * angDen / (4 * u.rd (FUR_ENC_LINES n) * (u.clk - f.cntClk)))) ∧
          u.Follows t n g.sRate
        else g = f) ∧
    (s.Awake dt u → ∀ k : Fin 2, ∃ t, exec (.anginEdge dt k) s = .next t ∧ (∀ j, t.angle j = u.angle j) ∧
      u.Only t [.furrow, .fresh] F ∧ ∀ n < 4,
        let f := u.furrow n
        let g := t.furrow n
        if u.rd (FUR_CTL_EN n) = 1 ∧ u.rd (FUR_SRC_SRC n) = 4 + k.val then
          if f.edges ≠ 0 ∧ f.edgePer ≠ 0 ∧ 2 * (u.clk - f.edgeClk) < f.edgePer then
            g = f ∧ t.rd (FUR_STAT_GLITCH n) = satU 16 (u.rd (FUR_STAT_GLITCH n) + 1)
          else g.edgeClk = u.clk ∧ g.sAng = 0 ∧ g.sClk = u.clk ∧ t.rd (FUR_STAT_GLITCH n) = u.rd (FUR_STAT_GLITCH n) ∧
            (f.edges ≠ 0 → g.edgePer = u.clk - f.edgeClk ∧ g.sRate = angDen / (u.clk - f.edgeClk)) ∧
            (f.edges = 0 → g.sRate = f.sRate) ∧ u.Follows t n g.sRate
        else g = f) ∧
    (s.Awake dt u → ∀ (n : Fin 4) (c : Seg),
      let f := u.furrow n
      let cyc := u.angle n / 2 ^ 24
      let past := (c.at u.clk).1 % 2 ^ 24 * angDen + (c.at u.clk).2
      let time : Int := (((u.clk - f.zcClk) * (f.zcRate * c.rate * 2 ^ 24) + f.zcPast * c.rate : Nat) : Int) -
        ((past * f.zcRate : Nat) : Int)
      u.rd (FUR_CTL_EN n) = 1 → f.run = true → segAt u.clk f.segs = some c → cyc ≠ f.zcCyc →
      f.before u.clk / 2 ^ 24 ≠ cyc →
      ∃ t, exec (.zeroCrossing dt n) s = .next t ∧ (∀ j, t.angle j = u.angle j) ∧
        (t.furrow n).zcClk = u.clk ∧ (t.furrow n).zcCyc = cyc ∧ (t.furrow n).zcPast = past ∧
        (t.furrow n).rate = f.rate ∧
        t.rd (FUR_FREQ_FREQ n) = (if f.zcSeen = true then satU 23 (divRound
            ((angDen * tc 40 ((cyc : Int) - f.zcCyc) * (f.zcRate * c.rate * 2 ^ 24) : Nat) : Int) time.toNat).toNat
          else u.rd (FUR_FREQ_FREQ n)) ∧
        (∀ j, j ≠ n.val → t.furrow j = u.furrow j) ∧ u.Only t [.furrow] (· = FUR_FREQ n)) ∧
    (s.AwakeFor dt dirKeys u → ∃ t, exec (.furLatch dt) s = .next t ∧
      (∀ n < 4, ∀ i, i < 5 → some (t.rdW (FUR_TSW (5 * n + i))) = (u.stamp n)[i]?) ∧
      u.Only t [] (fun a => FUR_TSW 0 ≤ a ∧ a ≤ FUR_TSW 19))

/-- R47: the angle word of a disabled furrow holds; other furrows are as before. -/
def Obligations.FurrowStop : Prop :=
  ∀ (s u : State) (dt : Nat) (n : Fin 4), s.AwakeFor dt dirKeys u → u.rd (FUR_CTL_EN n) = 1 →
    ∃ t, exec (.furDisable dt n) s = .next t ∧ t.rd (FUR_CTL_EN n) = 0 ∧ t.rd (FUR_STAT_LOCK n) = 0 ∧
      t.rd (FUR_STAT_HOLD n) = 0 ∧ t.rd (FUR_STAT_SLEW n) = 0 ∧ (t.furrow n).run = false ∧ t.furRate n = 0 ∧
      (∀ k, t.angle k = u.angle k) ∧ (∀ k, k ≠ n.val → t.furrow k = u.furrow k) ∧
      ∀ a, (∀ j ∈ u.thrQ, a < j.addr + 28 ∨ j.addr + 32 ≤ a) → t.byte a = u.byte a

/-- R62, R63, R65, R70: arming, disarming, refused writes, the read shadow, the engine's enable, with their frame.
That a
disarm also drops a waiting occurrence is the model's choice (log 116). -/
def Obligations.SeedWrites : Prop :=
  ∀ (s u : State) (dt : Nat),
    (∀ (i : Fin 1024) (w : Word), s.AwakeFor dt (seedRowKeys i) u → u.seedArmed i = false →
      let w1 := w ||| 0x80000000#32
      let f := u.furrow (bits w1.toNat 30 29)
      let past := fun a => decide (0 ≤ angDiff a (u.seedTarget i))
      ∃ t, exec (.seedArm dt i w) s = .next t ∧
        u.Only t [] (fun a => (seedWord i 0 ≤ a ∧ a ≤ seedWord i 3) ∨ a = SOWC_STAT ∨ RepReg a) ∧
        if seedOk w1.toNat (u.seedW i 2) = false then
          t.rdW (seedWord i 3) = BitVec.ofNat 32 (w1.toNat % 2 ^ 31) ∧ t.rd SOWC_STAT_BADSEED = 1 ∧
            t.rd SOWC_STAT_SEED = i
        else if past (f.angle u.clk) = false ∨ past (f.before u.clk) = false then
          t.rdW (seedWord i 3) = w1 ∧ t.seedTarget i = u.seedTarget i
        else if u.seedW i 2 = 0 then t.seedArmed i = false ∧ t.rd SOWC_STAT_PAST = 1 ∧ t.rd SOWC_STAT_SEED = i
        else t.rdW (seedWord i 3) = w1 ∧ t.seedTarget i = (u.seedTarget i +
          ((angDiff (f.angle u.clk) (u.seedTarget i)).toNat / u.seedW i 2 + 1) * u.seedW i 2) % 2 ^ 64) ∧
    (∀ (i : Fin 1024) (w : Word), s.AwakeFor dt (seedRowKeys i) u →
      ∃ t, exec (.seedDisarm dt i w) s = .next t ∧ t.seedArmed i = false ∧
        t.rdW (seedWord i 3) = w &&& 0x7FFFFFFF#32 ∧
        (∀ q, q ∈ t.seedQ ↔ q ∈ u.seedQ ∧ q.seed ≠ i) ∧ (∀ q, q ∈ t.seedD ↔ q ∈ u.seedD ∧ q.seed ≠ i) ∧
        u.Only t [.furrow] (· = seedWord i 3)) ∧
    (∀ (i : Fin 1024) (k : Fin 4) (w : Word), s.AwakeFor dt (seedRowKeys i) u → u.seedArmed i = true →
      (k.val ≠ 3 ∨ bit w.toNat 31 = 1) →
      ∃ t, exec (.seedBusyWrite dt i k w) s = .next t ∧ t.rd SOWC_STAT_BUSYWR = 1 ∧ t.rd SOWC_STAT_SEED = i ∧
        u.Only t [] (fun a => a = SOWC_STAT ∨ RepReg a)) ∧
    (∀ (o : Orig) (i : Fin 1024), s.Awake dt u → ∃ t, exec (.seedWord0Read dt o i) s = .next t ∧
      Sparse.get (fun _ => 0) (readerOf o) t.rdata = u.rdW (seedWord i 0) ∧
      (∀ k, 0 < k → k < 4 → (t.seedRead (readerOf o) i k).1 = u.rdW (seedWord i k)) ∧
      u.Only t [.furrow, .rdata] (fun _ => False)) ∧
    (s.AwakeFor dt dirKeys u → u.rd SOWC_CTL_EN = 0 → ∃ t, exec (.sowcEnable dt) s = .next t ∧ t.rd SOWC_CTL_EN = 1 ∧
      (∀ i < 1024, ∀ k < 4, t.rdW (seedWord i k) =
        if u.seedArmed i then (u.seedEval i).rdW (seedWord i k) else u.rdW (seedWord i k)) ∧
      u.Only t [] (fun a => a = SOWC_CTL ∨ a = SOWC_STAT ∨ SeedReg a ∨ RepReg a)) ∧
    (s.AwakeFor dt dirKeys u → ∃ t, exec (.sowcDisable dt) s = .next t ∧ t.rd SOWC_CTL_EN = 0 ∧
      u.Only t [] (· = SOWC_CTL))

/-- R61, R64, R66 to R68: the sowing engine, with the frame of an action on a sync output. -/
def Obligations.Sowing : Prop :=
  ∀ (s u : State) (dt : Nat),
    (∀ i : Fin 1024, s.AwakeFor dt (seedDueKeys i) u →
      let v := u.dealFirst
      let w3 := v.seedW i 3
      let n := bits w3 30 29
      let p := v.seedW i 2
      v.rd SOWC_CTL_EN = 1 → v.seedArmed i = true → v.rd (FUR_CTL_EN n) = 1 → (v.furrow n).run = true →
      0 ≤ angDiff (v.angle n) (v.seedTarget i) →
      ∃ t, exec (.seedDue dt i) s = .next t ∧
        (if p = 0 then t.seedArmed i = false else t.seedTarget i = (v.seedTarget i + p) % 2 ^ 64) ∧
        (if bit (v.rd SOWC_CTL_GATE) n = 1 ∧ (v.rd (FUR_STAT_LOCK n) = 0 ∨ v.rd (FUR_STAT_HOLD n) = 1) then
          t.seedQ = v.seedQ ∧ t.rd SOWC_STAT_MISS = 1 ∧ t.rd SOWC_STAT_SEED = i
        else v.seedD.any (·.seed == i.val) = false →
          { seed := i, w3 := w3, due := v.clk, late := false : SeedWait } ∈ t.seedQ ∧
            t.seedQ.length = v.seedQ.length + 1 ∧ t.rd SOWC_STAT_MISS = v.rd SOWC_STAT_MISS) ∧ v.SameMem t) ∧
    (∀ q : SeedWait, s.AwakeFor dt dispatchKeys u →
      let v := u.dealFirst
      v.seedQ = [q] → bits q.w3 28 26 = 5 → bits q.w3 0 0 = 0 → v.dispClk < v.clk →
      ∃ t, exec (.seedDispatch dt) s = .next t ∧ t.seedQ = [] ∧ v.Only t [.furrow] (fun _ => False) ∧
        if bits q.w3 25 7 = 0 then t.sync0 = syncNext v.sync0 (bits (bits q.w3 6 0) 2 1) ∧ t.seedD = v.seedD
        else t.sync0 = v.sync0 ∧ t.seedD = v.seedD ++ [{ seed := q.seed, w3 := q.w3, at_ := v.clk + seedDelay q.w3 }]) ∧
    ∀ (i : Fin 1024) (q : SeedPend), s.Awake dt u → u.seedD = [q] → q.seed = i → q.at_ ≤ u.clk → bits q.w3 28 26 = 5 →
      bits q.w3 0 0 = 0 →
      ∃ t, exec (.seedDelayExpiry dt i) s = .next t ∧ t.seedD = [] ∧
        t.sync0 = syncNext u.sync0 (bits (bits q.w3 6 0) 2 1) ∧ u.Only t [.furrow] (fun _ => False)

/-- R72, R75, R76: what happens to a channel's configuration and supply, with the frame. -/
def Obligations.ChannelConfig : Prop :=
  ∀ (s u : State) (dt : Nat) (c : Fin 48),
    let h := u.chan1 c
    let own := u.cal.any fun k => k.enable && k.ch == c.val
    let sealed := fun t : State => t.rd TAL_STAT_SEALWR = 1 ∧ u.Only t [] (fun a => a = TAL_STAT ∨ RepReg a)
    let off := fun t : State =>
      (t.chan1 c).power = (if h.power = .on ∧ own = false then .on else .off) ∧
      (own = false → u.Only t [.chan, .nvm] (· = ANA_CHCFG c) ∧ ∀ k, k ≠ c.val → t.chan1 k = u.chan1 k) ∧
      (own = true → t.rd ANA_STAT_DONE = 1 ∧ ((∀ k ∈ u.calWait, k = c.val) → t.cal = none ∧ t.rd ANA_STAT_BUSY = 0))
    (∀ w : Word, s.AwakeFor dt dirKeys u → u.isSealed c = true →
      ∃ t, exec (.channelCfgWrite dt c w) s = .next t ∧ sealed t) ∧
    (∀ w : Word, s.AwakeFor dt dirKeys u → u.isSealed c = false → 6 ≤ bits w.toNat 3 1 →
      ∃ t, exec (.channelCfgWrite dt c w) s = .next t ∧ t.rd ANA_STAT_CFGERR = 1 ∧
        u.Only t [] (fun a => a = ANA_STAT ∨ RepReg a)) ∧
    (∀ w : Word, s.AwakeFor dt dirKeys u → u.isSealed c = false → bits w.toNat 3 1 < 6 →
      ∃ t, exec (.channelCfgWrite dt c w) s = .next t ∧ t.rdW (ANA_CHCFG c) = w &&& 0xFF#32 ∧
        (u.rd (ANA_CHCFG_EN c) = 0 → bit w.toNat 0 = 1 → u.Only t [.chan, .nvm] (· = ANA_CHCFG c) ∧
          t.chan1 c = { h with
            power := .up, upAt := u.clk + 24576, cfg := w.toNat % 256, gains := h.gainTo u.clk w.toNat } ∧
          ∀ k, k ≠ c.val → t.chan1 k = u.chan1 k) ∧
        (u.rd (ANA_CHCFG_EN c) = bit w.toNat 0 → u.Only t [.nvm] (· = ANA_CHCFG c)) ∧
        (u.rd (ANA_CHCFG_EN c) = 1 → bit w.toNat 0 = 0 → off t)) ∧
    (s.Awake dt u →
      let new := (u.rdW (ANA_CHCFG c)).toNat % 256
      let pga := decide (bits h.cfg 5 1 ≠ bits new 5 1) && !u.oddGanged c
      ∃ t, exec (.channelCfgTakeEffect dt c) s = .next t ∧ (t.chan1 c).cfg = new ∧
        (bit new 0 = 0 → (t.chan1 c).power = .off) ∧ (bit new 0 = 1 → (t.chan1 c).power = h.power) ∧
        (t.chan1 c).pga = (if pga then ((u.clk, u.clk + 4 * cyFrame) :: h.pga).take 8 else h.pga) ∧
        (t.chan1 c).setAt = (if bits h.cfg 7 6 ≠ bits new 7 6 ∧ u.oddGanged c = false then u.clk + 1080 else h.setAt) ∧
        (∀ k, k ≠ c.val → k ≠ c.val + 1 → t.chan1 k = u.chan1 k) ∧
        (pga = false ∨ u.oddGanged (c.val + 1) = false → t.chan1 (c.val + 1) = u.chan1 (c.val + 1)) ∧
        u.Only t [.chan] (fun _ => False)) ∧
    (s.AwakeFor dt dirKeys u → u.isSealed c = true →
      (∃ t, exec (.channelEnable dt c) s = .next t ∧ sealed t) ∧ ∃ t, exec (.channelDisable dt c) s = .next t ∧
        sealed t) ∧
    (s.AwakeFor dt dirKeys u → u.isSealed c = false → u.rd (ANA_CHCFG_EN c) = 0 →
      bits (u.rdW (ANA_CHCFG c)).toNat 3 1 < 6 →
      ∃ t, exec (.channelEnable dt c) s = .next t ∧ t.rd (ANA_CHCFG_EN c) = 1 ∧ (t.chan1 c).power = .up ∧
        (t.chan1 c).upAt = u.clk + 24576 ∧ u.Only t [.chan, .nvm] (· = ANA_CHCFG c)) ∧
    (s.Awake dt u → h.power = .up → h.upAt ≤ u.clk →
      ∃ t, exec (.channelPowerupDone dt c) s = .next t ∧ (t.chan1 c).power = .wait ∧
        u.Only t [.chan] (fun a => a = ANA_STAT ∨ Block 2 a) ∧
        (∀ k, u.cal = some k → t.cal = some k ∧ t.calWait = u.calWait ++ [c.val]) ∧
        (∀ (k : Nat) (q : List Nat), u.cal = none → u.calWait ++ [c.val] = k :: q → t.calWait = q ∧
          t.cal = some { all := false, ch := k, start := u.clk, enable := true } ∧ t.rd ANA_STAT_BUSY = 1)) ∧
    (s.AwakeFor dt dirKeys u → u.isSealed c = false → u.rd (ANA_CHCFG_EN c) = 1 →
      bits (u.rdW (ANA_CHCFG c)).toNat 3 1 < 6 →
      ∃ t, exec (.channelDisable dt c) s = .next t ∧ t.rd (ANA_CHCFG_EN c) = 0 ∧ off t)

/-- R82 to R90: what moves the slices of a channel. -/
def Obligations.Rotation : Prop :=
  ∀ (s u : State) (dt : Nat) (c : Fin 48),
    let h := u.chan1 c
    let f := u.rd (SLC_CHSTAT_FAL c)
    let moved := fun t : State =>
      t.rd (SLC_PHMAP_PH0 c) = f ∧ t.rd (SLC_PHMAP_PH1 c) = u.rd (SLC_PHMAP_PH0 c) ∧
      t.rd (SLC_PHMAP_PH2 c) = u.rd (SLC_PHMAP_PH1 c) ∧ t.rd (SLC_PHMAP_PH3 c) = u.rd (SLC_PHMAP_PH2 c) ∧
      t.rd (SLC_CHSTAT_FAL c) = u.rd (SLC_PHMAP_PH3 c) ∧ t.rd (SLC_CHSTAT_STEP c) = 4
    let A := fun a => Block 2 a ∨ RepReg a
    (∀ res co, s.Awake dt u → u.rd SLC_CTL_ROTEN = 1 → u.rd (SLC_CHSTAT_STEP c) = 2 → u.inCal c = false →
      (if h.rotNow then h.shadowClk + 50 * cyMs ≤ u.clk
       else ∃ v, u.lastSlot c = some v ∧ h.stepClk ≤ v ∧ h.slotMin ≤ v) →
      ∃ t, exec (.handoverSlot dt c res co) s = .next t ∧ u.Only t [.chan, .health] A ∧
        if resMet res = true ∧ h.shadowClk + 50 * cyMs ≤ u.clk then moved t
        else t.rd (SLC_CHSTAT_STEP c) = 3 ∧ (t.chan1 c).ext = 1 ∧ t.rdW (SLC_PHMAP c) = u.rdW (SLC_PHMAP c)) ∧
    (∀ co, s.Awake dt u → u.rd SLC_CTL_ROTEN = 1 → u.rd (SLC_CHSTAT_NOSPARE c) = 0 → u.inCal c = false →
      (∀ d, u.stepNow c = 0 → u.toSlot c = some d → d ≤ 60 * cyMs →
        ∃ t, exec (.fallowStepChange dt c co) s = .next t ∧ t.rd (SLC_CHSTAT_STEP c) = 1 ∧
          t.rdS (SLC_OFS_OFS (5 * c + f)) = satS 24 co.ofs ∧ t.rdS (SLC_GAIN_GAIN (5 * c + f)) = satS 24 co.gain ∧
          (t.chan1 c).stepClk = u.clk ∧ u.Only t [.chan, .health] A) ∧
      (u.rd (SLC_CHSTAT_STEP c) = 1 → h.stepClk + 10 * cyMs ≤ u.clk →
        ∃ t, exec (.fallowStepChange dt c co) s = .next t ∧ t.rd (SLC_CHSTAT_STEP c) = 2 ∧
          (t.chan1 c).shadowClk = u.clk ∧ u.Only t [.chan] (· = SLC_CHSTAT c))) ∧
    (∀ res co, s.Awake dt u → u.rd (SLC_CHSTAT_STEP c) = 3 → h.stepClk + 50 * cyMs ≤ u.clk →
      ∃ t, exec (.shadowExtension dt c res co) s = .next t ∧ u.Only t [.chan, .health] A ∧
        if resMet res = true ∧ h.shadowClk + 50 * cyMs ≤ u.clk then moved t
        else if h.ext < 10 then (t.chan1 c).ext = h.ext + 1 ∧ t.rdW (SLC_PHMAP c) = u.rdW (SLC_PHMAP c)
        else t.rd (SLC_CHSTAT_STEP c) = 0 ∧ t.rd SLC_STAT_DEFER = 1 ∧ t.rdW (SLC_PHMAP c) = u.rdW (SLC_PHMAP c)) ∧
    (s.AwakeFor dt dirKeys u →
      ∃ t, exec (.slcRotateNow dt (Fin.castLE (by decide) c)) s = .next t ∧
        if u.rd (SLC_CHSTAT_NOSPARE c) = 1 ∨ u.rd SLC_CTL_ROTEN = 0 then
          t.rd SLC_STAT_CMDERR = 1 ∧ u.Only t [] (fun a => a = SLC_STAT ∨ RepReg a)
        else (u.stepNow c = 0 ∨ u.stepNow c = 4 → t.rd (SLC_CHSTAT_STEP c) = 2 ∧ (t.chan1 c).rotNow = true) ∧
          (u.stepNow c = 1 ∨ u.stepNow c = 2 → t.rdW (SLC_CHSTAT c) = u.rdW (SLC_CHSTAT c) ∧
            (t.chan1 c).rotNow = true) ∧
          u.Only t [.chan] (· = SLC_CHSTAT c)) ∧
    (∀ d : Fin 64, s.AwakeFor dt dirKeys u → 47 < d.val →
      ∃ t, exec (.slcRotateNow dt d) s = .next t ∧ t.rd SLC_STAT_CMDERR = 1 ∧
        u.Only t [] (fun a => a = SLC_STAT ∨ RepReg a)) ∧
    ∀ (sl : Fin 5) (co : Coefs), s.Awake dt u →
      let n := 5 * c.val + sl.val
      let e := u.clk - Sparse.get (fun _ => 0) sl.val h.coefClk
      let y := u.coefs c sl
      let go := fun (old new : Int) (m : Nat) => old + clampI (-(m : Int)) m (new - old)
      let x : Coefs := {
        ofs := go y.ofs co.ofs (e * 2 ^ 29 / (100000000 * cySec))
        gain := go y.gain co.gain (e * 2 ^ 28 / (100000000 * cySec))
        skew := go y.skew co.skew (e / (10 * cySec)) }
      let eff := fun t : State => if u.active_ c sl = false then t = u else
        t.rdS (SLC_OFS_OFS n) = satS 24 x.ofs ∧ t.rdS (SLC_GAIN_GAIN n) = satS 24 x.gain ∧
        t.rdS (SLC_SKEW_SKEW n) = clampI (-2000) 2000 x.skew ∧
        (hardOf x ≠ 0 → get3 h.hardMask sl = 0 →
          t.rd (SLC_CHSTAT_LIMIT c) = 1 ∧ t.rd SLC_STAT_LIMIT = 1 ∧ excCount u.clk sl (t.chan1 c).exc = 3) ∧
        (hardOf x = 0 → u.outOf x 100 ≠ 0 → get3 h.outMask sl = 0 → (sl.val, u.clk) ∈ (t.chan1 c).exc) ∧
        (u.outOf x 90 = 0 → get3 (t.chan1 c).outMask sl = 0) ∧
        (u.rd (SLC_CHSTAT_NOSPARE c) = 1 → u.outOf x 100 ≠ 0 → t.rd (SLC_CHSTAT_DEGR c) = 1) ∧
          u.Only t [.chan, .health] A
      (∃ t, exec (.coefficientExcursion dt c sl co) s = .next t ∧ eff t) ∧
      ∃ t, exec (.coefficientReturn dt c sl co) s = .next t ∧ eff t

/-- R91 to R96: retirement. That a second retirement does not begin beside a running one is the model's choice (log
127). -/
def Obligations.Retirement : Prop :=
  ∀ (s u : State) (dt : Nat) (c : Fin 48),
    let h := u.chan1 c
    let A := fun a => Block 2 a ∨ RepReg a
    let gone := fun (t : State) (sl : Nat) => t.rd (SLC_CHSTAT_RET c) = sl ∧ t.rd (SLC_CHSTAT_FAL c) = 7 ∧
      t.rd (SLC_CHSTAT_STEP c) = 7 ∧ t.rd (SLC_CHSTAT_NOSPARE c) = 1 ∧ t.rd SLC_STAT_RETIRE = 1 ∧
      t.rd SLC_RETCNT_COUNT = satU 6 (u.rd SLC_RETCNT_COUNT + 1) ∧ t.mapDirty = true ∧ (t.chan1 c).retiring = none
    let begun := fun (t : State) (sl cause : Nat) => t.rd (SLC_CHSTAT_STEP c) = 5 ∧ (t.chan1 c).retiring = some sl ∧
      (t.chan1 c).retCause = cause ∧ t.rdW (SLC_PHMAP c) = u.rdW (SLC_PHMAP c)
    (∀ sl : Fin 5, s.Awake dt u → u.rd (SLC_CHSTAT_NOSPARE c) = 0 → u.rd (SLC_CHSTAT_FAIL c) = 0 → h.retiring = none →
      u.inCal c = false → (get3 h.hardMask sl ≠ 0 ∨ 3 ≤ excCount u.clk sl h.exc) →
      ∃ t, exec (.sliceRetirement dt c sl) s = .next t ∧ u.Only t [.chan, .alarm] A ∧
        if u.rd (SLC_CHSTAT_FAL c) = sl then gone t sl else begun t sl (if get3 h.hardMask sl ≠ 0 then 1 else 0)) ∧
    (∀ (sl : Nat) (res : Residual) (co : Coefs), s.Awake dt u → h.retiring = some sl → sl < 5 → u.inCal c = false →
      h.stepClk + 4916 + 50 * cyMs * (1 + h.ext) ≤ u.clk →
      ∃ t, exec (.retirementHandover dt c res co) s = .next t ∧
        u.Only t [.chan, .alarm, .health] (fun a => A a ∨ Block 24 a) ∧
        if resMet res = true ∨ 10 ≤ h.ext then gone t sl ∧
          (∀ g ∈ [SLC_PHMAP_PH0 c, SLC_PHMAP_PH1 c, SLC_PHMAP_PH2 c, SLC_PHMAP_PH3 c],
            t.rd g = if u.rd g = sl then u.rd (SLC_CHSTAT_FAL c) else u.rd g) ∧ t.rd YLD_STAT_SWAP = 1
        else t.chan1 c = { h with ext := h.ext + 1 } ∧ u.Only t [.chan] (fun _ => False)) ∧
    (∀ sl : Fin 8, s.AwakeFor dt dirKeys u → sl.val < 5 → u.rd (SLC_CHSTAT_NOSPARE c) = 0 →
      u.rd (SLC_CHSTAT_RET c) ≠ sl →
      ∃ t, exec (.slcRetire dt (Fin.castLE (by decide) c) sl) s = .next t ∧ u.Only t [.chan, .alarm] A ∧
        if u.rd (SLC_CHSTAT_FAL c) = sl then gone t sl else if h.retiring.isSome then t = u else begun t sl 2) ∧
    (∀ (d : Fin 64) (sl : Fin 8), s.AwakeFor dt dirKeys u →
      (47 < d.val ∨ 4 < sl.val ∨ (d.val = c.val ∧ (u.rd (SLC_CHSTAT_NOSPARE c) = 1 ∨ u.rd (SLC_CHSTAT_RET c) = sl))) →
      ∃ t, exec (.slcRetire dt d sl) s = .next t ∧ t.rd SLC_STAT_CMDERR = 1 ∧
        u.Only t [] (fun a => a = SLC_STAT ∨ RepReg a))

/-- R98, R100, R101: foreground calibration begins, is refused, and ends. -/
def Obligations.Calibration : Prop :=
  ∀ (s u : State) (dt : Nat),
    (∀ (one : Bool) (c : Fin 64), s.AwakeFor dt dirKeys u → u.cal = none →
      (one = true → c.val < 48 ∧ u.rd (ANA_CHCFG_EN c) = 1) →
      ∃ t, exec (.calibrationStart dt one c) s = .next t ∧ t.rd ANA_STAT_BUSY = 1 ∧
        t.cal = some { all := !one, ch := c, start := u.clk, enable := false } ∧
        (∀ k < 48, (one = false ∨ k = c.val) → t.rd (SLC_CHSTAT_STEP k) = 6) ∧
        u.Only t [.chan] (fun a => a = ANA_STAT ∨ Block 2 a)) ∧
    (∀ (one : Bool) (c : Fin 64), s.AwakeFor dt dirKeys u →
      (u.cal.isSome = true ∨ (one = true ∧ (47 < c.val ∨ u.rd (ANA_CHCFG_EN c) = 0))) →
      ∃ t, exec (.calibrationStart dt one c) s = .next t ∧ t.rd ANA_STAT_CMDERR = 1 ∧
        u.Only t [] (fun a => a = ANA_STAT ∨ RepReg a)) ∧
    (∀ (out : List CalOut) (k : Cal), s.Awake dt u → wfCal out = true → u.cal = some k →
      k.start + (if k.all then 180 else 12) * cyMs ≤ u.clk →
      ∃ t, exec (.calibrationEnd dt out) s = .next t ∧ t.rd ANA_STAT_DONE = 1 ∧ u.SameMem t ∧
        t.rotT0 = (if k.all then some u.clk else u.rotT0) ∧
        (u.calWait = [] → t.cal = none ∧ t.rd ANA_STAT_BUSY = 0) ∧
        (∀ (d : Nat) (q : List Nat), u.calWait = d :: q → t.calWait = q ∧ t.rd ANA_STAT_BUSY = 1 ∧
          t.cal = some { all := false, ch := d, start := u.clk, enable := true }) ∧
        (k.enable = true → (t.chan1 k.ch).power = .on) ∧
        ∀ o : CalOut, out = [o] → u.inCal o.ch = true →
          let bad := ((o.co.zipIdx.take 5).filter fun p => p.2 ≠ u.rd (SLC_CHSTAT_RET o.ch)).filter
            fun p => u.outOf p.1 100 ≠ 0 || hardOf p.1 ≠ 0
          (2 ≤ bad.length → t.rd (SLC_CHSTAT_FAIL o.ch) = 1 ∧ t.rd ANA_STAT_CALFAIL = 1) ∧
          (bad.length < 2 → t.rd (SLC_CHSTAT_FAIL o.ch) = 0)) ∧
    ∀ (out : List CalOut) (k : Cal), s.Awake dt u → wfCal out = true → u.cal = some k →
      u.clk < k.start + (if k.all then 180 else 12) * cyMs → exec (.calibrationEnd dt out) s = .next u

/-- R105, R107 to R111: the references' arbitration and the gang modes. -/
def Obligations.References : Prop :=
  ∀ (s u : State) (dt : Nat),
    (s.AwakeFor dt dirKeys u → ∃ t, exec (.referenceCheck dt) s = .next t ∧
      if u.rd ANA_REFCTL_EXTEN = 1 then t.refs = { u.refs with chk := some u.clk } ∧ u.Only t [.chan] (fun _ => False)
      else t.rd ANA_STAT_CMDERR = 1 ∧ u.Only t [] (fun a => a = ANA_STAT ∨ RepReg a)) ∧
    (∀ (d : Int) (c : Nat), s.Awake dt u → u.refs.chk = some c → c + cySec ≤ u.clk →
      ∃ t, exec (.referenceCheckDone dt d) s = .next t ∧ t.rdW ANA_REFDXA = ratioWord d ∧ t.refs.chk = none ∧
        u.Only t [.chan] (· = ANA_REFDXA)) ∧
    (∀ k : Fin 24, s.Awake dt u → ∃ t, exec (.gangModeChange dt k) s = .next t ∧
      t.gangMode k = u.rd (ANA_GANG_MODE k) ∧ (∀ j, j ≠ k.val → t.gangMode j = u.gangMode j) ∧
      u.Only t [.chan] (fun _ => False)) ∧
    (∀ ab ca cb : Int, s.Awake dt u → ∃ t, exec (.refRatioAverage dt ab ca cb) s = .next t ∧
      t.rdW ANA_REFDAB = ratioWord ab ∧
      (u.rd ANA_REFSTAT_CON = 1 → t.rdW ANA_REFDCA = ratioWord ca ∧ t.rdW ANA_REFDCB = ratioWord cb) ∧
      (u.rd ANA_REFSTAT_ARB = 0 → u.rd ANA_REFSTAT_NOMAJ = 0 → u.refCIn = false → u.refs.dis = 2 → u.refs.run = false →
        2000 < ab.natAbs → t.rd YLD_REFDIS_DIS = 1 ∧ t.rd ANA_REFSTAT_DIS = 1 ∧ t.rd ANA_REFSTAT_CON = 1 ∧
          t.refs.run = true) ∧
      u.Only t [.chan] (fun a => a = ANA_REFSTAT ∨ a = ANA_REFDAB ∨ a = ANA_REFDCA ∨ a = ANA_REFDCB ∨ a = YLD_REFDIS)) ∧
    (∀ ca cb : Int, s.Awake dt u → u.refs.run = true → u.refs.cUp + 20 * cySec ≤ u.clk →
      ∃ t, exec (.referenceArbitration dt ca cb) s = .next t ∧ t.refs.run = false ∧
        (ca.natAbs ≤ 2000 → cb.natAbs ≤ 2000 → t.rd ANA_REFSTAT_ARB = 1) ∧
        (ca.natAbs ≤ 2000 → 2000 < cb.natAbs → t.refs.swapDue = some 1) ∧
        (2000 < ca.natAbs → cb.natAbs ≤ 2000 → t.refs.swapDue = some 0) ∧
        (2000 < ca.natAbs → 2000 < cb.natAbs → t.rd ANA_REFSTAT_NOMAJ = 1) ∧ u.Only t [.chan] (· = ANA_REFSTAT)) ∧
    (∀ r : Nat, s.Awake dt u → r < 2 → u.refs.swapDue = some r → u.cal = none → u.refCIn = false →
      ∃ t, exec (.referenceSwap dt) s = .next t ∧
        (if u.rd ANA_REFSTAT_LO = r then t.rd ANA_REFSTAT_LO = 2 ∧ t.rd ANA_REFSTAT_HI = u.rd ANA_REFSTAT_HI
         else t.rd ANA_REFSTAT_HI = 2 ∧ t.rd ANA_REFSTAT_LO = u.rd ANA_REFSTAT_LO) ∧
        (r = 0 → t.rd ANA_REFSTAT_ARET = 1) ∧ (r = 1 → t.rd ANA_REFSTAT_BRET = 1) ∧ t.rd ANA_STAT_REFSWAP = 1 ∧
        t.refs.swapDue = none ∧ t.mapDirty = true ∧
        u.Only t [.chan, .alarm] (fun a => Block 1 a ∨ Block 2 a ∨ Block 24 a ∨ RepReg a)) ∧
    ∀ r : Nat, s.Awake dt u → u.refs.retReq = some r → u.refs.cUp + 10 * cySec ≤ u.clk →
      ∃ t, exec (.refRetireSettleExpiry dt) s = .next t ∧ t.refs.swapDue = some r ∧ t.refs.retReq = none ∧
        u.Only t [.chan] (fun _ => False)

/-- R119, R126, R132 to R137: the decimation chain's configuration and the window comparators. -/
def Obligations.Comparators : Prop :=
  ∀ (s u : State) (dt : Nat),
    (∀ (c : Fin 48) (w : Word), s.AwakeFor dt dirKeys u →
      let old := (u.rdW (FLT_SHIFT c)).toNat
      let new := w.toNat % 2 ^ 28
      let sh := fun i : Nat => (bits new (4 * i + 3) (4 * i) : Int)
      ∃ t, exec (.shiftChange dt c w) s = .next t ∧
        if u.isSealed c = true then t.rd TAL_STAT_SEALWR = 1 ∧ u.Only t [] (fun a => a = TAL_STAT ∨ RepReg a)
        else t.rdW (FLT_SHIFT c) = BitVec.ofNat 32 new ∧ t.rdS (FLT_CTL_EC c) = 12 - sh 0 ∧
          t.rdS (FLT_CTL_EW c) = 16 - sh 0 - sh 1 ∧
          t.rdS (FLT_CTL_EF c) = 36 - sh 0 - sh 1 - sh 2 - sh 3 - sh 4 - sh 5 - sh 6 ∧
          (∀ i < 7, bit (t.chan1 c).shNew i =
            if bits old (4 * i + 3) (4 * i) = bits new (4 * i + 3) (4 * i) then bit (u.chan1 c).shNew i else 1) ∧
          (∀ k, k ≠ c.val → t.chan1 k = u.chan1 k) ∧
          u.Only t [.chan, .nvm] (fun a => a = FLT_SHIFT c ∨ a = FLT_CTL c)) ∧
    (∀ (k : Fin 96) (r : Fin 4) (w : Word), s.AwakeFor dt dirKeys u →
      let x := fun i : Nat => if i = r.val then w.toNat else (u.rdW (FLT_CMPCTL k + 4 * i)).toNat
      ∃ t, exec (.comparatorWrite dt k r w) s = .next t ∧
        if cmpOk (x 0) (x 1) (x 2) (x 3) = true then
          t.rdW (FLT_CMPCTL k + 4 * r) =
            w &&& [0xFFFCFFFF#32, 0x00FFFFFF#32, 0x00FFFFFF#32, 0x007FFFFF#32].getD r 0#32 ∧
          t.rd (FLT_CMPSTAT_STATE k) = 0 ∧ t.rd (FLT_CMPSTAT_CNT k) = 0 ∧
          u.Only t [] (fun a => a = FLT_CMPCTL k + 4 * r ∨ a = FLT_CMPSTAT k)
        else t.rd FLT_STAT_CFGERR = 1 ∧ u.Only t [] (fun a => a = FLT_STAT ∨ RepReg a)) ∧
    (∀ k : Fin 96, s.Awake dt u → u.cmpDue k = true → u.rd (FLT_CMPSTAT_STATE k) = 0 →
      let inst := Sparse.get (fun _ => 0) k.val u.cmpClk - (u.rd (FLT_CMPCTL_N k) - 1) * cyCoarse - 4 * cyCoarse
      let e := (k.val, u.stampAt (u.rd (FLT_CMPCTL_FW k)) inst true)
      ∃ t, exec (.comparatorTrip dt k) s = .next t ∧ t.rd (FLT_CMPSTAT_TRIP k) = 1 ∧ t.rd (FLT_CMPSTAT_STATE k) = 1 ∧
        t.rd (FLT_CMPSTAT_CNT k) = 0 ∧ t.rd (FLT_CMPSTAT_TRIPS k) = satU 8 (u.rd (FLT_CMPSTAT_TRIPS k) + 1) ∧
        (u.rd (FLT_CMPSTAT_TRIP k) = 1 → t.rd (FLT_CMPSTAT_OVR k) = 1) ∧
        (u.tripQ.length < 16 → t.tripQ.length = u.tripQ.length + 1 ∧ e ∈ t.tripQ ∧
          ((∀ j ∈ u.taken, j.1 ≠ objTrips) → t.tripQ = u.tripQ ++ [e])) ∧
        (u.tripQ.length = 16 → t.tripQ.length = 16 ∧ t.rd FLT_TRQSTAT_OVF = 1 ∧
          ((∀ j ∈ u.taken, j.1 ≠ objTrips) → t.tripQ = u.tripQ)) ∧
        (u.rd (FLT_CMPCTL_CAP k) = 0 → u.rd (FLT_CMPCTL_GLN k) = 0 →
          u.Only t [.chan] (fun a => a = FLT_CMPSTAT k ∨ a = FLT_TRQSTAT ∨ RepReg a))) ∧
    (∀ k : Fin 96, s.Awake dt u → u.cmpDue k = true → u.rd (FLT_CMPSTAT_STATE k) = 1 →
      ∃ t, exec (.comparatorReturn dt k) s = .next t ∧ t.rd (FLT_CMPSTAT_STATE k) = 0 ∧ t.rd (FLT_CMPSTAT_CNT k) = 0 ∧
        t.rd (FLT_CMPSTAT_TRIP k) = u.rd (FLT_CMPSTAT_TRIP k) ∧ u.Only t [] (· = FLT_CMPSTAT k)) ∧
    (∀ (o : Orig) (n : Nat) (ts : List Word) (q : List (Nat × List Word)), s.Awake dt u → u.tripQ = (n, ts) :: q →
      ∃ t, exec (.tripQueueRead dt o 0) s = .next t ∧ t.tripQ = q ∧
        Sparse.get (fun _ => 0) (readerOf o) t.rdata = BitVec.ofNat 32 (2 ^ 31 + n) ∧
        (∀ k, 0 < k → k < 6 → (t.tripRead (readerOf o) k).1 = ts.getD (k - 1) 0) ∧
        u.Only t [.chan, .rdata] (fun _ => False)) ∧
    (∀ o : Orig, s.Awake dt u → u.tripQ = [] → ∃ t, exec (.tripQueueRead dt o 0) s = .next t ∧
      Sparse.get (fun _ => 0) (readerOf o) t.rdata = 0 ∧ u.Only t [.rdata] (fun _ => False)) ∧
    ∀ c : Fin 48, s.Awake dt u →
      let h := u.chan1 c
      (u.tapInv c spanC h.setC = false → h.hist ≠ [] →
        ∃ t, exec (.settlingClose dt c .c) s = .next t ∧ t.rd (FLT_CHSTAT_VALC c) = 1 ∧
          u.Only t [] (· = FLT_CHSTAT c)) ∧
      (u.tapInv c spanW h.setW = false → h.lastW ≠ 0 →
        ∃ t, exec (.settlingClose dt c .w) s = .next t ∧ t.rd (FLT_CHSTAT_VALW c) = 1 ∧
          u.Only t [] (· = FLT_CHSTAT c)) ∧
      (u.tapInv c spanF h.setF = false → h.fineQ ≠ [] →
        ∃ t, exec (.settlingClose dt c .f) s = .next t ∧ t.rd (FLT_CHSTAT_VALF c) = 1 ∧ u.Only t [] (· = FLT_CHSTAT c))

/-- R51 to R53, R115 to R126, R167: what a sample of each kind leaves. -/
def Obligations.Streams : Prop :=
  ∀ (s u : State) (dt : Nat), s.Awake dt u →
    (∀ (c : Fin 48) (xs : List Int) (ps : List Phasor), xs.length = 9 →
      let v := u.convAll c xs
      let h := v.chan1 c
      let r := chainStep (cicSum h.adc) (u.rd (FLT_SHIFT_SH1 c))
      let z := xs.getD 8 0
      let rogo := bit h.cfg 6 = 1 ∧ u.oddGanged c = false
      let y := if rogo then satS 24 z else r.1
      let clamp := r.2 || (decide rogo && decide (satS 24 z ≠ z)) || (List.range 29).any fun k => s1Over h.adc (18 + k)
      let opens := decide (bit h.shNew 0 = 1)
      let inv := v.tapInv c spanC h.setC || opens
      ∃ t, exec (.streamSample dt c .c xs ps) s = .next t ∧ t.rd (FLT_CHSTAT_VALC c) = b2n (!inv) ∧
        (t.chan1 c).adc = h.adc ∧ (t.chan1 c).lastC = u.clk ∧
        (t.chan1 c).setC = v.settleNext h (if h.lastC = 0 then u.clk - 480 else h.lastC) 8 h.setC opens ∧
        (t.chan1 c).hist =
          (streamWord (if u.oddGanged c then 0 else y) (v.flagBits c spanC inv clamp) :: h.hist).take 9) ∧
    (∀ (c : Fin 48) (xs : List Int) (ps : List Phasor), xs.length = 5 →
      let h := u.chan1 c
      let opens := decide (bit h.shNew 1 = 1) || decide (bit h.shOut 0 = 1)
      ∃ t, exec (.streamSample dt c .w xs ps) s = .next t ∧ (t.chan1 c).lastW = u.clk ∧
        t.rd (FLT_CHSTAT_VALW c) = b2n (!(u.tapInv c spanW h.setW || opens)) ∧
        (t.chan1 c).setW = u.settleNext h (if h.lastW = 0 then u.clk - 480 else h.lastW) 40 h.setW opens) ∧
    (∀ (c : Fin 48) (x : Int) (ps : List Phasor),
      let h := u.chan1 c
      let r := chainStep x (u.rd (FLT_SHIFT_SH7 c))
      let opens := decide (64 ≤ h.shNew) || decide (2 ≤ h.shOut)
      let inv := u.tapInv c spanF h.setF || opens
      let w := streamWord (if u.oddGanged c then 0 else r.1) (u.flagBits c spanF inv (r.2 || u.satIn c 7 spanF))
      let e : FineRec := {
        at_ := u.clk, word := w, gain := valueAt (u.clk - 45 * cyFine) (bits h.cfg 3 1) h.gains
        ef := u.rdS (FLT_CTL_EF c) }
      ∃ t, exec (.streamSample dt c .f [x] ps) s = .next t ∧ t.rd (FLT_CHSTAT_VALF c) = b2n (!inv) ∧
        (t.chan1 c).setF = u.settleNext h (if h.lastF = 0 then u.clk - cyFine else h.lastF) 96 h.setF opens ∧
        (t.chan1 c).fineQ = (e :: h.fineQ).take 65536 ∧
        ∀ p : Phasor, ps = [p] → u.rd (FUR_CTL_EN p.fw) = 1 → u.rd (FUR_SRC_SRC p.fw) ≤ 1 →
          u.rd (FUR_SRC_CHA p.fw) = c →
          (t.furrow p.fw).sAmp = p.amp ∧ (t.furrow p.fw).sAng = p.ang % 2 ^ 24 ∧ (t.furrow p.fw).sClk = u.clk ∧
          (t.furrow p.fw).sRate = p.rate ∧ u.Follows t p.fw p.rate) ∧
    (∀ (c : Fin 48) (ps : List Phasor), ∃ t, exec (.streamSample dt c .raw [] ps) s = .next t ∧
      if c.val % 2 = 0 ∧ u.gangMode (c.val / 2) ≠ 0 then (t.chan1 c).rawN = ((u.chan1 c).rawN + 1) % 64 else t = u) ∧
    (∀ (n : Fin 4) (c : Fin 48) (x : Int) (inv : Bool), u.rd (FUR_CTL_EN n) = 1 → (u.furrow n).run = true →
      u.rd (FUR_RSCTL_EN n) = 1 → (u.rsChans n).contains c.val = true → u.rd (FUR_RSCTL_HOPEN n) = 0 →
      let N := u.rsN n
      let num := u.rsNext n c
      let rsc := u.rd (FUR_RSCTL_RSCYC n)
      let a := u.rd (FUR_RSBASE_BASE n) * 1024 + (u.rsChans n).findIdx (· == c.val) * N * rsc * 4
        + (num / N % rsc * N + num % N) * 4
      let g := (u.crossed n (rsAngle N num)).bind fun k => segAt k (u.furrow n).segs
      0 ≤ angDiff (u.angle n) (rsAngle N num) →
      ∃ t, exec (.resampledSample dt n c x inv) s = .next t ∧
        (u.ffDrop.contains (a / 4 * 4) = false →
          t.load32 a = tc 24 (satS 24 x) * 256 + b2n (inv || u.oddGanged c) * 128 + b2n (g.any (·.hold)) * 64
            + b2n (g.any (·.slew)) * 32) ∧
        (∀ b, (b < a ∨ a + 4 ≤ b) → t.byte b = u.byte b) ∧ t.rsNext n c = (num + 1) % (2 ^ 40 * N) ∧
        u.SameParts t [.furrow, .engine] ∧ u.SameRegs t (fun _ => False)) ∧
    ∀ (f : Fin 16) (k : Fin 8) (c : Nat), (u.fieldOf f).cfg.en = true → (u.fieldOf f).cfg.hcCh k = some c →
      u.rd (TAL_HCCTL_HOPEN f) = 0 →
      ∃ t, exec (.halfCycleRmsPublish dt f k) s = .next t ∧
        Sparse.get (fun _ => 0) (8 * f.val + k.val) t.hcLast = (u.hcWindow f).1 ∧
        (Sparse.get (fun _ => 0) (8 * f.val + k.val) u.hcLast = (u.hcWindow f).1 → t = u) ∧
        (Sparse.get (fun _ => 0) (8 * f.val + k.val) u.hcLast ≠ (u.hcWindow f).1 →
          t.rdW (TAL_HRMS (8 * f + k)) = u.hcValue f k c) ∧
        u.Only t [.tally] (fun a => a = TAL_HRMS (8 * f + k) ∨ a = TAL_HCSTAT f ∨ a = TAL_STAT ∨ RepReg a)

/-- R233 to R235: the gleaner's sequencer, on the microsecond tick. -/
def Obligations.Gleaner : Prop :=
  ∀ (s u : State) (dt : Nat),
    let g := u.gln
    let now := usTick u.clk
    let F := fun a => a = GLN_STAT ∨ RepReg a
    let start := fun t : State =>
      (g.reg = true ∨ g.regWait = true →
        t.rd GLN_STAT_RSKIP = 1 ∧ t.gln.conv = g.conv ∧ t.gln.reg = g.reg ∧ t.gln.regWait = g.regWait) ∧
      (g.reg = false → g.regWait = false → g.injRun = true → t.gln.regWait = true ∧ t.gln.conv = g.conv) ∧
      (g.reg = false → g.regWait = false → g.injRun = false → t.gln.reg = true ∧ t.gln.regIdx = 0 ∧
        t.gln.regSeq = u.glnRegSeq ∧ t.gln.conv = some { inj := false, entry := 0, start :=
          match g.pwr with
          | some p => if p < tickFrom u.clk then tickFrom u.clk else p
          | none => tickFrom u.clk + 8 }) ∧
      u.Only t [.engine] F
    (s.Awake dt u → u.rd GLN_CTL_EN = 1 → u.rd GLN_CTL_RPER ≠ 0 → g.perTick + 10 * u.rd GLN_CTL_RPER ≤ now →
      ∃ t, exec (.glnRegularStart dt) s = .next t ∧ t.gln.perTick = g.perTick + 10 * u.rd GLN_CTL_RPER ∧ start t) ∧
    (s.AwakeFor dt dirKeys u → u.rd GLN_CTL_EN = 1 → ∃ t, exec (.glnCmdRegular dt) s = .next t ∧ start t) ∧
    (s.Awake dt u → u.rd GLN_CTL_EN = 1 → ∃ t, exec (.glnInjectTrigger dt) s = .next t ∧ t.gln.inj = true ∧
      (g.inj = false → t.gln = { g with inj := true, injClk := u.clk, injRun := false }) ∧
      (g.inj = true → t.gln = g) ∧
      (g.inj = true → (g.injClk ≠ u.clk ∨ g.injRun = true) → t.rd GLN_STAT_INJLOST = 1 ∧
        t.rd GLN_INJLOST_V = satU 32 (u.rd GLN_INJLOST_V + 1)) ∧
      u.Only t [.engine] (fun a => a = GLN_INJLOST ∨ F a)) ∧
    (s.Awake dt u → g.inj = true → g.injRun = false → u.glnInjAt ≤ now → u.glnFree = true →
      ∃ t, exec (.glnInjectDelayExpiry dt) s = .next t ∧ t.gln.injRun = true ∧ t.gln.injSeq = u.glnInjSeq ∧
        t.gln.conv = some { inj := true, entry := 0, start := now } ∧ u.Only t [.engine] (fun _ => False)) ∧
    (∀ (r : Fin 4096) (c : GlnConv), s.Awake dt u → g.conv = some c → c.start + 1 ≤ now →
      c.entry < (if c.inj then 4 else 16) →
      let next : Option GlnConv := if c.entry + 1 < (if c.inj then g.injSeq else g.regSeq).length then
        some { inj := c.inj, entry := c.entry + 1, start := now } else none
      ∃ t, exec (.glnConversionDone dt r) s = .next t ∧
        (if c.inj then t.rd (GLN_IRES_RES c.entry) = r ∧
            t.rd (GLN_IRES_CNT c.entry) = (u.rd (GLN_IRES_CNT c.entry) + 1) % 65536 ∧ t.gln.conv = next
          else t.rd (GLN_RRES_RES c.entry) = r ∧
            t.rd (GLN_RRES_CNT c.entry) = (u.rd (GLN_RRES_CNT c.entry) + 1) % 65536 ∧ t.gln.regIdx = c.entry + 1 ∧
            t.gln.conv = if g.inj = true ∧ u.glnInjAt ≤ now then none else next) ∧
        u.Only t [.engine] (fun a => Block 21 a ∨ Block 11 a ∨ RepReg a)) ∧
    (s.Awake dt u → g.conv = none → (g.injRun = true ∨ (g.reg = true ∧ g.regSeq.length ≤ g.regIdx)) →
      ∃ t, exec (.glnSequenceEnd dt) s = .next t ∧ t.gln.injRun = false ∧
        (g.injRun = true → t.gln.inj = false) ∧
        ((g.reg = false ∨ g.regSeq.length ≤ g.regIdx) → (g.injRun = false ∨ g.regWait = false) →
          t.gln.reg = false ∧ t.gln.pwr = none) ∧
        (g.injRun = true → g.reg = true → g.regIdx < g.regSeq.length →
          ∃ c, t.gln.conv = some c ∧ c.inj = false ∧ c.entry = g.regIdx) ∧
        (g.injRun = true → (g.reg = false ∨ g.regSeq.length ≤ g.regIdx) → g.regWait = true →
          t.gln.reg = true ∧ t.gln.conv = some { inj := false, entry := 0, start := tickFrom u.clk + 8 }) ∧
        u.Only t [.engine] (fun _ => False))

/-- R157 to R165, R176: shadows, snapshots and configuration boundaries, with their frame. -/
def Obligations.TallyReads : Prop :=
  ∀ (s u : State) (dt : Nat),
    (∀ (o : Orig) (b : Fin 4096), s.AwakeFor dt (binReadKeys false b) u →
      ∃ t, exec (.granaryWord0Read dt o false b) s = .next t ∧
        (∀ w < 4, some (if w = 0 then Sparse.get (fun _ => 0) (readerOf o) t.rdata else (t.granaryRead (readerOf o) b
          w).1)
          = (u.binWords b)[w]?) ∧ u.Only t [.tally, .rdata] (fun _ => False)) ∧
    (∀ (o : Orig) (b : Fin 4096), s.AwakeFor dt (binReadKeys true b) u →
      ∃ t, exec (.granaryWord0Read dt o true b) s = .next t ∧
        Sparse.get (fun _ => 0) (readerOf o) t.rdata = u.snapWord (u.snapField (origCode o)) (b.val % 64) 0 ∧
        (∀ w, 0 < w → w < 4 → (t.snapRead (origCode o) (readerOf o) (b.val % 64) w).1 =
          u.snapWord (u.snapField (origCode o)) (b.val % 64) w) ∧ u.Only t [.tally, .rdata] (fun _ => False)) ∧
    (∀ o : Orig, s.Awake dt u → ∃ t, exec (.talScntlRead dt o) s = .next t ∧
      Sparse.get (fun _ => 0) (readerOf o) t.rdata = BitVec.ofNat 32 (u.rounds - 1) ∧
      (t.scntRead (readerOf o) 1).1 = BitVec.ofNat 32 ((u.rounds - 1) / 2 ^ 32) ∧
      u.Only t [.tally, .rdata] (fun _ => False)) ∧
    (∀ (fields : Fin 65536) (al : Bool), s.AwakeFor dt dirKeys u →
      let bnd := if al then u.sampleAt u.clk else u.roundAfter u.clk
      let r : SnapReq := {
        fields := fields, aligned := al, bnd := bnd, at_ := u.clk
        stamps := [u.stamp 0, u.stamp 1, u.stamp 2, u.stamp 3] }
      let meets := fun q : SnapReq => decide (q.bnd = bnd) &&
        ((decide (q.at_ = u.clk) && q.aligned == al) || decide (q.fields &&& fields.val ≠ 0))
      let ahead := ((u.snaps.filter (·.aligned)).map (·.bnd)).eraseDups
      ∃ t, exec (.snapshotRequest dt fields al) s = .next t ∧
        (u.snaps.filter meets = [] → al = true → 8 ≤ ahead.length → bnd ∉ ahead →
          t.snaps = u.snaps ∧ t.rd TAL_STAT_SNAPLOST = 1 ∧
          u.Only t [] (fun a => a = TAL_STAT ∨ a = TAL_SNAPSTAT ∨ RepReg a)) ∧
        (u.snaps.filter meets = [] → (al = false ∨ ahead.length < 8 ∨ bnd ∈ ahead) →
          t.snaps = u.snaps ++ [r] ∧ u.Only t [.tally] (fun _ => False)) ∧
        ∀ (q : SnapReq) (qs : List SnapReq), u.snaps.filter meets = q :: qs →
          (∃ m ∈ t.snaps, m.bnd = bnd ∧ m.at_ = q.at_ ∧ m.stamps = q.stamps ∧ m.fields ||| fields.val = m.fields) ∧
          u.Only t [.tally] (fun _ => False)) ∧
    (∀ (q : SnapReq) (f : Nat), s.AwakeFor dt snapKeys u → f < 16 → u.snaps = [q] → q.fields = 2 ^ f →
      q.bnd ≤ u.rounds →
      let v0 : State := { u with snaps := [] }
      let v := if (u.fieldOf f).cfg.en then v0.closeIv f else v0
      ∃ t, exec (.snapshotBoundary dt) s = .next t ∧ t.snaps = [] ∧ t.rd TAL_STAT_SNAPDONE = 1 ∧
        (∀ o < 57, ∀ w < 4, some (t.snapWord f o w) = (v.binWords (64 * f + o))[w]?) ∧
        (t.fieldOf f).seq = ((v.fieldOf f).seq + 1) % 2 ^ 32 ∧ (t.fieldOf f).flags = 0 ∧ t.bins = v.bins ∧
        (∀ g, g ≠ f → t.fieldOf g = v.fieldOf g) ∧ v.Only t [.tally] (fun a => a = TAL_STAT ∨ RepReg a)) ∧
    ∀ (f : Fin 16) (g : FieldCfg) (q : List FieldCfg), s.Awake dt u → (u.fieldOf f).cfgQ = g :: q →
      (∀ h ∈ q, u.roundClk + cyFine < h.at_ + 2094 * cyFine) →
      if u.roundClk + cyFine < g.at_ + 2094 * cyFine then exec (.configBoundary dt f) s = .next u else
      let v0 := u.snapsDue
      let v := if (v0.fieldOf f).cfg.en then v0.closeIv f else v0
      ∃ t, exec (.configBoundary dt f) s = .next t ∧ (t.fieldOf f).cfg = { g with clear := false } ∧
        (t.fieldOf f).cfgQ = q ∧ t.rd (bitFld (TAL_FSTAT f) 0) = 1 ∧
        (g.clear = true → ∀ o < 57, t.bin (64 * f + o) = 0) ∧ (g.clear = false → t.bins = v.bins) ∧
        (∀ k, k ≠ f.val → t.fieldOf k = v.fieldOf k) ∧
        v.Only t [.tally] (fun a => a = TAL_FSTAT f ∨ (∃ k < 8, a = TAL_HRMS (8 * f + k)) ∨ RepReg a)

/-- R171, R173, R174, R408, R143: pulse outputs and rounds. -/
def Obligations.Pulses : Prop :=
  ∀ (s u : State) (dt : Nat),
    (∀ n : Fin 16, s.Awake dt u →
      let p := u.pulseOf n
      let ball := match u.spareOf n with | some k => 12 + k | none => n.val
      (u.rd (PLS_CFG_EN n) = 1 → u.pulseOwn n = true → p.on = false → u.rd (PLS_OSTAT_PENDING n) ≠ 0 →
        u.rd (bitFld PLS_STAT n) = 0 → u.rd HDG_STAT_SAFE = 0 →
        Sparse.get (fun _ => 0) ball u.plsAt + u.pulseW n ≤ u.clk → u.rd HDG_PLS_MAXHZ ≠ 0 →
        (∀ c, p.startAt = some c → cySec ≤ (u.clk - c) * u.rd HDG_PLS_MAXHZ) →
        ∃ t, exec (.pulseStart dt n) s = .next t ∧ t.rd (PLS_OSTAT_PENDING n) = u.rd (PLS_OSTAT_PENDING n) - 1 ∧
          t.rdW (PLS_COUNT n) = u.rdW (PLS_COUNT n) + 1 ∧ (t.pulseOf n).on = true ∧
          (t.pulseOf n).endAt = u.clk + u.pulseW n ∧ (∀ k, k ≠ n.val → t.pulseOf k = u.pulseOf k) ∧
          u.Only t [.tally] (fun a => a = PLS_OSTAT n ∨ a = PLS_COUNT n)) ∧
      (u.rd HDG_STAT_SAFE = 1 → exec (.pulseStart dt n) s = .next u) ∧
      (p.on = true → p.endAt ≤ u.clk → ∃ t, exec (.pulseEnd dt n) s = .next t ∧ t.pulseOf n = { p with on := false } ∧
        (∀ b < 16, t.plsLevel b ≠ u.plsLevel b → Sparse.get (fun _ => 0) b t.plsAt = u.clk) ∧
        (∀ k, k ≠ n.val → t.pulseOf k = u.pulseOf k) ∧ u.Only t [.tally] (fun _ => False)) ∧
      (p.on = true → u.clk < p.endAt → exec (.pulseEnd dt n) s = .next u) ∧
      ∃ t, exec (.pulseReadbackFault dt n) s = .next t ∧ t.rd (bitFld PLS_STAT (16 + n)) = 1 ∧
        u.Only t [.tally] (fun a => a = PLS_STAT ∨ RepReg a)) ∧
    (∀ n : Fin 16, s.AwakeFor dt dirKeys u → u.rd (bitFld PLS_STAT n) = 1 →
      u.setNow.contains (PLS_STAT, n.val) = false →
      ∃ t, exec (.pulseHedgeClear dt n) s = .next t ∧ t.rd (bitFld PLS_STAT n) = 0 ∧
        t.rd (PLS_OSTAT_PENDING n) = 0 ∧ (t.pulseOf n).r = 0 ∧
        u.Only t [.tally] (fun a => a = PLS_STAT ∨ a = PLS_OSTAT n)) ∧
    (∀ k : Fin 4, s.Awake dt u →
      let n := u.rd (PLS_SPARE_SRC k)
      (u.rd (PLS_SPARE_EN k) = 1 → Sparse.get (fun _ => none) k.val u.plsSpare = none → (u.pulseOf n).on = false →
        ∃ t, exec (.pulseSpareHandover dt k) s = .next t ∧ Sparse.get (fun _ => none) k.val t.plsSpare = some n ∧
          t.rd YLD_STAT_SWAP = 1 ∧ u.Only t [.tally, .alarm] (fun a => a = YLD_STAT ∨ a = YLD_SWAPCNT ∨ RepReg a)) ∧
      (∀ m, (u.rd (PLS_SPARE_EN k) = 0 ∨ m ≠ n) → Sparse.get (fun _ => none) k.val u.plsSpare = some m →
        (u.pulseOf m).on = false → ∃ t, exec (.pulseSpareHandover dt k) s = .next t ∧
          Sparse.get (fun _ => none) k.val t.plsSpare = none ∧ u.Only t [.tally, .alarm] (fun _ => False))) ∧
    (s.AwakeFor dt tallyKeys u → ∃ t, exec (.tallyRound dt) s = .next t ∧ t.rounds = u.rounds + 1 ∧ t.roundClk = u.clk ∧
      (u.nvC = none → (∀ f < 16, (u.fieldOf f).cfg.en = false ∧ (u.fieldOf f).cfgQ = []) → u.snaps = [] →
        (∀ n < 16, u.rd (PLS_CFG_EN n) = 0) → t.bins = u.bins ∧ u.Only t [.tally] (fun _ => False)))

/-- R180 to R184, R188, R190, R192: what enters, leaves and completes in the thresher, with the frame. `v` is the
state in
which an idle thresher chooses its next work. -/
def Obligations.Thresher : Prop :=
  ∀ (s u : State) (dt : Nat),
    (s.AwakeFor dt dirKeys u → ∀ (o : Orig) (a : Word),
      let su := match o with | .plough p h => (u.handOf p h).suit | .host _ => 3
      let c := origCode o
      let new : Job := { id := u.thrId, addr := a.toNat, suit := su, poster := u.logOfOrig o }
      (a.toNat % 32 ≠ 0 ∨ 0x200000 < a.toNat + 32 →
        ∃ t, exec (.jobPost dt o a) s = .next t ∧ t.rd THR_STAT_POSTERR = 1 ∧ Sparse.get (fun _ => 0) c t.thrRes = 3 ∧
          t.thrQ = u.thrQ ∧ u.Only t [.engine] (fun b => b = THR_STAT ∨ RepReg b)) ∧
      (a.toNat % 32 = 0 → a.toNat + 32 ≤ 0x200000 → u.thrQ.length < 32 →
        ∃ v : State, exec (.jobPost dt o a) s = .next v.thrNext ∧ v.thrQ = u.thrQ ++ [new] ∧ v.thrRun = u.thrRun ∧
          v.load32 (a.toNat + 28) = 2 ^ 28 ∧ Sparse.get (fun _ => 0) c v.thrRes = 1 ∧
          (∀ b, b < a.toNat + 28 ∨ a.toNat + 32 ≤ b → v.byte b = u.byte b) ∧
          u.SameParts v [.engine] ∧ u.SameRegs v (fun _ => False)) ∧
      (∀ k : Job, a.toNat % 32 = 0 → a.toNat + 32 ≤ 0x200000 → 32 ≤ u.thrQ.length → shedJob su u.thrQ = some k →
        ∃ v : State, exec (.jobPost dt o a) s = .next v.thrNext ∧ v.thrQ = u.thrQ.filter (fun x => x ≠ k) ++ [new] ∧
          v.thrRun = u.thrRun ∧ v.rd THR_STAT_SHED = 1 ∧ Sparse.get (fun _ => 0) c v.thrRes = 1 ∧
          v.load32 (a.toNat + 28) = 2 ^ 28 ∧ (a.toNat + 32 ≤ k.addr ∨ k.addr + 32 ≤ a.toNat →
            v.load32 (k.addr + 28) = 6 * 2 ^ 28 + u.jobCount k % 65536)) ∧
      (a.toNat % 32 = 0 → a.toNat + 32 ≤ 0x200000 → 32 ≤ u.thrQ.length → shedJob su u.thrQ = none →
        ∃ t, exec (.jobPost dt o a) s = .next t ∧ t.thrQ = u.thrQ ∧ t.rd THR_STAT_FULL = 1 ∧
          Sparse.get (fun _ => 0) c t.thrRes = 2 ∧ t.rd THR_REFUSED_V = satU 32 (u.rd THR_REFUSED_V + 1) ∧
          u.Only t [.engine] (fun b => b = THR_STAT ∨ b = THR_REFUSED ∨ RepReg b))) ∧
    (s.AwakeFor dt dirKeys u → ∀ a : Word,
      (∀ j : Job, u.thrQ.find? (fun j => j.addr = a.toNat) = some j → j.state ≠ 3 →
        ∃ t, exec (.jobCancel dt a) s = .next t ∧ t.thrQ = u.thrQ.filter (fun k => k ≠ j) ∧
          t.load32 (a.toNat + 28) = 7 * 2 ^ 28 + u.jobCount j % 65536 ∧
          (bit (dsc (u.jobWords j) 0) 25 = 1 → t.thrIrq = true) ∧
          (bit (dsc (u.jobWords j) 0) 24 = 0 → u.SameRegs t (fun _ => False)) ∧
          (∀ b, b < a.toNat + 28 ∨ a.toNat + 32 ≤ b → t.byte b = u.byte b) ∧ u.SameParts t [.engine]) ∧
      (∀ j : Job, u.thrQ.find? (fun j => j.addr = a.toNat) = some j → j.state = 3 →
        ∃ t, exec (.jobCancel dt a) s = .next t ∧ u.Only t [.engine] (fun _ => False) ∧
          t.thrQ = u.thrQ.map fun k => if k = j ∧ dscKind j.words = 0 ∧ j.stop = none
            then { j with stop := some (7, 0) } else k) ∧
      (∀ (k : Fin 16) (l : Lane), (∀ j ∈ u.thrQ, j.addr ≠ a.toNat) → u.lane k = some l → l.addr = a.toNat →
        (∀ i < k.val, ∀ m, u.lane i = some m → m.addr ≠ a.toNat) →
        ∃ t, exec (.jobCancel dt a) s = .next t ∧ t.lane k = none ∧ t.rdW (THR_LANE k) = 0 ∧
          t.load32 (a.toNat + 28) = 7 * 2 ^ 28 + l.seq % 65536 ∧ (∀ i, i ≠ k.val → t.lane i = u.lane i) ∧
          (∀ b, b < a.toNat + 28 ∨ a.toNat + 32 ≤ b → t.byte b = u.byte b) ∧ u.SameParts t [.engine]) ∧
      ((∀ j ∈ u.thrQ, j.addr ≠ a.toNat) → (∀ k < 16, ∀ l, u.lane k = some l → l.addr ≠ a.toNat) →
        exec (.jobCancel dt a) s = .next u)) ∧
    (s.Awake dt u → ∀ n : Fin 4,
      ∃ v, exec (.windowReady dt n) s = .next (if u.thrRun.isSome = true then v else v.thrNext) ∧
        (u.thrRun.isSome = true → v.thrQ.length = u.thrQ.length ∧
          (∀ j ∈ u.thrQ, j.state = 2 → u.windowReady j.words = true → { j with state := 1 } ∈ v.thrQ) ∧
          ∀ j ∈ u.thrQ, ¬ (j.state = 2 ∧ u.windowReady j.words = true) → j ∈ v.thrQ) ∧
        u.Only v [.engine] (fun _ => False)) ∧
    (s.AwakeFor dt thresherKeys u →
      (u.thrRun = none → exec (.transformBoundary dt) s = .next u.thrNext) ∧
      (∀ r : ThrRun, u.thrRun = some r → u.clk < r.endAt → exec (.transformBoundary dt) s = .next u) ∧
      (∀ r : ThrRun, u.thrRun = some r → r.endAt ≤ u.clk → ∃ t, exec (.transformBoundary dt) s = .next t) ∧
      ∀ (r : ThrRun) (j : Job), u.thrRun = some r → r.endAt ≤ u.clk → r.lane = none → u.thrQ = [j] → j.id = r.job →
        dscKind j.words = 2 → (∀ k < 16, ∀ l, u.lane k = some l → l.due = none) →
        let vs := plainValues j.words r.data
        let d := dsc j.words 5
        (∃ t, exec (.transformBoundary dt) s = .next t ∧ t.thrQ = [] ∧ t.thrRun = none ∧
          t.rd THR_STAT_DONE = 1 ∧ t.load32 (j.addr + 28) = 4 * 2 ^ 28 ∧
          (d + 4 * vs.length ≤ j.addr + 28 ∨ j.addr + 32 ≤ d →
            ∀ i < vs.length, t.load32 (d + 4 * i) = (vs.getD i 0).toNat) ∧
          (∀ b, (b < d ∨ d + 4 * vs.length ≤ b) → (b < j.addr + 28 ∨ j.addr + 32 ≤ b) → t.byte b = u.byte b) ∧
          u.SameParts t [.engine])) ∧
    (s.Awake dt u → ∀ (f : Fin 16) (a : Word) (n : Fin 17),
      (u.thrRun.bind u.runJob = none → exec (.fixedFunctionRetry dt 5 f a n) s = .next u) ∧
      (∃ t, exec (.fixedFunctionRetry dt 5 f a n) s = .next t) ∧
      ∀ (r : ThrRun) (j : Job), u.thrRun = some r → r.lane = none → u.thrQ = [j] → j.id = r.job → dscKind j.words = 2 →
        (∀ k < 16, ∀ l, u.lane k = some l → l.due = none) → dsc j.words 1 < 0x200000 →
        (n.val = 1 → ∃ t, exec (.fixedFunctionRetry dt 5 f a n) s = .next t ∧ t.thrRun = some r ∧ t.thrQ = [j] ∧
          t.rd PLG_ECC_SGL = satU 16 (u.rd PLG_ECC_SGL + 1) ∧ u.Only t [] (· = PLG_ECC)) ∧
        (n.val = 2 → ∃ t, exec (.fixedFunctionRetry dt 5 f a n) s = .next t ∧ t.thrQ = [] ∧
          t.thrRun = none ∧ t.rd THR_STAT_ERR = 1 ∧ t.rd PLG_ECC_DBL = satU 16 (u.rd PLG_ECC_DBL + 1) ∧
          t.load32 (j.addr + 28) = 5 * 2 ^ 28 + 3 * 2 ^ 24 ∧
          (∀ b, b < j.addr + 28 ∨ j.addr + 32 ≤ b → t.byte b = u.byte b) ∧ u.SameParts t [.engine])) ∧
    (s.Awake dt u → ∀ k : Fin 16,
      (u.lane k = none → exec (.laneBlockDue dt k) s = .next u) ∧
      ∀ l : Lane, u.lane k = some l →
        (l.fill.length ≠ 5120 → exec (.laneBlockDue dt k) s = .next u) ∧
        (l.fill.length = 5120 →
          ∃ v, exec (.laneBlockDue dt k) s = .next (if u.thrRun.isSome = true then v else v.thrNext) ∧
            v.lane k = some { l with fill := [], due := some (l.fill.reverse, l.fillStamp) } ∧ v.thrRun = u.thrRun ∧
            (∀ i, i ≠ k.val → v.lane i = u.lane i) ∧ u.Only v [.engine] (fun _ => False)))

/-- R198 to R202: the states of a silo buffer and what each command writes. -/
def Obligations.SiloBuffers : Prop :=
  ∀ (s u : State) (dt : Nat) (b : Fin 8),
    let st := u.rd (SIL_BSTAT_STATE b)
    let o := u.siloOf b
    let wa := 32 * u.rd (SIL_WFADDR_V b)
    let n := (u.siloSrcs b).length
    let ok := u.siloLive b = false ∧ u.siloArmOk b = true
    let mine := fun a => a = SIL_BSTAT b ∨ a ∈ silRecRegs b
    (s.AwakeFor dt dirKeys u →
      (ok → o.missed = [] ∨ o.missAt ≠ u.clk →
        ∃ t, exec (.siloArm dt b) s = .next t ∧ t.rd (SIL_BSTAT_STATE b) = 1 ∧ t.rd (SIL_BSTAT_WFDONE b) = 0 ∧
          t.siloOf b = {} ∧ (∀ k, k ≠ b.val → t.siloOf k = u.siloOf k) ∧ u.Only t [.engine] (· = SIL_BSTAT b)) ∧
      (ok → o.missed ≠ [] → o.missAt = u.clk → ∃ t, exec (.siloArm dt b) s = .next t ∧ t.rd (SIL_BSTAT_STATE b) = 2 ∧
        t.rd (SIL_BSTAT_TRIGMISS b) = o.missWas % 256) ∧
      (¬ ok → ∃ t, exec (.siloArm dt b) s = .next t ∧ t.rd SIL_STAT_ARMERR = 1 ∧
        u.Only t [] (fun a => a = SIL_STAT ∨ RepReg a)) ∧
      (st = 0 ∨ st = 3 → ∃ t, exec (.siloTrigger dt b) s = .next t ∧ t.rd (SIL_BSTAT_STATE b) = st ∧
        t.rd (SIL_BSTAT_TRIGMISS b) = satU 8 (u.rd (SIL_BSTAT_TRIGMISS b) + 1) ∧
        (t.siloOf b).src = o.src ∧ u.Only t [.engine] (· = SIL_BSTAT b)) ∧
      (st = 2 → o.hit ≠ u.clk → ∃ t, exec (.siloTrigger dt b) s = .next t ∧ t.rd (SIL_BSTAT_STATE b) = 2 ∧
        t.rd (SIL_BSTAT_RETRIG b) = satU 8 (u.rd (SIL_BSTAT_RETRIG b) + 1) ∧ u.Only t [] (· = SIL_BSTAT b)) ∧
      (st = 2 → o.hit = u.clk → ∃ t, exec (.siloTrigger dt b) s = .next t ∧ t.rd (SIL_BSTAT_STATE b) = 2 ∧
        ((t.siloOf b).cause, (t.siloOf b).num) =
          (if 2 < o.cause ∨ (o.cause = 2 ∧ 0 < o.num) then (2, 0) else (o.cause, o.num)) ∧
        (t.siloOf b).inst = (if u.clk < o.inst then u.clk else o.inst) ∧ u.Only t [.engine] (· ∈ silRecRegs b)) ∧
      (st = 1 → ∃ t, exec (.siloTrigger dt b) s = .next t ∧ t.rd (SIL_BSTAT_STATE b) = 2 ∧
        (∀ m < 8, bit (u.rd (SIL_CFG_LINK b)) m = 1 → u.rd (SIL_BSTAT_STATE m) = 1 → t.rd (SIL_BSTAT_STATE m) = 2) ∧
        (u.rd (SIL_CFG_LINK b) = 0 →
          t.rd (SIL_TRGSRC_CAUSE b) = 2 ∧ t.rd (SIL_TRGSRC_NUM b) = 0 ∧ (t.siloOf b).inst = u.clk ∧
          (∀ k < 5, t.rdW (SIL_TSW b k) = (u.stampAt (u.rd (SIL_CFG_FW b)) u.clk false).getD k 0) ∧
          (t.siloOf b).src = o.src ∧ u.Only t [.engine] mine)) ∧
      (∃ t, exec (.siloStop dt b) s = .next t ∧ t.rd (SIL_BSTAT_STATE b) = 0 ∧ t.siloOf b = {} ∧
        (st = 2 → ∀ p ∈ (silRecRegs b).zip o.saved, t.rdW p.1 = p.2) ∧
        (st ≠ 2 → ∀ a ∈ silRecRegs b, t.rdW a = u.rdW a) ∧ u.Only t [.engine] mine) ∧
      (if st = 3 ∧ u.rd (SIL_CFG_KIND b) = 2 then
        ∃ t, exec (.siloWavefrontRerun dt b) s = .next t ∧ t.rd (SIL_BSTAT_WFDONE b) = 0 ∧
          t.siloOf b = { o with wf := some u.clk } ∧ t.rd (SIL_BSTAT_STATE b) = 3 ∧ u.Only t [.engine] (· = SIL_BSTAT b)
       else exec (.siloWavefrontRerun dt b) s = .next u)) ∧
    (s.Awake dt u →
      (if st = 2 ∧ o.start.isSome = true ∧ u.siloNeed b ≤ u.siloCnt b then
        ∃ t, exec (.siloFreeze dt b) s = .next t ∧ t.rd (SIL_BSTAT_STATE b) = 3 ∧
          bit (t.rdW SIL_STAT).toNat (8 + b) = 1 ∧ (t.siloOf b).src = o.src ∧
          (u.rd (SIL_CFG_KIND b) = 2 → u.rd (SIL_WFCTL_WFEN b) = 1 → (t.siloOf b).wf = some u.clk) ∧
          u.Only t [.engine] (fun a => mine a ∨ a = SIL_STAT ∨ RepReg a)
       else exec (.siloFreeze dt b) s = .next u) ∧
      (¬ (st = 3 ∧ o.wf.isSome = true) → exec (.wavefrontDone dt b) s = .next u) ∧
      (st = 3 → o.wf.isSome = true → ∃ t, exec (.wavefrontDone dt b) s = .next t ∧ (t.siloOf b).wf = none ∧
        (∀ a, a < wa ∨ wa + 32 * n ≤ a → t.byte a = u.byte a) ∧ u.SameParts t [.engine, .fresh] ∧
        (wa + 32 * n ≤ 0x200000 → t.rd (SIL_BSTAT_WFDONE b) = 1 ∧ bit (t.rdW SIL_STAT).toNat (16 + b) = 1 ∧
          u.SameRegs t (fun a => a = SIL_BSTAT b ∨ a = SIL_STAT ∨ RepReg a)) ∧
        (0 < n → 0x200000 < wa + 32 → t.rdW SYS_MAPERR = BitVec.ofNat 32 wa ∧ t.rd SYS_MAPSRC_ORIG = 12 ∧
          t.rd SYS_MAPSRC_WR = 1 ∧ u.SameMem t ∧ u.SameRegs t (fun a => a = SYS_MAPERR ∨ a = SYS_MAPSRC))))

/-- R213 to R216, R220: the start queue and the dispatch of hands, with the frame. -/
def Obligations.Starts : Prop :=
  ∀ (s u : State) (dt : Nat),
    let E := fun a => a = PLG_STAT ∨ RepReg a
    (∀ (o : Orig) (w : Word), s.AwakeFor dt (startKeys w) u →
      let l := bits w.toNat 18 16
      let v := bits w.toNat 3 0
      let c := origCode o
      (bit w.toNat 31 = 0 → exec (.startRequest dt o w) s = .next u) ∧
      (bit w.toNat 31 = 1 → 14 ≤ v → ∃ t, exec (.startRequest dt o w) s = .next t ∧
        Sparse.get (fun _ => 0) c t.startRes = 3 ∧ t.logi = u.logi ∧ u.Only t [.engine] (fun _ => False)) ∧
      (bit w.toNat 31 = 1 → v < 14 → u.startFull l = true → ∃ t, exec (.startRequest dt o w) s = .next t ∧
        Sparse.get (fun _ => 0) c t.startRes = 2 ∧ t.logi = u.logi ∧ u.Only t [.engine] (fun _ => False)) ∧
      (bit w.toNat 31 = 1 → v < 14 → u.startFull l = false → ∃ t, exec (.startRequest dt o w) s = .next t ∧
        Sparse.get (fun _ => 0) c t.startRes = 1 ∧
        (t.logiOf l).q = (u.logiOf l).q ++ [{ vec := v, word := 2 ^ 28 + c, at_ := u.clk }] ∧
        (∀ k, k ≠ l → t.logiOf k = u.logiOf k) ∧ u.Only t [.engine] (fun _ => False))) ∧
    (∀ l : Fin 4, s.Awake dt u →
      let x := u.logiOf l
      let old := fun r : StartReq =>
        decide (r.vec ≠ 15) && decide (r.at_ + u.ageLimit (u.vecSuit l r.vec) ≤ u.clk)
      (∀ r, u.nextStart l = some r → r ∈ x.q ∧ ∀ k ∈ x.q, u.vecSuit l k.vec ≤ u.vecSuit l r.vec) ∧
      (∀ (p h : Nat) (r : StartReq), u.physOf l = some p → u.nextStart l = some r → u.ploughActive p = true →
        (u.ploughOf p).disp ≠ some u.clk → u.rd UPD_STAT_RECOV = 0 → h < 16 → (u.handOf p h).st = .idle →
        (∀ k < h, (u.handOf p k).st ≠ .idle) →
        ∃ t, exec (.startDispatch dt l) s = .next t ∧
          (let d := t.handOf p h
           d.st = .ready (u.clk + 1) ∧ d.xr 1 = BitVec.ofNat 32 r.word ∧ (∀ i, i ≠ 1 → d.xr i = 0) ∧
           (∀ i k, d.lane i k = 0) ∧ (∀ i, d.kr i = 0) ∧ d.hs = 0 ∧
           d.pc = 4 * u.rd (PLG_SVEC_ADDR (16 * l + r.vec)) ∧ d.suit = u.vecSuit l r.vec ∧ d.vec = r.vec) ∧
          (x.v15 = false → x.wait = [] → (t.logiOf l).q = x.q.erase r ∧ (t.logiOf l).wait = []) ∧
          (x.v15 = true → x.q.length = 8 → (t.logiOf l).v15 = false ∧ (t.logiOf l).wait = x.wait ∧
            (t.logiOf l).q = x.q.erase r ++ [{ vec := 15, word := 3 * 2 ^ 28, at_ := u.clk }]) ∧
          (∀ k ks, x.v15 = false → x.q.length = 8 → x.wait = k :: ks →
            (t.logiOf l).q = x.q.erase r ++ [k] ∧ (t.logiOf l).wait = ks) ∧
          (∀ k, k ≠ l.val → t.logiOf k = u.logiOf k) ∧ u.Only t [.engine] (fun _ => False)) ∧
      ((∀ p, u.physOf l = some p → u.nextStart l = none ∨ u.ploughActive p = false ∨
        (u.ploughOf p).disp = some u.clk ∨ u.rd UPD_STAT_RECOV = 1 ∨ ∀ h < 16, (u.handOf p h).st ≠ .idle) →
        exec (.startDispatch dt l) s = .next u) ∧
      ((∀ r ∈ x.q ++ x.wait, old r = false) → exec (.startAgeExpiry dt l) s = .next u) ∧
      ((∃ r ∈ x.q ++ x.wait, old r = true) → ∃ t, exec (.startAgeExpiry dt l) s = .next t ∧
        (∀ r, r.vec ≠ 15 →
          (r ∈ (t.logiOf l).q ++ (t.logiOf l).wait ↔ r ∈ x.q ++ x.wait ∧ old r = false)) ∧ t.rd PLG_STAT_SHED = 1 ∧
        t.rd PLG_SHED_V = satU 32 (u.rd PLG_SHED_V + (x.q ++ x.wait).countP old) ∧
        u.Only t [.engine] (fun a => a = PLG_SHED ∨ E a))) ∧
    (∀ l : Fin 4, s.AwakeFor dt (v15Keys l) u →
      let x := u.logiOf l
      if u.reqLine l = true ∧ u.v15Live l = false ∧ (u.physOf l).isSome = true then
        ∃ t, exec (.vector15Request dt l) s = .next t ∧
          (if x.q.length < 8 then (t.logiOf l).q = x.q ++ [{ vec := 15, word := 3 * 2 ^ 28, at_ := u.clk }]
           else (t.logiOf l).v15 = true ∧ (t.logiOf l).q = x.q) ∧
          (∀ k, k ≠ l.val → t.logiOf k = u.logiOf k) ∧ u.Only t [.engine] (fun _ => False)
      else exec (.vector15Request dt l) s = .next u) ∧
    (s.AwakeFor dt dirKeys u → ∀ (o : Orig) (l : Fin 8),
      (3 < l.val → ∃ t, exec (.icacheInvalidate dt o l) s = .next t ∧ t.rd PLG_STAT_CFGERR = 1 ∧ u.Only t [] E) ∧
      (∀ q, l.val < 4 → u.physOf l = some q → ∃ t, exec (.icacheInvalidate dt o l) s = .next t ∧
        (∀ pc, t.cached q pc = none) ∧ (∀ k, k ≠ q → t.ploughOf k = u.ploughOf k) ∧
          u.Only t [.engine] (fun _ => False)) ∧
      (l.val < 4 → u.physOf l = none → exec (.icacheInvalidate dt o l) s = .next u))

/-- R206, R222 to R226, R238, R239: the watchdog of the ploughs, their restarts and swaps. -/
def Obligations.Scarecrow : Prop :=
  ∀ (s u : State) (dt : Nat),
    let E := fun a => a = PLG_STAT ∨ RepReg a
    -- plough p stops for `k` and drains; with an empty store buffer it has drained at once
    let stops := fun (t : State) (p l k st c : Nat) =>
      ((u.ploughOf p).drain = none → t.rd (PLG_PSTAT_STATE p) = st ∧ (t.ploughOf p).until_ = u.clk + c) ∧
      ((u.ploughOf p).drain = none → (u.ploughOf p).sb ≠ [] → (t.ploughOf p).drain = some (l, k) ∧
        (t.ploughOf p).sb = (u.ploughOf p).sb ∧ t.hand = u.hand ∧ t.claims = u.claims ∧ t.physOf l = u.physOf l ∧
        (t.logiOf l).q = (u.logiOf l).q ∧ u.SameMem t) ∧
      ((u.ploughOf p).drain ≠ none → t.ploughOf p = u.ploughOf p ∧ t.hand = u.hand ∧ t.claims = u.claims ∧
        t.rd (PLG_PSTAT_STATE p) = u.rd (PLG_PSTAT_STATE p) ∧ u.SameMem t)
    let empty := fun p : Nat => (u.ploughOf p).drain = none ∧ (u.ploughOf p).sb = []
    let restarted := fun (t : State) (p l : Nat) => stops t p l 0 4 1024 ∧ u.SameParts t [.engine, .alarm] ∧
      u.SameMem t ∧ (empty p → (∀ h < 16, (t.handOf p h).st = .idle) ∧ (∀ pc, t.cached p pc = none) ∧
        (∀ k, k ∈ t.claims ↔ k ∈ u.claims ∧ k.2 ≠ l) ∧
        (u.startFull l = false →
          (t.logiOf l).q = (u.logiOf l).q ++ [{ vec := 0, word := 5 * 2 ^ 28, at_ := u.clk }]) ∧
        (8 ≤ (u.logiOf l).q.length → (t.logiOf l).q = (u.logiOf l).q ∧
          (t.logiOf l).wait = (u.logiOf l).wait ++ [{ vec := 0, word := 5 * 2 ^ 28, at_ := u.clk }]))
    let swapped := fun (t : State) (p f l : Nat) => stops t p l (f + 2) 2 (5 * cyMs) ∧
      u.SameParts t [.engine, .alarm, .health] ∧
      (empty p → t.physOf l = some f ∧ t.physOf 4 = none ∧
        t.logOf p = 7 ∧ t.rd (PLG_PSTAT_STATE f) = 0 ∧ t.logOf f = l ∧
        (∀ h < 16, (t.handOf p h).st = .idle) ∧ (∀ pc, t.cached f pc = none) ∧ (t.ploughOf f).sb = [] ∧
        (∀ k, k ∈ t.claims ↔ k ∈ u.claims ∧ k.2 ≠ l) ∧
        (∀ a, t.byte a = if tileBase f ≤ a ∧ a < tileBase (f + 1) then 0 else u.byte a) ∧ (t.logiOf l).exps = [] ∧
        (t.logiOf l).kick = u.clk ∧ t.rd PLG_STAT_SWAP = 1 ∧ t.rd YLD_STAT_SWAP = 1 ∧
        t.rd YLD_SWAPCNT_V = satU 32 (u.rd YLD_SWAPCNT_V + 1) ∧ t.lifeSwap = u.lifeSwap + 1)
    (s.AwakeFor dt dirKeys u → ∀ l : Fin 4,
      let x := u.logiOf l
      (∀ (p : Fin 5) (h : Fin 16) (w : Word),
        (u.logOf p = l → w.toNat % 65536 = 0x5A5A → ∃ t, exec (.scarecrowKick dt (.plough p h) l w) s = .next t ∧
          t.logiOf l = { x with kick := u.clk } ∧ (∀ k, k ≠ l.val → t.logiOf k = u.logiOf k) ∧
          u.Only t [.engine] (fun _ => False)) ∧
        (u.logOf p = l → w.toNat % 65536 ≠ 0x5A5A →
          exec (.scarecrowKick dt (.plough p h) l w) s = .next (u.expire l)) ∧
        (u.logOf p ≠ l → ∃ t, exec (.scarecrowKick dt (.plough p h) l w) s = .next t ∧
          t.rd SYS_MAPERR_ADDR = PLG_KICK l ∧
          t.rd SYS_MAPSRC_ORIG = p ∧ bit (t.rdW HDG_STAT).toNat 6 = 1 ∧ u.SameParts t [.alarm] ∧ u.SameMem t)) ∧
      (∀ (r : Fin 2) (w : Word), ∃ t, exec (.scarecrowKick dt (.host r) l w) s = .next t ∧
        t.rd SYS_MAPERR_ADDR = PLG_KICK l ∧ t.rd SYS_MAPSRC_ORIG = 5 + r ∧
        u.Only t [] (fun a => a = SYS_MAPERR ∨ a = SYS_MAPSRC)) ∧
      (∀ (r : Fin 2) (p : Nat), u.physOf l = some p →
        (∃ t, exec (.ploughRestartCmd dt r (Fin.castLE (by decide) l)) s = .next t ∧ restarted t p l) ∧
        ∀ f, u.fallow = some f → f ≠ p →
          ∃ t, exec (.ploughSwapCmd dt r (Fin.castLE (by decide) l)) s = .next t ∧ swapped t p f l) ∧
      (∀ r : Fin 2, u.physOf l = none → exec (.ploughRestartCmd dt r (Fin.castLE (by decide) l)) s = .next u) ∧
      (∀ r : Fin 2, u.physOf l = none ∨ u.fallow = none →
        ∃ t, exec (.ploughSwapCmd dt r (Fin.castLE (by decide) l)) s = .next t ∧ t.rd PLG_STAT_CFGERR = 1 ∧
          u.Only t [] E)) ∧
    (s.Awake dt u → ∀ (l : Fin 4) (p : Nat), u.physOf l = some p →
      let x := u.logiOf l
      let n := (inWindow u.clk x.exps).length
      let due := u.ploughActive p = true ∧ u.rd UPD_STAT_RECOV = 0 ∧ x.kick + u.rd (PLG_SCTO_TMO l) * cyMs ≤ u.clk
      (¬ due → exec (.scarecrowExpiry dt l) s = .next u) ∧
      (due → exec (.scarecrowExpiry dt l) s = .next (u.expire l)) ∧
      (n < 2 → restarted (u.expire l) p l ∧ (u.expire l).rd PLG_STAT_EXPIRE = 1 ∧
        (u.expire l).rd (PLG_SCTO_EXP l) = n + 1 ∧ ((u.expire l).logiOf l).exps = u.clk :: inWindow u.clk x.exps) ∧
      (2 ≤ n → ∀ f, u.fallow = some f → f ≠ p → swapped (u.expire l) p f l ∧ (u.expire l).rd PLG_STAT_EXPIRE = 1) ∧
      (2 ≤ n → u.fallow = none → restarted (u.expire l) p l ∧ (u.expire l).rd PLG_STAT_NOSWAP = 1) ∧
      (u.rd (PLG_PSTAT_STATE p) = 4 → (u.ploughOf p).until_ ≤ u.clk → (u.ploughOf p).sb = [] →
        ∃ t, exec (.ploughRestartEnd dt l) s = .next t ∧ t.rd (PLG_PSTAT_STATE p) = 0 ∧ (t.logiOf l).kick = u.clk ∧
          u.Only t [.engine] (· = PLG_PSTAT p)) ∧
      (u.rd (PLG_PSTAT_STATE p) ≠ 4 ∨ u.clk < (u.ploughOf p).until_ ∨ (u.ploughOf p).sb ≠ [] →
        exec (.ploughRestartEnd dt l) s = .next u)) ∧
    (s.AwakeFor dt dirKeys u → ∀ (r : Fin 2) (l : Fin 8), 3 < l.val →
      (∃ t, exec (.ploughSwapCmd dt r l) s = .next t ∧ t.rd PLG_STAT_CFGERR = 1 ∧ u.Only t [] E) ∧
      (∃ t, exec (.ploughRestartCmd dt r l) s = .next t ∧ t.rd PLG_STAT_CFGERR = 1 ∧ u.Only t [] E)) ∧
    (s.Awake dt u → ∀ (p : Fin 5) (pass : Bool),
      let done := u.rd (PLG_PSTAT_STATE p) = 2 ∧ (u.ploughOf p).until_ ≤ u.clk ∧ (u.ploughOf p).drain = none
      (done → ∃ t, exec (.selfTestEnd dt p pass) s = .next t ∧
        t.rd (PLG_PSTAT_PASS p) = b2n pass ∧ t.rd (PLG_PSTAT_STATE p) = (if pass then 1 else 3) ∧
        (pass = true → t.logOf p = 4 ∧ t.physOf 4 = some p.val) ∧
        u.Only t [.alarm] (fun a => a = PLG_PSTAT p ∨ a = PLG_MAP)) ∧
      (¬ done → exec (.selfTestEnd dt p pass) s = .next u)) ∧
    (s.Awake dt u →
      (u.ovSec = usTick u.clk / 1000000 → exec (.overloadMonitor dt) s = .next u) ∧
      (u.ovSec ≠ usTick u.clk / 1000000 → ∃ t, exec (.overloadMonitor dt) s = .next t ∧ t.ovEv = 0 ∧
        (∀ i < 5, bit (t.rdW PLG_OVSTAT).toNat i =
          if bit u.ovEv i = 1 then 1 else bit (u.rdW PLG_OVSTAT).toNat i) ∧
        u.Only t [.engine] (fun a => a = PLG_OVSTAT ∨ RepReg a)))

/-- R211, R242, R250, R254: the issue of instructions, illegal instructions, and the registers of a hand. -/
def Obligations.HandIssue : Prop :=
  (∀ (u : State) (p : Nat), ∀ h, u.pick p = some h → h < 16 ∧ u.handReady p h = true ∧
      (∀ k < 16, u.handReady p k = true → (u.handOf p k).suit ≤ 3 → (u.handOf p k).suit ≤ (u.handOf p h).suit) ∧
      (let last := Sparse.get (fun _ => 15) (u.handOf p h).suit (u.ploughOf p).last
       ∀ k < 16, u.handReady p k = true → (u.handOf p k).suit = (u.handOf p h).suit →
        (h + 31 - last % 16) % 16 ≤ (k + 31 - last % 16) % 16)) ∧
  (∀ (u : State) (p h : Nat) (w : Word) (f : Hand → State → State),
    (u.issues p h = false → u.issue p h w f = u) ∧
    (u.issues p h = true → execOk (u.handOf p h).pc = false → p < 5 → h < 16 →
      u.Traps (u.issue p h w f) p h 2 [] (fun a => a = SYS_MAPERR ∨ a = SYS_MAPSRC) ∧
      (u.issue p h w f).rdW SYS_MAPERR = BitVec.ofNat 32 (u.handOf p h).pc ∧
        (u.issue p h w f).rd SYS_MAPSRC_ORIG = p)) ∧
  (∀ (s u : State) (dt : Nat) (p : Fin 5) (h : Fin 16) (w : Word), s.Awake dt u → u.Turn p h w →
    (tzLegal w = false → ∃ t, exec (.illegalInstruction dt p h w 0) s = .next t ∧ u.Traps t p h 1 [] (fun _ => False)) ∧
    (u.cached p (u.handOf p h).pc = none → (u.handOf p h).pc < 0x200000 →
      ∃ t, exec (.illegalInstruction dt p h w 2) s = .next t ∧ u.Traps t p h 6 [] (· = PLG_ECC) ∧
        t.rd PLG_ECC_DBL = satU 16 (u.rd PLG_ECC_DBL + 1))) ∧
  (∀ (s u : State) (dt : Nat) (p : Fin 5) (h : Fin 16) (k : Fin 32), s.Awake dt u →
    u.Turn p h (encA 0 0 0 k 14 0x31) → ∃ t, exec (.brk dt p h k) s = .next t ∧ u.Traps t p h 7 [] (fun _ => False)) ∧
  ∀ (d : Hand) (i j : Nat) (w : Word),
    d.xr 0 = 0 ∧ d.setX 0 w = d ∧ (i ≠ 0 → (d.setX i w).xr i = w) ∧ (i ≠ j → (d.setX i w).xr j = d.xr j) ∧
    (∀ l k, (d.setLane i l w).lane j k = if 8 * i + l = 8 * j + k then w else d.lane j k) ∧
    (∀ (f : Nat → Word) (l : Nat), l < 8 → (d.setV i f).lane j l = if j = i then f l else d.lane j l) ∧
    (∀ z : Int, (d.setAcc i z).kr i = (if z < -2 ^ 79 then -2 ^ 79 else if 2 ^ 79 ≤ z then 2 ^ 79 - 1 else z) ∧
      (i ≠ j → (d.setAcc i z).kr j = d.kr j) ∧
      (d.setAcc i z).hs = (if -2 ^ 79 ≤ z ∧ z < 2 ^ 79 then d.hs else d.hs ||| 2 ^ 16)) ∧
    (∀ v : Nat, v < 2 ^ 64 → i % 2 = 0 → i ≠ 0 → (d.setPair i v).pair i = v)

/-- R245, R246, R257: results, flags, intervals and frame of the integer instructions. -/
def Obligations.TzInteger : Prop :=
  ∀ (s u : State) (dt : Nat) (p : Fin 5) (h : Fin 16) (rd ra rb : Fin 32), s.Awake dt u →
    let d := u.handOf p h
    let a := d.xr ra
    let b := d.xr rb
    let n := b.toNat % 32
    let does := fun (i : Instr) (w : Word) (x : Hand) =>
      u.Turn p h w → ∃ t, exec i s = .next t ∧ u.Retires t p h x 1 ∧ u.IssueOnly t p
    let held := fun z : Int =>
      if z < -2 ^ 31 then (d.setX rd 0x80000000#32).flags fQ
      else if 2 ^ 31 ≤ z then (d.setX rd 0x7FFFFFFF#32).flags fQ else d.setX rd (BitVec.ofInt 32 z)
    let A := fun fn => encA rd ra rb 0 fn 1
    does (.add dt p h rd ra rb) (A 0) (d.setX rd (a + b)) ∧
    does (.sub dt p h rd ra rb) (A 1) (d.setX rd (a - b)) ∧
    does (.and dt p h rd ra rb) (A 2) (d.setX rd (a &&& b)) ∧
    does (.ior dt p h rd ra rb) (A 3) (d.setX rd (a ||| b)) ∧
    does (.eor dt p h rd ra rb) (A 4) (d.setX rd (a ^^^ b)) ∧
    does (.shl dt p h rd ra rb) (A 5) (d.setX rd (a <<< n)) ∧
    does (.shru dt p h rd ra rb) (A 6) (d.setX rd (a >>> n)) ∧
    does (.shrs dt p h rd ra rb) (A 7) (d.setX rd (BitVec.ofInt 32 (a.toInt / 2 ^ n))) ∧
    does (.lts dt p h rd ra rb) (A 8) (d.setX rd (if a.toInt < b.toInt then 1 else 0)) ∧
    does (.ltu dt p h rd ra rb) (A 9) (d.setX rd (if a.toNat < b.toNat then 1 else 0)) ∧
    does (.mins dt p h rd ra rb) (A 10) (d.setX rd (if a.toInt ≤ b.toInt then a else b)) ∧
    does (.maxs dt p h rd ra rb) (A 11) (d.setX rd (if a.toInt ≤ b.toInt then b else a)) ∧
    does (.minu dt p h rd ra rb) (A 12) (d.setX rd (if a.toNat ≤ b.toNat then a else b)) ∧
    does (.maxu dt p h rd ra rb) (A 13) (d.setX rd (if a.toNat ≤ b.toNat then b else a)) ∧
    does (.addq dt p h rd ra rb) (A 14) (held (a.toInt + b.toInt)) ∧
    does (.subq dt p h rd ra rb) (A 15) (held (a.toInt - b.toInt)) ∧
    does (.absq dt p h rd ra) (encA rd ra 0 0 16 1) (held (if a.toInt < 0 then -a.toInt else a.toInt)) ∧
    (∃ z ≤ 32, a.toNat < 2 ^ (32 - z) ∧ (z < 32 → 2 ^ (31 - z) ≤ a.toNat) ∧
      does (.lzc dt p h rd ra) (encA rd ra 0 0 17 1) (d.setX rd (BitVec.ofNat 32 z))) ∧
    (∀ m : BitVec 16,
      does (.addk dt p h rd ra m) (encI rd ra 2 m) (d.setX rd (BitVec.ofInt 32 (a.toInt + m.toInt))) ∧
      does (.ltsk dt p h rd ra m) (encI rd ra 3 m) (d.setX rd (if a.toInt < m.toInt then 1 else 0)) ∧
      does (.ltuk dt p h rd ra m) (encI rd ra 4 m) (d.setX rd (if a.toNat < (m.signExtend 32).toNat then 1 else 0)) ∧
      does (.andk dt p h rd ra m) (encI rd ra 5 m) (d.setX rd (a &&& BitVec.ofNat 32 m.toNat)) ∧
      does (.iork dt p h rd ra m) (encI rd ra 6 m) (d.setX rd (a ||| BitVec.ofNat 32 m.toNat)) ∧
      does (.eork dt p h rd ra m) (encI rd ra 7 m) (d.setX rd (a ^^^ BitVec.ofNat 32 m.toNat)) ∧
      does (.hik dt p h rd m) (encI rd 0 9 m) (d.setX rd (BitVec.ofNat 32 (m.toNat * 2 ^ 16)))) ∧
    ∀ k : Fin 32,
      does (.shlk dt p h rd ra k) (encI rd ra 8 (BitVec.ofNat 16 k)) (d.setX rd (a <<< k.val)) ∧
      does (.shruk dt p h rd ra k) (encI rd ra 8 (BitVec.ofNat 16 (2 ^ 14 + k))) (d.setX rd (a >>> k.val)) ∧
      does (.shrsk dt p h rd ra k) (encI rd ra 8 (BitVec.ofNat 16 (2 ^ 15 + k)))
        (d.setX rd (BitVec.ofInt 32 (a.toInt / 2 ^ k.val)))

/-- R245 to R247, R258, R259: multiply, divide and accumulator instructions, with their frame. -/
def Obligations.TzMultiply : Prop :=
  ∀ (s u : State) (dt : Nat) (p : Fin 5) (h : Fin 16) (rd ra rb : Fin 32) (ka kb : Fin 4), s.Awake dt u →
    let d := u.handOf p h
    let a := d.xr ra
    let b := d.xr rb
    let does := fun (i : Instr) (w : Word) (x : Hand) (c : Nat) =>
      u.Turn p h w → ∃ t, exec i s = .next t ∧ u.Retires t p h x c ∧ u.IssueOnly t p
    let illegal := fun (i : Instr) (w : Word) =>
      u.Turn p h w → ∃ t, exec i s = .next t ∧ u.Traps t p h 1 [] (fun _ => False)
    let q := fun w : Word => (d.setX rd w).flags fQ
    let held := fun z : Int =>
      if z < -2 ^ 31 then q 0x80000000#32 else if 2 ^ 31 ≤ z then q 0x7FFFFFFF#32 else d.setX rd (BitVec.ofInt 32 z)
    let M := fun fn => encA rd ra rb 0 fn 10
    let K := fun fn => encA ka ra rb 0 fn 11
    let min := a = 0x80000000#32 ∧ b = 0xFFFFFFFF#32
    does (.mull dt p h rd ra rb) (M 0) (d.setX rd (BitVec.ofNat 32 (a.toNat * b.toNat))) 2 ∧
    does (.mulhs dt p h rd ra rb) (M 1) (d.setX rd (BitVec.ofInt 32 (a.toInt * b.toInt / 2 ^ 32))) 2 ∧
    does (.mulhu dt p h rd ra rb) (M 2) (d.setX rd (BitVec.ofNat 32 (a.toNat * b.toNat / 2 ^ 32))) 2 ∧
    does (.mulq dt p h rd ra rb) (M 3) (held ((a.toInt * b.toInt + 2 ^ 30) / 2 ^ 31)) 2 ∧
    does (.divs dt p h rd ra rb) (M 4) (if b = 0 then q (if a.toInt < 0 then 0x80000000#32 else 0x7FFFFFFF#32)
      else if min then q 0x7FFFFFFF#32 else d.setX rd (a.sdiv b)) 18 ∧
    does (.divu dt p h rd ra rb) (M 5) (if b = 0 then q 0xFFFFFFFF#32 else d.setX rd (a / b)) 18 ∧
    does (.mods dt p h rd ra rb) (M 6) (if b = 0 ∨ min then q 0 else d.setX rd (a.srem b)) 18 ∧
    does (.modu dt p h rd ra rb) (M 7) (if b = 0 then q 0 else d.setX rd (a % b)) 18 ∧
    does (.kmac dt p h ka ra rb) (K 0) (d.setAcc ka (d.kr ka + a.toInt * b.toInt)) 2 ∧
    does (.kmsu dt p h ka ra rb) (K 1) (d.setAcc ka (d.kr ka - a.toInt * b.toInt)) 2 ∧
    does (.kmacu dt p h ka ra rb) (K 2) (d.setAcc ka (d.kr ka + a.toNat * b.toNat)) 2 ∧
    (let ar := sx 16 (bits a.toNat 31 16)
     let ai := sx 16 (bits a.toNat 15 0)
     let br := sx 16 (bits b.toNat 31 16)
     let bi := sx 16 (bits b.toNat 15 0)
     (ka.val % 2 = 0 →
      does (.cmac dt p h ka ra rb) (K 3)
        ((d.setAcc ka (d.kr ka + ar * br - ai * bi)).setAcc (ka + 1) (d.kr (ka + 1) + ar * bi + ai * br)) 3 ∧
      does (.cmacj dt p h ka ra rb) (K 4)
        ((d.setAcc ka (d.kr ka + ar * br + ai * bi)).setAcc (ka + 1) (d.kr (ka + 1) - ar * bi + ai * br)) 3)) ∧
    (ka.val % 2 = 1 → illegal (.cmac dt p h ka ra rb) (K 3) ∧ illegal (.cmacj dt p h ka ra rb) (K 4)) ∧
    does (.kclr dt p h ka) (encA ka 0 0 0 5 11) (d.setK ka 0) 2 ∧
    (let n := if 48 < a.toNat % 64 then 48 else a.toNat % 64
     does (.kext dt p h rd kb ra) (encA rd ra kb 0 6 11)
      (held (if n = 0 then d.kr kb else (d.kr kb + 2 ^ (n - 1)) / 2 ^ n)) 2) ∧
    (∀ pt : Fin 32, pt.val < 3 →
      does (.krd dt p h rd kb pt) (encA rd 0 kb pt 7 11) (d.setX rd (BitVec.ofInt 32 (d.kr kb / 2 ^ (32 * pt.val)))) 2 ∧
      (u.Turn p h (encA ka ra 0 pt 8 11) → ∃ t, exec (.kwr dt p h ka ra pt) s = .next t ∧ u.IssueOnly t p ∧
        (∃ z : Int, u.Retires t p h (d.setK ka z) 2) ∧
        ∀ i < 80, bit (tc 80 ((t.handOf p h).kr ka)) i =
          if 32 * pt.val ≤ i ∧ i < 32 * pt.val + 32 then bit a.toNat (i - 32 * pt.val) else bit (tc 80 (d.kr ka)) i)) ∧
    (∀ pt : Fin 32, 3 ≤ pt.val → illegal (.krd dt p h rd kb pt) (encA rd 0 kb pt 7 11) ∧
      illegal (.kwr dt p h ka ra pt) (encA ka ra 0 pt 8 11)) ∧
    does (.kadd dt p h ka kb) (encA ka 0 kb 0 9 11) (d.setAcc ka (d.kr ka + d.kr kb)) 2 ∧
    does (.kflt dt p h rd kb ra) (encA rd ra kb 0 10 11)
      (d.setR rd (fpOfInt d.rm (d.kr kb) (-((a.toNat % 64 : Nat) : Int)) false)) 2

/-- R248, R260: the binary32 instructions and the choices the manual makes within IEEE 754. -/
def Obligations.TzFloat : Prop :=
  (∀ (s u : State) (dt : Nat) (p : Fin 5) (h : Fin 16) (rd ra rb : Fin 32), s.Awake dt u →
    let d := u.handOf p h
    let a := d.xr ra
    let b := d.xr rb
    let rm := bits d.hs 1 0
    let does := fun (i : Instr) (fn r2 : Nat) (r : FpRes) (c : Nat) =>
      u.Turn p h (encA rd ra r2 0 fn 12) → ∃ t, exec i s = .next t ∧
        u.Retires t p h ((d.setX rd r.1).flags r.2) c ∧ u.IssueOnly t p
    does (.fladd dt p h rd ra rb) 0 rb (fpAdd rm a b) 3 ∧ does (.flsub dt p h rd ra rb) 1 rb (fpSub rm a b) 3 ∧
    does (.flmul dt p h rd ra rb) 2 rb (fpMul rm a b) 3 ∧ does (.fldiv dt p h rd ra rb) 3 rb (fpDiv rm a b) 12 ∧
    does (.flsqrt dt p h rd ra) 4 0 (fpSqrt rm a) 14 ∧ does (.flmac dt p h rd ra rb) 5 rb (fpMac rm (d.xr rd) a b) 4 ∧
    does (.flmin dt p h rd ra rb) 6 rb (fpMin a b) 3 ∧ does (.flmax dt p h rd ra rb) 7 rb (fpMax a b) 3 ∧
    does (.flabs dt p h rd ra) 8 0 (a &&& 0x7FFFFFFF#32, 0) 1 ∧
      does (.flneg dt p h rd ra) 9 0 (a ^^^ 0x80000000#32, 0) 1 ∧
    does (.flceq dt p h rd ra rb) 10 rb (fpEq a b) 3 ∧ does (.flclt dt p h rd ra rb) 11 rb (fpLt a b) 3 ∧
    does (.flcle dt p h rd ra rb) 12 rb (fpLe a b) 3 ∧ does (.fltoi dt p h rd ra) 13 0 (fpToInt rm a 0) 3 ∧
    does (.itofl dt p h rd ra) 14 0 (fpFromInt rm a 0) 3 ∧ does (.qtofl dt p h rd ra) 15 0 (fpFromInt rm a (-31)) 3 ∧
    does (.fltoq dt p h rd ra) 16 0 (fpToInt rm a 31) 3) ∧
  ∀ (rm : Nat) (a b d : Word),
    let nan := fun w : Word => bits w.toNat 30 23 = 255 ∧ bits w.toNat 22 0 ≠ 0
    let quiet := fun w : Word => w ||| 0x00400000#32
    let iv := fun w : Word => nan w ∧ bit w.toNat 22 = 0
    (nan a → (fpAdd rm a b).1 = quiet a ∧ (fpSub rm a b).1 = quiet a ∧ (fpMul rm a b).1 = quiet a ∧
      (fpDiv rm a b).1 = quiet a ∧ (fpSqrt rm a).1 = quiet a ∧ (fpMin a b).1 = quiet a ∧ (fpMax a b).1 = quiet a ∧
      (fpMac rm d a b).1 = quiet a ∧ fpToInt rm a 0 = (0, 2 ^ 8) ∧ fpToInt rm a 31 = (0, 2 ^ 8)) ∧
    (¬ nan a → nan b → (fpAdd rm a b).1 = quiet b ∧ (fpSub rm a b).1 = quiet b ∧ (fpMul rm a b).1 = quiet b ∧
      (fpDiv rm a b).1 = quiet b ∧ (fpMin a b).1 = quiet b ∧ (fpMax a b).1 = quiet b ∧ (fpMac rm d a b).1 = quiet b) ∧
    (¬ nan a → ¬ nan b → nan d → (fpMac rm d a b).1 = quiet d) ∧
    (iv a ∨ iv b → bit (fpAdd rm a b).2 8 = 1 ∧ bit (fpMul rm a b).2 8 = 1 ∧ bit (fpDiv rm a b).2 8 = 1 ∧
      bit (fpEq a b).2 8 = 1 ∧ bit (fpMin a b).2 8 = 1) ∧
    (nan a ∨ nan b → (fpEq a b).1 = 0 ∧ fpLt a b = (0, 2 ^ 8) ∧ fpLe a b = (0, 2 ^ 8)) ∧
    (nan a ∨ nan b → ¬ iv a → ¬ iv b → (fpEq a b).2 = 0) ∧
    (b &&& 0x7FFFFFFF#32 = 0 → bits a.toNat 30 23 ≠ 255 → a &&& 0x7FFFFFFF#32 ≠ 0 →
      fpDiv rm a b = ((a ^^^ b) &&& 0x80000000#32 ||| 0x7F800000#32, 2 ^ 9)) ∧
    (a &&& 0x7FFFFFFF#32 = 0 → b &&& 0x7FFFFFFF#32 = 0 → fpDiv rm a b = (0x7FFFFFFF#32, 2 ^ 8) ∧
      fpSqrt rm a = (a, 0) ∧ fpEq a b = (1, 0)) ∧
    (a = 0x7F800000#32 → fpToInt rm a 0 = (0x7FFFFFFF#32, 2 ^ 8)) ∧
    (a = 0xFF800000#32 → fpToInt rm a 0 = (0x80000000#32, 2 ^ 8) ∧ fpSqrt rm a = (0x7FFFFFFF#32, 2 ^ 8))

/-- R261: the vector instructions, with their intervals and frame. -/
def Obligations.TzVector : Prop :=
  ∀ (s u : State) (dt : Nat) (p : Fin 5) (h : Fin 16) (vd va vb : Fin 16) (rd ra : Fin 32) (ka : Fin 4), s.Awake dt u →
    let d := u.handOf p h
    let a := d.lane va
    let b := d.lane vb
    let rm := bits d.hs 1 0
    let does := fun (i : Instr) (w : Word) (x : Hand) (c : Nat) =>
      u.Turn p h w → ∃ t, exec i s = .next t ∧ u.Retires t p h x c ∧ u.IssueOnly t p
    let V := fun fn => encA vd va vb 0 fn 13
    let lanes := fun (i : Instr) (w : Word) (f : Nat → FpRes) (c : Nat) =>
      u.Turn p h w → ∃ t, exec i s = .next t ∧ u.IssueOnly t p ∧ (∃ x, u.Retires t p h x c) ∧
        (∀ l < 8, (t.handOf p h).lane vd l = (f l).1) ∧
        (∀ j l, j ≠ vd.val → l < 8 → (t.handOf p h).lane j l = d.lane j l) ∧
        (∀ i, bit (t.handOf p h).hs i = 1 ↔ bit d.hs i = 1 ∨ ∃ l < 8, bit (f l).2 i = 1) ∧
        (t.handOf p h).x = d.x ∧ (t.handOf p h).k = d.k ∧ (t.handOf p h).pc = (d.pc + 4) % 2 ^ 32
    let held := fun z : Int => if z < -2 ^ 31 then (0x80000000#32, 2 ^ 16) else if 2 ^ 31 ≤ z then (0x7FFFFFFF#32, 2 ^
      16)
      else (BitVec.ofInt 32 z, 0)
    lanes (.vadd dt p h vd va vb) (V 0) (fun l => (a l + b l, 0)) 2 ∧
    lanes (.vsub dt p h vd va vb) (V 1) (fun l => (a l - b l, 0)) 2 ∧
    lanes (.vaddq dt p h vd va vb) (V 2) (fun l => held ((a l).toInt + (b l).toInt)) 2 ∧
    lanes (.vmulq dt p h vd va vb) (V 3) (fun l => held (((a l).toInt * (b l).toInt + 2 ^ 30) / 2 ^ 31)) 3 ∧
    lanes (.vmin dt p h vd va vb) (V 4) (fun l => (if (a l).toInt ≤ (b l).toInt then a l else b l, 0)) 2 ∧
    lanes (.vmax dt p h vd va vb) (V 5) (fun l => (if (a l).toInt ≤ (b l).toInt then b l else a l, 0)) 2 ∧
    lanes (.vfladd dt p h vd va vb) (V 6) (fun l => fpAdd rm (a l) (b l)) 4 ∧
    lanes (.vflsub dt p h vd va vb) (V 7) (fun l => fpSub rm (a l) (b l)) 4 ∧
    lanes (.vflmul dt p h vd va vb) (V 8) (fun l => fpMul rm (a l) (b l)) 4 ∧
    lanes (.vflmac dt p h vd va vb) (V 9) (fun l => fpMac rm (d.lane vd l) (a l) (b l)) 5 ∧
    lanes (.vsplat dt p h vd ra) (encA vd ra 0 0 10 13) (fun _ => (d.xr ra, 0)) 1 ∧
    lanes (.vqtofl dt p h vd va) (encA vd va 0 0 16 13) (fun l => fpFromInt rm (a l) (-31)) 4 ∧
    (∀ n : Fin 32, lanes (.vshrs dt p h vd va n) (encA vd va 0 n 15 13)
      (fun l => (BitVec.ofInt 32 ((a l).toInt / 2 ^ n.val), 0)) 2) ∧
    (∀ n : Fin 32, n.val < 8 →
      lanes (.vins dt p h vd ra n) (encA vd ra 0 n 11 13) (fun l => (if l = n.val then d.xr ra else d.lane vd l, 0)) 1 ∧
      does (.vext dt p h rd va n) (encA rd va 0 n 12 13) (d.setX rd (a n)) 1) ∧
    (∀ n : Fin 32, 8 ≤ n.val →
      (u.Turn p h (encA vd ra 0 n 11 13) → ∃ t, exec (.vins dt p h vd ra n) s = .next t ∧
        u.Traps t p h 1 [] (fun _ => False)) ∧
      (u.Turn p h (encA rd va 0 n 12 13) →
        ∃ t, exec (.vext dt p h rd va n) s = .next t ∧ u.Traps t p h 1 [] (fun _ => False))) ∧
    does (.vkdot dt p h ka va vb) (encA ka va vb 0 13 13)
      (d.setAcc ka (d.kr ka + ((List.range 8).map fun l => (a l).toInt * (b l).toInt).sum)) 4 ∧
    (let add := fun x y : FpRes => ((fpAdd rm x.1 y.1).1, (fpAdd rm x.1 y.1).2 ||| x.2 ||| y.2)
     let w := fun l : Nat => (a l, 0)
     let r := add (add (add (w 0) (w 1)) (add (w 2) (w 3))) (add (add (w 4) (w 5)) (add (w 6) (w 7)))
     does (.vflsum dt p h rd va) (encA rd va 0 0 14 13) ((d.setX rd r.1).flags r.2) 6)

/-- R253, R256, R262, R266: the loads, in both halves, with their frame. -/
def Obligations.TzLoads : Prop :=
  ∀ (s u : State) (dt : Nat) (p : Fin 5) (h : Fin 16),
    let d := u.handOf p h
    let mapped := fun (t : State) (a : Nat) => t.rdW SYS_MAPERR = BitVec.ofNat 32 a ∧ t.rd SYS_MAPSRC_ORIG = p ∧
      t.rd SYS_MAPSRC_WR = 0
    let M := fun a => a = SYS_MAPERR ∨ a = SYS_MAPSRC
    (s.Awake dt u → ∀ (rd ra : Fin 32) (vd : Fin 16) (m : BitVec 16),
      let a := (d.xr ra + m.signExtend 32).toNat
      let load := fun (i : Instr) (op dst kind n : Nat) => u.Turn p h (encI dst ra op m) →
        (ploughReads a n = true → a % n = 0 → ∃ t, exec i s = .next t ∧
          u.Waits t p h (.load kind dst a u.clk) ∧ u.IssueOnly t p) ∧
        (ploughReads a n = false → ∃ t, exec i s = .next t ∧ u.Traps t p h 4 [] M ∧ mapped t a) ∧
        (ploughReads a n = true → a % n ≠ 0 → ∃ t, exec i s = .next t ∧ u.Traps t p h 5 [] (fun _ => False))
      load (.ldb dt p h rd ra m) 0x10 rd 0 1 ∧ load (.ldbu dt p h rd ra m) 0x11 rd 1 1 ∧
      load (.ldh dt p h rd ra m) 0x12 rd 2 2 ∧ load (.ldhu dt p h rd ra m) 0x13 rd 3 2 ∧
      load (.ldw dt p h rd ra m) 0x14 rd 4 4 ∧ load (.ldv dt p h vd ra m) 0x15 vd 5 32) ∧
    (s.Awake dt u → ∀ (vd : Fin 16) (rn : Fin 32), u.Turn p h (encA vd rn 0 0 5 0x30) →
      let n := (d.xr rn).toNat
      (n < 4096 → ∃ t, exec (.grd dt p h vd rn) s = .next t ∧ u.Waits t p h (.load 6 vd n u.clk) ∧ u.IssueOnly t p) ∧
      (4096 ≤ n → ∃ t, exec (.grd dt p h vd rn) s = .next t ∧ u.Traps t p h 4 [] M ∧
        mapped t ((0x200000 + 16 * n) % 2 ^ 32))) ∧
    (s.AwakeFor dt (loadKeys p h) u → ∀ (kind rd a at_ : Nat), d.st = .wait (.load kind rd a at_) →
      let b := if kind = 6 then 0x200000 + 16 * a else a
      let n := [1, 1, 2, 2, 4, 32, 16].getD kind 16
      let c := if kind = 5 then 2 else 1
      let w := fun i : Nat => BitVec.ofNat 32 (u.load32 (ploughAddr p (a + 4 * i)))
      let plain := a < 0x200000 ∨ 0xF00000 ≤ a ∧ a < 0xF10000 ∨ 0x400000 ≤ a ∧ a < 0x800000
      (∀ k, u.clk < at_ + loadLat b ∨ u.overlaps p h b n = true → exec (.loadReturn dt p h k) s = .next u) ∧
      (at_ + loadLat b ≤ u.clk → u.overlaps p h b n = false →
        (kind < 6 → ∃ t x, exec (.loadReturn dt p h 0) s = .next t ∧ u.Retires t p h x c ∧
          (plain → a % n = 0 → u.nvC = none → u.cribCopy = none → u.engRun = {} →
            u.Only t [.engine] (fun _ => False) ∧ t.plough = u.plough ∧
            (let v := u.load (ploughAddr p a) n
             x = if kind = 0 then d.setX rd (BitVec.ofInt 32 (sx 8 v)) else
               if kind = 2 then d.setX rd (BitVec.ofInt 32 (sx 16 v)) else
               if kind = 5 then d.setV rd w else d.setX rd (BitVec.ofNat 32 v)))) ∧
        (kind = 6 → ∃ t, exec (.loadReturn dt p h 0) s = .next t ∧ u.Only t [.engine] (fun _ => False) ∧
          t.plough = u.plough ∧ u.Retires t p h (d.setV rd fun l => (u.binWords a).getD l 0) 1) ∧
        (kind < 6 → a < 0x200000 → u.logOf p < 4 → ∃ t, exec (.loadReturn dt p h 2) s = .next t ∧
          u.Traps t p h 6 [] (· = PLG_ECC) ∧ t.rd PLG_ECC_DBL = satU 16 (u.rd PLG_ECC_DBL + 1))))

/-- R218, R253, R256, R262, R266, R271: the stores, in both halves, with their frame. -/
def Obligations.TzStores : Prop :=
  ∀ (s u : State) (dt : Nat) (p : Fin 5),
    let sb := (u.ploughOf p).sb
    let M := fun a => a = SYS_MAPERR ∨ a = SYS_MAPSRC
    let posted := fun (t : State) (h : Nat) (c : Nat) (x : Post) => u.Retires t p h (u.handOf p h) c ∧
      (t.ploughOf p).sb = sb ++ [x] ∧ (∀ q, q ≠ p.val → t.ploughOf q = u.ploughOf q) ∧
      u.Only t [.engine, .fresh] (fun _ => False) ∧
      t.toEngineSt = { u.toEngineSt with hand := t.hand, plough := t.plough }
    let posts := fun (i : Instr) (h : Nat) (c : Nat) (x : Post) =>
      if sb.length < 4 then ∃ t, exec i s = .next t ∧ posted t h c x
      else ∃ t, exec i s = .next t ∧ u.Waits t p h .room ∧ u.IssueOnly t p
    (s.Awake dt u → ∀ (h : Fin 16) (rs ra : Fin 32) (vs : Fin 16) (m : BitVec 16),
      let d := u.handOf p h
      let a := (d.xr ra + m.signExtend 32).toNat
      let v := (d.xr rs).toNat
      let V := (List.range 8).flatMap fun l => leBytes 4 (d.lane vs l).toNat
      let bad := fun (b : Nat) (w : Word) => b = DUO_CTL ∧ u.duoCtlBad w = true
      let store := fun (i : Instr) (op src n c : Nat) (bs : List Byte) => u.Turn p h (encI src ra op m) →
        (ploughWrites a n = true → isReg a = false → a % n = 0 → posts i h c (.mem h a bs)) ∧
        (ploughWrites a n = true → isReg a = false → a % n ≠ 0 →
          ∃ t, exec i s = .next t ∧ u.Traps t p h 5 [] (fun _ => False)) ∧
        (ploughWrites a n = false → isReg a = false → ∃ t, exec i s = .next t ∧ u.Traps t p h 4 [] M ∧
          t.rdW SYS_MAPERR = BitVec.ofNat 32 a ∧ t.rd SYS_MAPSRC_ORIG = p ∧ t.rd SYS_MAPSRC_WR = 1)
      store (.stb dt p h rs ra m) 0x18 rs 1 1 [BitVec.ofNat 8 v] ∧
      store (.sth dt p h rs ra m) 0x19 rs 2 1 [BitVec.ofNat 8 v, BitVec.ofNat 8 (v / 256)] ∧
      store (.stw dt p h rs ra m) 0x1A rs 4 1 (leBytes 4 v) ∧ store (.stv dt p h vs ra m) 0x1B vs 32 2 V ∧
      (u.Turn p h (encI rs ra 0x1A m) → isReg a = true →
        (u.regClass p a (d.xr rs) = false → ¬ bad a (d.xr rs) →
          (a % 4 = 0 → posts (.stw dt p h rs ra m) h 1 (.mem h a (leBytes 4 v))) ∧
          (a % 4 ≠ 0 → ∃ t, exec (.stw dt p h rs ra m) s = .next t ∧ u.Traps t p h 5 [] (fun _ => False))) ∧
        (u.regClass p a (d.xr rs) = false → bad a (d.xr rs) → ∃ t, exec (.stw dt p h rs ra m) s = .next t ∧
          u.Traps t p h 4 [] M ∧ t.rdW SYS_MAPERR = BitVec.ofNat 32 a) ∧
        (u.regClass p a (d.xr rs) = true → ∃ t, exec (.stw dt p h rs ra m) s = .next t ∧
          u.Traps t p h 4 [.alarm] (fun b => M b ∨ Block 22 b) ∧ t.rdW SYS_MAPERR = BitVec.ofNat 32 a ∧
          bit (t.rdW HDG_STAT).toNat 6 = 1)) ∧
      (u.Turn p h (encI vs ra 0x1B m) → isReg a = true →
        ((∀ i < 8, u.regClass p (a + 4 * i) (d.lane vs i) = false ∧ ¬ bad (a + 4 * i) (d.lane vs i)) →
          (a % 32 = 0 → posts (.stv dt p h vs ra m) h 2 (.mem h a V)) ∧
          (a % 32 ≠ 0 → ∃ t, exec (.stv dt p h vs ra m) s = .next t ∧ u.Traps t p h 5 [] (fun _ => False))) ∧
        ((∃ i < 8, u.regClass p (a + 4 * i) (d.lane vs i) = true) → ∃ t, exec (.stv dt p h vs ra m) s = .next t ∧
          u.Traps t p h 4 [.alarm] (fun b => M b ∨ Block 22 b))) ∧
      (u.Turn p h (encI rs ra 0x18 m) → isReg a = true → ∃ t, exec (.stb dt p h rs ra m) s = .next t ∧
        u.Traps t p h 4 [] M) ∧
      (u.Turn p h (encI rs ra 0x19 m) → isReg a = true → ∃ t, exec (.sth dt p h rs ra m) s = .next t ∧
        u.Traps t p h 4 [] M)) ∧
    (s.Awake dt u → ∀ (h : Fin 16) (rn rb sh : Fin 32) (kb : Fin 4),
      let d := u.handOf p h
      let n := (d.xr rn).toNat
      let bin := fun (i : Instr) (w : Word) (set : Bool) (z : Int) => u.Turn p h w →
        (1024 ≤ n → n < 4096 → posts i h 1 (.bin h n set z)) ∧
        (n < 1024 ∨ 4096 ≤ n → ∃ t, exec i s = .next t ∧ u.Traps t p h 4 [] M ∧
          t.rdW SYS_MAPERR = BitVec.ofNat 32 (0x200000 + 16 * n))
      bin (.gadd dt p h rn rb sh) (encA 0 rn rb sh 2 0x30) false ((d.xr rb).toInt * 2 ^ sh.val) ∧
      bin (.gset dt p h rn rb sh) (encA 0 rn rb sh 3 0x30) true ((d.xr rb).toInt * 2 ^ sh.val) ∧
      bin (.gaddk dt p h rn kb) (encA 0 rn kb 0 4 0x30) false (d.kr kb) ∧
      (u.Turn p h (encA 0 rn 0 0 3 0x31) → posts (.idone dt p h rn) h 1 (.idone h (d.xr rn)))) ∧
    (s.AwakeFor dt (storeKeys p) u →
      -- what follows a completion where the plough was to drain: R223, R225, R440
      let done := fun (k : Fin 5) (v : State) => exec (.storeComplete dt p k) s = .next ((v.drained p).actReset) ∧
        ∀ h < 16, (u.handOf p h).st = .wait .room → (v.handOf p h).st = .ready u.clk
      (∀ k, sb = [] → exec (.storeComplete dt p k) s = .next u) ∧
      (∀ (k : Fin 5) (x : Post) (q : List Post), sb = x :: q → ∃ v, done k v ∧ (v.ploughOf p).sb = q) ∧
      (∀ (h a : Nat) (bs : List Byte) (q : List Post), sb = .mem h a bs :: q → isReg a = false →
        ∃ v, done 0 v ∧ (v.ploughOf p).sb = q ∧ u.SameParts v [.engine] ∧
          u.SameRegs v (fun _ => False) ∧ (∀ i < bs.length, v.byte (ploughAddr p a + i) = bs.getD i 0) ∧
          ∀ b, b < ploughAddr p a ∨ ploughAddr p a + bs.length ≤ b → v.byte b = u.byte b) ∧
      (∀ (h b : Nat) (set : Bool) (z : Int) (q : List Post), sb = .bin h b set z :: q →
        ∃ v, done 0 v ∧ (v.ploughOf p).sb = q ∧
          v.bin b = satS 96 (if set then z else u.bin b + z) ∧ (∀ c, c ≠ b → v.bin c = u.bin c) ∧
          u.Only v [.engine, .tally] (fun a => a = TAL_STAT ∨ RepReg a)) ∧
      (∀ (h : Nat) (w : Word) (q : List Post), sb = .idone h w :: q → (w.toNat % 256, u.logOf p) ∈ u.claims →
        ∃ v, done 0 v ∧ (v.ploughOf p).sb = q ∧
          v.claims = u.claims.filter (· ≠ (w.toNat % 256, u.logOf p)) ∧ u.Only v [.engine, .alarm] (fun _ => False)) ∧
      (∀ (x : Post) (q : List Post), sb = x :: q → ∃ v, done 3 v ∧ (v.ploughOf p).sb = q ∧ v.rd TMP_STAT_BIC = 1 ∧
        v.rd TMP_BIC_COUNT = satU 16 (u.rd TMP_BIC_COUNT + 1) ∧ v.bins = u.bins ∧ v.claims = u.claims ∧ u.SameMem v)) ∧
    (s.Awake dt u → ∀ (f : Fin 16) (a : Word) (n : Fin 17),
      (∃ t, exec (.fixedFunctionRetry dt 0 f a n) s = .next t ∧
        t.rd TMP_BIC_COUNT = satU 16 (u.rd TMP_BIC_COUNT + n) ∧
        ((t.fieldOf f).skip = if n.val = 16 then true else (u.fieldOf f).skip) ∧ u.SameMem t) ∧
      (∃ t, exec (.fixedFunctionRetry dt 1 f a n) s = .next t ∧
        t.rd TMP_BIC_COUNT = satU 16 (u.rd TMP_BIC_COUNT + n) ∧ t.field = u.field ∧ u.SameMem t) ∧
      (u.nvC.bind (·.todo.head?) = none → exec (.fixedFunctionRetry dt 2 f a n) s = .next u) ∧
      (u.nvC.bind (·.todo.head?) ≠ none → ∃ t, exec (.fixedFunctionRetry dt 2 f a n) s = .next t ∧
        t.rd TMP_BIC_COUNT = satU 16 (u.rd TMP_BIC_COUNT + n)) ∧
      ∀ k : Fin 6, k.val = 3 ∨ k.val = 4 → ∃ t, exec (.fixedFunctionRetry dt k f a n) s = .next t ∧
        t.rd TMP_BIC_COUNT = satU 16 (u.rd TMP_BIC_COUNT + 1) ∧ t.ffDrop = a.toNat / 4 * 4 :: u.ffDrop ∧ u.SameMem t)

/-- R253, R263, R264: atomics and control flow, with their frame. -/
def Obligations.TzAtomics : Prop :=
  ∀ (s u : State) (dt : Nat) (p : Fin 5) (h : Fin 16) (rd ra rb : Fin 32), s.Awake dt u →
    let d := u.handOf p h
    let a := (d.xr ra).toNat
    let b := ploughAddr p a
    let old := BitVec.ofNat 32 (u.load32 b)
    let L := if 0xF00000 ≤ a then 2 else 6
    let ok := a + 4 ≤ 0x200000 ∨ 0xF00000 ≤ a ∧ a + 4 ≤ 0xF10000
    let atomic := fun (i : Fin 5 → Instr) (fn : Nat) (new : Word) => u.Turn p h (encA rd ra rb 0 fn 0x1C) →
      (u.storing p h = true → ∀ k, ∃ t, exec (i k) s = .next t ∧ u.Waits t p h .drain ∧ u.IssueOnly t p) ∧
      (u.storing p h = false →
        (¬ ok → ∀ k, ∃ t, exec (i k) s = .next t ∧ t.rdW SYS_MAPERR = BitVec.ofNat 32 a ∧
          u.Traps t p h 4 [] (fun a => a = SYS_MAPERR ∨ a = SYS_MAPSRC)) ∧
        (ok → a % 4 ≠ 0 → ∀ k, ∃ t, exec (i k) s = .next t ∧ u.Traps t p h 5 [] (fun _ => False)) ∧
        (ok → a % 4 = 0 → ∃ t, exec (i 0) s = .next t ∧ u.Retires t p h (d.setX rd old) (3 + L) ∧
          t.load32 b = new.toNat ∧ (∀ c, c < b ∨ b + 4 ≤ c → t.byte c = u.byte c) ∧ u.SameParts t [.engine, .fresh] ∧
          u.SameRegs t (fun _ => False) ∧ (t.ploughOf p).sb = (u.ploughOf p).sb) ∧
        (a % 4 = 0 → a + 4 ≤ 0x200000 → ∃ t, exec (i 2) s = .next t ∧ u.Traps t p h 6 [] (· = PLG_ECC)))
    let branch := fun (i : BitVec 16 → Instr) (op : Nat) (c : Bool) => ∀ off, u.Turn p h (encB ra rb op off) →
      (c = true → ∃ t, exec (i off) s = .next t ∧ u.IssueOnly t p ∧ u.OtherHands t p h ∧
        t.handOf p h = { d with pc := ((d.pc + 4 * off.toInt) % (2 ^ 32 : Nat)).toNat, st := .ready (u.clk + 2) }) ∧
      (c = false → ∃ t, exec (i off) s = .next t ∧ u.IssueOnly t p ∧ u.Retires t p h d 1)
    let x := d.xr ra
    let y := d.xr rb
    let sum := old.toNat + y.toNat
    atomic (fun k => .aadd dt p h rd ra rb k) 0 (BitVec.ofNat 32 sum) ∧
    atomic (fun k => .aswap dt p h rd ra rb k) 1 y ∧
    atomic (fun k => .acas dt p h rd ra rb k) 2 (if old = d.xr rd then y else old) ∧
    branch (fun o => .breq dt p h ra rb o) 0x20 (decide (x = y)) ∧
    branch (fun o => .brne dt p h ra rb o) 0x21 (decide (x ≠ y)) ∧
    branch (fun o => .brlt dt p h ra rb o) 0x22 (decide (x.toInt < y.toInt)) ∧
    branch (fun o => .brge dt p h ra rb o) 0x23 (decide (y.toInt ≤ x.toInt)) ∧
    branch (fun o => .brltu dt p h ra rb o) 0x24 (decide (x.toNat < y.toNat)) ∧
    branch (fun o => .brgeu dt p h ra rb o) 0x25 (decide (y.toNat ≤ x.toNat)) ∧
    (∀ off : BitVec 26,
      let dest := ((d.pc + 4 * off.toInt) % (2 ^ 32 : Nat)).toNat
      (u.Turn p h (encJ 0x26 off) → ∃ t, exec (.call dt p h off) s = .next t ∧ u.IssueOnly t p ∧ u.OtherHands t p h ∧
        t.handOf p h = { d.setX 31 (BitVec.ofNat 32 (d.pc + 4)) with pc := dest, st := .ready (u.clk + 2) }) ∧
      (u.Turn p h (encJ 0x27 off) → ∃ t, exec (.jump dt p h off) s = .next t ∧ u.IssueOnly t p ∧ u.OtherHands t p h ∧
        t.handOf p h = { d with pc := dest, st := .ready (u.clk + 2) })) ∧
    ∀ m : BitVec 16, u.Turn p h (encI rd ra 0x28 m) →
      let dest := (x + m.signExtend 32).toNat
      (dest % 4 = 0 → ∃ t, exec (.jreg dt p h rd ra m) s = .next t ∧ u.IssueOnly t p ∧ u.OtherHands t p h ∧
        t.handOf p h = { d.setX rd (BitVec.ofNat 32 (d.pc + 4)) with pc := dest, st := .ready (u.clk + 2) }) ∧
      (dest % 4 ≠ 0 → ∃ t, exec (.jreg dt p h rd ra m) s = .next t ∧ u.Traps t p h 3 [] (fun _ => False))

/-- R221, R231, R265, R268, R269, R271: the instructions that wait for data, messages and angles, with their frame. -/
def Obligations.TzQueues : Prop :=
  ∀ (s u : State) (dt : Nat) (p : Fin 5),
    let l := u.logOf p
    let popped := fun (t : State) (q : List HopE) => t.hopQ l = q ∧ (∀ k, k ≠ l → t.hopQ k = u.hopQ k) ∧
      u.Only t [.engine, .fresh] (fun _ => False) ∧ t.logi = u.logi ∧ (t.ploughOf p).sb = (u.ploughOf p).sb
    let taken := fun (t : State) (q : List (Word × Word)) => t.logiOf l = { u.logiOf l with mail := q } ∧
      (∀ k, k ≠ l → t.logiOf k = u.logiOf k) ∧ u.Only t [.engine, .fresh] (fun _ => False) ∧ t.hop = u.hop
    (s.Awake dt u → ∀ (h : Fin 16) (rd rt : Fin 32),
      let d := u.handOf p h
      (u.Turn p h (encA rd 0 rt 0 0 0x30) →
        (∀ e q, u.hopQ l = e :: q → u.hopWaiters p = [] → ∃ t, exec (.hpop dt p h rd rt) s = .next t ∧
          u.Retires t p h ((d.setX rd e.val).setX rt e.tag) 3 ∧ popped t q) ∧
        (u.hopQ l = [] ∨ u.hopWaiters p ≠ [] → ∃ t, exec (.hpop dt p h rd rt) s = .next t ∧
          u.Waits t p h (.hpop rd rt u.clk) ∧ u.IssueOnly t p)) ∧
      (u.Turn p h (encA rd 0 rt 0 1 0x30) →
        (∀ e q, u.hopQ l = e :: q → ∃ t, exec (.hpeek dt p h rd rt) s = .next t ∧
          u.Retires t p h ((d.setX rd e.val).setX rt e.tag) 3 ∧ u.IssueOnly t p) ∧
        (u.hopQ l = [] → ∃ t, exec (.hpeek dt p h rd rt) s = .next t ∧
          u.Retires t p h ((d.setX rd 0).setX rt 0xFFFFFFFF#32) 3 ∧ u.IssueOnly t p)) ∧
      (∀ nb : Bool, u.Turn p h (encA rd 0 rt (b2n nb) 1 0x31) →
        (∀ e q, (u.logiOf l).mail = e :: q → u.mailWaiters p = [] → ∃ t, exec (.mrcv dt p h rd rt nb) s = .next t ∧
          u.Retires t p h ((d.setX rd e.1).setX rt e.2) 3 ∧ taken t q) ∧
        ((u.logiOf l).mail = [] ∨ u.mailWaiters p ≠ [] →
          (nb = true → ∃ t, exec (.mrcv dt p h rd rt nb) s = .next t ∧
            u.Retires t p h ((d.setX rd 0).setX rt 0xFFFFFFFF#32) 3 ∧ u.IssueOnly t p) ∧
          (nb = false → ∃ t, exec (.mrcv dt p h rd rt nb) s = .next t ∧
            u.Waits t p h (.mrcv rd rt u.clk) ∧ u.IssueOnly t p))) ∧
      (∀ (ra : Fin 32) (fw : Fin 4), u.Turn p h (encA rd ra rt fw 8 0x30) →
        let tgt := (d.xr ra).toNat + (d.xr (ra + 1)).toNat * 2 ^ 32
        let us := (d.xr rt).toNat
        (ra.val % 2 = 1 ∨ ra.val = 0 → ∃ t, exec (.await dt p h rd ra rt fw) s = .next t ∧
          u.Traps t p h 1 [] (fun _ => False)) ∧
        (ra.val % 2 = 0 → ra.val ≠ 0 →
          (u.rd (FUR_CTL_EN fw) = 0 → ∃ t, exec (.await dt p h rd ra rt fw) s = .next t ∧
            u.Retires t p h (d.setX rd 1) 2 ∧ u.IssueOnly t p) ∧
          (u.rd (FUR_CTL_EN fw) = 1 → 0 ≤ angDiff (u.angle fw) tgt → ∃ t, exec (.await dt p h rd ra rt fw) s = .next t ∧
            u.Retires t p h (d.setX rd 0) 2 ∧ u.IssueOnly t p) ∧
          (u.rd (FUR_CTL_EN fw) = 1 → angDiff (u.angle fw) tgt < 0 → ∃ t, exec (.await dt p h rd ra rt fw) s = .next t ∧
            u.Waits t p h (.await rd fw tgt (if us = 0 then none else some (usTick u.clk + us))) ∧ u.IssueOnly t p))) ∧
      (∀ fw : Fin 4, u.Turn p h (encA rd 0 0 fw 9 0x30) →
        (rd.val % 2 = 0 → rd.val ≠ 0 → ∃ t, exec (.ard dt p h rd fw) s = .next t ∧ u.IssueOnly t p ∧
          u.Retires t p h ((d.setX rd (BitVec.ofNat 32 (u.angle fw))).setX (rd + 1)
            (BitVec.ofNat 32 (u.angle fw / 2 ^ 32))) 2) ∧
        (rd.val % 2 = 1 ∨ rd.val = 0 → ∃ t, exec (.ard dt p h rd fw) s = .next t ∧
          u.Traps t p h 1 [] (fun _ => False))) ∧
      (∀ (vd : Fin 16) (fw : Fin 4), u.Turn p h (encA vd 0 0 fw 10 0x30) →
        ∃ t, exec (.ats dt p h vd fw) s = .next t ∧ u.IssueOnly t p ∧
          u.Retires t p h (d.setV vd fun i => (u.stamp fw).getD i 0) 3) ∧
      (∀ (r fw tgt : Nat) (tmo : Option Nat), d.st = .wait (.await r fw tgt tmo) →
        let ends := fun st : Word => ∃ t, exec (.awaitEnd dt p h) s = .next t ∧ u.Retires t p h (d.setX r st) 1 ∧
          u.Only t [.engine] (fun _ => False) ∧ t.plough = u.plough
        let reached := 0 ≤ angDiff ((u.furrow fw).angle (u.clk - 1)) tgt
        (u.rd (FUR_CTL_EN fw) = 0 → ends 1) ∧ (u.rd (FUR_CTL_EN fw) = 1 → reached → ends 0) ∧
        (∀ e, u.rd (FUR_CTL_EN fw) = 1 → ¬ reached → tmo = some e → e ≤ usTick u.clk → ends 2) ∧
        (u.rd (FUR_CTL_EN fw) = 1 → ¬ reached → (∀ e, tmo = some e → usTick u.clk < e) →
          exec (.awaitEnd dt p h) s = .next u)) ∧
      (∀ (r r2 at_ : Nat), u.ploughActive p = true → d.st = .wait (.hpop r r2 at_) → ∀ e q, u.hopQ l = e :: q →
        (∀ k < 16, ∀ a b c, (u.handOf p k).st = .wait (.hpop a b c) → (u.handOf p k).suit < d.suit ∨
          ((u.handOf p k).suit = d.suit ∧ (at_ < c ∨ at_ = c ∧ h.val ≤ k))) →
        ∃ t, exec (.hpopWaitEnd dt p) s = .next t ∧ u.Retires t p h ((d.setX r e.val).setX r2 e.tag) 3 ∧ popped t q) ∧
      (∀ (r r2 at_ : Nat), u.ploughActive p = true → d.st = .wait (.mrcv r r2 at_) → ∀ e q, (u.logiOf l).mail = e :: q →
        (∀ k < 16, ∀ a b c, (u.handOf p k).st = .wait (.mrcv a b c) → (u.handOf p k).suit < d.suit ∨
          ((u.handOf p k).suit = d.suit ∧ (at_ < c ∨ at_ = c ∧ h.val ≤ k))) →
        ∃ t, exec (.mrcvWaitEnd dt p) s = .next t ∧ u.Retires t p h ((d.setX r e.1).setX r2 e.2) 3 ∧ taken t q)) ∧
    (∀ (h : Fin 16) (rd ra rb : Fin 32), s.AwakeFor dt (msndKeys p h ra) u → u.Turn p h (encA rd ra rb 0 0 0x31) →
        let d := u.handOf p h
        let m := (d.xr ra).toNat % 8
        let x := u.logiOf m
        let msg := (d.xr rb, BitVec.ofNat 32 (l * 2 ^ 28 + h))
        let sends := fun st : Word => ∃ t, exec (.msnd dt p h rd ra rb) s = .next t ∧ u.Retires t p h (d.setX rd st) 3 ∧
          u.IssueOnly t p
        (u.storing p h = true → ∃ t, exec (.msnd dt p h rd ra rb) s = .next t ∧ u.Waits t p h .drain ∧
          u.IssueOnly t p) ∧
        (u.storing p h = false →
          (3 < m → sends 3) ∧ (m ≤ 3 → u.physOf m = none → sends 2) ∧
          (m ≤ 3 → (u.physOf m).isSome = true → 16 ≤ x.mail.length → sends 1) ∧
          (m ≤ 3 → (u.physOf m).isSome = true → x.mail.length < 16 → ∃ t, exec (.msnd dt p h rd ra rb) s = .next t ∧
            u.Retires t p h (d.setX rd 0) 3 ∧ t.logiOf m = { x with mail := x.mail ++ [msg] } ∧
            (∀ k, k ≠ m → t.logiOf k = u.logiOf k) ∧ u.Only t [.engine, .fresh] (fun _ => False)))) ∧
    (s.Awake dt u →
      (u.hopQ l = [] ∨ u.hopWaiters p = [] → exec (.hpopWaitEnd dt p) s = .next u) ∧
      ((u.logiOf l).mail = [] ∨ u.mailWaiters p = [] → exec (.mrcvWaitEnd dt p) s = .next u))

/-- R270 to R272, R266, R396: the instructions that ask another unit for something, with their statuses and frame. -/
def Obligations.TzRequests : Prop :=
  ∀ (s u : State) (dt : Nat) (p : Fin 5) (h : Fin 16) (rd ra rb : Fin 32) (vs : Fin 16),
    let d := u.handOf p h
    let x := (d.xr ra).toNat
    let l := u.logOf p
    let drains := fun i : Instr => u.storing p h = true →
      ∃ t, exec i s = .next t ∧ u.Waits t p h .drain ∧ u.IssueOnly t p
    let answers := fun (i : Instr) (st : Word) (c : Nat) => ∃ t, exec i s = .next t ∧ u.Retires t p h (d.setX rd st) c ∧
      u.IssueOnly t p
    let n := x % 1024
    (s.AwakeFor dt (seedOpKeys p h ra) u → u.Turn p h (encA rd ra vs 0 12 0x30) →
      let w := d.lane vs 3 ||| 0x80000000#32
      let per := (d.lane vs 2).toNat
      let tgt := (d.lane vs 0).toNat + (d.lane vs 1).toNat * 2 ^ 32
      let f := u.furrow (bits w.toNat 30 29)
      let ahead := angDiff (f.angle u.clk) tgt < 0 ∨ angDiff (f.before u.clk) tgt < 0
      let F := fun a => (∃ k < 4, a = seedWord n k) ∨ a = SOWC_STAT ∨ RepReg a
      let arms := fun (st : Word) (f : State → Prop) => ∃ t, exec (.sarm dt p h rd ra vs) s = .next t ∧
        u.Retires t p h (d.setX rd st) 11 ∧ f t ∧ u.Only t [.engine, .fresh] F
      drains (.sarm dt p h rd ra vs) ∧
      (u.storing p h = false → u.seedArmed n = true → arms 3 fun t => t.rd SOWC_STAT_BUSYWR = 1 ∧
        t.rd SOWC_STAT_SEED = n ∧ ∀ k < 4, t.rdW (seedWord n k) = u.rdW (seedWord n k)) ∧
      (u.storing p h = false → u.seedArmed n = false →
        (seedOk w.toNat per = false → arms 1 fun t => t.rd SOWC_STAT_BADSEED = 1 ∧ t.rd SOWC_STAT_SEED = n ∧
          (∀ k < 3, t.rdW (seedWord n k) = d.lane vs k) ∧ t.rdW (seedWord n 3) = d.lane vs 3 &&& 0x7FFFFFFF#32) ∧
        (seedOk w.toNat per = true → ahead → arms 0 fun t =>
          (∀ k < 3, t.rdW (seedWord n k) = d.lane vs k) ∧ t.rdW (seedWord n 3) = w) ∧
        (seedOk w.toNat per = true → ¬ ahead → per = 0 → arms 2 fun t =>
          t.rd SOWC_STAT_PAST = 1 ∧ t.rd SOWC_STAT_SEED = n ∧ t.seedArmed n = false) ∧
        (seedOk w.toNat per = true → ¬ ahead → per ≠ 0 → arms 0 fun t => t.rdW (seedWord n 3) = w ∧
          t.seedTarget n = (tgt + ((angDiff (f.angle u.clk) tgt).toNat / per + 1) * per) % 2 ^ 64))) ∧
    (s.AwakeFor dt (seedOpKeys p h ra) u → u.Turn p h (encA rd ra 0 0 13 0x30) → drains (.sdis dt p h rd ra) ∧
      (u.storing p h = false → ∃ t, exec (.sdis dt p h rd ra) s = .next t ∧
        u.Retires t p h (d.setX rd (if u.seedArmed n = true then 0 else 1)) 11 ∧
        t.rdW (seedWord n 3) = u.rdW (seedWord n 3) &&& 0x7FFFFFFF#32 ∧ (∀ q ∈ t.seedQ, q.seed ≠ n) ∧
        (∀ q ∈ t.seedD, q.seed ≠ n) ∧ u.Only t [.engine, .fresh, .furrow] (· = seedWord n 3))) ∧
    (s.Awake dt u → u.Turn p h (encA rd ra 0 0 14 0x30) → drains (.tpost dt p h rd ra) ∧
      (u.storing p h = false →
        let new : Job := { id := u.thrId, addr := x, suit := d.suit, poster := some l }
        let took := fun (v : State) (q : List Job) =>
          exec (.tpost dt p h rd ra) s = .next (v.thrNext.retire p h (d.setX rd 1) 11) ∧ v.thrQ = q ++ [new] ∧
            v.load32 (x + 28) = 2 ^ 28
        (x % 32 ≠ 0 ∨ 0x200000 < x + 32 → ∃ t, exec (.tpost dt p h rd ra) s = .next t ∧
          u.Retires t p h (d.setX rd 3) 11 ∧ t.rd THR_STAT_POSTERR = 1 ∧ t.thrQ = u.thrQ ∧
          u.Only t [.engine, .fresh] (fun a => a = THR_STAT ∨ RepReg a)) ∧
        (x % 32 = 0 → x + 32 ≤ 0x200000 → u.thrQ.length < 32 → ∃ v, took v u.thrQ ∧
          (∀ b, b < x + 28 ∨ x + 32 ≤ b → v.byte b = u.byte b) ∧
          u.SameParts v [.engine, .fresh] ∧ u.SameRegs v (fun _ => False)) ∧
        (∀ k : Job, x % 32 = 0 → x + 32 ≤ 0x200000 → 32 ≤ u.thrQ.length → shedJob d.suit u.thrQ = some k →
          ∃ v, took v (u.thrQ.filter fun y => y ≠ k) ∧ v.rd THR_STAT_SHED = 1) ∧
        (x % 32 = 0 → x + 32 ≤ 0x200000 → 32 ≤ u.thrQ.length → shedJob d.suit u.thrQ = none →
          ∃ t, exec (.tpost dt p h rd ra) s = .next t ∧ u.Retires t p h (d.setX rd 2) 11 ∧ t.rd THR_STAT_FULL = 1 ∧
            t.thrQ = u.thrQ ∧ u.Only t [.engine, .fresh] (fun a => a = THR_STAT ∨ a = THR_REFUSED ∨ RepReg a)))) ∧
    (s.AwakeFor dt (spawnKeys p h ra) u → u.Turn p h (encA rd ra rb 0 4 0x31) → drains (.spawn dt p h rd ra rb) ∧
      (u.storing p h = false →
        let m := bits x 18 16
        let v := bits x 3 0
        (x ≠ m * 65536 + v → answers (.spawn dt p h rd ra rb) 3 3) ∧
        (x = m * 65536 + v → 14 ≤ v → answers (.spawn dt p h rd ra rb) 2 3) ∧
        (x = m * 65536 + v → v < 14 → u.startFull m = true → answers (.spawn dt p h rd ra rb) 1 3) ∧
        (x = m * 65536 + v → v < 14 → u.startFull m = false → ∃ t, exec (.spawn dt p h rd ra rb) s = .next t ∧
          u.Retires t p h (d.setX rd 0) 3 ∧ (t.logiOf m).q = (u.logiOf m).q ++
            [{ vec := v, word := 2 ^ 29 + h * 65536 + (d.xr rb).toNat % 1024, at_ := u.clk }] ∧
          (∀ k, k ≠ m → t.logiOf k = u.logiOf k) ∧ u.Only t [.engine, .fresh] (fun _ => False)))) ∧
    (s.Awake dt u → u.Turn p h (encA rd ra 0 0 6 0x30) → drains (.gsnap dt p h rd ra) ∧
      (u.storing p h = false →
        let al := decide (bit x 16 = 1)
        let bnd := if al then u.sampleAt u.clk else u.roundAfter u.clk
        let r : SnapReq := {
          fields := x % 65536, aligned := al, bnd := bnd, at_ := u.clk
          stamps := [u.stamp 0, u.stamp 1, u.stamp 2, u.stamp 3] }
        let meets := fun q : SnapReq => q.bnd = bnd ∧ (q.at_ = u.clk ∧ q.aligned = al ∨ q.fields &&& r.fields ≠ 0)
        let queued := ((u.snaps.filter (·.aligned)).map (·.bnd)).eraseDups
        let full := al = true ∧ 8 ≤ queued.length ∧ bnd ∉ queued
        (x % 65536 = 0 → answers (.gsnap dt p h rd ra) 2 11) ∧
        (x % 65536 ≠ 0 → (∀ q ∈ u.snaps, ¬ meets q) →
          (full → ∃ t, exec (.gsnap dt p h rd ra) s = .next t ∧
            u.Retires t p h (d.setX rd 1) 11 ∧ t.rd TAL_STAT_SNAPLOST = 1 ∧ t.snaps = u.snaps ∧
            u.Only t [.engine, .fresh] (fun a => a = TAL_STAT ∨ a = TAL_SNAPSTAT ∨ RepReg a)) ∧
          (¬ full → ∃ t, exec (.gsnap dt p h rd ra) s = .next t ∧
            u.Retires t p h (d.setX rd 0) 11 ∧ t.snaps = u.snaps ++ [r] ∧
            u.Only t [.engine, .fresh, .tally] (fun _ => False))) ∧
        (x % 65536 ≠ 0 → (∃ q ∈ u.snaps, meets q) → ∃ t, exec (.gsnap dt p h rd ra) s = .next t ∧
          u.Retires t p h (d.setX rd 0) 11 ∧ t.snaps.length ≤ u.snaps.length ∧
          (∃ q ∈ t.snaps, q.bnd = bnd ∧ q.fields &&& r.fields = r.fields) ∧
          u.Only t [.engine, .fresh, .tally] (fun _ => False)))) ∧
    (s.AwakeFor dt (claimKeys p) u → ∀ w : Bool, u.Turn p h (encA rd 0 0 (b2n w) 2 0x31) →
      (w = true → u.offered l = none → ∃ t, exec (.iclm dt p h rd w) s = .next t ∧ u.Waits t p h (.iclm rd) ∧
        u.IssueOnly t p) ∧
      (w = false → u.offered l = none → answers (.iclm dt p h rd w) 0 11) ∧
      (∀ i, u.offered l = some i → ∃ t, exec (.iclm dt p h rd w) s = .next t ∧
        u.Retires t p h (d.setX rd (BitVec.ofNat 32 (u.rd (INT_PRI_of i) * 65536 + i))) 11 ∧
        t.claims = u.claims ++ [(i, l)] ∧ u.Only t [.engine, .fresh, .alarm] (fun _ => False))) ∧
    (s.AwakeFor dt (claimKeys p) u → ∀ r, d.st = .wait (.iclm r) →
      (u.offered l = none ∨ u.ploughActive p = false → exec (.iclmWaitEnd dt p h) s = .next u) ∧
      (∀ i, u.offered l = some i → u.ploughActive p = true → ∃ t, exec (.iclmWaitEnd dt p h) s = .next t ∧
        u.Retires t p h (d.setX r (BitVec.ofNat 32 (u.rd (INT_PRI_of i) * 65536 + i))) 11 ∧
        t.claims = u.claims ++ [(i, l)] ∧ u.Only t [.engine, .alarm] (fun _ => False)))

/-- R243, R252, R272: the hand-control instructions, with their frame. -/
def Obligations.TzControl : Prop :=
  ∀ (s u : State) (dt : Nat) (p : Fin 5) (h : Fin 16) (rd ra : Fin 32), s.Awake dt u →
    let d := u.handOf p h
    let a := d.xr ra
    let does := fun (i : Instr) (w : Word) (x : Hand) (c : Nat) =>
      u.Turn p h w → ∃ t, exec i s = .next t ∧ u.Retires t p h x c ∧ u.IssueOnly t p
    let woken := fun i : Instr => ∃ t, exec i s = .next t ∧ t.handOf p h = { d with st := .ready u.clk } ∧
      u.OtherHands t p h ∧ u.Only t [.engine] (fun _ => False) ∧ t.plough = u.plough
    does (.yield dt p h ra) (encA 0 ra 0 0 5 0x31) d (1 + a.toNat % 65536) ∧
    does (.suit dt p h rd ra false) (encA rd ra 0 0 7 0x31) (d.setX rd (BitVec.ofNat 32 d.suit)) 1 ∧
    does (.suit dt p h rd ra true) (encA rd ra 0 1 7 0x31)
      { d.setX rd (BitVec.ofNat 32 d.suit) with suit := a.toNat % 4 } 1 ∧
    does (.hsrd dt p h rd) (encA rd 0 0 0 10 0x31) (d.setX rd (BitVec.ofNat 32 d.hs)) 1 ∧
    (u.Turn p h (encA 0 ra 0 0 11 0x31) → ∃ t, exec (.hswr dt p h ra) s = .next t ∧ u.IssueOnly t p ∧
      (∃ hs, u.Retires t p h { d with hs := hs } 1) ∧
      ∀ i, bit (t.handOf p h).hs i = if i < 2 ∨ (8 ≤ i ∧ i ≤ 12) ∨ i = 16 then bit a.toNat i else 0) ∧
    does (.who dt p h rd) (encA rd 0 0 0 12 0x31) (d.setX rd (BitVec.ofNat 32 (p * 256 + u.logOf p * 16 + h))) 1 ∧
    (rd.val % 2 = 0 → rd.val ≠ 0 → does (.cycrd dt p h rd) (encA rd 0 0 0 13 0x31)
      ((d.setX rd (BitVec.ofNat 32 (u.clk - u.clk0))).setX (rd + 1) (BitVec.ofNat 32 ((u.clk - u.clk0) / 2 ^ 32))) 2) ∧
    (rd.val % 2 = 1 ∨ rd.val = 0 → u.Turn p h (encA rd 0 0 0 13 0x31) → ∃ t, exec (.cycrd dt p h rd) s = .next t ∧
      u.Traps t p h 1 [] (fun _ => False)) ∧
    (u.Turn p h (encA 0 0 0 0 6 0x31) → ∃ t, exec (.halt dt p h) s = .next t ∧ t.handOf p h = { d with st := .idle } ∧
      u.OtherHands t p h ∧ u.IssueOnly t p) ∧
    (u.storing p h = false → does (.drain dt p h) (encA 0 0 0 0 9 0x31) d 1) ∧
    (u.storing p h = true → u.Turn p h (encA 0 0 0 0 9 0x31) → ∃ t, exec (.drain dt p h) s = .next t ∧
      u.Waits t p h .drain ∧ u.IssueOnly t p) ∧
    (d.st = .wait .drain → u.storing p h = false → woken (.dWaitEnd dt p h)) ∧
    (d.st ≠ .wait .drain ∨ u.storing p h = true → exec (.dWaitEnd dt p h) s = .next u) ∧
    (∀ c, d.st = .ready c → c ≤ u.clk → woken (.yieldEnd dt p h)) ∧
    (∀ c, d.st = .ready c → u.clk < c → exec (.yieldEnd dt p h) s = .next u)

/-- R282 to R285: a write of `NVM_WDH` by any originator, with the frame. -/
def Obligations.CommitPushes : Prop :=
  ∀ (s u : State) (dt : Nat) (o : Orig) (w : Word), s.AwakeFor dt dirKeys u →
    let c := origCode o
    let b := u.bank c
    let crib := decide (bit b.ctl 31 = 1)
    let a := b.addr
    let m := if crib then b.ctl % 256 else 255
    let new := b.dl + w.toNat * 2 ^ 32
    let big := (if crib then 0x40000 else 0x400000) ≤ a
    let here := fun e : NvEntry => e.crib = crib ∧ e.addr = a ∧ e.seal_ = false
    let open_ := ¬ big ∧ u.pushGrant c crib a = true ∧ u.protected crib a = false ∧ u.pfRuns = false
    let refused := fun (code : Nat) => ∃ t, exec (.nvmPush dt o w) s = .next t ∧ t.bank c = { b with res := code } ∧
      t.nvBuf = u.nvBuf ∧ t.rd NVM_STAT_REFUSED = 1 ∧ u.SameMem t ∧
      (code ≠ 5 ∨ 5 ≤ c ∨ u.rd HDG_STAT_SAFE = 1 → u.Only t [.nvm] (fun r => r = NVM_STAT ∨ RepReg r)) ∧
      (code = 5 → c < 5 → u.rd HDG_STAT_SAFE = 0 → bit (t.rdW HDG_STAT).toNat 2 = 1 ∧
        t.rdW HDG_VADDR = BitVec.ofNat 32 ((if crib then 0xC00000 else 0x800000) + a) ∧ u.SameParts t [.nvm, .alarm] ∧
        u.SameRegs t (fun r => r = NVM_STAT ∨ (HDG_STAT ≤ r ∧ r ≤ HDG_VADDR) ∨ RepReg r))
    let takes := fun t : State => u.Only t [.nvm] (fun _ => False) ∧ ∀ k, k ≠ c → t.bank k = u.bank k
    (big → refused 4) ∧ (¬ big → u.pushGrant c crib a = false → refused 5) ∧
    (¬ big → u.pushGrant c crib a = true → u.protected crib a = true → refused 6) ∧
    (¬ big → u.pushGrant c crib a = true → u.protected crib a = false → u.pfRuns = true → refused 7) ∧
    (open_ → (∃ e ∈ u.nvBuf, here e) → ∃ t, exec (.nvmPush dt o w) s = .next t ∧ takes t ∧
      t.bank c = { b with res := 2, addr := a + 8 } ∧ t.nvBuf.length = u.nvBuf.length ∧
      (∀ e ∈ u.nvBuf, ¬ here e → e ∈ t.nvBuf) ∧
      ∀ e ∈ u.nvBuf, here e → ∃ f ∈ t.nvBuf, here f ∧ f.mask = e.mask ||| m ∧
        ∀ i < 8, f.data / 256 ^ i % 256 = if bit m i = 1 then new / 256 ^ i % 256 else e.data / 256 ^ i % 256) ∧
    (open_ → (∀ e ∈ u.nvBuf, ¬ here e) → 1024 ≤ u.nvBuf.length → refused 3) ∧
    (open_ → (∀ e ∈ u.nvBuf, ¬ here e) → u.nvBuf.length < 1024 → ∃ t, exec (.nvmPush dt o w) s = .next t ∧ takes t ∧
      t.bank c = { b with res := 1, addr := a + 8 } ∧
      t.nvBuf = u.nvBuf ++ [{ crib := crib, addr := a, mask := m, data := new, seal_ := false }])

/-- R286 to R290, R298 to R302: the commit engine's course. A field RAM scrub's counts are R219's. -/
def Obligations.Commits : Prop :=
  ∀ (s u : State) (dt : Nat),
    let F := fun a => a = NVM_STAT ∨ RepReg a
    let onBnd := u.roundClk = u.clk ∧ u.rounds ≠ 0
    let starts := fun (i : Instr) (k : Nat) => ∃ t, exec i s = .next t ∧ t.rd NVM_STAT_BUSY = 1 ∧
      (∃ c, t.nvC = some c ∧ c.kind = k ∧ c.num = (u.nvNum + 1) % 2 ^ 32 ∧ c.start = u.clk ∧ c.bnd = none) ∧
      t.nvBuf = u.nvBuf.map (fun e => { e with seal_ := true }) ∧ u.Only t [.nvm] (· = NVM_STAT)
    let startsOn := fun (i : Instr) (k : Nat) => ∃ t c, exec i s = .next t ∧ t.nvC = some c ∧ c.kind = k ∧
      c.num = (u.nvNum + 1) % 2 ^ 32 ∧ c.start = u.clk ∧ c.bnd = some u.clk
    let shut := u.updQ = [] ∧ u.dealCeilNew = none
    let closed := fun (c : Commit) (t : State) => t.nvC = none ∧ t.rdW NVM_CNUM = BitVec.ofNat 32 c.num ∧
      t.rd NVM_STAT_BUSY = 0 ∧ t.rd NVM_STAT_DONE = 1 ∧
      t.rd NVM_CTIME_LAST = satU 16 ((u.clk - c.start) * 125 / 6144) ∧
      (∀ e, e ∈ t.nvBuf ↔ e ∈ u.nvBuf ∧ ¬ (e.crib = true ∧ e.seal_ = true)) ∧
      u.Only t [.nvm] (fun a => a = NVM_CNUM ∨ a = NVM_CTIME ∨ a = NVM_DROP ∨ F a)
    (s.AwakeFor dt dirKeys u →
      (u.pfTaken = false → u.nvC = none → ¬ onBnd → starts (.commitNow dt) 1) ∧
      (u.pfTaken = false → u.nvC = none → onBnd → startsOn (.commitNow dt) 1) ∧
      (u.pfTaken = false → u.nvC.isSome = true → ∃ t, exec (.commitNow dt) s = .next t ∧ bit t.nvHeld 1 = 1 ∧
        t.nvC = u.nvC ∧ u.Only t [.nvm] (fun _ => False)) ∧
      (u.pfTaken = true → exec (.commitNow dt) s = .next u ∧ exec (.scrubNow dt) s = .next u ∧
        exec (.cribCopyNow dt) s = .next u) ∧
      (u.pfTaken = false → exec (.scrubNow dt) s = .next { u with scrubReq := true }) ∧
      (u.pfTaken = false → u.cribCopy = none → ∃ t, exec (.cribCopyNow dt) s = .next t ∧
        (∃ k, t.cribCopy = some k ∧ k.t0 = u.clk ∧ 512 ≤ k.todo.length) ∧ u.Only t [.nvm] (fun _ => False)) ∧
      (u.cribCopy.isSome = true → exec (.cribCopyNow dt) s = .next u)) ∧
    (s.Awake dt u →
      let per := u.rd NVM_CTL_PER * 4000
      (u.rounds < u.nvT0 + per → exec (.commitTimerExpiry dt) s = .next u) ∧
      (u.nvT0 + per ≤ u.rounds → u.nvC = none → u.pfTaken = false → ¬ onBnd → starts (.commitTimerExpiry dt) 0) ∧
      (u.nvT0 + per ≤ u.rounds → u.nvC = none → u.pfTaken = false → onBnd → startsOn (.commitTimerExpiry dt) 0) ∧
      (u.nvT0 + per ≤ u.rounds → u.nvC.isSome = true ∨ u.pfTaken = true →
        ∃ t, exec (.commitTimerExpiry dt) s = .next t ∧ bit t.nvHeld 0 = 1 ∧ t.nvC = u.nvC ∧
          u.Only t [.nvm] (fun _ => False)) ∧
      (∀ c, u.nvC = some c → c.kind < 2 → c.bnd.isSome = true → c.todo = [] → c.wrote ≤ u.clk → u.nvHeld = 0 → shut →
        ∃ t, exec (.commitClose dt []) s = .next t ∧ closed c t) ∧
      (∀ c bad, u.nvC = some c → (c.kind = 2 ∨ c.bnd = none ∨ c.todo ≠ []) →
        exec (.commitClose dt bad) s = .next u) ∧
      (∀ bad, u.nvC = none → exec (.commitClose dt bad) s = .next u ∧ exec (.powerFailCommitClose dt) s = .next u) ∧
      (∀ c, u.nvC = some c → c.kind = 3 → c.bnd.isSome = true → c.todo = [] → c.wrote ≤ u.clk →
        ∃ t, exec (.commitClose dt []) s = .next t ∧ t.inReset = true ∧ t.rstCause = 2 ∧ t.clk = u.clk ∧
          t.pending = u.pending ∧ (∀ a, (∀ f ∈ regFields a, f.dom ≠ .b ∧ f.dom ≠ .p) → (a < HDG_PLS ∨ HDG_MSD < a) →
            t.rdW a = regReset a)) ∧
      (∀ p q, u.cribQ = p :: q →
        let cut := fun x : CribPage => decide (x.entries ≠ 0) && u.protected true (128 * x.page)
        (u.clk < u.cribAt + 4 * cyMs → exec (.cribPageProgramEnd dt) s = .next u) ∧
        (u.cribAt + 4 * cyMs ≤ u.clk → (∀ b ∈ p.bytes, b.1 < 128) → (p.bytes.map (·.1)).Nodup →
          ∃ t, exec (.cribPageProgramEnd dt) s = .next t ∧ t.cribQ = q.dropWhile cut ∧
            (t.cribQ ≠ [] → t.cribAt = u.clk) ∧
            t.rd NVM_DROP_V = satU 32 (u.rd NVM_DROP_V + ((q.takeWhile cut).map (·.entries)).sum) ∧
            (∀ b ∈ p.bytes, t.byte (0xC00000 + 128 * p.page + b.1) = BitVec.ofNat 8 b.2) ∧
            (∀ a, (∀ b ∈ p.bytes, a ≠ 0xC00000 + 128 * p.page + b.1) → t.byte a = u.byte a) ∧
            u.SameParts t [.nvm, .health] ∧ u.SameRegs t (· = NVM_DROP))) ∧
      (u.cribQ = [] → exec (.cribPageProgramEnd dt) s = .next u) ∧
      (u.scrubReq = false → u.clk < u.scrubClk + cyDay →
        (u.clk < u.ramScrub + cyDay → ∀ sgl dbl, exec (.scrubTimer dt sgl dbl) s = .next u) ∧
        (u.ramScrub + cyDay ≤ u.clk → ∀ sgl dbl, ∃ t, exec (.scrubTimer dt sgl dbl) s = .next t ∧
          t.ramScrub = u.clk ∧ t.rd PLG_ECC_SGL = satU 16 (u.rd PLG_ECC_SGL + sgl.ram) ∧
          t.rd PLG_ECC_DBL = satU 16 (u.rd PLG_ECC_DBL + dbl.ram) ∧ u.Only t [.engine] (· = PLG_ECC))) ∧
      (u.scrubReq = true ∨ u.scrubClk + cyDay ≤ u.clk → ∀ (r : Fin 8192) (n m : Nat),
        ((∀ p ∈ u.nvScrubs, p.1 ≠ r.val) → ∃ t, exec (.scrubTimer dt ⟨[r], n⟩ ⟨[], m⟩) s = .next t ∧
          t.scrubReq = false ∧ t.scrubClk = u.clk ∧ t.rd NVM_ECC_SGL = satU 16 (u.rd NVM_ECC_SGL + 1) ∧
          (r.val, u.clk) ∈ t.nvScrubs ∧ u.Only t [.nvm, .engine] (fun a => a = NVM_ECC ∨ a = PLG_ECC)) ∧
        (let k := barnRegion (512 * r)
         r.val ∉ u.nvFailed → Sparse.get (fun _ => 0) r.val u.nvTaken = 0 →
          u.rd (NVM_SPARE_USED k) < spareRows k → ∃ t, exec (.scrubTimer dt ⟨[], n⟩ ⟨[r], m⟩) s = .next t ∧
          t.rd NVM_STAT_DBL = 1 ∧ t.rd NVM_STAT_REMAP = 1 ∧ t.rd NVM_ECC_DBL = satU 16 (u.rd NVM_ECC_DBL + 1) ∧
          t.rd (NVM_SPARE_USED k) = u.rd (NVM_SPARE_USED k) + 1 ∧ t.rd YLD_STAT_SWAP = 1 ∧
          u.Only t [.nvm, .alarm, .engine] (fun a => a = NVM_ECC ∨ a = NVM_SPARE k ∨ a = YLD_SWAPCNT ∨ a = YLD_STAT ∨
            a = PLG_ECC ∨ F a))) ∧
      (u.clk < u.cribNext ∨ u.cribNext = 0 → exec (.cribCopyTimer dt) s = .next u) ∧
      (u.cribNext ≤ u.clk → u.cribNext ≠ 0 → ∃ t, exec (.cribCopyTimer dt) s = .next t ∧
        t.cribNext = u.clk + u.rd NVM_CTL_CRIBPER * 60 * cySec ∧
        (u.pfTaken = false → u.cribCopy = none → t.cribCopy.isSome = true) ∧ u.Only t [.nvm] (fun _ => False)) ∧
      (u.cribCopy = none → exec (.cribCopyEnd dt) s = .next u) ∧
      (∀ k, u.cribCopy = some k → k.todo ≠ [] → u.clk < k.t0 + 4 * cyMs → exec (.cribCopyEnd dt) s = .next u) ∧
      (∀ k, u.cribCopy = some k → k.todo = [] → ∃ t, exec (.cribCopyEnd dt) s = .next t ∧ t.cribCopy = none ∧
        u.Only t [.nvm] (fun _ => False)) ∧
      (u.pfTaken = false → u.updQ = [] → ∃ t, exec (.pfwarnAssert dt) s = .next t ∧ t.pfTaken = true ∧
        t.pfBall = true ∧ t.pfClk = u.clk ∧ t.rd NVM_STAT_PFHOLD = 1 ∧ t.rd NVM_STAT_BUSY = 1 ∧ t.iso = true ∧
        t.bkQ = [] ∧ (∃ c, t.nvC = some c ∧ c.kind = 2 ∧ c.start = u.clk ∧ c.bnd = none) ∧
        (∀ e ∈ t.nvBuf, e.crib = false ∧ e.seal_ = true) ∧ t.cribQ = u.cribQ.take 1 ∧
        t.rd NVM_CRIBLOST_V = satU 32 (u.rd NVM_CRIBLOST_V + ((u.cribQ.drop 1).map (·.entries)).sum
          + (u.nvBuf.filter (·.crib)).length) ∧
        u.Only t [.nvm, .cal, .alarm] (fun a => a = NVM_CRIBLOST ∨ a = NVM_CNUM ∨ a = NVM_CTIME ∨ F a)) ∧
      (u.pfTaken = true → u.pfRel = none → exec (.pfwarnAssert dt) s = .next u) ∧
      (∀ c, u.nvC = some c → c.kind = 2 → c.bnd.isSome = true → c.todo = [] → shut →
        ∃ t, exec (.powerFailCommitClose dt) s = .next t ∧ closed c t ∧ t.rd NVM_STAT_PFC = 1 ∧
          t.rd NVM_CTIME_PF = satU 16 ((u.clk - u.pfClk + 984) * 125 / 6144)) ∧
      (u.pfBall = true → exec (.pfwarnRelease dt) s = .next { u with pfBall := false, pfRel := some u.clk }) ∧
      (u.pfBall = false → exec (.pfwarnRelease dt) s = .next u) ∧
      (u.pfRel = none → exec (.pfwarnReleaseExpiry dt) s = .next u) ∧
      ∀ r, u.pfRel = some r →
        (u.clk < r + 10 * cyMs → exec (.pfwarnReleaseExpiry dt) s = .next u) ∧
        (r + 10 * cyMs ≤ u.clk → u.pfTaken = true → u.pfBall = false → u.pfRuns = false → u.updQ = [] →
          (bit u.nvHeld 1 = 0 → ∃ t, exec (.pfwarnReleaseExpiry dt) s = .next t ∧ t.pfTaken = false ∧
            t.rd NVM_STAT_PFHOLD = 0 ∧ t.isoEnd = some (u.clk + cyMs) ∧
            u.Only t [.nvm, .cal, .alarm] (· = NVM_STAT)) ∧
          (bit u.nvHeld 1 = 1 → u.nvC = none → ¬ onBnd → ∃ t c, exec (.pfwarnReleaseExpiry dt) s = .next t ∧
            t.pfTaken = false ∧ t.nvC = some c ∧ c.kind = 1 ∧ c.start = u.clk ∧ t.rd NVM_STAT_BUSY = 1 ∧
            u.Only t [.nvm, .cal, .alarm] (· = NVM_STAT))))

/-- R307, R308, R310, R311: PPS edges and `RTC_TB0CMD`, with the frame. -/
def Obligations.Timebase : Prop :=
  ∀ (s u : State) (dt : Nat),
    let A := fun a => a = RTC_TBSTAT ∨ a = RTC_PPSERR ∨ a = RTC_TB0TRIM ∨ RepReg a
    let flagged := fun (t : State) (i : Nat) => bit (t.rdW RTC_TBSTAT).toNat i = 1
    let steps := fun (t : State) (n : Nat) => t.tb0 = { u.tb0 with t0 := u.clk, ticks := n % (tickSec * 2 ^ 34) } ∧
      t.rd RTC_TBSTAT_EPOCH = (u.rd RTC_TBSTAT_EPOCH + 1) % 16 ∧ flagged t 17
    let trims := fun (t : State) (z : Int) => t.rdS RTC_TB0TRIM_V = max (-100000) (min 100000 z) ∧
      (t.rd RTC_TBSTAT_RANGE = 1 ↔ 100000 < z.natAbs) ∧ t.tb0.at u.clk = u.tb0.at u.clk
    let early := ∃ c, u.ppsClk = some c ∧ u.clk < c + cySec / 2
    let e := u.ppsErr
    let dear := fun t : State => t.tb0 = u.tb0 ∧ t.rd RTC_STAT_HEDGE = 1 ∧ u.SameMem t ∧ u.SameParts t [.cal, .alarm] ∧
      u.SameRegs t (fun a => a = RTC_STAT ∨ (HDG_STAT ≤ a ∧ a ≤ HDG_VADDR) ∨ RepReg a)
    let misses := fun t : State => t.ppsBad = u.ppsBad + 1 ∧
      if u.rd RTC_TBSTAT_STATE = 2 ∧ 3 ≤ u.ppsBad then t.rd RTC_TBSTAT_STATE = 3 ∧ flagged t 16
      else t.rd RTC_TBSTAT_STATE = u.rd RTC_TBSTAT_STATE
    (s.Awake dt u → ∀ fall z,
      (fall ≠ decide (u.rd RTC_TBCTL_EDGE = 1) → exec (.ppsEdge dt fall z) s = .next u) ∧
      (fall = decide (u.rd RTC_TBCTL_EDGE = 1) →
        (early → ∃ t, exec (.ppsEdge dt fall z) s = .next t ∧ u.Only t [] (· = RTC_TBSTAT) ∧
          t.rd RTC_TBSTAT_OUTCNT = satU 8 (u.rd RTC_TBSTAT_OUTCNT + 1) ∧
          t.rd RTC_TBSTAT_STATE = u.rd RTC_TBSTAT_STATE) ∧
        (¬ early → u.rd RTC_TBCTL_DISC = 0 → u.tbLoad = none →
          exec (.ppsEdge dt fall z) s = .next { u with ppsClk := some u.clk, ppsDue := u.clk + cySec }) ∧
        (¬ early → ∀ l, u.tbLoad = some l → ∃ t, exec (.ppsEdge dt fall z) s = .next t ∧
          t.tbLoad = none ∧ t.ppsClk = some u.clk ∧ t.ppsDue = u.clk + cySec ∧
          (u.Affords l.orig (u.tbMag (ticksOf l.sec l.ns)) → t.rd RTC_TBSTAT_TIMEVALID = 1 ∧
            u.Only t [.furrow, .cal] A ∧
            (u.rd RTC_TBCTL_DISC = 0 → steps t (ticksOf l.sec l.ns))) ∧
          (¬ u.Affords l.orig (u.tbMag (ticksOf l.sec l.ns)) → t.rd RTC_STAT_HEDGE = 1 ∧
            (u.rd RTC_TBCTL_DISC = 0 → dear t))) ∧
        (¬ early → u.rd RTC_TBCTL_DISC = 1 → u.tbLoad = none → ∃ t, exec (.ppsEdge dt fall z) s = .next t ∧
          t.rdS RTC_PPSERR_V = e ∧ t.ppsClk = some u.clk ∧ t.ppsDue = u.clk + cySec ∧ u.Only t [.furrow, .cal] A ∧
          (u.rd RTC_TBSTAT_STATE = 1 → 10000 < e.natAbs → u.ppsStep = false → t.rd RTC_TBSTAT_STATE = 1 ∧
            steps t ((u.tb0.at u.clk : Int) - divRound (e * 768) 3125).toNat ∧ t.ppsGood = 0 ∧ t.ppsStep = true) ∧
          (u.rd RTC_TBSTAT_STATE = 1 → e.natAbs ≤ 10000 ∨ u.ppsStep = true → trims t z ∧
            t.rd RTC_TBSTAT_STATE = if e.natAbs < 100 ∧ 7 ≤ u.ppsGood ∧ z.natAbs ≤ 100000 then 2 else 1) ∧
          (u.rd RTC_TBSTAT_STATE = 2 → 1000 < e.natAbs → misses t ∧ flagged t 18 ∧ t.tb0 = u.tb0) ∧
          (u.rd RTC_TBSTAT_STATE = 2 → e.natAbs ≤ 1000 → trims t z ∧ t.rd RTC_TBSTAT_STATE = 2 ∧ t.ppsBad = 0) ∧
          (u.rd RTC_TBSTAT_STATE = 3 → t.rd RTC_TBSTAT_STATE = 1)))) ∧
    (s.Awake dt u → (u.rd RTC_TBCTL_DISC = 0 ∨ u.ppsClk = none ∨ u.clk ≤ u.ppsDue →
        exec (.ppsEdgeMissing dt) s = .next u) ∧
      (u.rd RTC_TBCTL_DISC = 1 → u.ppsClk.isSome = true → u.ppsDue < u.clk →
        ∃ t, exec (.ppsEdgeMissing dt) s = .next t ∧
        misses t ∧ t.ppsDue = u.ppsDue + cySec ∧ u.Only t [.cal] (fun a => a = RTC_TBSTAT ∨ RepReg a))) ∧
    (s.AwakeFor dt dirKeys u → ∀ o,
      let sec := u.rd RTC_TB0SETH_V * 2 ^ 32 + u.rd RTC_TB0SETL_V
      let ns := u.rd RTC_TB0SETN_V
      let mag := u.tbMag (ticksOf sec ns)
      let bad := 999999999 < ns ∨ u.tbLoad.isSome = true
      let errs := fun i => ∃ t, exec i s = .next t ∧ flagged t 19 ∧ u.Only t [] (fun a => a = RTC_TBSTAT ∨ RepReg a)
      (bad → errs (.tb0LoadAtPps dt o) ∧ errs (.tb0LoadNow dt o)) ∧
      (¬ bad → exec (.tb0LoadAtPps dt o) s = .next { u with tbLoad := some { orig := origCode o, sec := sec, ns := ns
        } }) ∧
      (¬ bad → u.Affords (origCode o) mag → ∃ t, exec (.tb0LoadNow dt o) s = .next t ∧ steps t (ticksOf sec ns) ∧
        t.rd RTC_TBSTAT_TIMEVALID = 1 ∧ u.Only t [.furrow, .cal] A) ∧
      (¬ bad → ¬ u.Affords (origCode o) mag → ∃ t, exec (.tb0LoadNow dt o) s = .next t ∧ dear t))

/-- R313 to R317, R320 to R324: the calendars in time. -/
def Obligations.CalendarClock : Prop :=
  ∀ (s u : State) (dt : Nat), s.advance dt = u →
    let pend := u.rd RTC_LEAP_PEND
    let ls := u.rdS RTC_LEAP_LS
    let runs := u.xtlRun = true ∧ u.holdLeft = 0 ∧ u.rd RTC_STAT_RANGE = 0
    let plain := runs ∧ u.cal60 = false ∧ pend = 0 ∧ u.utc + 1 < calSpan
    let alms := fun n : Nat => ∀ a, a < 2 → a ≠ n → bit (u.rdW (RTC_ALMCTL a)).toNat 31 = 0
    let free := u.rd RTC_TBCTL_FOLLOW = 0
    let fresh := fun t : State => t.subN = 0 ∧ t.subAt = u.clk ∧ t.holdN = 0
    let goes := fun Q : State → Prop => ∃ t, exec (.calendarSecond dt) s = .next t ∧ Q t
    (¬ runs → exec (.calendarSecond dt) s = .next u) ∧
    (plain → free → alms 2 → u.dstReq = 0 → goes fun t => t.utc = u.utc + 1 ∧ fresh t ∧ t.cal60 = false ∧
      t.foldN = u.foldN + 1 ∧
      t.rd BKP_ONBAT_V = (if u.onVbat then satU 32 (u.rd BKP_ONBAT_V + 1) else u.rd BKP_ONBAT_V) ∧
      u.Only t [.cal] (· = BKP_ONBAT)) ∧
    (runs → free → alms 2 → pend = 1 → u.cal60 = false → u.monthEnd 0 = true → u.utc < calSpan →
      goes fun t => t.cal60 = true ∧ t.utc = u.utc ∧ t.rdW RTC_LEAP = u.rdW RTC_LEAP) ∧
    (runs → free → alms 2 → u.cal60 = true → u.utc + 1 < calSpan → ls < 127 →
      goes fun t => t.cal60 = false ∧ t.utc = u.utc + 1 ∧ t.rdS RTC_LEAP_LS = ls + 1 ∧ t.rd RTC_LEAP_PEND = 0) ∧
    (runs → free → alms 2 → pend = 2 → u.cal60 = false → u.monthEnd 1 = true → u.utc + 2 < calSpan → -128 < ls →
      goes fun t => t.utc = u.utc + 2 ∧ t.rdS RTC_LEAP_LS = ls - 1 ∧ t.rd RTC_LEAP_PEND = 0) ∧
    (runs → free → u.cal60 = false → pend = 0 → u.utc + 1 = calSpan → goes fun t => t.rd RTC_STAT_RANGE = 1 ∧
      t.utc = u.utc ∧ t.subsec = 0 ∧ ∀ a, t.rd (if a = 0 then RTC_STAT_ALM0 else RTC_STAT_ALM1)
        = u.rd (if a = 0 then RTC_STAT_ALM0 else RTC_STAT_ALM1)) ∧
    (plain → free → alms 2 → u.dstReq = 1 → goes fun t => t.rd RTC_LOCAL_DST = 1 ∧ t.dstReq = 0 ∧
      (u.rd RTC_LOCAL_DST = 0 → t.localT = u.localT + 3601)) ∧
    (plain → free → alms 2 → u.dstReq = 2 → u.rd RTC_LOCAL_DST = 1 → goes fun t => t.rd RTC_LOCAL_DST = 0 ∧
      t.dstReq = 0 ∧ t.foldNow = true ∧ t.localT + 3599 = u.localT) ∧
    (∀ a, a < 2 → plain → free → alms a → u.dstReq = 0 →
      let f := if a = 0 then RTC_STAT_ALM0 else RTC_STAT_ALM1
      let c := (u.rdW (RTC_ALMCTL a)).toNat
      let T := if bit c 30 = 1 then u.localT + 1 else u.utcT + 1
      let d := civil (T / 86400)
      let same := bit c 31 = 1 ∧ (bit c 30 = 1 → bit c 29 = 0 → u.fold = true → 3600 ≤ u.foldN + 1) ∧
        (bit c 0 = 0 → u.rd (RTC_ALMT_S a) = T % 60) ∧ (bit c 1 = 0 → u.rd (RTC_ALMT_M a) = T / 60 % 60) ∧
        (bit c 2 = 0 → u.rd (RTC_ALMT_H a) = T / 3600 % 24) ∧ (bit c 3 = 0 → u.rd (RTC_ALMD_D a) = d.2.2) ∧
        (bit c 4 = 0 → u.rd (RTC_ALMD_MON a) = d.2.1) ∧ (bit c 5 = 0 → u.rd (RTC_ALMD_WD a) = weekday (T / 86400)) ∧
        (bit c 6 = 0 → u.rd (RTC_ALMD_Y a) = d.1)
      u.rd f = 0 → goes fun t => (t.rd f = 1 ↔ same) ∧ t.utc = u.utc + 1 ∧
        (same → bits c 25 24 = 1 → t.rd RTC_LOCAL_DST = 1) ∧ (same → bits c 25 24 = 2 → t.rd RTC_LOCAL_DST = 0) ∧
        (same → u.inReset = true → bit (t.rdW BKP_MISSED).toNat a = 1) ∧ (same → u.inReset = true →
          1 ≤ bits c 25 24 → bits c 25 24 ≤ 2 → bit (t.rdW BKP_MISSED).toNat 3 = 1) ∧
        (same → t.wake = true ∨ bit c 27 = 0)) ∧
    (plain → alms 2 → u.dstReq = 0 → ¬ free → u.rd RTC_TBSTAT_TIMEVALID = 1 → u.rd RTC_TBSTAT_STATE = 2 →
      u.iso = false → u.inReset = false →
      let tb : Int := u.tb0.at u.clk - ls * tickSec
      let err := ((u.utc + 1 : Nat) : Int) * tickSec - tb
      (err.natAbs ≤ 7500 → goes fun t => t.utc = u.utc + 1 ∧ fresh t) ∧
      (7500 < err → err ≤ tickSec → u.rd RTC_STAT_SHIFTBUSY = 0 → goes fun t => t.utc = u.utc + 1 ∧
        t.rd RTC_STAT_SHIFTBUSY = 1 ∧ (t.holdN : Int) = divRound err 7500) ∧
      (err < -7500 → -245000000 < err → u.rd RTC_STAT_SHIFTBUSY = 0 → goes fun t => t.utc = u.utc + 1 ∧
        (t.subN : Int) = divRound (-err) 7500 ∧ t.rd RTC_STAT_SHIFTBUSY = 0) ∧
      (tickSec < err.natAbs → 0 ≤ tb → tb < calSpan * tickSec → goes fun t => t.utc = tb.toNat / tickSec ∧
        t.subN = tb.toNat % tickSec / 7500 ∧ t.rd RTC_STAT_RESYNC = 1)) ∧
    (u.fold = true → 3600 ≤ u.foldN → exec (.foldEnd dt) s = .next { u with fold := false, foldN := 0 }) ∧
    (u.fold = false ∨ u.foldN < 3600 → exec (.foldEnd dt) s = .next u) ∧
    (u.rd RTC_STAT_SHIFTBUSY = 1 → u.holdLeft = 0 → ∃ t, exec (.shiftHoldEnd dt) s = .next t ∧
      t.rd RTC_STAT_SHIFTBUSY = 0 ∧ t.subsec = u.subsec ∧ t.utc = u.utc ∧ u.Only t [.cal] (· = RTC_STAT)) ∧
    (u.rd RTC_STAT_SHIFTBUSY = 0 ∨ 0 < u.holdLeft → exec (.shiftHoldEnd dt) s = .next u) ∧
    (u.inReset = false → ∀ o,
      -- a read sees the writes that wait (R334)
      let v := u.bkFlush
      let k := origCode o
      let reads := fun (t : State) (w : Word) => Sparse.get (fun _ => 0) (readerOf o) t.rdata = w ∧
        v.Only t [.cal, .rdata] (fun _ => False) ∧
        ∀ r, r ≠ k → Sparse.get (fun _ => none) r t.shCal = Sparse.get (fun _ => none) r v.shCal
      (u.bkQ = [] → v = u) ∧
      (∃ t, exec (.calendarFreezeRead dt o) s = .next t ∧ reads t (BitVec.ofNat 32 v.subsec) ∧
        Sparse.get (fun _ => none) k t.shCal = some { key := 0, words := v.calWords, at_ := v.clk }) ∧
      ∃ t, exec (.calendarYearRead dt o) s = .next t ∧ Sparse.get (fun _ => none) k t.shCal = none ∧
        reads t ((match Sparse.get (fun _ => none) k v.shCal with
          | some h => if v.clk < h.at_ + cyMs then h.words else v.calWords
          | none => v.calWords).getD 5 0))

/-- R317 to R320, R323, R328, R331, R333, R334: `BACKUP_WRITE_APPLY` and the rows whose writes wait for it. A local time
of an hour that DST has skipped or repeated is log entry 35's reading. -/
def Obligations.BackupWrites : Prop :=
  ∀ (s u : State) (dt : Nat),
    (s.AwakeFor dt dirKeys u → ∀ (o : Orig) (w : Word),
      let waits := fun (i : Instr) (a : Nat) (x : Word) =>
        (u.iso = true → exec i s = .next u) ∧
        (u.iso = false → exec i s = .next { u with bkQ := u.bkQ ++ [{ orig := origCode o, addr := a, word := x }] })
      waits (.dstSetCmd dt o) RTC_DSTCMD 1#32 ∧ waits (.dstClearCmd dt o) RTC_DSTCMD 2#32 ∧
      waits (.calendarShift dt o w) RTC_SHIFT w ∧ waits (.calendarWrite dt o w) RTC_WCMD (w ||| 0x80000000#32)) ∧
    (s.advance dt = u → u.bkQ = [] ∨ u.xtlRun = false → exec (.backupWriteApply dt) s = .next u) ∧
    ∀ (o a : Nat) (w : Word) (q : List BkWrite), s.advance dt = u → u.xtlRun = true →
      u.bkQ = { orig := o, addr := a, word := w } :: q →
      let x := w.toNat
      let n := sx 18 x
      let goes := fun Q : State → Prop => ∃ t, exec (.backupWriteApply dt) s = .next t ∧ t.bkQ = q ∧ Q t
      let quiet := fun (t : State) (A : Nat → Prop) => u.Only t [.cal] A ∧ t.utc = u.utc ∧ t.cal60 = u.cal60 ∧
        t.fold = u.fold
      let bad := goes fun t => t.rd RTC_STAT_BADWR = 1 ∧ t.rd RTC_BADWR_CNT_V = satU 16 (u.rd RTC_BADWR_CNT_V + 1) ∧
        quiet t (fun r => r = RTC_STAT ∨ r = RTC_BADWR_CNT ∨ RepReg r) ∧ t.dstReq = u.dstReq ∧ t.subsec = u.subsec
      let dear := goes fun t => t.rd RTC_STAT_HEDGE = 1 ∧ u.SameParts t [.cal, .alarm] ∧ u.SameMem t ∧
        t.utc = u.utc ∧ t.subsec = u.subsec ∧ t.dstReq = u.dstReq ∧
        u.SameRegs t (fun r => r = RTC_STAT ∨ (HDG_STAT ≤ r ∧ r ≤ HDG_VADDR) ∨ RepReg r) ∧
        (u.rd HDG_STAT_SAFE = 0 → bit (t.rdW HDG_STAT).toNat 3 = 1 ∧ t.rdW HDG_VADDR = BitVec.ofNat 32 a)
      let writes := fun v : Word => goes fun t => t.rdW a = v ∧ quiet t (· = a)
      (a = RTC_SHIFT →
        (u.rd RTC_STAT_SHIFTBUSY = 1 ∨ 32768 < n.natAbs → bad) ∧
        (u.rd RTC_STAT_SHIFTBUSY = 0 → n.natAbs ≤ 32768 →
          (¬ u.Affords o (n.natAbs * 1000000000) → dear) ∧
          (u.Affords o (n.natAbs * 1000000000) → u.rd RTC_STAT_RANGE = 1 →
            goes fun t => t.subsec = u.subsec ∧ quiet t (fun _ => False)) ∧
          (u.Affords o (n.natAbs * 1000000000) → u.rd RTC_STAT_RANGE = 0 →
            (n < 0 → goes fun t => t.rd RTC_STAT_SHIFTBUSY = 1 ∧ (t.holdN : Int) = -n ∧ t.subN = u.subsec ∧
              t.subAt = u.clk ∧ quiet t (· = RTC_STAT)) ∧
            (0 ≤ n → (u.subsec : Int) + n < 32768 → goes fun t => (t.subN : Int) = u.subsec + n ∧ t.subAt = u.clk ∧
              t.holdN = 0 ∧ quiet t (fun _ => False)) ∧
            -- a second that the shift crosses, with no leap second, DST command or alarm on it
            (32768 ≤ (u.subsec : Int) + n → (u.subsec : Int) + n < 65536 → u.cal60 = false → u.rd RTC_LEAP_PEND = 0 →
              u.utc + 1 < calSpan → u.dstReq = 0 → (∀ k, k < 2 → bit (u.rdW (RTC_ALMCTL k)).toNat 31 = 0) →
              goes fun t => (t.subN : Int) = u.subsec + n - 32768 ∧ t.utc = u.utc + 1 ∧
                u.Only t [.cal] (fun _ => False))))) ∧
      (a = RTC_WCMD →
        let h := u.rd RTC_WTIME_H
        let mi := u.rd RTC_WTIME_M
        let se := u.rd RTC_WTIME_S
        let y := u.rd RTC_WDATE_Y
        let mo := u.rd RTC_WDATE_MON
        let d := u.rd RTC_WDATE_D
        let loc := bit x 1
        let fold := bit x 0
        let wrong := 59 < se ∨ 59 < mi ∨ 23 < h ∨ mo = 0 ∨ 12 < mo ∨ d = 0 ∨ monthDays y mo < d ∨ (loc = 0 ∧ fold = 1)
        -- the staged time as UTC where DST is 0, and whether DST has skipped or repeated its hour
        let base : Int := ((dayOf y mo d * 86400 + h * 3600 + mi * 60 + se : Nat) : Int) - calEpoch * 86400
          - (if loc = 1 then u.rdS RTC_LOCAL_OFS * 900 else 0)
        let hour := loc = 1 ∧ ∃ c : Nat, u.dstAt = some c ∧ (c : Int) ≤ base ∧ base < c + 3600
        let sets := fun z : Int =>
          (z < 0 ∨ calSpan ≤ z → bad) ∧
          (0 ≤ z → z < calSpan → (¬ u.Affords o (u.calMag z.toNat) → dear) ∧
            (u.Affords o (u.calMag z.toNat) → goes fun t => (t.utc : Int) = z ∧ t.cal60 = false ∧ t.subN = 0 ∧
              t.subAt = u.clk ∧ t.holdN = 0 ∧ t.rd RTC_STAT_RANGE = 0 ∧ t.rd RTC_STAT_SHIFTBUSY = 0 ∧
              u.Only t [.cal] (· = RTC_STAT)))
        (bit x 31 = 0 → exec (.backupWriteApply dt) s = .next { u with bkQ := q }) ∧
        (bit x 31 = 1 → wrong → bad) ∧
        (bit x 31 = 1 → y < 1999 ∨ 2400 < y → bad) ∧
        (bit x 31 = 1 → ¬ wrong → 1999 ≤ y → y ≤ 2400 →
          (loc = 0 → sets base) ∧ (loc = 1 → u.rd RTC_LOCAL_DST = 0 → ¬ hour → sets base) ∧
          (loc = 1 → u.rd RTC_LOCAL_DST = 1 → ¬ hour → sets (base - 3600)) ∧
          (hour → u.rd RTC_LOCAL_DST = 1 → bad) ∧
          (hour → u.rd RTC_LOCAL_DST = 0 → sets (if fold = 1 then base else base - 3600)))) ∧
      (a = RTC_DSTCMD → bits x 1 0 = 0 ∨ bits x 1 0 = 3 → exec (.backupWriteApply dt) s = .next { u with bkQ := q }) ∧
      (a = RTC_DSTCMD → bits x 1 0 = 1 ∨ bits x 1 0 = 2 →
        let sets := bits x 1 0 = 1
        ((sets ↔ u.rd RTC_LOCAL_DST = 1) → bad) ∧
        (¬ (sets ↔ u.rd RTC_LOCAL_DST = 1) →
          (¬ u.Affords o (3600 * 32768000000000) → dear) ∧
          (u.Affords o (3600 * 32768000000000) → goes fun t => t.dstReq = bits x 1 0 ∧ quiet t (fun _ => False)))) ∧
      (a = RTC_LOCAL →
        let ofs := sx 7 x
        let mag := (ofs - u.rdS RTC_LOCAL_OFS).natAbs * 900 * 32768000000000
        (56 < ofs.natAbs → bad) ∧
        (ofs.natAbs ≤ 56 → (¬ u.Affords o mag → dear) ∧
          (u.Affords o mag → goes fun t => t.rdS RTC_LOCAL_OFS = ofs ∧ t.rd RTC_LOCAL_DST = u.rd RTC_LOCAL_DST ∧
            quiet t (· = RTC_LOCAL)))) ∧
      (a = RTC_LEAP → (bits x 9 8 = 3 → bad) ∧ (bits x 9 8 ≠ 3 → writes (w &&& 0x3FF#32))) ∧
      (a = RTC_CTL → writes (w &&& 0x3F#32)) ∧ (a = RTC_WTIME → writes (w &&& 0x1F3F3F#32)) ∧
      (a = RTC_WDATE → writes (w &&& 0x0FFF0F1F#32)) ∧
      (∀ k, k < 2 →
        (a = RTC_ALMT k → if 23 < bits x 20 16 ∨ 59 < bits x 13 8 ∨ 59 < bits x 5 0 then bad
          else writes (w &&& 0x1F3F3F#32)) ∧
        (a = RTC_ALMD k → if 12 < bits x 11 8 ∨ 31 < bits x 4 0 then bad else writes (w &&& 0x0FFF7F1F#32)) ∧
        (a = RTC_ALMCTL k → if bits x 25 24 = 3 then bad else writes (w &&& 0xFB00007F#32))) ∧
      (∀ k, k < 16 → a = BKP_RAM k → goes fun t => t.rdW a = w ∧ t.rd BKP_RAMCHK_V = t.ramCrc ∧
        quiet t (fun r => r = a ∨ r = BKP_RAMCHK)) ∧
      (a = TMP_CTL →
        let lawful := bit (u.rdW TMP_CTL).toNat 31 = 0 ∧ ∀ k, k < 4 → bits x (2 * k + 1) (2 * k) ≠ 3
        (lawful → writes (w &&& 0x800000FF#32)) ∧
        (¬ lawful → exec (.backupWriteApply dt) s = .next { u with bkQ := q })) ∧
      -- flags that no event of the same cycle has set
      (u.setNow = [] →
        let clears := fun (reg : Nat) (m : Nat → Prop) => a = reg → goes fun t => quiet t (· = reg) ∧
          ∀ i, i < 32 → (bit x i = 1 → m i → bit (t.rdW reg).toNat i = 0) ∧
            (bit x i = 0 ∨ ¬ m i → bit (t.rdW reg).toNat i = bit (u.rdW reg).toNat i)
        clears RTC_STAT (fun i => i < 8 ∧ i ≠ 1 ∧ i ≠ 5) ∧ clears BKP_STAT (fun i => i < 2) ∧
          clears BKP_MISSED (fun i => i < 4))

/-- R326, R327, R329 to R333: the backup domain's own events, with the frame. -/
def Obligations.BackupDomain : Prop :=
  ∀ (s u : State) (dt : Nat), s.advance dt = u →
    (u.xtlRun = false → exec (.xtal32Stop dt) s = .next u) ∧
    (u.xtlRun = true → ∃ t, exec (.xtal32Stop dt) s = .next t ∧ t.xtlRun = false ∧ t.rd RTC_STAT_OSF = 1 ∧
      t.subsec = u.subsec ∧ t.holdLeft = u.holdLeft ∧ t.utc = u.utc ∧ u.SameMem t ∧
      (u.inReset = false → t.rd (TMP_EVCNT_V 3) = satU 32 (u.rd (TMP_EVCNT_V 3) + 1)) ∧
      (u.inReset = true → t.rd TMP_BKCNT_CAT3 = satU 8 (u.rd TMP_BKCNT_CAT3 + 1) ∧
        bit (t.rdW BKP_MISSED).toNat 2 = 1 ∧ u.Only t [.clock, .cal]
          (fun a => a = RTC_STAT ∨ a = TMP_BKCNT ∨ a = BKP_MISSED ∨ RepReg a))) ∧
    (u.xtlRun = false → ∃ t, exec (.xtal32Restart dt) s = .next t ∧ t.xtlRun = true ∧ t.xtlAt = u.clk ∧
      t.subAt = u.clk ∧ t.subsec = u.subsec ∧ t.utc = u.utc ∧ u.Only t [.clock, .cal] (fun _ => False)) ∧
    (u.xtlRun = true → exec (.xtal32Restart dt) s = .next u) ∧
    (u.inReset = false → ∀ e : Int,
      (∃ t, exec (.xtal32Measurement dt e false) s = .next t ∧ t.rd RTC_XMEAS_VALID = 1 ∧
        t.rdS RTC_XMEAS_ERR = max (-32768) (min 32767 e) ∧ u.Only t [] (· = RTC_XMEAS)) ∧
      ∃ t, exec (.xtal32Measurement dt e true) s = .next t ∧ t.rd RTC_XMEAS_VALID = 1 ∧
        t.rd (TMP_EVCNT_V 3) = satU 32 (u.rd (TMP_EVCNT_V 3) + 1)) ∧
    (∃ t, exec (.supplyChangeover dt) s = .next t ∧ t.onVbat = !u.onVbat ∧
      t.rd BKP_STAT_SWCNT = satU 16 (u.rd BKP_STAT_SWCNT + 1) ∧ t.utc = u.utc ∧ u.Only t [.cal] (· = BKP_STAT)) ∧
    exec (.cellCheck dt false) s = .next u ∧
    (∃ t, exec (.cellCheck dt true) s = .next t ∧ t.rd BKP_STAT_CELL_LOW = 1 ∧
      u.Only t [] (fun a => a = BKP_STAT ∨ RepReg a)) ∧
    (∃ t, exec (.backupDomainReset dt) s = .next t ∧ t.utc = 0 ∧ t.cal60 = false ∧ t.subN = 0 ∧ t.holdN = 0 ∧
      t.fold = false ∧ t.dstReq = 0 ∧ t.bkQ = [] ∧ t.rd RTC_STAT_OSF = 1 ∧ t.rd BKP_STAT_BRST = 1 ∧
      t.rdW RTC_LEAP = 0 ∧ t.rdW RTC_LOCAL = 0 ∧ t.rdW BKP_MISSED = 0 ∧ t.rdW TMP_BKCNT = 0 ∧
      (∀ a, a < 2 → t.rdW (RTC_ALMCTL a) = 0) ∧
      (∀ a, isBackup a = true → (∀ k, k < 16 → a ≠ BKP_RAM k) → a ≠ BKP_RAMCHK → t.rdW a = regReset a) ∧
      t.rd BKP_RAMCHK_V = 65535 - t.ramCrc ∧ t.iso = u.iso ∧ t.onVbat = u.onVbat ∧
      u.Only t [.cal, .alarm, .fresh] (fun a => isBackup a = true)) ∧
    (∀ c, u.isoEnd = some c →
      (c ≤ u.clk → exec (.backupIsolationEnd dt) s = .next { u with iso := false, isoEnd := none }) ∧
      (u.clk < c → exec (.backupIsolationEnd dt) s = .next u)) ∧
    (u.isoEnd = none → exec (.backupIsolationEnd dt) s = .next u)

/-- R395 to R397, R400, R401, R457: the controller's commands, with their frame. -/
def Obligations.Interrupts : Prop :=
  ∀ (s u : State) (dt : Nat),
    let pri := fun i => u.rd (INT_PRI_of i)
    (∀ (o : Orig) (t : Fin 6), s.AwakeFor dt (intClaimKeys t) u →
      let offer := fun i => i < 192 ∧ u.level i = true ∧ (∀ c ∈ u.claims, c.1 ≠ i) ∧
        bit (u.rdW (INT_EN t (i / 32))).toNat (i % 32) = 1 ∧ u.rd (INT_THR_V t) < pri i
      let answers := fun (v : State) (w : Word) => Sparse.get (fun _ => 0) (readerOf o) v.rdata = w ∧
        u.Only v [.alarm, .rdata] (fun _ => False)
      ((∀ i, ¬ offer i) → ∃ v, exec (.interruptClaim dt o t) s = .next v ∧ answers v 0 ∧ v.claims = u.claims) ∧
      ∀ i, offer i → (∀ j, offer j → pri j < pri i ∨ pri j = pri i ∧ i ≤ j) →
        ∃ v, exec (.interruptClaim dt o t) s = .next v ∧ answers v (BitVec.ofNat 32 (pri i * 65536 + i)) ∧
          v.claims = u.claims ++ [(i, t.val)]) ∧
    (s.AwakeFor dt dirKeys u → ∀ (t : Fin 6) (w : Word),
      let i := w.toNat % 256
      ((i, t.val) ∈ u.claims → exec (.interruptComplete dt t w) s
        = .next { u with claims := u.claims.filter (· ≠ (i, t.val)) }) ∧
      ((i, t.val) ∉ u.claims → ∃ v, exec (.interruptComplete dt t w) s = .next v ∧ v.rd INT_BADDONE_ID = i ∧
        v.rd INT_BADDONE_COUNT = satU 16 (u.rd INT_BADDONE_COUNT + 1) ∧ v.rd INT_BADDONE_TGT = t ∧
        u.Only v [] (· = INT_BADDONE))) ∧
    (s.AwakeFor dt dirKeys u → ∀ (k : Fin 2) (w : Word),
      (∃ v, exec (.intSwset dt k w) s = .next v ∧ v.rdW (INT_SWSET k) = u.rdW (INT_SWSET k) ||| w ∧
        u.Only v [] (· = INT_SWSET k) ∧ ∀ i, i < 32 → bit w.toNat i = 1 → v.level (128 + 32 * k + i) = true) ∧
      ∃ v, exec (.intSwclr dt k w) s = .next v ∧ v.rdW (INT_SWSET k) = u.rdW (INT_SWSET k) &&& ~~~w ∧
        u.Only v [] (· = INT_SWSET k) ∧ ∀ i, i < 32 → bit w.toNat i = 1 → v.level (128 + 32 * k + i) = false) ∧
    (s.AwakeFor dt dirKeys u → u.setNow = [] → ∀ (r : Fin 2) (w : Word), ∃ v, exec (.alertLatchClear dt (.host r) w) s
      = .next v ∧
      u.Only v [] (· = INT_ALSTAT) ∧ ∀ i, i < 32 → bit (v.rdW INT_ALSTAT).toNat i =
        if (i = 2 ∨ i = 3) ∧ bit w.toNat i = 1 then 0 else bit (u.rdW INT_ALSTAT).toNat i) ∧
    (s.Awake dt u → ∀ k : Fin 2,
      let a := if k.val = 0 then u.alert0 else u.alert1
      let due := max (a.since + u.rd HDG_ALERT_MINAS * cyMs)
        ((a.released.map fun r => r + u.rd HDG_ALERT_GAP * 10 * cyMs).getD 0)
      let ends := fun b : Alert => exec (.alertReleaseDeferred dt k) s
        = .next (if k.val = 0 then { u with alert0 := b } else { u with alert1 := b })
      (a.deferred = false → exec (.alertReleaseDeferred dt k) s = .next u) ∧
      (a.deferred = true → a.low = true → u.alertHeld k u.levels = false → due ≤ u.clk →
        ends { a with low := false, released := some due, deferred := false }) ∧
      (a.deferred = true → a.low = true → u.alertHeld k u.levels = false → u.clk < due → ends a) ∧
      (a.deferred = true → a.low = true → u.alertHeld k u.levels = true → ends { a with deferred := false })) ∧
    (s.Awake dt u →
      let waits := fun (q : List LogRec) (i : Instr) => (q = [] ∨ u.pfRuns = true → exec i s = .next u)
      let n := u.rd YLD_LOGSEQ_V
      let writes := fun (i : Instr) (r : LogRec) (Q : State → Prop) => u.pfRuns = false →
        ∀ k, u.logNext (if n = 0 then 3839 else u.rd YLD_LOGSLOT_V) = some k →
        let ws := sheafWords (0x310000 + 256 * k) (sheaf r.type (seqNext n) (r.payload.map BitVec.toNat))
        (u.nvFailed = [] → k = if n = 0 then 0 else (u.rd YLD_LOGSLOT_V + 1) % 3840) ∧
        ∃ v, exec i s = .next v ∧ Q v ∧ v.rd YLD_LOGSEQ_V = seqNext n ∧ v.rd YLD_LOGSLOT_V = k ∧
          v.engRun.todo = u.engRun.todo ++ ws ∧ (u.engRun.todo = [] → v.engRun.t0 = u.clk ∧ v.engRun.done = 0) ∧
          u.Only v [.alarm, .nvm] (fun x => x = YLD_LOGSEQ ∨ x = YLD_LOGSLOT)
      waits u.alq (.alarmRecordWrite dt) ∧ waits u.evl (.logRecordWrite dt) ∧
      (∀ r q, u.alq = r :: q → writes (.alarmRecordWrite dt) r (fun v => v.alq = q ∧ v.evl = u.evl)) ∧
      ∀ r q, u.evl = r :: q → writes (.logRecordWrite dt) r (fun v => v.evl = q ∧ v.alq = u.alq))

/-- R399 to R402, R411: what the end of a fabric cycle does with the levels of the interrupt sources. -/
def Obligations.AlarmGroups : Prop :=
  ∀ (s : State), s.pending = [] → s.inReset = false → s.nvC = none → s.cribCopy = none → s.engRun.todo = [] →
    (∀ i, i < 77 → s.yldUse i = s.rd (YLD_USE_V i)) →
    (∀ p, p < 5 → s.rd (PLG_PSTAT_STATE p) = 3 → s.rd (YLD_EOL_EOL (68 + p)) = 0) →
    let rises := fun i => 1 ≤ i ∧ i < 192 ∧ s.level i = true ∧ bit s.lvl i = 0
    let names := fun (p : Nat → Bool) => ∃ i, i < 128 ∧ rises i ∧ p i = true
    let safe := names fun i => s.rd (INT_RSP_SAFE i) = 1
    let asks := fun b v => names fun i => decide (bits (s.rdW (INT_RSP i)).toNat (21 + 2 * b) (20 + 2 * b) = v)
    let qual := fun i => rises i ∧ bit (s.rdW (INT_EN 5 (i / 32))).toNat (i % 32) = 1 ∧
      s.rd (INT_THR_V 5) < s.rd (INT_PRI_of i)
    let logs := names fun i => s.rd (INT_RSP_LOG i) = 1
    ∃ t, step s = .next t ∧ t.lvl = s.levels ∧ t.clk = s.clk + 1 ∧ t.claims = s.claims ∧
      (¬ logs → t.alq = s.alq ∧ t.rd INT_LOGLOST_V = s.rd INT_LOGLOST_V) ∧
      (logs → s.alq.length < 32 → ∃ r, t.alq = s.alq ++ [r] ∧ r.type = 0x100) ∧
      (logs → 32 ≤ s.alq.length → t.alq = s.alq ∧ t.rd INT_LOGLOST_V = satU 16 (s.rd INT_LOGLOST_V + 1)) ∧
      ((∀ i, ¬ qual i) ∨ s.rd BAL_CTL_EVEN = 0 → t.evWait = s.evWait ∧ t.rd INT_EVLOST_V = s.rd INT_EVLOST_V) ∧
      (∀ i, qual i → s.rd BAL_CTL_EVEN = 1 →
        (∀ j, qual j → s.rd (INT_PRI_of j) < s.rd (INT_PRI_of i) ∨ s.rd (INT_PRI_of j) = s.rd (INT_PRI_of i) ∧ i ≤ j) →
        (s.evWait.length < (if s.evOut.isSome then 4 else 5) →
          ∃ e, t.evWait = s.evWait ++ [e] ∧ e.arg1 = i + s.rd (INT_PRI_of i) * 256 ∧ e.words.length ≤ 16) ∧
        ((if s.evOut.isSome then 4 else 5) ≤ s.evWait.length →
          t.evWait = s.evWait ∧ t.rd INT_EVLOST_V = satU 16 (s.rd INT_EVLOST_V + 1))) ∧
      (∀ b, b < 2 → (bit (t.rdW INT_ALSTAT).toNat (2 + b) = 1 ↔
        asks b 2 ∨ (¬ asks b 3 ∧ bit (s.rdW INT_ALSTAT).toNat (2 + b) = 1))) ∧
      (safe ∨ s.safeQ ≠ [] → t.rd HDG_STAT_SAFE = 1 ∧ t.safeQ = [] ∧ t.safeClk = s.clk + 1 ∧ t.alert0.low = true ∧
        t.alert1.low = true ∧ (s.rd HDG_STAT_SAFE = 0 → (∀ n, n < 16 → (t.pulseOf n).on = false) ∧ t.duoTx = none)) ∧
      (¬ safe → s.safeQ = [] → t.rd HDG_STAT_SAFE = s.rd HDG_STAT_SAFE ∧ t.rd HDG_SAFECNT_V = s.rd HDG_SAFECNT_V) ∧
      (s.safeQ = [] → safe → t.rd HDG_SAFECNT_V = satU 16 (s.rd HDG_SAFECNT_V + 1))

/-- R406 to R412: HEDGE_WRITE, SAFE_STATE_FORCE and SAFE_STATE_CLEAR, with their frame. -/
def Obligations.Hedges : Prop :=
  ∀ (s u : State) (dt : Nat), s.AwakeFor dt dirKeys u →
    (∀ (h : Fin 2) (r : Fin 7) (w : Word),
      let a := HDG_PLS + 4 * r.val
      (u.rd HDG_CTL_LOCK = 1 → exec (.hedgeWrite dt (.host h) r w) s = .next u) ∧
      (u.rd HDG_CTL_LOCK = 0 → ∃ t, exec (.hedgeWrite dt (.host h) r w) s = .next t ∧
        u.Only t [] (fun x => x = a ∨ x = HDG_STAT ∨ RepReg x) ∧
        (let takes := fun (f : Fld) (ok : Nat → Nat → Prop) =>
           let n := bits w.toNat f.hi f.lo
           (ok (u.rd f) n → t.rd f = n) ∧ (¬ ok (u.rd f) n → t.rd f = u.rd f ∧ t.rd HDG_STAT_CFGERR = 1)
         (r.val = 0 → takes HDG_PLS_MAXHZ fun o n => 1 ≤ n ∧ n ≤ 25000 ∧ n ≤ o) ∧
         (r.val = 1 → takes HDG_ALERT_GAP (fun o n => 5 ≤ n ∧ o ≤ n) ∧ takes HDG_ALERT_MINAS fun o n => 10 ≤ n ∧
           o ≤ n) ∧
         (r.val = 2 → takes HDG_DUO_LVLMAX (fun o n => n ≤ o) ∧
           takes HDG_DUO_DUTY fun o n => 1 ≤ n ∧ n ≤ 100 ∧ n ≤ o) ∧
         (r.val = 3 → takes HDG_NVMP_LAST (fun o n => n ≤ 207 ∧ n ≤ o) ∧
           takes HDG_NVMP_FIRST (fun o n => n ≤ 207 ∧ o ≤ n) ∧ takes HDG_NVMP_CRIB (fun o n => n ≤ o) ∧
           takes HDG_NVMP_SET fun o n => n ≤ o) ∧
         (r.val = 4 → takes HDG_CLK_BUD fun o n => n ≤ 20 ∧ n ≤ o) ∧
         (r.val = 5 → takes HDG_DGRANT_V fun o n => ∀ i, i < 32 → bit n i = 1 → bit o i = 1) ∧
         (r.val = 6 → takes HDG_MSD_PERMIT fun o n => n ≤ o)))) ∧
    (∀ h : Fin 2,
      (2 ∈ u.safeQ → exec (.safeStateForce dt (.host h)) s = .next u) ∧
      (2 ∉ u.safeQ → exec (.safeStateForce dt (.host h)) s = .next { u with safeQ := u.safeQ ++ [2] }) ∧
      (u.rd HDG_STAT_SAFE = 1 → u.clk ≠ u.safeClk → ∃ t, exec (.safeStateClear dt (.host h)) s = .next t ∧
        t.rd HDG_STAT_SAFE = 0 ∧ t.rd HDG_STAT_VIOL = u.rd HDG_STAT_VIOL ∧ u.Only t [] (· = HDG_STAT)) ∧
      (u.rd HDG_STAT_SAFE = 0 ∨ u.clk = u.safeClk → exec (.safeStateClear dt (.host h)) s = .next u)) ∧
    ∀ (p : Fin 5) (h : Fin 16) (r : Fin 7) (w : Word),
      let refuses := fun (i : Instr) (a : Nat) => ∃ t, exec i s = .next t ∧ t.rdW SYS_MAPERR = BitVec.ofNat 32 a ∧
        t.rd SYS_MAPSRC_ORIG = p.val ∧ t.rd SYS_MAPSRC_WR = 1 ∧ bit (t.rdW HDG_STAT).toNat 6 = 1 ∧
        t.rd HDG_VCNT_V = satU 32 (u.rd HDG_VCNT_V + 1) ∧ t.rdW HDG_VADDR = BitVec.ofNat 32 a ∧
        t.rd HDG_STAT_SAFE = u.rd HDG_STAT_SAFE ∧ u.Only t [.alarm] (fun x => x = SYS_MAPERR ∨ x = SYS_MAPSRC ∨
          x = HDG_STAT ∨ x = HDG_VCNT ∨ x = HDG_VLAST ∨ x = HDG_VADDR ∨ RepReg x)
      refuses (.hedgeWrite dt (.plough p h) r w) (HDG_PLS + 4 * r) ∧
        refuses (.safeStateForce dt (.plough p h)) HDG_CMD ∧
        refuses (.safeStateClear dt (.plough p h)) HDG_CMD

/-- R25, R413 to R417, R483: the monitors' rows, with their frame. -/
def Obligations.Tamper : Prop :=
  ∀ (s u : State) (dt : Nat), s.advance dt = u →
    let E := fun (c a : Nat) => a = TMP_STAT ∨ a = TMP_EVCNT c ∨ a = TMP_BURNPEND ∨ RepReg a
    let event := fun (t : State) (c : Nat) => bit (t.rdW TMP_STAT).toNat c = 1 ∧
      t.rd (TMP_EVCNT_V c) = satU 32 (u.rd (TMP_EVCNT_V c) + 1) ∧
      (u.rd (TMP_OTP_V c) < 64 → (∀ d, Sparse.get (fun _ => none) c u.otpDue = some d → d + cyDay ≤ u.clk) →
        bit (t.rdW TMP_BURNPEND).toNat c = 1) ∧
      (64 ≤ u.rd (TMP_OTP_V c) → t.rdW TMP_BURNPEND = u.rdW TMP_BURNPEND)
    let raises := fun (i : Instr) (c : Nat) (Q : State → Prop) => ∃ t, exec i s = .next t ∧ event t c ∧ Q t ∧
      u.Only t [.alarm] (E c)
    (∀ n : Fin 4,
      let m := bits (u.rdW TMP_CTL).toNat (2 * n + 1) (2 * n)
      let l := u.loopOf n
      let shows := fun (t : State) (v : Nat) => bit (t.rdW TMP_LOOP).toNat n = v ∧ ∀ k, k ≠ n.val →
        t.loopOf k = u.loopOf k
      (m ≠ 1 → m ≠ 2 → ∀ bs, exec (.tamperLoopEvent dt n bs) s = .next u) ∧
      (m = 1 ∨ m = 2 → exec (.tamperLoopEvent dt n []) s = .next u ∧
        (∃ t, exec (.tamperLoopEvent dt n [true]) s = .next t ∧ shows t 0 ∧ u.Only t [.alarm] (· = TMP_LOOP) ∧
          t.loopOf n = { bad := 0, good := l.good + 1, armed := l.armed || decide (7 ≤ l.good) }) ∧
        (l.armed = false ∨ l.bad ≠ 1 → ∃ t, exec (.tamperLoopEvent dt n [false]) s = .next t ∧ shows t 1 ∧
          u.Only t [.alarm] (· = TMP_LOOP) ∧ t.loopOf n = { bad := l.bad + 1, good := 0, armed := l.armed }) ∧
        (l.armed = true → l.bad = 1 → ∃ t, exec (.tamperLoopEvent dt n [false]) s = .next t ∧ shows t 1 ∧
          t.loopOf n = { bad := 2, good := 0, armed := false } ∧
          (u.inReset = false → event t 0 ∧ u.Only t [.alarm] (fun a => a = TMP_LOOP ∨ E 0 a)) ∧
          (u.inReset = true → t.rd TMP_BKCNT_CAT0 = satU 8 (u.rd TMP_BKCNT_CAT0 + 1) ∧
            bit (t.rdW BKP_MISSED).toNat 2 = 1 ∧
            u.Only t [.alarm] (fun a => a = TMP_LOOP ∨ a = TMP_BKCNT ∨ a = BKP_MISSED ∨ RepReg a))) ∧
        (u.inReset = false → l.armed = true → l.bad = 0 → ∃ t,
          exec (.tamperLoopEvent dt n [false, false]) s = .next t ∧ event t 0 ∧ shows t 1))) ∧
    (u.inReset = false →
      (∀ x : Fin 4096,
        let far := u.rd TMP_MAGTHR_V < ((x.val : Int) - 2048).natAbs
        let due := u.clk + 10 * cyMs
        (u.rd TMP_MCTL_MAGEN = 0 ∨ u.clk < u.magDue → exec (.magneticCheck dt x) s = .next u) ∧
        (u.rd TMP_MCTL_MAGEN = 1 → u.magDue ≤ u.clk →
          (¬ far → exec (.magneticCheck dt x) s = .next { u with magN := 0, magDue := due }) ∧
          (far → u.magN ≠ 2 → exec (.magneticCheck dt x) s = .next { u with magN := u.magN + 1, magDue := due }) ∧
          (far → u.magN = 2 → raises (.magneticCheck dt x) 1 fun t => t.magN = 0 ∧ t.magDue = due))) ∧
      (∀ t0 t1 t2 t3 : Fin 256,
        let out := ∃ x ∈ [t0, t1, t2, t3], x.val < u.rd TMP_TLIM_LO ∨ u.rd TMP_TLIM_HI < x.val
        let i := Instr.temperatureCheck dt t0 t1 t2 t3
        let due := u.clk + cyMs
        (u.rd TMP_MCTL_TEMPEN = 0 ∨ u.clk < u.tempDue → exec i s = .next u) ∧
        (u.rd TMP_MCTL_TEMPEN = 1 → u.tempDue ≤ u.clk →
          (¬ out → exec i s = .next { u with tempN := 0, tempDue := due }) ∧
          (out → u.tempN ≠ 2 → exec i s = .next { u with tempN := u.tempN + 1, tempDue := due }) ∧
          (out → u.tempN = 2 → raises i 4 fun t => t.tempN = 0 ∧ t.tempDue = due))) ∧
      (u.pfTaken = true → exec (.supplyExcursion dt) s = .next u) ∧
      (u.pfTaken = false → raises (.supplyExcursion dt) 2 fun _ => True) ∧
      (∀ i : Fin 5,
        (i.val < 4 ∨ u.rd TMP_TAP_UNLOCKED = 1 → exec (.tapInstructionLoad dt i) s = .next { u with tap := i }) ∧
        (i.val = 4 → u.rd TMP_TAP_UNLOCKED = 0 → raises (.tapInstructionLoad dt i) 5 fun t => t.tap = 0)) ∧
      raises (.testEnHigh dt) 5 (fun _ => True) ∧
      (u.refin = false → exec (.refinPeriodDeviation dt) s = .next u) ∧
      (u.refin = true → raises (.refinPeriodDeviation dt) 3 fun _ => True) ∧
      (∀ ok,
        let i := Instr.otpBurnDone dt ok
        let next := fun t : State => t.burnCat = (if u.pfTaken = true then none else t.burnDue) ∧
          (t.burnCat.isSome = true → t.burnTry = 0 ∧ t.burnAt = u.clk)
        (u.burnCat = none ∨ u.clk < u.burnAt + cyUs 200 → exec i s = .next u) ∧
        ∀ c, c < 8 → u.burnCat = some c → u.burnAt + cyUs 200 ≤ u.clk →
          (ok = true → u.rd (TMP_OTP_V c) < 64 → ∃ t, exec i s = .next t ∧ t.rd (TMP_OTP_V c) = u.rd (TMP_OTP_V c) + 1 ∧
            bit (t.rd TMP_BURNPEND_V) c = 0 ∧ next t ∧
            (u.rd (TMP_OTP_V c) = 63 → bit (t.rdW TMP_STAT).toNat (16 + c) = 1) ∧
            (c = 0 → t.rd TMP_BKCNT_CAT0 = 0) ∧ (c = 3 → t.rd TMP_BKCNT_CAT3 = 0) ∧ u.Only t [.alarm]
              (fun a => a = TMP_OTP c ∨ a = TMP_BURNPEND ∨ a = TMP_STAT ∨ a = TMP_BKCNT)) ∧
          (ok = false → u.burnTry ≠ 3 → exec i s = .next { u with burnTry := u.burnTry + 1, burnAt := u.clk }) ∧
          (ok = false → u.burnTry = 3 → ∃ t, exec i s = .next t ∧ bit t.burnFail c = 1 ∧ next t ∧
            u.Only t [.alarm] (fun _ => False)))) ∧
    (u.refin = false → exec (.refinLoss dt) s = .next u) ∧
    (u.refin = true → u.inReset = true → exec (.refinLoss dt) s
      = .next { u with
          refin := false, pllHold := true, pllLock := false, pllAt := if u.pllHold then u.pllAt else u.clk }) ∧
    (u.refin = true → u.inReset = false → ∃ t, exec (.refinLoss dt) s = .next t ∧ t.refin = false ∧ t.pllHold = true ∧
      t.pllLock = false ∧ (u.pllHold = false → t.pllAt = u.clk) ∧ t.rd SYS_CLKSTAT_REFLOSS = 1 ∧ event t 3 ∧
      u.Only t [.clock, .alarm] (fun a => a = SYS_CLKSTAT ∨ E 3 a)) ∧
    exec (.refinReturn dt) s = .next { u with refin := true } ∧
    (u.refin = true → u.pllHold = true → ∃ t, exec (.pllLockRegained dt) s = .next t ∧ t.pllHold = false ∧
      t.pllLock = true ∧ (u.pllAt, u.clk) ∈ t.pllWas ∧ u.Only t [.clock] (fun _ => False)) ∧
    (u.refin = false ∨ u.pllHold = false → exec (.pllLockRegained dt) s = .next u)

/-- R9, R22, R24, R468 to R470: POWER_ON_RESET, RST_N_LOW, SYS_RSTCMD_WRITE and SOFTWARE_RESET_DELAY_EXPIRY. That the
bytes of main memory read 0 afterwards is log entry 2's choice. -/
def Obligations.Resets : Prop :=
  ∀ (s u : State) (dt : Nat),
    let into := fun (t : State) (warm : Bool) (cause : Nat) =>
      t.inReset = true ∧ t.rstCause = cause ∧ t.rstReq = none ∧ t.clk = u.clk ∧ t.pending = u.pending ∧
      t.pfBall = u.pfBall ∧ t.noPf = (if u.inReset then u.noPf else decide (cause ≠ 2) && !u.pfTaken) ∧
      (∀ p, p < 5 → warm = true → u.rd (PLG_PSTAT_STATE p) = 3 →
        t.rd (PLG_PSTAT_STATE p) = 3 ∧ t.rd (PLG_PSTAT_LOG p) = 7) ∧
      (∀ a, (∀ p, p < 5 → warm = true → u.rd (PLG_PSTAT_STATE p) = 3 → a ≠ PLG_PSTAT p) →
        ∀ f ∈ regFields a, bits (t.rdW a).toNat f.hi f.lo =
        if f.dom = .b ∨ (f.dom = .p ∧ (warm = true ∨ lasting a = true)) then bits (u.rdW a).toNat f.hi f.lo
        else bits (if HDG_PLS ≤ a ∧ a ≤ HDG_MSD then u.rdW (a + 256) else regReset a).toNat f.hi f.lo) ∧
      t.toFurrowSt = State.reset.toFurrowSt ∧ t.toChanSt = State.reset.toChanSt ∧
      t.toTallySt = State.reset.toTallySt ∧ t.toEngineSt = State.reset.toEngineSt ∧
      t.toRingSt = State.reset.toRingSt ∧ t.toDealSt = State.reset.toDealSt ∧ t.toUpdSt = State.reset.toUpdSt ∧
      t.claims = [] ∧ t.safeQ = [] ∧ t.alert0.low = true ∧ t.alert1.low = true ∧ t.nvC = none ∧ t.nvBuf = [] ∧
      (warm = true → t.lifeExc = u.lifeExc ∧ t.lifeSwap = u.lifeSwap ∧ t.dayClk = u.dayClk) ∧
      t.iso = true ∧ t.bkQ = [] ∧ t.utc = u.utc ∧ t.subN = u.subN ∧ t.subAt = u.subAt ∧ t.fold = u.fold ∧
      (∀ a, a < 0x400000 ∨ 0xC40000 ≤ a → t.byte a = 0) ∧
      (u.nvC = none → u.engRun.todo = [] → u.cribQ = [] → u.cribCopy = none →
        ∀ a, (if warm then 0x400000 else 0x800000) ≤ a → a < 0xC40000 →
        t.byte a = u.byte a)
    (s.advance dt = u → u.Inv → ∃ t, exec (.powerOnReset dt) s = .next t ∧ into t false 0 ∧ ∀ a, 0x400000 ≤ a →
      a < 0x800000 → t.byte a = 0) ∧
    (s.advance dt = u → u.Inv → ∃ t, exec (.rstNLow dt) s = .next t ∧ into t true 1) ∧
    (s.AwakeFor dt dirKeys u →
      (∀ (h : Fin 2) (w : Word),
        (w.toNat % 65536 = 0xA55A → u.rstReq = none →
          exec (.sysRstcmdWrite dt (.host h) w) s = .next { u with rstReq := some u.clk }) ∧
        (w.toNat % 65536 ≠ 0xA55A ∨ u.rstReq.isSome = true → exec (.sysRstcmdWrite dt (.host h) w) s = .next u)) ∧
      ∀ (p : Fin 5) (h : Fin 16) (w : Word), ∃ t, exec (.sysRstcmdWrite dt (.plough p h) w) s = .next t ∧
        t.rdW SYS_MAPERR = BitVec.ofNat 32 SYS_RSTCMD ∧ bit (t.rdW HDG_STAT).toNat 6 = 1 ∧
        u.Only t [.alarm] (fun a => a = SYS_MAPERR ∨ a = SYS_MAPSRC ∨ (HDG_STAT ≤ a ∧ a ≤ HDG_VADDR) ∨ RepReg a)) ∧
    (s.Awake dt u →
      (u.rstReq = none → exec (.softwareResetDelayExpiry dt) s = .next u) ∧
      ∀ c, u.rstReq = some c →
        (u.clk < c + cyUs 10 → exec (.softwareResetDelayExpiry dt) s = .next u) ∧
        (u.pfRuns = true → exec (.softwareResetDelayExpiry dt) s = .next u) ∧
        (c + cyUs 10 ≤ u.clk → u.pfRuns = false → ∃ t,
          exec (.softwareResetDelayExpiry dt) s = .next t ∧ (∃ k, t.nvC = some k ∧ k.kind = 3 ∧ k.start = u.clk) ∧
          t.rd NVM_STAT_BUSY = 1 ∧ u.Only t [.nvm]
            (fun a => a = NVM_STAT ∨ a = NVM_CRIBLOST ∨ a = NVM_CNUM ∨ a = NVM_CTIME ∨ RepReg a)))

/-- R24, R427 to R432, R442, R443, R445: RESET_RELEASE with a blank barn, and the rows of the later steps. -/
def Obligations.Startup : Prop :=
  ∀ (s u : State) (dt : Nat), s.advance dt = u →
    (∀ (hz : Nat) (g rom ram : Bool) (pass : Fin 32),
      let i := Instr.resetRelease dt hz g rom ram pass [] []
      let near := fun k : Nat => ∃ f, [10000000, 19200000, 25000000][k]? = some f ∧ 49 * f ≤ 50 * hz ∧ 50 * hz ≤ 51 * f
      let warned := u.pfBall = true ∨ ∃ c, u.pfRel = some c ∧ u.clk < c + 10 * cyMs
      ((u.inReset = false ∧ u.boot ≠ 0) ∨ warned ∨ rom = false → exec i s = .next u) ∧
      (u.rstCause = 0 → u.refin = false ∨ (∀ k, ¬ near k) → exec i s = .next u) ∧
      (u.inReset = true ∨ u.boot = 0 → ¬ warned → rom = true → u.rstCause ≠ 0 ∨ (u.refin = true ∧ ∃ k, near k) →
        (∀ a, 0x800000 ≤ a → a < 0xC40000 → u.byte a = 0) → u.nvTaken = [] → ∃ t, exec i s = .next t ∧
          t.inReset = false ∧ t.clk = u.clk ∧ t.clk0 = u.clk ∧
          (∀ k, u.rstCause = 0 → near k → t.pllLock = true ∧ t.pllHold = false ∧ t.rd SYS_CLKSTAT_REFSEL = k) ∧
          (u.rstCause ≠ 0 → t.pllLock = u.pllLock ∧ t.pllHold = u.pllHold ∧ t.rdW SYS_CLKSTAT = u.rdW SYS_CLKSTAT) ∧
          t.iso = true ∧ t.isoEnd = some (u.clk + cyMs) ∧ t.updSel = [] ∧ t.rd NVM_CNUM_V = 0 ∧
          (u.rd RTC_STAT_OSF = 1 → t.tb0.ticks = 0 ∧ t.tb1.ticks = 0 ∧ t.rd RTC_TBSTAT_TIMEVALID = 0) ∧
          (u.rd RTC_STAT_OSF = 0 → t.rd RTC_TBSTAT_TIMEVALID = 1 ∧ t.tb0.ticks = t.tb1.ticks ∧
            (0 ≤ (u.utc : Int) + u.rdS RTC_LEAP_LS →
              (t.tb0.ticks : Int) = ((u.utc : Int) + u.rdS RTC_LEAP_LS) * tickSec + u.subsec * 7500)) ∧
          t.tb0.t0 = u.clk ∧
          (ram = true → t.boot = (if g then 2 else 1) ∧ t.bootAt = u.clk) ∧
          (ram = false → t.boot = 5 ∧ t.rd UPD_STAT_RECOV = 1 ∧ t.healthy = false ∧ t.cal.isSome = true) ∧
          (u.rstCause ≠ 0 → ∀ p, p < 5 → u.rd (PLG_PSTAT_STATE p) = 3 →
            t.rd (PLG_PSTAT_STATE p) = 3 ∧ t.rd (PLG_PSTAT_LOG p) = 7) ∧
          (u.rstCause = 0 → ∀ p, p < 5 → t.rd (PLG_PSTAT_PASS p) = bit pass p ∧
            (bit pass p = 0 → t.rd (PLG_PSTAT_STATE p) = 3 ∧ t.rd (PLG_PSTAT_LOG p) = 7) ∧
            (bit pass p = 1 → t.rd (PLG_PSTAT_LOG p) = ((List.range p).filter fun q => bit pass q = 1).length)))) ∧
    (u.inReset = false →
      (u.boot = 1 → u.bootAt + 2 * cySec ≤ u.clk → exec (.gpio00WaitExpiry dt) s = .next { u with boot := 2 }) ∧
      (u.boot ≠ 1 ∨ u.clk < u.bootAt + 2 * cySec → exec (.gpio00WaitExpiry dt) s = .next u) ∧
      (u.boot ≠ 2 → exec (.slotSelection dt) s = .next u) ∧
      (let takes := fun (k : Nat) (Q : State → Prop) =>
         ∃ t, exec (.slotSelection dt) s = .next t ∧ t.boot = 3 ∧ t.bootSlot = some k ∧ Q t
       let gives := fun Q : State → Prop => ∃ t, exec (.slotSelection dt) s = .next t ∧ t.boot = 5 ∧
         t.healthy = false ∧ t.rd UPD_STAT_RECOV = 1 ∧ t.cal.isSome = true ∧ Q t
       let p := u.updSel
       let k := selSlot p
       let good := fun j => mkState (u.marker j) = 3 ∧ u.imgOk j = true
       let tries := p ≠ [] ∧ (selState p ≠ 1 ∨ (selBoots p ≠ 3 ∧ u.trialHeld < selWin p))
       u.boot = 2 →
        (p = [] → good 0 → takes 0 fun t => bit (t.rdW UPD_BOOT).toNat 4 = 1 ∧ t.updSel = []) ∧
        (p = [] → ¬ good 0 → good 1 → takes 1 fun t => bit (t.rdW UPD_BOOT).toNat 4 = 1) ∧
        (p = [] → ¬ good 0 → ¬ good 1 → gives fun t => bit (t.rdW UPD_BOOT).toNat 4 = 1) ∧
        (p ≠ [] → selState p ≠ 1 → u.imgOk k = true → takes k fun t => t.updSel = p ∧ u.SameMem t) ∧
        (tries → u.imgOk k = false → good (1 - k) → takes (1 - k) fun t =>
          bit (t.rdW UPD_BOOT).toNat 0 = 1 ∧ selState t.updSel = 0 ∧ selSlot t.updSel = 1 - k ∧
          mkState (t.marker k) = 4 ∧ bit (t.rdW TMP_STAT).toNat 7 = 1) ∧
        (tries → u.imgOk k = false → ¬ good (1 - k) → gives fun t =>
          bit (t.rdW TMP_STAT).toNat 7 = 1) ∧
        (selState p = 1 → selBoots p ≠ 3 → u.trialHeld < selWin p → u.imgOk k = true → takes k fun t =>
          selState t.updSel = 1 ∧ selBoots t.updSel = selBoots p + 1 ∧ selSlot t.updSel = k) ∧
        (selState p = 1 → selBoots p = 3 ∨ selWin p ≤ u.trialHeld → u.imgOk (selPrev p) = true →
          takes (selPrev p) fun t => bit (t.rdW UPD_BOOT).toNat 1 = 1 ∧ selState t.updSel = 0 ∧
            selSlot t.updSel = selPrev p ∧ mkState (t.marker k) = 5) ∧
        (selState p = 1 → selBoots p = 3 ∨ selWin p ≤ u.trialHeld → u.imgOk (selPrev p) = false →
          gives fun t => bit (t.rdW UPD_BOOT).toNat 1 = 1)) ∧
      (let loads := fun (k : Nat) (t : State) => t.rd UPD_ACTVER_V = u.imgVer k ∧
         (∀ a, fieldRam ≤ a → t.byte a = u.byte a) ∧
         (∀ a, a < fieldRam → (∀ g ∈ u.imgSegs k, a < g.2.1 ∨ g.2.1 + g.2.2 ≤ a) → t.byte a = 0) ∧
         (apart (u.imgSegs k) = true → ∀ g ∈ u.imgSegs k, ∀ i, i < g.2.2 →
           t.byte (g.2.1 + i) = u.byte (u.barnAddr (0x100000 * k + g.1 + i))) ∧
         (∀ m, m < 64 → t.rdW (PLG_SVEC m) = BitVec.ofNat 32 (u.imgNum k (u.imgNum k 16 4 + 4 * m) 4)) ∧
         ∀ l, l < 4 → (t.logiOf l).kick = u.clk ∧ (u.startFull l = false →
           (t.logiOf l).q = (u.logiOf l).q ++ [{ vec := 0, word := 0x70000000, at_ := u.clk }])
       let fits := fun k : Nat => ∀ g ∈ u.imgSegs k, g.2.1 + g.2.2 ≤ fieldRam
       let i := Instr.imageLoadDone dt
       let k := selSlot u.updSel
       (∀ k, u.boot = 3 → u.bootSlot = some k → u.updQ = [] → u.cal = none → fits k → ∃ t, exec i s = .next t ∧
         t.boot = 4 ∧ t.cal = some { all := true, ch := 0, start := u.clk, enable := false } ∧ loads k t) ∧
       (u.boot = 3 → u.updQ ≠ [] ∨ u.cal.isSome = true → exec i s = .next u) ∧
       (u.boot ≠ 3 → u.updLoad = false ∨ (∃ p, p < 5 ∧ (u.ploughOf p).sb ≠ []) → exec i s = .next u) ∧
       (u.boot ≠ 3 → u.updLoad = true → (∀ p, p < 5 → (u.ploughOf p).sb = []) → selState u.updSel = 1 ∨
         u.imgOk k = true →
         fits k → ∃ t, exec i s = .next t ∧ t.updLoad = false ∧ t.rd UPD_STAT_RECOV = 0 ∧ loads k t) ∧
       (u.boot ≠ 3 → u.updLoad = true → (∀ p, p < 5 → (u.ploughOf p).sb = []) → selState u.updSel ≠ 1 →
         u.imgOk k = false → ∃ t, exec i s = .next t ∧ t.updLoad = false ∧ t.rd UPD_STAT_RECOV = 1 ∧ t.healthy = false ∧
           bit (t.rdW TMP_STAT).toNat 7 = 1)) ∧
      (let named := fun n : Nat => n < 4 ∧ u.rd (FUR_CTL_EN n) = 1 ∧ u.rd (FUR_STAT_LOCK n) = 0 ∧
         ∃ f, f < 16 ∧ (u.fieldOf f).cfg.en = true ∧ (u.fieldOf f).cfg.fw = n
       (u.boot ≠ 4 ∨ u.cal.isSome = true ∨ u.rotT0 = none → exec (.furrowLockWaitEnd dt) s = .next u) ∧
        ∀ c, u.rotT0 = some c → u.boot = 4 → u.cal = none →
          (u.clk < c + 3 * cyMs ∨ ((∃ n, named n) ∧ u.clk < c + 403 * cyMs) →
            exec (.furrowLockWaitEnd dt) s = .next u) ∧
          (c + 3 * cyMs ≤ u.clk → (∀ n, ¬ named n) ∨ c + 403 * cyMs ≤ u.clk →
            ∃ t, exec (.furrowLockWaitEnd dt) s = .next t ∧ t.healthy = true ∧ t.boot = 6 ∧
              ((∃ n, named n) → bit (t.rdW UPD_BOOT).toNat 2 = 1) ∧ u.Only t [.alarm, .upd] (· = UPD_BOOT))))

/-- R8, R21, R141, R363, R403, R410: REGISTER_WRITE, with its frame. -/
def Obligations.RegisterWrites : Prop :=
  ∀ (s u : State) (dt : Nat) (o : Orig) (a w : Word), s.AwakeFor dt (writeKeys o a.toNat) u →
    let n := a.toNat
    let c := origCode o
    let writes := fun Q : State → Prop => ∃ t, exec (.registerWrite dt o a w) s = .next t ∧ Q t
    let refuses := fun t : State => t.rdW SYS_MAPERR = a ∧ t.rd SYS_MAPSRC_ORIG = c ∧ t.rd SYS_MAPSRC_WR = 1 ∧
      t.rd SYS_MAPSRC_COUNT = satU 16 (u.rd SYS_MAPSRC_COUNT + 1)
    (n < 0x1000000 ∨ 0x101C000 ≤ n ∨ n % 4 ≠ 0 → exec (.registerWrite dt o a w) s = .next u) ∧
    (0x101B800 ≤ n → n < 0x101C000 → n % 4 = 0 → writes fun t => refuses t ∧
      u.Only t [] (fun x => x = SYS_MAPERR ∨ x = SYS_MAPSRC)) ∧
    (∀ (p : Fin 5) (h : Fin 16), o = .plough p h → n % 4 = 0 →
      Block 0x16 n ∨ Block 0x17 n ∨ Block 0x19 n ∨ (Block 0x1B n ∧ n < 0x101B800) ∨ n = BAL_SYNCCTL ∨
        (∃ i, i < 128 ∧ n = INT_RSP i) ∨ (∃ l, l < 4 ∧ n = PLG_SCTO l) ∨ n = SYS_RSTCMD ∨
        (∃ l, l < 4 ∧ n = PLG_KICK l ∧ l ≠ u.logOf p) →
      writes fun t => refuses t ∧ bit (t.rdW HDG_STAT).toNat 6 = 1 ∧ t.rdW HDG_VADDR = a ∧
        u.Only t [.alarm] (fun x => x = SYS_MAPERR ∨ x = SYS_MAPSRC ∨ x = HDG_STAT ∨ x = HDG_VCNT ∨ x = HDG_VLAST ∨
          x = HDG_VADDR ∨ RepReg x)) ∧
    ((∃ j, j < 32 ∧ n = INT_PRI j) ∨ (∃ t k, t < 6 ∧ k < 8 ∧ n = INT_EN t k) →
      writes fun t => t.rdW n = w ∧ u.Only t [] (· = n)) ∧
    ((∃ f, f < 16 ∧ (n = TAL_FCFG f ∨ n = TAL_START f ∨ n = PLS_CFG f)) ∨ n = RTC_TB1TRIM ∨ n = RTC_TB0FTRIM →
      writes fun t => t.rd DEAL_DWR_COUNT = satU 16 (u.rd DEAL_DWR_COUNT + 1) ∧ t.rd DEAL_DWR_ORIG = c ∧
        t.rdW DEAL_DWRADDR = a ∧ u.Only t [] (fun x => x = DEAL_DWR ∨ x = DEAL_DWRADDR)) ∧
    (∀ k, k < 48 → n = ANA_CHCFG k ∨ n = FLT_SHIFT k → u.isSealed k = true →
      writes fun t => t.rd TAL_STAT_SEALWR = 1 ∧ u.Only t [] (fun x => x = TAL_STAT ∨ RepReg x)) ∧
    (n = NVM_STAT → writes fun t => u.Only t [] (fun x => x = NVM_STAT ∨ RepReg x) ∧
      ∀ i, i < 32 →
        (bit w.toNat i = 0 ∨ bit (w1cMask NVM_STAT) i = 0 ∨ (NVM_STAT, i) ∈ u.setNow →
          bit (t.rdW NVM_STAT).toNat i = bit (u.rdW NVM_STAT).toNat i) ∧
        (bit w.toNat i = 1 → bit (w1cMask NVM_STAT) i = 1 → (NVM_STAT, i) ∉ u.setNow →
          bit (t.rdW NVM_STAT).toNat i = 0)) ∧
    (n = NVM_STAT → (NVM_STAT, NVM_STAT_DONE.lo) ∈ u.setNow → bit w.toNat NVM_STAT_DONE.lo = 1 →
      writes fun t => t.rd (INT_REP_of 93) = satU 8 (u.rd (INT_REP_of 93) + 1))

/-- R438 to R443: the rows of the update engine. -/
def Obligations.Updates : Prop :=
  ∀ (s u : State) (dt : Nat),
    let k := u.inactive
    let m := u.marker k
    let p := u.updSel
    let busy := u.rd UPD_STAT_BUSY = 1
    let pends := u.rd UPD_STAT_ACTPEND = 1
    let trial := selState p = 1
    let refuses := fun i => ∃ t, exec i s = .next t ∧ t.rd UPD_STAT_CMDERR = 1 ∧
      u.Only t [] (fun a => a = UPD_STAT ∨ RepReg a)
    let jobs := fun (i : Instr) (Q : State → UpdJob → Prop) => ∃ t j, exec i s = .next t ∧ t.updQ = u.updQ ++ [j] ∧
      u.SameMem t ∧ Q t j
    let back := fun (i : Instr) => jobs i fun _ j => ∃ q, j.fin = .revert q ∧ selState q = 0 ∧ selSlot q = selPrev p ∧
      selBank q = selPrevBank p ∧ selHash q = selPrevHash p
    (s.AwakeFor dt dirKeys u →
      (busy ∨ trial ∨ pends → refuses (.updBeginFull dt) ∧ refuses (.updBeginDelta dt) ∧ refuses (.updErase dt)) ∧
      (¬ busy → ¬ trial → ¬ pends →
        jobs (.updBeginFull dt) (fun t j => j.fin = .done ∧ mkState (t.marker k) = 1 ∧ mkKind (t.marker k) = 0 ∧
          mkBlocks (t.marker k) = 0 ∧ mkLen (t.marker k) = 8 * u.rd UPD_LEN_V ∧ t.rd UPD_DLSTAT_STATE = 1 ∧
          (u.updQ ≠ [] → j.recs = [(1 + k, t.marker k)])) ∧
        jobs (.updErase dt) (fun t j => j.fin = .done ∧ mkState (t.marker k) = 0 ∧ t.rd UPD_DLSTAT_STATE = 0 ∧
          (u.updQ ≠ [] → j.recs = [(1 + k, t.marker k)])) ∧
        (u.rd UPD_STAT_RECOV = 1 ∨ (∀ r, u.running = some r → mkState (u.marker r) ≠ 3) →
          refuses (.updBeginDelta dt)) ∧
        (∀ r, u.rd UPD_STAT_RECOV = 0 → u.running = some r → mkState (u.marker r) = 3 →
          jobs (.updBeginDelta dt) (fun t j => j.fin = .done ∧ mkState (t.marker k) = 1 ∧ mkKind (t.marker k) = 1 ∧
            mkBlocks (t.marker k) = 0))) ∧
      (busy ∨ mkState m ≠ 1 → refuses (.updResume dt)) ∧
      (¬ busy → mkState m = 1 → ∃ t, exec (.updResume dt) s = .next t ∧ t.rd UPD_DLBLK_V = mkBlocks m ∧
        u.Only t [] (· = UPD_DLBLK)) ∧
      (busy ∨ mkState m ≠ 2 → refuses (.updVerify dt)) ∧
      (¬ busy → mkState m = 2 → ∃ t, exec (.updVerify dt) s = .next t ∧ t.rd UPD_STAT_BUSY = 1 ∧
        t.updVer = some u.clk ∧ u.Only t [.upd] (· = UPD_STAT)) ∧
      (u.updAct = none → refuses (.updCancel dt)) ∧
      (u.updAct.isSome = true → ∃ t, exec (.updCancel dt) s = .next t ∧ t.updAct = none ∧ t.rd UPD_STAT_ACTPEND = 0 ∧
        u.Only t [.upd] (· = UPD_STAT)) ∧
      (busy ∨ ¬ trial ∨ u.trialEnds = true → refuses (.updRevert dt)) ∧
      (¬ busy → trial → u.trialEnds = false → back (.updRevert dt)) ∧
      (let x := u.actNamed
       let ok := mkState m = 3 ∧ u.rd UPD_ACTID_V = (mkHash m).getD 0 0 % 2 ^ 32 ∧ ¬ trial ∧ ¬ pends ∧ 1 ≤ x.win ∧
         x.win ≤ 1440 ∧ (x.when_ = 0 ∨
           (x.when_ = 1 ∧ u.rd (FUR_CTL_EN x.fw) = 1 ∧ angDiff (u.angle x.fw) x.t0 < 0) ∨
           (x.when_ = 2 ∧ x.t0 ≤ 999999999 ∧
             u.tb0.at u.clk * 3125 + 768 * 20000 < 768 * (x.t1 * 1000000000 + x.t0)))
       (¬ ok → refuses (.activationSchedule dt)) ∧
        (ok → ∃ t, exec (.activationSchedule dt) s = .next t ∧ t.updAct = some x ∧ t.rd UPD_STAT_ACTPEND = 1 ∧
          u.Only t [.upd] (· = UPD_STAT))) ∧
      ∀ w : Word,
        (¬ trial ∨ u.trialEnds = true ∨ w.toNat ≠ selHash p → refuses (.trialConfirm dt w)) ∧
        (trial → u.trialEnds = false → w.toNat = selHash p → jobs (.trialConfirm dt w) fun _ j => ∃ q,
          j.fin = .confirm q none 0 ∧ selState q = 0 ∧ selSlot q = selSlot p ∧ selBank q = selBank p)) ∧
    (s.Awake dt u →
      (u.updVer = none → exec (.updVerifyDone dt) s = .next u) ∧
      (∀ c, u.updVer = some c →
        let due := c + u.verTime k ≤ u.clk
        (u.imgForm k = true → u.verTime k = 24 * cyMs + ((u.imgLen k + 128) * 3072 + 99) / 100) ∧
        (¬ due → exec (.updVerifyDone dt) s = .next u) ∧
        (due → u.imgOk k = true → (∀ r, u.running = some r → u.imgSfmt r = u.imgSfmt k) →
          jobs (.updVerifyDone dt) fun t j => t.updVer = none ∧ ∃ v, j.fin = .verified k v true ∧ mkState v = 3 ∧
            mkHash v = hashWords (u.imgHash k)) ∧
        (due → u.imgOk k = true → (∃ r, u.running = some r ∧ u.imgSfmt r ≠ u.imgSfmt k) →
          jobs (.updVerifyDone dt) fun t j => t.updVer = none ∧ ∃ v, j.fin = .bank k v ∧ mkState v = 3) ∧
        (due → u.imgOk k = false → jobs (.updVerifyDone dt) fun t j => t.updVer = none ∧
          (∃ v, j.fin = .verified k v false ∧ mkState v = 4) ∧ bit (t.rdW TMP_STAT).toNat 7 = 1 ∧
          t.rd (TMP_EVCNT_V 7) = satU 32 (u.rd (TMP_EVCNT_V 7) + 1))) ∧
      (trial → u.trialEnds = false → u.updLoad = false → u.boot = 6 → selWin p ≤ u.trialSecs →
        back (.trialWindowExpiry dt)) ∧
      (¬ trial ∨ u.trialEnds = true ∨ u.updLoad = true ∨ u.boot ≠ 6 ∨ u.trialSecs < selWin p →
        exec (.trialWindowExpiry dt) s = .next u) ∧
      (u.updAct = none → exec (.activation dt) s = .next u) ∧
      (∀ x, u.updAct = some x →
        (u.actDue x = false → exec (.activation dt) s = .next u) ∧
        (u.actDue x = true → (∀ r, u.running = some r → r < 2) → jobs (.activation dt) fun t j => t.updAct = none ∧
          ∃ q, j.fin = .activate q ∧ selState q = 1 ∧ selSlot q = k ∧ selBoots q = 1 ∧ selWin q = 60 * x.win)) ∧
      (¬ trial ∨ u.trialSecs / 10 ≤ u.trialN → exec (.trialProgress dt) s = .next u) ∧
      (trial → u.trialN < u.trialSecs / 10 → ∃ t, exec (.trialProgress dt) s = .next t ∧
        t.trialN = u.trialSecs / 10 ∧ u.Only t [.upd, .nvm] (fun a => a = NVM_STAT ∨ RepReg a) ∧
        (u.nvBuf = [] → u.pfRuns = false → u.rd NVM_PROT_BPB = 0 → t.nvBuf.length = 3)) ∧
      -- the selector of an activation is committed: the ploughs stop; where their stores have drained the program set's
      -- state returns to reset (Table 15-7)
      ∀ c j q, u.nvC = some c → c.kind < 2 → c.bnd.isSome = true → c.todo = [] → c.wrote ≤ u.clk → u.nvHeld = 0 →
        u.dealCeilNew = none → u.updQ = [j] → j.live = true → j.words = [] → j.sent = [] → j.fin = .activate q →
        ∃ t, exec (.commitClose dt []) s = .next t ∧ t.updQ = [] ∧ t.updSel = q ∧ t.updLoad = true ∧
          t.rd UPD_STAT_ACTDONE = 1 ∧ t.rd UPD_STAT_ACTPEND = 0 ∧
          ((∀ pl, (u.ploughOf pl).sb = [] ∧ (u.ploughOf pl).drain = none) → t.updStop = false ∧
            t.thrQ = [] ∧ t.hop = [] ∧ t.seedQ = [] ∧ t.duoQ = [] ∧ (∀ a, actReg a = true → t.rdW a = regReset a) ∧
              (∀ l, l < 4 → (t.logiOf l).q = [] ∧ (t.logiOf l).mail = []) ∧
            ∀ l pl h, l < 4 → u.physOf l = some pl → h < 16 → (t.handOf pl h).st = .idle) ∧
          (∀ l pl, l < 4 → pl < 5 → u.physOf l = some pl → (u.ploughOf pl).sb ≠ [] → (u.ploughOf pl).drain = none →
            (t.ploughOf pl).drain.isSome = true ∧ t.updStop = true))

/-- R337, R345, R350, R353, R354, R460: the rings' own events, with their frame. -/
def Obligations.Links : Prop :=
  ∀ (s u : State) (dt : Nat), s.Awake dt u →
    let quiet := u.rd MSD_STAT_ACT = 0 ∧ u.txHeld = []
    let sent := fun (i : Instr) (A : List Part) (Q : State → Prop) => ∃ t, exec i s = .next t ∧ Q t ∧
      u.Only t A (fun a => ∃ r, r < 2 ∧ a = MSD_RCNT r)
    let event := fun (f : Frame) (tag att : Nat) (e : EventFrame) => f.cls = 2 ∧ f.op = 8 ∧ f.tag = tag ∧
      f.att = att ∧ f.pos = u.rd BAL_PLOT_POS ∧ f.arg1 = e.arg1 % 2 ^ 32 ∧ f.pay = e.words
    (∀ r : Fin 2,
      let st := u.rd (BAL_LSTAT_STATE r)
      let began := Sparse.get (fun _ => 0) r.val u.trainAt
      (st ≠ 0 → exec (.linkSignalDetect dt r) s = .next u) ∧
      (st = 0 → ∃ t, exec (.linkSignalDetect dt r) s = .next t ∧ t.rd (BAL_LSTAT_STATE r) = 1 ∧
        Sparse.get (fun _ => 0) r.val t.trainAt = u.clk ∧ u.Only t [.ring] (· = BAL_LSTAT r)) ∧
      (∀ (nbv : Bool) (nb : Fin 64),
        (st ≠ 1 ∨ u.clk < began + cyMs → exec (.linkTrainComplete dt r nbv nb) s = .next u) ∧
        (st = 1 → began + cyMs ≤ u.clk → ∃ t, exec (.linkTrainComplete dt r nbv nb) s = .next t ∧
          t.rd (BAL_LSTAT_STATE r) = 2 ∧ (t.rd (BAL_LSTAT_NBV r) = 1 ↔ nbv = true) ∧ t.rd (BAL_LSTAT_NB r) = nb ∧
          u.Only t [] (· = BAL_LSTAT r))) ∧
      (∀ v : Fin 17, ∃ t, exec (.linkDown dt r v) s = .next t ∧
        t.rd (BAL_ERR_VIOL r) = satU 16 (u.rd (BAL_ERR_VIOL r) + v) ∧ t.rd (BAL_LSTAT_STATE r) = 0 ∧
        (st ≠ 0 → t.rd (BAL_LSTAT_NBV r) = 0 ∧ t.rd (BAL_LSTAT_WENTDOWN r) = 1 ∧ ∃ e, t.evl = u.evl ++ [e]) ∧
        (st = 0 → t.evl = u.evl ∧ t.rdW (BAL_LSTAT r) = u.rdW (BAL_LSTAT r)) ∧
        u.Only t [.health, .alarm] (fun a => a = BAL_LSTAT r ∨ a = BAL_ERR r ∨ RepReg a)) ∧
      (∀ d : Fin 65536,
        let last := Sparse.get (fun _ => 0) r.val u.hopAt
        (st ≠ 2 ∨ (0 < last ∧ u.clk + 1 < last + cySec) → exec (.hopDelayMeasure dt r d) s = .next u) ∧
        (st = 2 → last = 0 ∨ last + cySec ≤ u.clk + 1 → ∃ t, exec (.hopDelayMeasure dt r d) s = .next t ∧
          t.rd (BAL_HOPDLY_V r) = d ∧ u.Only t [.ring] (· = BAL_HOPDLY r))) ∧
      (∃ t, exec (.misdealFrameRelease dt r) s = .next t ∧ u.Only t [.ring] (fun _ => False)) ∧
      (let mine := u.txHeld.filter (·.tx.ring == r.val)
       ((∀ h ∈ mine, h.due ≤ u.clk) → exec (.misdealFrameRelease dt r) s
          = .next { u with txNow := u.txNow ++ mine.map (·.tx), txHeld := u.txHeld.filter (·.tx.ring != r.val) }) ∧
        ∀ h hs, mine = h :: hs → h.reorder = false → u.clk < h.due → exec (.misdealFrameRelease dt r) s = .next u)) ∧
    exec (.responseKeepExpiry dt) s = .next { u with kept := u.kept.filter fun k => u.clk < k.at_ + cyMs } ∧
    (let due := u.rd BAL_SYNCCTL_BCST = 1 ∧ ∀ c, u.syncTx = some c → c + cySec / u.rd BAL_SYNCCTL_RATE ≤ u.clk
     (¬ due → exec (.syncSend dt) s = .next u) ∧
      (due → sent (.syncSend dt) [.ring, .fresh] fun t => t.syncTx = some u.clk ∧ (quiet → ∃ f : Frame,
        t.txNow = u.txNow ++ [⟨0, f, 0⟩, ⟨1, f, 0⟩] ∧ f.cls = 2 ∧ f.op = 9 ∧ f.pos = u.rd BAL_PLOT_POS ∧
        f.chain = u.rd BAL_PLOT_CHAIN ∧ f.pay.length = 18 ∧ (f.pay.getD 0 0).toNat = nsecOf (u.tb0.at u.clk) % 2 ^ 32 ∧
        ∀ n, n < 4 → (f.pay.getD (4 + 2 * n) 0).toNat + (f.pay.getD (5 + 2 * n) 0).toNat * 2 ^ 32 = u.angle n % 2 ^ 64 ∧
          (f.pay.getD (12 + n) 0).toNat = u.rd (FUR_FREQ_FREQ n)))) ∧
    (u.evOut.isSome = true ∨ u.rd BAL_CTL_EVEN = 0 ∨ u.evWait = [] → exec (.eventSend dt) s = .next u) ∧
    (∀ e es, u.evOut = none → u.rd BAL_CTL_EVEN = 1 → u.evWait = e :: es →
      sent (.eventSend dt) [.alarm, .ring, .fresh] fun t => t.evWait = es ∧ ∃ g, g < 64 ∧
        t.evOut = some { tag := g, ev := e, att := 0, at_ := u.clk, ring := u.rd BAL_CTL_EVRING } ∧
        (quiet → ∃ f, t.txNow = u.txNow ++ [⟨u.rd BAL_CTL_EVRING, f, 0⟩] ∧ event f g 0 e)) ∧
    (∀ g : Fin 64,
      ((∀ e, u.evOut = some e → e.tag ≠ g) → exec (.eventAck dt g) s = .next u) ∧
      ∀ e, u.evOut = some e → e.tag = g → exec (.eventAck dt g) s = .next { u with evOut := none }) ∧
    (u.evOut = none → exec (.eventRetryTimeout dt) s = .next u) ∧
    ∀ e, u.evOut = some e →
      (u.clk < e.at_ + cyUs 100 → exec (.eventRetryTimeout dt) s = .next u) ∧
      (e.at_ + cyUs 100 ≤ u.clk → e.att < 2 →
        sent (.eventRetryTimeout dt) [.ring, .fresh] fun t =>
          t.evOut = some { e with att := e.att + 1, at_ := u.clk, ring := 1 - e.ring } ∧
          (quiet → ∃ f, t.txNow = u.txNow ++ [⟨1 - e.ring, f, 0⟩] ∧ event f (e.tag % 64) (e.att + 1) e.ev)) ∧
      (e.at_ + cyUs 100 ≤ u.clk → 2 ≤ e.att → ∃ t, exec (.eventRetryTimeout dt) s = .next t ∧ t.evOut = none ∧
        t.rd BAL_RETRYCNT_EVFAIL = satU 16 (u.rd BAL_RETRYCNT_EVFAIL + 1) ∧ u.Only t [.ring] (· = BAL_RETRYCNT))

/-- R342, R343, R345, R346, R351, R355, R460: FRAME_RECEIVE, ENUM and SYNC. -/
def Obligations.FrameReceive : Prop :=
  ∀ (s u : State) (dt : Nat) (r : Fin 2),
    let up := u.rd (BAL_LSTAT_STATE r) = 2
    let quiet := u.rd MSD_STAT_ACT = 0 ∧ u.txHeld = []
    let none_ := fun _ : Nat => False
    let corr := fun w : Word => w + BitVec.ofNat 32 (2560 + u.rd (BAL_HOPDLY_V r))
    let sent := fun (i : Instr) (fs : List TxFrame) (B : List Part) (A : Nat → Prop) (Q : State → Prop) =>
      ∃ t, exec i s = .next t ∧ (quiet → t.txNow = u.txNow ++ fs ∧ Q t ∧ u.Only t B A)
    (∀ w0 w1 w2 : Word, s.Awake dt u →
      let i := Instr.enum dt r w0 w1 w2
      let f : Frame := ⟨(w0 &&& 0x3FFE0FFF#32).toNat, w1.toNat, w2.toNat, []⟩
      let v := bits w1.toNat 6 0
      let p := u.rd BAL_PLOT_POS
      let goes := fun (q : Nat) (Q : State → Prop) => sent i
        [⟨r, { f with w1 := f.w1 - v + (if bit w1.toNat 8 = 1 then (q + 127) % 128 else q + 1) }, 0⟩] [.ring]
        (fun a => a = BAL_PLOT ∨ RepReg a) fun t => t.rd BAL_PLOT_POSVALID = 1 ∧ t.rd BAL_PLOT_POS = q ∧ Q t
      (¬ up → exec i s = .next u) ∧
      (up → 64 ≤ v → sent i [⟨r, f, 0⟩] [.ring] (fun a => a = BAL_PLOT ∨ RepReg a) fun t => t.rd BAL_PLOT_OVER = 1 ∧
        t.rd BAL_PLOT_POSVALID = u.rd BAL_PLOT_POSVALID ∧ t.rd BAL_PLOT_POS = p) ∧
      (up → v < 64 → u.rd BAL_PLOT_POSVALID = 0 ∨ bit w1.toNat 9 = 1 →
        goes v fun t => t.rd BAL_PLOT_CHAIN = bits w2.toNat 31 24 ∧ t.rd BAL_PLOT_POSCONF = u.rd BAL_PLOT_POSCONF) ∧
      (up → v < 64 → u.rd BAL_PLOT_POSVALID = 1 → bit w1.toNat 9 = 0 →
        goes p fun t => t.rd BAL_PLOT_CHAIN = u.rd BAL_PLOT_CHAIN ∧
          t.rd BAL_PLOT_POSCONF = if p = v then u.rd BAL_PLOT_POSCONF else 1)) ∧
    (∀ (host : Bool) (pos : Fin 64) (pay : List Word),
      let i := Instr.sync dt r host pos pay
      let e := u.syncErr r pay
      let p := fun k => (pay.getD k 0).toNat
      let ok := if host then u.rd BAL_SYNCCTL_HOST = 1 ∧ u.rd BAL_PLOT_POSVALID = 1 else pos = u.rd BAL_SYNCCTL_RPOS
      let adopt := u.rd BAL_SYNCCTL_ADOPT = 1 ∧ u.rd RTC_TBSTAT_STATE = 0
      let on := fun (f : Frame) => f.cls = (if host then 0 else 2) ∧ f.op = 9 ∧
        f.pay.getD 3 0 = corr (pay.getD 3 0) ∧ ∀ k, k ≠ 3 → f.pay.getD k 0 = pay.getD k 0
      (wfSync pay = false → exec i s = .fault .illFormed) ∧
      (wfSync pay = true → s.Awake dt u →
        (¬ up → exec i s = .next u) ∧
        (up → ¬ ok → ∃ t f, exec i s = .next t ∧
          (quiet → t.txNow = u.txNow ++ [⟨r, f, 0⟩] ∧ on f ∧ u.Only t [.ring] none_)) ∧
        (up → ok → ∃ t f, exec i s = .next t ∧ (quiet → t.txNow = u.txNow ++ [⟨r, f, 0⟩] ∧ on f ∧
          t.rd BAL_SYNCSTAT_CNT = satU 16 (u.rd BAL_SYNCSTAT_CNT + 1) ∧ t.syncRx = some u.clk ∧
          (adopt → t.rdS BAL_SYNCERR_V = satS 32 (divRound e 12288)) ∧
          (¬ adopt ∨ e.natAbs ≤ 12288000 → t.tb0 = u.tb0 ∧ t.rd RTC_TBSTAT_EPOCH = u.rd RTC_TBSTAT_EPOCH) ∧
          (adopt → 12288000 < e.natAbs → t.rd BAL_SYNCSTAT_STEP = 1 ∧ t.tb0.t0 = u.clk ∧ t.tb0.trim = u.tb0.trim ∧
            t.tb0.ticks = ((u.tb0.at u.clk : Int) - divRound e 50000).toNat % (tickSec * 2 ^ 34) ∧
            t.rd RTC_TBSTAT_EPOCH = (u.rd RTC_TBSTAT_EPOCH + 1) % 16) ∧
          (∀ n, n < 4 →
            let m := u.rd (FUR_SRC_RFW n)
            let lit := fun k => bit (p 16) (4 * m + k) = 1
            let late : Int := ((t.tb0.at u.clk * 3125 : Nat) : Int)
              - 768 * ((p 1 + p 2 % 4 * 2 ^ 32) * 1000000000 + p 0 : Nat)
            let rate := bits (p (12 + m)) 22 0
            if u.rd (FUR_CTL_EN n) = 1 ∧ u.rd (FUR_SRC_SRC n) = 6 ∧ lit 0 ∧ lit 3 then
              (t.furrow n).bSeen = true ∧ (t.furrow n).sClk = u.clk ∧ (t.furrow n).sRate = rate ∧
                (t.furrow n).sAng = tc 64 ((p (4 + 2 * m) + p (5 + 2 * m) * 2 ^ 32 : Nat)
                  + ((rate * 16777216 : Nat) : Int) * (2 * late) / ((3125 * angDen : Nat) : Int)) ∧ u.Follows t n rate
            else t.furrow n = u.furrow n) ∧
          u.Only t [.ring, .furrow, .fresh] fun a => a = BAL_SYNCSTAT ∨ a = BAL_SYNCERR ∨ a = RTC_TBSTAT ∨ RepReg a ∨
            ∃ n, n < 4 ∧ a = FUR_STAT n)))) ∧
    ∀ (ok abort : Bool) (w0 w1 w2 : Word) (pay : List Word) (at_ : Fin 64) (k : Fin 5),
      let i := Instr.frameReceive dt r ok abort w0 w1 w2 pay at_ k
      let f : Frame := ⟨w0.toNat, w1.toNat, w2.toNat, pay⟩
      let enum := f.cls = 0 ∧ f.op = 0
      let sync := f.op = 9 ∧ (f.cls = 2 ∨ (f.cls = 0 ∧ f.bc = true))
      let drops := fun (fs : List TxFrame) => sent i fs [.ring] (· = BAL_DROP r) fun t =>
        t.rd (BAL_DROP_V r) = satU 32 (u.rd (BAL_DROP_V r) + 1)
      let here := (f.cls = 0 ∨ f.cls = 3) ∧ u.rd BAL_PLOT_POSVALID = 1 ∧ f.pos = u.rd BAL_PLOT_POS
      let mine := f.chain = u.rd BAL_PLOT_CHAIN
      let ranged := u.rd BAL_PLOT_POSVALID = 1 ∧ f.pos ≤ u.rd BAL_PLOT_POS ∧ u.rd BAL_PLOT_POS ≤ f.arg2 % 64
      let answered := fun (st : Nat) (A : Nat → Prop) (Q : State → Prop) => ∃ t g, exec i s = .next t ∧ (quiet →
        t.txNow = u.txNow ++ [⟨1 - r.val, g, 0⟩] ∧ g.cls = 1 ∧ g.op = f.op ∧ g.tag = f.tag ∧ bits g.w2 23 16 = st ∧
        Q t ∧ u.Only t [.ring, .fresh] A)
      (wfFrame ok abort w0 pay = false → exec i s = .fault .illFormed) ∧
      (wfFrame ok abort w0 pay = true → s.AwakeFor dt (frameKeys r w0 w1 w2 pay) u →
        (¬ up → exec i s = .next u) ∧
        (up → abort = true → sent i [⟨r, f, 2⟩] [.ring] none_ fun _ => True) ∧
        (up → abort = false → ok = false → sent i [⟨r, f, 2⟩] [.ring, .health] (· = BAL_ERR r) fun t =>
          t.rd (BAL_ERR_CRC r) = satU 16 (u.rd (BAL_ERR_CRC r) + 1)) ∧
        (up → abort = false → ok = true →
          (enum → pay = [] → exec i s = exec (.enum dt r w0 w1 w2) s) ∧
          (¬ enum → sync → ∃ t, exec i s = .next t ∧ (quiet →
            t.txNow = u.txNow ++ [⟨r, { f with pay := pay.set 3 (corr (pay.getD 3 0)) }, 0⟩] ∧
            (t.rd BAL_SYNCSTAT_CNT = if pay.length = 18 ∧ (if f.cls = 2 then f.bc = false ∧
              f.pos = u.rd BAL_SYNCCTL_RPOS
              else u.rd BAL_SYNCCTL_HOST = 1 ∧ ranged ∧ mine) then satU 16 (u.rd BAL_SYNCSTAT_CNT + 1)
              else u.rd BAL_SYNCSTAT_CNT) ∧
            t.rd (BAL_DROP_V r) = if f.cls = 0 ∧ ranged ∧ ¬ mine then satU 32 (u.rd (BAL_DROP_V r) + 1)
              else u.rd (BAL_DROP_V r))) ∧
          (¬ enum → ¬ sync → f.bc = true →
            ((f.cls = 1 ∨ f.cls = 2) ∨ ¬ ranged → sent i [⟨r, f, 0⟩] [.ring] none_ fun _ => True) ∧
            ((f.cls = 0 ∨ f.cls = 3) → ranged → ¬ (f.cls = 0 ∧ f.op = 2 ∧ f.led = false ∧ mine) → drops [⟨r, f, 0⟩]) ∧
            (f.cls = 0 → ranged → f.op = 2 → f.led = false → mine → 64 < pay.length ∨ f.arg1 % 4 ≠ 0 →
              sent i [⟨r, f, 0⟩] [.ring] none_ fun _ => True) ∧
            (f.cls = 0 → ranged → f.op = 2 → f.led = false → mine → k.val = 0 → f.arg1 % 4 = 0 → pay.length ≤ 64 →
              f.arg1 + 4 * pay.length ≤ fieldRam → ∃ t, exec i s = .next t ∧ (quiet → t.txNow = u.txNow ++ [⟨r, f, 0⟩] ∧
                (∀ j, j < pay.length → t.load32 (f.arg1 + 4 * j) = (pay.getD j 0).toNat) ∧
                (∀ b, b < f.arg1 ∨ f.arg1 + 4 * pay.length ≤ b → t.byte b = u.byte b) ∧ u.SameParts t [.ring] ∧
                u.SameRegs t none_))) ∧
          (¬ enum → ¬ sync → f.bc = false →
            (¬ here → sent i [⟨r, f, 0⟩] [.ring] none_ fun _ => True) ∧
            (here → ¬ mine → drops []) ∧
            (here → mine → f.cls = 3 → exec i s = exec (.eventAck dt (Fin.ofNat 64 f.tag)) s) ∧
            (here → mine → f.cls = 0 → f.op = 9 → ∃ t, exec i s = .next t ∧ t.txNow = u.txNow ∧
              t.rd BAL_SYNCSTAT_CNT = if u.rd BAL_SYNCCTL_HOST = 1 ∧ pay.length = 18 then
                satU 16 (u.rd BAL_SYNCSTAT_CNT + 1) else u.rd BAL_SYNCSTAT_CNT) ∧
            (here → mine → f.cls = 0 → ∀ x, u.bulkMore r f = some x → exec i s = .next x) ∧
            (here → mine → f.cls = 0 → f.op ≠ 9 → u.bulkMore r f = none →
              (let kept := u.keptOf r f.tag
               let runs := u.reqs.any (fun q => q.ring == r.val && q.frame.tag == f.tag) = true
               (f.att ≠ 0 → ∀ x, kept = some x → sent i (x.frames.map fun g => ⟨1 - r.val, g, 0⟩) [.ring]
                  (· = BAL_RETRYCNT) fun t => t.rd BAL_RETRYCNT_RETRY = satU 16 (u.rd BAL_RETRYCNT_RETRY + 1)) ∧
                (f.att ≠ 0 → kept = none → runs → exec i s = .next u) ∧
                (f.att = 0 ∨ (kept = none ∧ ¬ runs) →
                  (slotOp f.op = false → answered 5 none_ fun t => t.reqs = u.reqs) ∧
                  (slotOp f.op = true → 64 ≤ u.reqs.length → answered 1 (· = BAL_NAKCNT) fun t => t.reqs = u.reqs ∧
                    t.rd BAL_NAKCNT_V = satU 32 (u.rd BAL_NAKCNT_V + 1)) ∧
                  (slotOp f.op = true → u.reqs.length < 64 → ∃ t q, exec i s = .next t ∧ t.reqs = u.reqs ++ [q] ∧
                    q.ring = r.val ∧ q.frame = f ∧ q.busy = false ∧ t.rd BAL_SLOT_USED = u.reqs.length + 1 ∧
                    t.txNow = u.txNow ∧ u.Only t [.ring] (· = BAL_SLOT))))))) ∧
        (up → abort = true → u.rd MSD_STAT_ACT = 1 → u.rd (MSD_RING_EN r) = 1 → u.rd (MSD_RING_OWN r) = 0 →
          u.rd (MSD_RING_P r) = 0xFFFF → u.txHeld = [] →
          let act := u.rd (MSD_RING_ACT r)
          ∃ t, exec i s = .next t ∧ t.rd (MSD_RCNT_V r) = satU 32 (u.rd (MSD_RCNT_V r) + 1) ∧
            t.txNow = u.txNow ++ (if act = 1 then [⟨r, f, 1⟩] else []) ∧
            t.txHeld = (if act = 2 then [⟨⟨r, f, 2⟩, u.clk + cyUs 100, true⟩]
              else if act = 3 then [⟨⟨r, f, 2⟩, u.clk + cyUs (u.rd (MSD_RDLY_V r)), false⟩] else []) ∧
            u.Only t [.ring, .fresh] (· = MSD_RCNT r)))

/-- R340, R341, R345, R346, R348, R349, R363, R438, R447: the requests of the host, with their frame. -/
def Obligations.Requests : Prop :=
  ∀ (s u : State) (dt : Nat),
    let quiet := u.rd MSD_STAT_ACT = 0 ∧ u.txHeld = []
    let none_ := fun _ : Nat => False
    let still := u.nvC = none ∧ u.cribCopy = none ∧ u.engRun = {}
    let mapped := fun a => a = SYS_MAPERR ∨ a = SYS_MAPSRC
    let pick := u.reqs.find? fun q => !q.busy && decide (q.frame.op ≠ 10)
    let bulk := u.reqs.find? fun q => decide (q.frame.op = 10)
    let ends := fun (i : Instr) (q : Request) (B : List Part) (A : Nat → Prop) (Q : State → List Frame → Prop) =>
      ∃ t gs, exec i s = .next t ∧ t.reqs = u.reqs.filter (·.id != q.id) ∧
        (quiet → t.txNow = u.txNow ++ gs.map fun g => ⟨1 - q.ring, g, 0⟩) ∧
        (∀ g ∈ gs, g.cls = 1 ∧ g.op = q.frame.op ∧ g.tag = q.frame.tag ∧ g.pos = u.rd BAL_PLOT_POS) ∧ Q t gs ∧
        u.SameParts t (.ring :: .fresh :: B) ∧ u.SameRegs t fun a => a = BAL_SLOT ∨ (∃ r, a = MSD_RCNT r) ∨ A a
    let one := fun (i : Instr) (q : Request) (st : Nat) (B : List Part) (A : Nat → Prop) (Q : State → Frame → Prop) =>
      ends i q B A fun t gs => u.SameMem t ∧ ∃ g, gs = [g] ∧ bits g.w2 23 16 = st ∧ Q t g
    let stores := fun (i : Instr) (q : Request) (st a : Nat) (ws : List Word) (Q : Frame → Prop) =>
      ends i q [] none_ fun t gs => (∃ g, gs = [g] ∧ bits g.w2 23 16 = st ∧ Q g) ∧
        (∀ j, j < ws.length → t.load32 (a + 4 * j) = (ws.getD j 0).toNat) ∧
        ∀ b, b < a ∨ a + 4 * ws.length ≤ b → t.byte b = u.byte b
    let plain := fun (i : Instr) (q : Request) (st : Nat) (Q : Frame → Prop) => one i q st [] none_ fun _ => Q
    let refuse := fun (i : Instr) (q : Request) (a : Nat) => one i q 2 [] mapped fun t g => g.arg2 = 0 ∧
      t.rdW SYS_MAPERR = BitVec.ofNat 32 a ∧ t.rd SYS_MAPSRC_COUNT = satU 16 (u.rd SYS_MAPSRC_COUNT + 1)
    let waits := fun (i : Instr) (op : Nat) => (∀ q, pick = some q → q.frame.op ≠ op) → exec i s = .next u
    (∀ (at_ : Fin 64) (k : Fin 5), s.AwakeFor dt readKeys u →
      let i := Instr.read dt at_ k
      waits i 1 ∧ ∀ q, pick = some q → q.frame.op = 1 →
        let a := q.frame.arg1
        let n := q.frame.arg2
        let good := a % 4 = 0 ∧ 1 ≤ n ∧ n ≤ 64 ∧ q.frame.pay = []
        (¬ good → plain i q 4 fun _ => True) ∧
        (good → still → k.val = 0 → a + 4 * n ≤ fieldRam → plain i q 0 fun g =>
          g.pay = (List.range n).map fun j => BitVec.ofNat 32 (u.load32 (a + 4 * j))) ∧
        (good → hostReads a = false → refuse i q a) ∧
        (good → at_.val = 0 → k.val = 2 → a < fieldRam → one i q 3 [] (· = PLG_ECC) fun t g => g.pay = [] ∧
          t.rd PLG_ECC_DBL = satU 16 (u.rd PLG_ECC_DBL + 1)) ∧
        (good → n = 1 → k.val = 0 → hostReads a = true → quiet → ∃ t g, exec i s = .next t ∧
          t.txNow = u.txNow ++ [⟨1 - q.ring, g, 0⟩] ∧ bits g.w2 23 16 = 0 ∧ g.pay = [(u.wordRead (.host q.r) a).1])) ∧
    (∀ (at_ : Fin 64) (k : Fin 5), s.AwakeFor dt hostWriteKeys u →
      let i := Instr.write dt at_ k
      waits i 2 ∧ ∀ q, pick = some q → q.frame.op = 2 →
        let a := q.frame.arg1
        let ws := q.frame.pay
        let good := a % 4 = 0 ∧ ws ≠ [] ∧ ws.length ≤ 64
        let led := q.frame.led = true
        (¬ good → plain i q 4 fun g => g.arg2 = 0) ∧
        (good → ¬ led → k.val = 0 → a + 4 * ws.length ≤ fieldRam → stores i q 0 a ws fun g => g.arg2 = ws.length) ∧
        (good → ¬ led → hostWrites a = false → refuse i q a) ∧
        (good → ¬ led → at_.val = 0 → k.val = 3 → hostWrites a = true → ∃ t, exec i s = .next t ∧ u.SameMem t ∧
          t.reqs = u.reqs.filter (·.id != q.id) ∧ t.rd TMP_STAT_BIC = 1 ∧
          t.rd TMP_BIC_COUNT = satU 16 (u.rd TMP_BIC_COUNT + 1)) ∧
        (∀ w, ws = [w] → ¬ led → k.val = 0 →
          (∀ j, j < 32 → a = INT_PRI j → one i q 0 [] (· = a) fun t g => g.arg2 = 1 ∧ t.rdW a = w) ∧
          (∀ f, f < 16 → a = TAL_FCFG f → one i q 6 [] (fun x => x = DEAL_DWR ∨ x = DEAL_DWRADDR) fun t g =>
            g.arg2 = 1 ∧ t.rd DEAL_DWR_COUNT = satU 16 (u.rd DEAL_DWR_COUNT + 1)) ∧
          (∀ c, c < 48 → a = FLT_SHIFT c → u.isSealed c = true →
            one i q 15 [] (fun x => x = TAL_STAT ∨ RepReg x) fun t g => g.arg2 = 1 ∧ t.rd TAL_STAT_SEALWR = 1)) ∧
        (good → led → u.openDeal 8 = none → plain i q 7 fun g => g.arg2 = 0) ∧
        (∀ d, good → led → u.openDeal 8 = some d →
          (dealable a = false → plain i q 9 fun g => g.arg2 = 0) ∧
          (dealable a = true → 512 ≤ d.entries.length → plain i q 8 fun g => g.arg2 = 0) ∧
          (dealable a = true → d.entries.length < 512 → ∀ w, ws = [w] → one i q 0 [.deal] (· = DEAL_STAT) fun t g =>
            g.arg2 = 1 ∧ t.deal = some { d with entries := d.entries ++ [(a, w)] } ∧
            t.rd DEAL_STAT_ENTRIES = d.entries.length + 1 ∧
            (t.rd DEAL_STAT_AUTH = 1 ↔ u.dealNeeds (d.entries ++ [(a, w)]) = true)))) ∧
    (∀ k : Fin 5, s.AwakeFor dt rmwKeys u →
      let i := Instr.rmw dt k
      waits i 3 ∧ ∀ q, pick = some q → q.frame.op = 3 →
        let a := q.frame.arg1
        (q.frame.pay.length ≠ 2 ∨ a % 4 ≠ 0 → plain i q 4 fun _ => True) ∧
        ∀ m v, q.frame.pay = [m, v] → a % 4 = 0 →
          (hostReads a = false ∨ hostWrites a = false → refuse i q a) ∧
          (k.val = 0 → still → a + 4 ≤ fieldRam → let old := BitVec.ofNat 32 (u.load32 a)
            stores i q 0 a [(old &&& ~~~m) ||| (v &&& m)] fun g => g.pay = [old])) ∧
    (s.AwakeFor dt mailKeys u → waits (.mailbox dt) 7 ∧ ∀ q, pick = some q → q.frame.op = 7 →
      let l := q.frame.arg1 % 8
      let i := Instr.mailbox dt
      (q.frame.pay.length ≠ 1 → plain i q 4 fun _ => True) ∧
      ∀ w, q.frame.pay = [w] →
        (l < 4 → (u.physOf l).isSome = true → (u.logiOf l).mail.length < 16 → one i q 0 [.engine] none_ fun t _ =>
          (t.logiOf l).mail = (u.logiOf l).mail ++ [(w, BitVec.ofNat 32 ((8 + q.ring) * 2 ^ 28))] ∧
          ∀ k, k ≠ l → t.logiOf k = u.logiOf k) ∧
        (l < 4 → (u.physOf l).isSome = true → 16 ≤ (u.logiOf l).mail.length → plain i q 12 fun _ => True) ∧
        (3 < l ∨ (u.physOf l) = none → plain i q 13 fun _ => True)) ∧
    (∀ (at_ : Nat) (k : Fin 5), s.AwakeFor dt bulkKeys u →
      let i := Instr.bulkRead dt at_ k
      ((∀ q, bulk = some q → q.busy = true ∨ q.last = false ∨ q.frame.wrBit = true) → exec i s = .next u) ∧
      ∀ q, bulk = some q → q.busy = false → q.last = true → q.frame.wrBit = false →
        let a := q.frame.arg1
        (q.frame.pay.length ≠ 1 → plain i q 4 fun _ => True) ∧
        ∀ l : Word, q.frame.pay = [l] →
          let n := l.toNat
          let good := a % 4 = 0 ∧ n % 4 = 0 ∧ 4 ≤ n ∧ n ≤ 2 ^ 24
          (¬ good → plain i q 4 fun _ => True) ∧
          (good → still → k.val = 0 → a + n ≤ fieldRam → ends i q [] none_ fun t gs => u.SameMem t ∧
            gs.flatMap (·.pay) = (List.range (n / 4)).map (fun j => BitVec.ofNat 32 (u.load32 (a + 4 * j))) ∧
            ∀ j g, gs[j]? = some g → bits g.w2 23 16 = 0 ∧ g.arg1 = 256 * j ∧ g.pay.length ≤ 64 ∧
              (g.lastBit = true ↔ j + 1 = gs.length)) ∧
          (good → hostReads a = false → one i q 2 [] mapped fun t g => g.lastBit = true ∧ g.pay = [] ∧
            t.rdW SYS_MAPERR = BitVec.ofNat 32 a)) ∧
    (∀ (at_ : Fin 1024) (k : Fin 5), s.Awake dt u →
      let i := Instr.bulkWrite dt at_ k
      ((∀ q, bulk = some q → q.busy = true ∨ q.last = false ∨ q.bulkWr = false ∨ q.toPort = true) →
        exec i s = .next u) ∧
      ∀ q, bulk = some q → q.busy = false → q.last = true → q.bulkWr = true → q.toPort = false →
        let a := q.frame.arg1
        let x := q.bulkIn
        (a % 4 ≠ 0 → plain i q 4 fun g => g.arg2 = 0) ∧
        (a % 4 = 0 → k.val = 0 → a + 4 * x.1.length ≤ fieldRam →
          stores i q (if x.2 then 0 else 4) a x.1 fun g => g.arg2 = x.1.length) ∧
        (a % 4 = 0 → x.1 ≠ [] → fieldRam ≤ a → refuse i q a)) ∧
    (s.Awake dt u →
     let i := Instr.downloadBlock dt
     ((∀ q, bulk = some q → q.busy = true ∨ q.last = false ∨ q.bulkWr = false ∨ q.toPort = false) →
       exec i s = .next u) ∧
      ∀ q, bulk = some q → q.busy = false → q.last = true → q.bulkWr = true → q.toPort = true →
        let x := q.bulkIn
        let m := u.marker u.inactive
        let b := u.rd UPD_DLBLK_V
        let open_ := mkState m = 1 ∧ b = mkBlocks m ∧ b < 256 ∧ u.rd UPD_STAT_BUSY = 0 ∧ x.1 ≠ []
        let final := mkKind m = 0 ∧ u.blocksOf m = some (b + 1)
        (q.frame.arg1 ≠ 0x101B800 ∨ x.2 = false ∨ ¬ open_ ∨ (mkKind m = 0 ∧ x.1.length < 1024 ∧ ¬ final) ∨
            (mkKind m ≠ 0 ∧ b = 0 ∧ u.deltaHead (x.1.flatMap fun w => leBytes 4 w.toNat) = false) →
          one i q 4 [] (fun a => a = UPD_STAT ∨ RepReg a) fun t _ => t.rd UPD_STAT_DLERR = 1) ∧
        (q.frame.arg1 = 0x101B800 → x.2 = true → open_ → mkKind m = 0 → 1024 ≤ x.1.length ∨ final → u.updQ = [] →
          ∃ t j n, exec i s = .next t ∧ u.SameMem t ∧ t.updQ = [j] ∧ j.fin = .block u.inactive n q.id ∧
            mkState n = 1 ∧ mkBlocks n = b + 1 ∧ mkOut n = 4096 * b + 4 * x.1.length ∧ t.txNow = u.txNow ∧
            t.reqs = u.reqs.map fun p => if p.id == q.id then { p with busy := true } else p) ∧
        (q.frame.arg1 = 0x101B800 → x.2 = true → open_ → mkKind m ≠ 0 → x.1.length = 1024 → u.updQ = [] →
          0 < b ∨ u.deltaHead (x.1.flatMap fun w => leBytes 4 w.toNat) = true →
          ∃ t j n, exec i s = .next t ∧ u.SameMem t ∧ t.updQ = [j] ∧ mkBlocks n = b + 1 ∧ mkKind n = 1 ∧
            (j.fin = .block u.inactive n q.id ∧ mkState n = 1 ∨ j.fin = .acked u.inactive n q.id ∧ mkState n = 4) ∧
            t.txNow = u.txNow ∧ t.reqs = u.reqs.map fun p => if p.id == q.id then { p with busy := true } else p)) ∧
    (s.Awake dt u →
     let i := Instr.bootcmdRecover dt
     waits i 11 ∧ ∀ q, pick = some q → q.frame.op = 11 →
      let f := q.frame
      let nonce := (u.rdW DEAL_ANONCE).toNat
      let mac := f.pay.flatMap fun w => leBytes 4 w.toNat
      let good := f.arg1 = 1 ∧ f.arg2 = 0 ∧ f.pay.length = 8
      (f.arg1 % 256 = 2 → exec i s = .next u) ∧
      (f.arg1 % 256 ≠ 2 → ¬ good → plain i q 4 fun _ => True) ∧
      (good → u.boot ≠ 1 → plain i q 2 fun g => g.arg2 = 0) ∧
      (good → u.boot = 1 → u.dealCeilNew.isSome = true → exec i s = .next u) ∧
      (good → u.boot = 1 → u.dealCeilNew = none → u.dealCeil ≤ nonce + 1 → u.pfTaken = true →
        plain i q 7 fun _ => True) ∧
      (good → u.boot = 1 → u.dealCeilNew = none → u.dealCeil ≤ nonce + 1 → ∃ t, exec i s = .next t ∧ t.boot = 1 ∧
        (t.dealCeilNew = some (u.dealCeil + 4096) ∧ t.reqs = u.reqs ∨ t.reqs = u.reqs.filter (·.id != q.id))) ∧
      (good → u.boot = 1 → u.dealCeilNew = none → nonce + 1 < u.dealCeil →
        (mac ≠ hmac Config.deviceKey (u.recoverMsg f.arg1) → ∃ t g, exec i s = .next t ∧ u.SameMem t ∧
          t.reqs = u.reqs.filter (·.id != q.id) ∧ (quiet → t.txNow = u.txNow ++ [⟨1 - q.ring, g, 0⟩]) ∧
          bits g.w2 23 16 = 11 ∧ (t.rdW DEAL_ANONCE).toNat = (nonce + 1) % 2 ^ 32 ∧ t.boot = 1 ∧
          bit (t.rdW TMP_STAT).toNat 7 = 1) ∧
        (mac = hmac Config.deviceKey (u.recoverMsg f.arg1) → ∃ t g, exec i s = .next t ∧ u.SameMem t ∧
          t.reqs = u.reqs.filter (·.id != q.id) ∧ (quiet → t.txNow = u.txNow ++ [⟨1 - q.ring, g, 0⟩]) ∧
          bits g.w2 23 16 = 0 ∧ (t.rdW DEAL_ANONCE).toNat = (nonce + 1) % 2 ^ 32 ∧ t.boot = 5 ∧ t.healthy = false ∧
          t.rd UPD_STAT_RECOV = 1 ∧ ∃ c, t.cal = some c ∧ c.all = true))) ∧
    (s.Awake dt u →
     let i := Instr.bootcmdLeave dt
     waits i 11 ∧ ∀ q, pick = some q → q.frame.op = 11 →
      let f := q.frame
      let good := f.arg1 = 2 ∧ f.arg2 = 0 ∧ f.pay = []
      (f.arg1 % 256 ≠ 2 → exec i s = .next u) ∧
      (f.arg1 % 256 = 2 → ¬ good → plain i q 4 fun _ => True) ∧
      (good → u.rd UPD_STAT_RECOV = 0 → plain i q 2 fun g => g.arg2 = 0) ∧
      (good → u.rd UPD_STAT_RECOV = 1 → one i q 0 [.clock] none_ fun t _ =>
        t.rstReq = some (u.rstReq.getD u.clk)))

/-- R357, R360 to R362, R364, R365: the ledger's rows of the host, with their frame. -/
def Obligations.DealRequests : Prop :=
  ∀ (s u : State) (dt : Nat),
    let quiet := u.rd MSD_STAT_ACT = 0 ∧ u.txHeld = []
    let pick := u.reqs.find? fun q => !q.busy && decide (q.frame.op ≠ 10)
    let ledger := fun a => a = DEAL_STAT ∨ a = DEAL_RES
    let answered := fun (t : State) (q : Request) (st : Nat) (P : Frame → Prop) =>
      t.reqs = u.reqs.filter (·.id != q.id) ∧ (quiet → ∃ g, t.txNow = u.txNow ++ [⟨1 - q.ring, g, 0⟩] ∧ g.cls = 1 ∧
        g.op = q.frame.op ∧ g.tag = q.frame.tag ∧ bits g.w2 23 16 = st ∧ P g)
    let ends := fun (i : Instr) (q : Request) (st : Nat) (B : List Part) (A : Nat → Prop) (Q : State → Prop) =>
      ∃ t, exec i s = .next t ∧ answered t q st (fun _ => True) ∧ Q t ∧
        u.Only t (.ring :: .fresh :: B) fun a => a = BAL_SLOT ∨ (∃ r, a = MSD_RCNT r) ∨ A a
    let plain := fun (i : Instr) (q : Request) (st : Nat) => ends i q st [] (fun _ => False) fun _ => True
    let ended := fun (t : State) (res idx : Nat) => t.deal = none ∧ t.rd DEAL_STAT_STATE = 0 ∧
      t.rd DEAL_STAT_ENTRIES = 0 ∧ t.rd DEAL_RES_OUT = res ∧ t.rd DEAL_RES_IDX = idx % 512 ∧
      (res ≠ 1 → ∃ e es, t.evl = u.evl ++ e :: es)
    let waits := fun (i : Instr) (op : Nat) => (∀ q, pick = some q → q.frame.op ≠ op) → exec i s = .next u
    (s.AwakeFor dt (ledgerKeys 4) u → waits (.dealOpen dt) 4 ∧ ∀ q, pick = some q → q.frame.op = 4 →
      let n := q.frame.arg1 % 256
      (q.frame.pay ≠ [] ∨ n = 0 → plain (.dealOpen dt) q 4) ∧
      (q.frame.pay = [] → n ≠ 0 → u.deal.isSome = true → plain (.dealOpen dt) q 7) ∧
      (q.frame.pay = [] → n ≠ 0 → u.deal = none → ends (.dealOpen dt) q 0 [.deal] (· = DEAL_STAT) fun t =>
        t.rd DEAL_STAT_STATE = 1 ∧ t.rd DEAL_STAT_OWNER = 8 ∧ t.rd DEAL_STAT_ENTRIES = 0 ∧ t.rd DEAL_STAT_AUTH = 0 ∧
        t.rd DEAL_STAT_SEED = bit q.frame.arg1 8 ∧ ∃ d, t.deal = some d ∧ d.owner = 8 ∧ d.entries = [] ∧ d.play = none ∧
          d.checking = none ∧ d.openAt = u.clk ∧ d.tmo = n ∧ (d.seed = true ↔ bit q.frame.arg1 8 = 1))) ∧
    (s.AwakeFor dt (ledgerKeys 6) u → waits (.dealFold dt) 6 ∧ ∀ q, pick = some q → q.frame.op = 6 →
      let good := q.frame.pay = [] ∧ q.frame.arg1 = 0
      (¬ good → plain (.dealFold dt) q 4) ∧
      (good → (∀ d, u.deal = some d → d.owner ≠ 8 ∨ d.checking.isSome = true) → plain (.dealFold dt) q 7) ∧
      (good → ∀ d, u.deal = some d → d.owner = 8 → d.checking = none →
        ends (.dealFold dt) q 0 [.deal, .alarm] ledger fun t => ended t 2 0)) ∧
    (s.AwakeFor dt (ledgerKeys 5) u → waits (.dealPlay dt) 5 ∧ ∀ q, pick = some q → q.frame.op = 5 →
      let f := q.frame
      let i := Instr.dealPlay dt
      let w := f.arg1
      let len := f.pay.length
      let when_ := w % 4
      let ns := (f.pay.getD 0 0).toNat
      let sec := (f.pay.getD 1 0).toNat + bits w 9 8 * 2 ^ 32
      let well := (len = 2 ∨ len = 10) ∧ bits w 31 10 = 0 ∧ bits w 7 6 = 0 ∧ bits w 3 2 = 0 ∧ when_ ≠ 3 ∧
        (when_ = 2 → ns ≤ 999999999)
      let late := (when_ = 1 ∧ u.rd (FUR_CTL_EN (bits w 5 4)) = 0) ∨
        (when_ = 2 ∧ 768 * (sec * 1000000000 + ns) < u.tb0.at u.clk * 3125 + 768 * 20000)
      let nonce := (u.rdW DEAL_ANONCE).toNat
      let holds := fun (A : Nat → Prop) (Q : State → Play → Prop) => ∀ d, u.openDeal 8 = some d →
        ∃ t p, exec i s = .next t ∧ t.deal = some { d with checking := some p } ∧ p.word = w ∧ p.nsec = ns ∧
          p.sec = sec ∧ p.at_ = u.clk ∧ p.req = some q.id ∧ p.hand = none ∧ (p.mac.isSome = true ↔ len = 10) ∧ Q t p ∧
          t.txNow = u.txNow ∧ t.reqs = u.reqs.map (fun x => if x.id == q.id then { x with busy := true } else x) ∧
          u.SameMem t ∧ u.SameParts t [.ring, .deal, .nvm] ∧ u.SameRegs t A
      let marked := fun d : Deal => u.dealNeeds d.entries = true ∨ len = 10
      (¬ well → plain i q 4) ∧
      (well → u.openDeal 8 = none → plain i q 7) ∧
      (well → (u.openDeal 8).isSome = true → late → plain i q 14) ∧
      (well → ¬ late → (∀ d, u.openDeal 8 = some d → ¬ marked d) →
        holds (fun _ => False) fun _ p => p.ok = some true) ∧
      (well → ¬ late → (∀ d, u.openDeal 8 = some d → marked d) →
        (u.dealCeilNew.isSome = true → holds (fun _ => False) fun t p => p.ok = none ∧ t.dealCeilNew = u.dealCeilNew) ∧
        (u.dealCeilNew = none → u.dealCeil ≤ nonce + 1 → u.pfTaken = true → (u.openDeal 8).isSome = true →
          plain i q 7) ∧
        (u.dealCeilNew = none → u.dealCeil ≤ nonce + 1 → u.pfTaken = false → u.pfRuns = false → u.nvBuf = [] →
          u.rd NVM_PROT_BPB = 0 → ∀ d, u.openDeal 8 = some d → ∃ t p, exec i s = .next t ∧ p.ok = none ∧ p.word = w ∧
            t.deal = some { d with checking := some p } ∧ t.dealCeilNew = some (u.dealCeil + 4096) ∧
            t.rdW DEAL_ANONCE = u.rdW DEAL_ANONCE ∧ t.txNow = u.txNow) ∧
        (u.dealCeilNew = none → nonce + 1 < u.dealCeil → holds (· = DEAL_ANONCE) fun t p =>
          (t.rdW DEAL_ANONCE).toNat = (nonce + 1) % 2 ^ 32 ∧ ∃ d, u.openDeal 8 = some d ∧
            p.ok = some (p.mac == some (hmac Config.deviceKey (u.playMsg d p)))))) ∧
    (s.Awake dt u →
     let i := Instr.dealCheckEnd dt
     ((∀ d p, u.deal = some d → d.checking = some p → p.ok = none) → exec i s = .next u) ∧
      ∀ d p, u.deal = some d → d.checking = some p →
        let reply := fun (t : State) (st : Nat) (P : Frame → Prop) => ∀ id q, p.req = some id → u.reqOf id = some q →
          answered t q st P
        let hand := fun (t : State) (st : Word) => ∀ a h r, p.hand = some (a, h, r) →
          (u.handOf a h).st = .wait (.deal r) → u.Retires t a h ((u.handOf a h).setX r st) 1
        (p.ok = some false → ∃ t, exec i s = .next t ∧ ended t 4 0 ∧ t.rd DEAL_STAT_AUTHFAIL = 1 ∧
          bit (t.rdW TMP_STAT).toNat 7 = 1 ∧ u.SameMem t ∧ reply t 11 fun _ => True) ∧
        (p.ok = some true → ∀ k, u.dealCheck d.entries = some k → ∃ t, exec i s = .next t ∧
          t.deal = some { d with checking := none } ∧ t.rd DEAL_RES_OUT = 5 ∧ t.rd DEAL_RES_IDX = k % 512 ∧
            u.SameMem t ∧
          (reply t 10 fun g => g.arg2 = k % 65536) ∧ hand t 5) ∧
        (p.ok = some true → u.dealCheck d.entries = none →
          (p.word % 4 ≠ 1 ∨ u.rd (FUR_CTL_EN (bits p.word 5 4)) = 1 → ∃ t, exec i s = .next t ∧
            t.deal = some { d with checking := none, play := some p, chkEnd := u.clk } ∧ t.rd DEAL_STAT_STATE = 2 ∧
            (reply t 0 fun _ => True) ∧ hand t 0 ∧
            u.Only t [.ring, .fresh, .deal, .engine] fun a => a = DEAL_STAT ∨ a = BAL_SLOT ∨ ∃ r, a = MSD_RCNT r) ∧
          (p.word % 4 = 1 → u.rd (FUR_CTL_EN (bits p.word 5 4)) = 0 → ∃ t, exec i s = .next t ∧
            ended t 7 0 ∧ t.rd DEAL_STAT_LATEFAIL = 1 ∧ u.SameMem t))) ∧
    (s.Awake dt u →
     let i := Instr.dealTimeout dt
     ((∀ d, u.deal = some d → d.play.isSome = true ∨ d.checking.isSome = true ∨ u.clk < d.openAt + d.tmo * cySec) →
        exec i s = .next u) ∧
      ∀ d, u.deal = some d → d.play = none → d.checking = none → d.openAt + d.tmo * cySec ≤ u.clk →
        ∃ t, exec i s = .next t ∧ ended t 3 0 ∧ t.rd DEAL_STAT_TMOFOLD = 1 ∧
          u.Only t [.deal, .alarm] (fun a => ledger a ∨ RepReg a)) ∧
    (s.Awake dt u →
     let i := Instr.dealApplication dt
    ((∀ d p, u.deal = some d → d.play = some p → u.dealDue d p = false) → exec i s = .next u) ∧
      ∀ d p, u.deal = some d → d.play = some p →
        (d.seed = false → p.word % 4 = 0 → (u.dealDue d p = true ↔ d.chkEnd < u.clk)) ∧
        (d.seed = false → p.word % 4 = 2 → (u.dealDue d p = true ↔
          d.chkEnd < u.clk ∧ 768 * (p.sec * 1000000000 + p.nsec) ≤ u.tb0.at u.clk * 3125)) ∧
        (d.seed = true → (u.dealDue d p = true ↔ ∃ c, d.trig = some c ∧ c < u.clk)) ∧
        (u.dealDue d p = true → ∀ k, u.dealCheck d.entries = some k → ∃ t, exec i s = .next t ∧ ended t 6 k ∧
          t.rd DEAL_STAT_LATEFAIL = 1 ∧ t.rdW DEAL_APPCNT = u.rdW DEAL_APPCNT ∧ u.SameMem t) ∧
        (u.dealDue d p = true → u.dealCheck d.entries = none →
          let applied := fun (A : Nat → Prop) (Q : State → Prop) => ∃ t, exec i s = .next t ∧ ended t 1 0 ∧
            t.rd DEAL_STAT_APPLIED = 1 ∧ (t.rdW DEAL_APPCNT).toNat = ((u.rdW DEAL_APPCNT).toNat + 1) % 2 ^ 32 ∧ Q t ∧
            u.Only t [.deal] fun a => ledger a ∨ RepReg a ∨ a = DEAL_APPCNT ∨ (∃ k, k < 6 ∧ a = DEAL_ATS k) ∨ A a
          (d.entries = [] → applied (fun _ => False) fun _ => True) ∧
          ∀ (r : Fin 2) (w : Word), d.entries = [(MSD_RING r, w)] → applied (· = MSD_RING r) fun t =>
            t.rd (MSD_RING_EN r) = bit w.toNat 31 ∧ t.rd (MSD_RING_ACT r) = bits w.toNat 29 28 ∧
              t.rd (MSD_RING_OWN r) = bit w.toNat 27 ∧ t.rd (MSD_RING_P r) = bits w.toNat 15 0))

/-- R222, R273, R274, R357, R362: the four forms of DREQ, with their frame. -/
def Obligations.DealHands : Prop :=
  ∀ (s u : State) (dt : Nat) (p : Fin 5) (h : Fin 16) (rd ra rb : Fin 32), s.AwakeFor dt (dreqKeys p) u →
    let d := u.handOf p h
    let l := u.logOf p
    let v := (d.xr ra).toNat
    let safe := u.rd HDG_STAT_SAFE = 1
    let returns := fun (i : Instr) (st : Word) (B : List Part) (A : Nat → Prop) (Q : State → Prop) =>
      ∃ t, exec i s = .next t ∧ u.Retires t p h (d.setX rd st) 11 ∧ (t.ploughOf p).sb = (u.ploughOf p).sb ∧ Q t ∧
        u.Only t (.engine :: .fresh :: B) A
    let answers := fun (i : Instr) (st : Word) => returns i st [] (fun _ => False) fun _ => True
    let common := fun (i : Instr) (Q : Prop) =>
      (u.storing p h = true → ∃ t, exec i s = .next t ∧ u.Waits t p h .drain ∧ u.IssueOnly t p) ∧
      (u.storing p h = false → safe → answers i 3) ∧ (u.storing p h = false → u.rd HDG_STAT_SAFE = 0 → Q)
    (u.Turn p h (encA rd ra 0 0 8 0x31) →
      let i := Instr.dreqOpen dt p h rd ra
      common i
        ((v = 0 ∨ 255 < v → answers i 4) ∧ (1 ≤ v → v ≤ 255 → u.deal.isSome = true → answers i 1) ∧
          (1 ≤ v → v ≤ 255 → u.deal = none → returns i 0 [.deal] (· = DEAL_STAT) fun t =>
            t.deal = some { owner := l, openAt := u.clk, tmo := v } ∧ t.rd DEAL_STAT_STATE = 1 ∧
            t.rd DEAL_STAT_OWNER = l % 16))) ∧
    (u.Turn p h (encA rd ra rb 1 8 0x31) →
      let i := Instr.dreqWrite dt p h rd ra rb
      let w := d.xr rb
      let grant := u.dealGrant v = true ∧ ¬ (dealable v = true ∧ u.needsAuth v w = true)
      common i
        ((u.openDeal l = none → answers i 1) ∧
          ∀ x, u.openDeal l = some x →
            (¬ grant → returns i 3 [.alarm] (fun a => a = HDG_STAT ∨ a = HDG_VCNT ∨ a = HDG_VLAST ∨ a = HDG_VADDR ∨
              RepReg a) fun t => t.deal = u.deal ∧ bit (t.rdW HDG_STAT).toNat 4 = 1 ∧
                t.rdW HDG_VADDR = BitVec.ofNat 32 v) ∧
            (grant → dealable v = false → answers i 4) ∧
            (grant → dealable v = true → 512 ≤ x.entries.length → answers i 2) ∧
            (grant → dealable v = true → x.entries.length < 512 → returns i 0 [.deal] (· = DEAL_STAT) fun t =>
              t.deal = some { x with entries := x.entries ++ [(v, w)] } ∧
              t.rd DEAL_STAT_ENTRIES = x.entries.length + 1))) ∧
    (u.Turn p h (encA rd 0 0 3 8 0x31) →
      let i := Instr.dreqFold dt p h rd
      common i
        (((∀ x, u.deal = some x → x.owner ≠ l ∨ x.checking.isSome = true) → answers i 1) ∧
          ∀ x, u.deal = some x → x.owner = l → x.checking = none →
            returns i 0 [.deal, .alarm] (fun a => a = DEAL_STAT ∨ a = DEAL_RES) fun t => t.deal = none ∧
              t.rd DEAL_RES_OUT = 2 ∧ ∃ e, t.evl = u.evl ++ [e])) ∧
    (u.Turn p h (encA rd ra rb 2 8 0x31) →
      let i := Instr.dreqPlay dt p h rd ra rb
      let when_ := v % 4
      let ns := (d.xr rb).toNat
      let sec := (d.xr (rb + 1)).toNat + bits v 9 8 * 2 ^ 32
      let well := bits v 31 10 = 0 ∧ bits v 7 6 = 0 ∧ bits v 3 2 = 0 ∧ when_ ≠ 3 ∧ (when_ = 2 → ns ≤ 999999999)
      let late := (when_ = 1 ∧ u.rd (FUR_CTL_EN (bits v 5 4)) = 0) ∨
        (when_ = 2 ∧ 768 * (sec * 1000000000 + ns) < u.tb0.at u.clk * 3125 + 768 * 20000)
      common i
        ((¬ well → answers i 4) ∧ (well → u.openDeal l = none → answers i 1) ∧
          (well → (u.openDeal l).isSome = true → late → answers i 5) ∧
          ∀ x, well → u.openDeal l = some x → ¬ late → u.dealNeeds x.entries = false →
            ∃ t y, exec i s = .next t ∧ u.Waits t p h (.deal rd) ∧ t.deal = some { x with checking := some y } ∧
              y.word = v ∧ y.nsec = ns ∧ y.sec = sec ∧ y.at_ = u.clk ∧ y.ok = some true ∧ y.mac = none ∧
              y.hand = some (p.val, h.val, rd.val) ∧ u.Only t [.engine, .fresh, .deal] (fun _ => False)))

/-- R376 to R386, R388: the rows of the modem's transmitter, with their frame. -/
def Obligations.ModemSends : Prop :=
  ∀ (s u : State) (dt : Nat),
    let hits := fun (t : State) (a v : Nat) => u.ffDrop.contains (a / 4 * 4) = false → t.load32 a = v
    let en := u.rd DUO_CTL_EN = 1
    let role := u.rd DUO_CTL_ROLE = 1
    let free := u.rd HDG_STAT_SAFE = 0 ∧ u.rd DUO_STAT_HEDGE = 0
    let stat := fun a => a = DUO_STAT ∨ RepReg a
    let uses := fun n => u.dutyCount + n ≤ 250 * u.rd HDG_DUO_DUTY
    let sends := fun (i : Instr) (n : Nat) (desc : Option Nat) (A : Nat → Prop) (Q : State → List Byte → Prop) =>
      ∃ t bs, exec i s = .next t ∧ t.duoTx = some {
          start := u.clk, syms := n, bytes := bs ++ leBytes 4 (crc32 bs), desc := desc } ∧
        t.rd DUO_STAT_TXON = 1 ∧ (u.clk, n) ∈ t.duoDuty ∧ Q t bs ∧ u.SameParts t [.modem] ∧
        u.SameRegs t fun a => stat a ∨ A a
    let withholds := fun (i : Instr) (Q : State → Prop) => ∃ t, exec i s = .next t ∧ t.rd DUO_STAT_DUTYHOLD = 1 ∧
      t.rd DUO_HOLDCNT_V = satU 32 (u.rd DUO_HOLDCNT_V + 1) ∧ t.duoTx = u.duoTx ∧ Q t ∧
      u.Only t [.modem] fun a => stat a ∨ a = DUO_HOLDCNT
    let quiets := fun (t : State) => t.duoTx = none ∧ t.rd DUO_STAT_HEDGE = 1 ∧
      (u.duoTx.isSome = true → t.rd DUO_STAT_TXON = 0)
    (∀ (r : Fin 2) (w : Word), s.AwakeFor dt dirKeys u →
      let i := Instr.duoTxpost dt (.host r) w
      let a := w.toNat
      let there := a % 16 = 0 ∧ a ≤ 0x1FFFF0
      let answers := fun (t : State) (n : Nat) => Sparse.get (fun _ => 0) (5 + r.val) t.duoRes = n ∧
        u.SameParts t [.modem] ∧ u.SameRegs t fun _ => False
      let w0 := u.load32 a
      let bad := maxPay (bits w0 17 16) < bits w0 15 0 ∨ (u.node = 0 ↔ bits w0 31 24 = 0)
      let marks := fun (t : State) (st : Nat) => hits t (a + 8) (st * 2 ^ 28) ∧
        ∀ b, b < a + 8 ∨ a + 12 ≤ b → t.byte b = u.byte b
      (¬ there → ∃ t, exec i s = .next t ∧ answers t 3 ∧ t.duoQ = u.duoQ ∧ u.SameMem t) ∧
      (there → 8 ≤ u.duoQ.length → ∃ t, exec i s = .next t ∧ answers t 2 ∧ t.duoQ = u.duoQ ∧ u.SameMem t) ∧
      (there → u.duoQ.length < 8 →
        (u.node = 255 → ∃ t, exec i s = .next t ∧ answers t 1 ∧ t.duoQ = u.duoQ ∧ marks t 6) ∧
        (u.node ≠ 255 → bad → ∃ t, exec i s = .next t ∧ answers t 1 ∧ t.duoQ = u.duoQ ∧ marks t 5) ∧
        (u.node ≠ 255 → ¬ bad → ∃ t d, exec i s = .next t ∧ answers t 1 ∧ t.duoQ = u.duoQ ++ [d] ∧ marks t 1 ∧
          d.addr = a ∧ d.w0 = w0 ∧ d.pay = u.load32 (a + 4) ∧ d.sent = false ∧ d.att = 0))) ∧
    (s.Awake dt u →
     let i := Instr.beaconSend dt
     let due := en ∧ role ∧ u.bcnClk + (if u.bcnRun then cySym 2000 else 0) ≤ u.clk
     let blocked := ¬ free ∨ u.duoTx.isSome = true
     let n := (u.rd DUO_BCNSEQ_V + 1) % 65536
     (¬ due → exec i s = .next u) ∧
      (due → blocked → ∃ t, exec i s = .next t ∧ t.bcnOk = false ∧ t.bcnClk = u.clk ∧ t.bcnRun = true ∧ t.grants = [] ∧
        t.duoAcks = [] ∧ t.duoTx = u.duoTx ∧ u.Only t [.modem] stat) ∧
      (due → ¬ blocked → ¬ uses 78 → withholds i fun t => t.bcnOk = false ∧ t.bcnClk = u.clk ∧ t.grants = [] ∧
        t.duoAcks = [] ∧ t.rd DUO_BCNSEQ_V = u.rd DUO_BCNSEQ_V) ∧
      (due → ¬ blocked → uses 78 → sends i 78 none (fun a => a = DUO_BCNSEQ ∨ ∃ j, j < 4 ∧ a = DUO_JOINC j) fun t bs =>
        bs = u.macFrame 3 0 255 (n % 256) false (u.beaconPay n) ∧ t.rd DUO_BCNSEQ_V = n ∧ t.bcnOk = true ∧
        t.bcnClk = u.clk ∧ t.duoAcks = [] ∧ u.SameMem t ∧
        (∀ j, j < 4 → u.rd (DUO_JOINC_VALID j) = 1 →
          t.rd (DUO_JOINC_VALID j) = if Sparse.get (fun _ => 0) j u.joinBc = 3 then 0 else 1) ∧
        ∀ k b, k < 16 → b < 4 → t.grants.getD (4 * k + b) 255 = bits (u.rdW (DUO_GRANT k)).toNat (8 * b + 7) (8 * b))) ∧
    (∀ pair : Fin 32, s.Awake dt u →
      let i := Instr.joinSend dt pair
      let pays := fun k : Nat => u.grants.getD k 0 = 255
      let may := en ∧ ¬ role ∧ u.node = 255 ∧ u.bcnOk = true ∧ u.joinWait = none ∧ free ∧ u.duoTx = none ∧
        pays (2 * pair) ∧ pays (2 * pair + 1) ∧ u.bcnClk + cySym (80 + 60 * pair) ≤ u.clk ∧
        u.clk < u.bcnClk + cySym (81 + 60 * pair) ∧ ∀ c, u.joinAt = some c → c < u.bcnClk
      (¬ may → exec i s = .next u) ∧ (may → ¬ uses 41 → withholds i fun t => t.joinN = u.joinN) ∧
      (may → uses 41 → sends i 41 none (fun _ => False) fun t bs => t.joinN = some (u.joinN.getD 0) ∧
        t.joinAt = some u.clk ∧ u.SameMem t ∧
        bs = u.macFrame 2 255 0 0 false (leBytes 4 (u.rdW DEAL_UIDL).toNat ++ leBytes 4 (u.rdW DEAL_UIDH).toNat))) ∧
    (∀ k, s.Awake dt u → u.joinWait = some k → exec (.joinBackoffExpiry dt) s
      = .next (if 1 ≤ k then { u with joinWait := none } else u)) ∧
    (s.Awake dt u → u.joinWait = none → exec (.joinBackoffExpiry dt) s = .next u) ∧
    (∀ k : Fin 64, s.Awake dt u →
      let i := Instr.modemRunStart dt k
      let g := u.runAt k
      let may := en ∧ u.node ≠ 255 ∧ u.bcnOk = true ∧ free ∧ u.duoTx = none ∧ g ≠ 0 ∧
        u.bcnClk + cySym (80 + 30 * k) ≤ u.clk ∧ u.clk < u.bcnClk + cySym (81 + 30 * k)
      let order := (u.duoQ.filter fun d => d.retry) ++ u.duoQ.filter fun d => !d.sent
      let found := order.find? fun d => decide (d.syms + 1 ≤ 30 * g)
      (¬ may → exec i s = .next u) ∧
      (may → found = none →
        (u.duoOwe = none ∨ u.node = 0 → exec i s = .next u) ∧
        (u.duoOwe.isSome = true → u.node ≠ 0 → (¬ uses 15 → withholds i fun t => t.duoOwe = u.duoOwe) ∧
          (uses 15 → sends i 15 none (fun _ => False) fun t bs => bs = u.macFrame 1 u.node 0 0 false [] ∧
            t.duoOwe = none ∧ u.SameMem t))) ∧
      ∀ d, may → found = some d →
        (¬ uses d.syms → withholds i fun t => t.duoQ = u.duoQ) ∧
        (uses d.syms → 0x200000 < d.pay + d.len → ∃ t, exec i s = .next t ∧ t.duoTx = u.duoTx ∧
          hits t (d.addr + 8) (5 * 2 ^ 28 + d.att % 16) ∧ (∀ e ∈ t.duoQ, e.id ≠ d.id) ∧
          t.rdW SYS_MAPERR = BitVec.ofNat 32 d.pay) ∧
        (uses d.syms → d.pay + d.len ≤ 0x200000 →
          let seq := if d.att = 0 then Sparse.get (fun _ => 0) d.dest u.duoSeq else d.seq
          sends i d.syms (some d.id) (· = DUO_RETRY) fun t bs =>
            bs = t.macFrame 0 u.node d.dest seq (decide (0 < d.att)) (t.bytes d.pay d.len) ∧
            hits t (d.addr + 8) (2 * 2 ^ 28 + (d.att + 1) % 16) ∧ hits t (d.addr + 12) (seq % 2 ^ 32) ∧
            (∀ b, b < d.addr + 8 ∨ d.addr + 16 ≤ b → t.byte b = u.byte b) ∧
            t.rd DUO_RETRY_V = (if d.att = 0 then u.rd DUO_RETRY_V else satU 32 (u.rd DUO_RETRY_V + 1)) ∧
            ∀ e ∈ t.duoQ, e.id = d.id → e.sent = true ∧ e.att = d.att + 1 ∧ e.seq = seq ∧ e.retry = false)) ∧
    (s.Awake dt u →
     let i := Instr.modemTransmitEnd dt
     (u.duoTx = none → exec i s = .next u) ∧
      ∀ x, u.duoTx = some x → let e := x.start + cySym x.syms
        (u.clk < e → exec i s = .next u) ∧
        (e ≤ u.clk → ∃ t, exec i s = .next t ∧ t.duoTx = none ∧ t.rd DUO_STAT_TXON = 0 ∧ t.duoBlank = e + cyUs 60 ∧
          u.SameParts t [.modem] ∧ u.SameRegs t stat ∧
          ((∀ d ∈ u.duoQ, some d.id ≠ x.desc ∨ d.dest ≠ 255) → t.duoQ = u.duoQ ∧ u.SameMem t) ∧
          (∀ d, u.duoQ = [d] → some d.id = x.desc → d.dest = 255 → t.duoQ = [] ∧ t.rd DUO_STAT_TXDONE = 1 ∧
            hits t (d.addr + 8) (3 * 2 ^ 28 + d.att % 16)))) ∧
    (s.Awake dt u →
     let i := Instr.modemAckTimeout dt
     let late := fun d : TxDesc => d.sent = true ∧ d.retry = false ∧
       (d.lim ≤ u.clk ∨ ∃ c, d.due = some c ∧ c < u.clk)
     ((∀ d ∈ u.duoQ, ¬ late d) → exec i s = .next u) ∧
      ∀ d q, u.duoQ = d :: q → late d →
        (d.att < 4 → ∃ t, exec i s = .next t ∧ u.Only t [.modem] (fun _ => False) ∧ ∃ r,
          t.duoQ = { d with retry := true } :: r ∧ r.length = q.length) ∧
        (4 ≤ d.att → ∃ t, exec i s = .next t ∧ t.duoQ = q.filter (fun e => e.id ≠ d.id) ∧ t.rd DUO_STAT_TXFAIL = 1 ∧
          t.rd DUO_TXLOST_V = satU 32 (u.rd DUO_TXLOST_V + 1) ∧ hits t (d.addr + 8) (4 * 2 ^ 28 + d.att % 16))) ∧
    (∀ (r : Fin 2) (w : Word), s.AwakeFor dt dirKeys u →
      let i := Instr.duoLevelWrite dt (.host r) w
      let l := bits w.toNat 5 0
      (l ≤ u.rd HDG_DUO_LVLMAX → ∃ t, exec i s = .next t ∧ t.rd DUO_TXCTL_V = l ∧ u.Only t [] (· = DUO_TXCTL)) ∧
      (u.rd HDG_DUO_LVLMAX < l → ∃ t, exec i s = .next t ∧ quiets t ∧ bit (t.rdW HDG_STAT).toNat 1 = 1 ∧
        t.rdW HDG_VADDR = BitVec.ofNat 32 DUO_TXCTL ∧ u.Only t [.modem, .alarm] fun a => stat a ∨ a = HDG_STAT ∨
          a = HDG_VCNT ∨ a = HDG_VLAST ∨ a = HDG_VADDR)) ∧
    (s.Awake dt u → ∃ t, exec (.txenReadbackFault dt) s = .next t ∧ quiets t ∧ t.rd DUO_STAT_TXENF = 1 ∧
      u.Only t [.modem] stat) ∧
    (∀ r : Fin 2, s.AwakeFor dt dirKeys u → ∃ t, exec (.modemHedgeClear dt (.host r)) s = .next t ∧ u.Only t [] stat ∧
      ((DUO_STAT, DUO_STAT_HEDGE.lo) ∉ u.setNow → t.rd DUO_STAT_HEDGE = 0)) ∧
    ∀ (r : Fin 2) (w : Word), s.AwakeFor dt dirKeys u →
      let i := Instr.duoDisable dt (.host r) w
      let differs := bit w.toNat 30 ≠ u.rd DUO_CTL_ROLE ∨ bits w.toNat 15 0 ≠ u.rd DUO_CTL_DOMAIN
      (en → differs → ∃ t, exec i s = .next t ∧ t.rdW SYS_MAPERR = BitVec.ofNat 32 DUO_CTL ∧
        u.Only t [] (fun a => a = SYS_MAPERR ∨ a = SYS_MAPSRC)) ∧
      (en → ¬ differs → ∃ t, exec i s = .next t ∧ t.rd DUO_CTL_EN = 0 ∧ t.node = 255 ∧ t.rd DUO_STAT_LINK = 0 ∧
        t.duoQ = [] ∧ t.duoTx = u.duoTx ∧ t.bcnOk = false ∧ (u.node ≠ 255 → t.rd DUO_STAT_LINKCHG = 1) ∧
        (∀ d, u.duoQ = [d] → hits t (d.addr + 8) (7 * 2 ^ 28 + d.att % 16)) ∧
        u.SameParts t [.modem] ∧ u.SameRegs t fun a => stat a ∨ a = DUO_CTL) ∧
      (u.rd DUO_CTL_EN = 0 → ∃ t, exec i s = .next t ∧ t.rd DUO_CTL_EN = 0 ∧ t.rd DUO_CTL_ROLE = bit w.toNat 30 ∧
        t.rd DUO_CTL_DOMAIN = bits w.toNat 15 0 ∧ u.Only t [] (· = DUO_CTL))

/-- R372 to R375, R378 to R380, R384: the rows of the modem's receiver, with their frame. -/
def Obligations.ModemReceives : Prop :=
  ∀ (s u : State) (dt : Nat), s.Awake dt u →
    let deaf := u.rd DUO_CTL_EN = 0 ∨ u.duoTx.isSome = true ∨ u.clk < u.duoBlank
    let role := u.rd DUO_CTL_ROLE = 1
    let stat := fun a => a = DUO_STAT ∨ RepReg a
    let gained := fun (t : State) (g : Nat) => t.rd DUO_AGC_GAIN = g ∧
      ∀ o, bits (t.view o DUO_AGC).toNat DUO_AGC_GAIN.hi DUO_AGC_GAIN.lo
      = if u.rd DUO_AGC_FIX = 1 then u.rd DUO_AGC_GFIX else g
    (∀ (bs : List Byte) (er : Fin 18) (snr : Fin 256) (gain : Fin 8),
      let i := Instr.beaconReceive dt bs er snr gain
      let dom := ofLe (bs.take 2)
      let want := if u.node = 255 then u.rd DUO_CTL_DOMAIN else u.duoDom
      let hears := ¬ deaf ∧ ¬ role ∧ (want = 65535 ∨ want = dom)
      (wfBeacon bs = false → exec i s = .fault .illFormed) ∧
      (wfBeacon bs = true → ¬ hears → exec i s = .next u) ∧
      (wfBeacon bs = true → hears → ∃ t, exec i s = .next t ∧ gained t gain ∧
        t.rd DUO_BCNSEQ_V = ofLe ((bs.drop 2).take 2) ∧
        t.bcnClk = u.clk - cySym 78 ∧ t.bcnOk = true ∧ t.duoMiss = 0 ∧ t.duoDom = dom ∧
        t.grants = ((bs.drop 8).take 64).map BitVec.toNat ∧
        (u.node ≠ 255 → t.node = u.node ∧ t.joinN = u.joinN) ∧
        (u.node = 255 → ∀ n, u.joinAnswer bs = some n → t.node = n ∧ t.rd DUO_STAT_LINK = 2 ∧
          t.rd DUO_STAT_LINKCHG = 1 ∧ t.joinN = none ∧ t.joinWait = none) ∧
        (u.node = 255 → u.joinAnswer bs = none → t.node = 255 ∧ t.joinWait = (if u.joinN = some 3 then some 0
          else u.joinWait.map (· + 1)) ∧ t.joinN = (if u.joinN = some 3 then none else u.joinN.map (· + 1))) ∧
        (∀ d i, u.node ≠ 255 → u.duoQ = [d] → d.sent = true → d.dest = 0 → i < 64 →
          (bs.getD (72 + 2 * i) 255).toNat = u.node → (bs.getD (73 + 2 * i) 0).toNat = d.seq → t.duoQ = [] ∧
            t.rd DUO_STAT_TXDONE = 1) ∧
        (u.rd DUO_CTL_BCNREC = 0 → u.duoQ = [] → u.Only t [.modem] fun a => stat a ∨ a = DUO_AGC ∨ a = DUO_BCNSEQ))) ∧
    (let i := Instr.beaconMiss dt
     let due := u.rd DUO_CTL_EN = 1 ∧ ¬ role ∧ u.node ≠ 255 ∧ u.bcnClk + cySym 2078 ≤ u.clk
     (¬ due → exec i s = .next u) ∧
      (due → ∃ t, exec i s = .next t ∧ t.rd DUO_STAT_BCNMISS = 1 ∧ t.bcnClk = u.bcnClk + cySym 2000 ∧ t.bcnOk = false ∧
        t.grants = [] ∧ t.duoAcks = [] ∧ t.rd DUO_BCNMISSCNT_V = satU 32 (u.rd DUO_BCNMISSCNT_V + 1) ∧
          u.SameParts t [.modem] ∧
        u.SameRegs t (fun a => stat a ∨ a = DUO_BCNMISSCNT) ∧
        (u.duoMiss < 7 → t.duoMiss = u.duoMiss + 1 ∧ t.node = u.node ∧ t.duoQ.map (·.id) = u.duoQ.map (·.id) ∧
          u.SameMem t) ∧
        (7 ≤ u.duoMiss → t.duoMiss = 0 ∧ t.node = 255 ∧ t.rd DUO_STAT_LINK = 1 ∧ t.rd DUO_STAT_LINKCHG = 1 ∧
          t.duoQ = [] ∧ ∀ d, u.duoQ = [d] → u.ffDrop.contains ((d.addr + 8) / 4 * 4) = false →
            t.load32 (d.addr + 8) = 6 * 2 ^ 28 + d.att % 16))) ∧
    (∀ (mode : Fin 4) (sy er : Fin 113) (fc crc : Bool) (bs : List Byte) (snr : Fin 256) (gain : Fin 8),
      let i := Instr.modemFrameReceive dt mode sy er fc crc bs snr gain
      let h := fun k : Nat => (bs.getD k 0).toNat
      let nothing := fun (A : Nat → Prop) (Q : State → Prop) => ∃ t, exec i s = .next t ∧ gained t gain ∧ Q t ∧
        u.Only t [] fun a => a = DUO_AGC ∨ A a
      let calm := u.rd MSD_STAT_ACT = 0
      let heard := calm ∧ er.val ≤ sy.val / 4 ∧ crc = true ∧ u.node ≠ 255 ∧ (h 1 = 0 ∨ u.node = 0)
      let acks := h 5 % 2 = 1 ∧ h 1 ≠ 255 ∧ h 2 = u.node
      (wfMac bs = false → exec i s = .fault .illFormed) ∧
      (wfMac bs = true →
        (deaf → exec i s = .next u) ∧
        (¬ deaf → fc = false → nothing (fun _ => False) fun _ => True) ∧
        (¬ deaf → fc = true → calm → sy.val / 4 < er.val → nothing (fun a => a = DUO_ERFAIL ∨ a = DUO_CRCFAIL) fun t =>
          t.rd DUO_ERFAIL_V = satU 32 (u.rd DUO_ERFAIL_V + 1) ∧ t.rd DUO_CRCFAIL_V = satU 32 (u.rd DUO_CRCFAIL_V + 1)) ∧
        (¬ deaf → fc = true → calm → er.val ≤ sy.val / 4 → crc = false → nothing (· = DUO_CRCFAIL) fun t =>
          t.rd DUO_CRCFAIL_V = satU 32 (u.rd DUO_CRCFAIL_V + 1)) ∧
        (¬ deaf → fc = true → calm → er.val ≤ sy.val / 4 → crc = true → u.node = 255 ∨ (h 1 ≠ 0 ∧ u.node ≠ 0) →
          nothing (fun _ => False) fun _ => True) ∧
        (¬ deaf → fc = true → heard → ∀ d, u.duoQ = [d] → d.sent = true → d.dest = h 1 → d.seq = h 4 → acks →
          ∃ t, exec i s = .next t ∧ t.duoQ = [] ∧ t.rd DUO_STAT_TXDONE = 1) ∧
        (¬ deaf → fc = true → heard → h 0 / 16 = 0 → h 2 ≠ u.node → h 2 ≠ 255 →
          nothing (fun _ => False) fun _ => True) ∧
        (¬ deaf → fc = true → heard → h 0 / 16 = 0 → h 2 = u.node → h 2 ≠ 255 → ¬ acks →
          let dup := Sparse.get (fun _ => 0) (h 1) u.duoLast = h 3 + 1
          let n := 32 + (bs.length - 8 + 31) / 32 * 32
          let len := u.rd DUO_RXLEN_V * 32
          let wp := u.rd DUO_RXWPTR_V * 32
          let rp := u.rd DUO_RXRPTR_V * 32
          let base := u.rd DUO_RXBASE_V * 32
          let owes := fun t : State => (u.node = 0 → u.duoAcks.length < 64 → t.duoAcks = u.duoAcks ++ [(h 1, h 3)]) ∧
            (u.node ≠ 0 → t.duoOwe = some (h 3))
          (dup → ∃ t, exec i s = .next t ∧ owes t ∧ u.Only t [.modem] (· = DUO_AGC)) ∧
          (¬ dup → rp ≤ wp → wp + n < len → base + len ≤ fieldRam → u.ffDrop = [] → ∃ t, exec i s = .next t ∧ owes t ∧
            t.rd DUO_RXWPTR_V = ((wp + n) / 32) % 65536 ∧ t.rd DUO_STAT_RXDONE = 1 ∧
            bits (t.load32 (base + wp)) 15 0 = (bs.length - 8) % 65536 ∧
            t.load32 (base + wp + 4) = h 2 * 2 ^ 24 + h 3 * 65536 + er * 256 + sy ∧ t.load32 (base + wp + 8) = snr ∧
            (∀ k, k < bs.length - 8 → t.byte (base + wp + 32 + k) = bs.getD (8 + k) 0) ∧
            (∀ b, b < base + wp ∨ base + wp + n ≤ b → t.byte b = u.byte b) ∧ u.SameParts t [.modem] ∧
            u.SameRegs t fun a => stat a ∨ a = DUO_AGC ∨ a = DUO_RXWPTR) ∧
          (¬ dup → wp < rp → rp ≤ wp + n → ∃ t, exec i s = .next t ∧ owes t ∧ t.rd DUO_STAT_RXDROP = 1 ∧
            t.rd DUO_RXDROPCNT_V = satU 32 (u.rd DUO_RXDROPCNT_V + 1) ∧
            u.Only t [.modem] fun a => stat a ∨ a = DUO_AGC ∨ a = DUO_RXDROPCNT)))) ∧
    ∀ (e : Nat) (gain : Fin 8),
      let i := Instr.modemSymbol dt e gain
      let high := fun x : Nat => x ^ 10 * 10 ^ u.rd DUO_IMPCTL_V < e ^ 10
      (deaf → exec i s = .next u) ∧
      (¬ deaf → u.duoE ≠ [] → (∀ x ∈ u.duoE, high x) → ∃ t, exec i s = .next t ∧ gained t gain ∧ t.duoE = u.duoE ∧
        t.duoEr = true ∧ t.rd DUO_ERSYM_V = satU 32 (u.rd DUO_ERSYM_V + 1) ∧
        t.rd DUO_IMPCNT_V = (if u.duoEr then u.rd DUO_IMPCNT_V else satU 32 (u.rd DUO_IMPCNT_V + 1)) ∧
        t.symRx = u.symRx + 1 ∧ t.symEr = u.symEr + 1 ∧
        u.Only t [.modem, .health] fun a => a = DUO_AGC ∨ a = DUO_ERSYM ∨ a = DUO_IMPCNT) ∧
      (¬ deaf → (∀ x ∈ u.duoE, ¬ high x) → ∃ t, exec i s = .next t ∧ gained t gain ∧ t.duoE = (e :: u.duoE).take 32 ∧
        t.duoEr = false ∧ t.symRx = u.symRx + 1 ∧ t.symEr = u.symEr ∧ u.Only t [.modem, .health] (· = DUO_AGC))

/-- R449 to R454, R459, R460, and the shadows of R65, R135, R157, R176 and R321, with their frame. -/
def Obligations.Yield : Prop :=
  ∀ (s u : State) (dt : Nat),
    let yld := fun a => Block 0x18 a ∨ RepReg a
    let shown := fun t : State => t.rd YLD_STAT_VALID = 1 ∧
      (∀ i, i < 77 → (bit t.yldIn i = 1 ↔ t.rd (YLD_BAND_VALID i) = 1 ∧ t.rd (YLD_EOL_EOL i) < u.rd YLD_CTL_ALDAYS) ∧
        (t.rd (YLD_BAND_NOW i) = 1 → t.rd (YLD_EOL_EOL i) = 0) ∧
        (bit t.yldIn i = 1 → bit u.yldIn i = 0 → bit (t.rdW (YLD_ALERT (i / 32))).toNat (i % 32) = 1 ∧
          t.rd YLD_STAT_ALERT = 1)) ∧
      (∀ c, c < 48 → t.rd (YLD_BAND_NOW c) = u.rd (SLC_CHSTAT_NOSPARE c))
    (∀ cell vbat cycles o0 o1 o2 o3 : Word, s.Awake dt u →
      let i := Instr.yieldDay dt cell vbat cycles o0 o1 o2 o3
      let day := satU 32 (u.rd YLD_DAY_V + 1)
      let a := 0x300000 + 336 * (day % 180)
      (u.clk < u.dayClk + cyDay → exec i s = .next u) ∧
      (u.dayClk + cyDay ≤ u.clk → ∃ t vals, exec i s = .next t ∧ t.rd YLD_DAY_V = day ∧ t.dayClk = u.dayClk + cyDay ∧
        shown t ∧ t.yldHist = ((day, vals) :: u.yldHist).take 366 ∧
        t.yldVbat = ((day, (vbat.toNat : Int)) :: u.yldVbat).take 180 ∧
        (∀ c, c < 48 → t.rd (YLD_USE_V c) = u.sliceUse c % 2 ^ 32) ∧ t.rd (YLD_USE_V 48) = u.refUse % 2 ^ 32 ∧
        t.rd (YLD_USE_V 60) = cell.toNat ∧ t.rd (YLD_USE_V 67) = cycles.toNat ∧
        (∀ k, k < 4 → t.rd (YLD_USE_V (63 + k)) = ([o0, o1, o2, o3].getD k 0).toNat) ∧
        (∀ r, r < 2 → t.rd (YLD_USE_V (73 + r)) = Sparse.get (fun _ => 0) r u.ringErr % 2 ^ 32) ∧
        t.ringErr = [] ∧ t.symRx = 0 ∧ t.symEr = 0 ∧ u.Only t [.health, .alarm, .nvm] yld ∧
        t.toNvmSt = { u.toNvmSt with engRun := t.engRun } ∧
        ∃ w x ws, t.engRun.todo = u.engRun.todo ++ w :: x :: ws ∧ w.addr = a ∧ x.addr = a + 8 ∧
          x.data = day * 2 ^ 32)) ∧
    (∀ r : Fin 2, s.AwakeFor dt dirKeys u → ∃ t, exec (.yldRun dt (.host r)) s = .next t ∧ shown t ∧
      u.Only t [.health, .alarm] yld ∧
      t.yldHist = u.yldHist ∧ t.dayClk = u.dayClk) ∧
    (let stops := fun (i : Instr) (k : Nat) => ∃ t, exec i s = .next t ∧ t.rd MSD_STAT_ACT = 0 ∧
       t.rd MSD_STAT_DONE = 1 ∧ t.rd MSD_STAT_CAUSE = k ∧ t.msdOff = some u.clk ∧
       t.txNow = u.txNow ++ u.txHeld.map (·.tx) ∧ t.txHeld = [] ∧ (∃ e, t.evl = u.evl ++ [e]) ∧
       u.Only t [.alarm, .modem, .ring] (fun a => a = MSD_STAT ∨ RepReg a)
     (∀ r : Fin 2, s.AwakeFor dt dirKeys u → (u.rd MSD_STAT_ACT = 0 → exec (.misdealStop dt (.host r)) s = .next u) ∧
       (u.fx = false → u.rd MSD_STAT_ACT = 1 → stops (.misdealStop dt (.host r)) 1) ∧
       (u.fx = true → exec (.misdealStop dt (.host r)) s = .next u)) ∧
      (u.fx = true → u.level 114 = false ∧ ∀ o a, a / 4096 = 0x1019 → u.view o a = 0) ∧
      (s.Awake dt u → u.rd MSD_STAT_ACT = 0 ∨ u.clk < u.msdEnd → exec (.misdealDurationExpiry dt) s = .next u) ∧
      (s.Awake dt u → u.rd MSD_STAT_ACT = 1 → u.msdEnd ≤ u.clk → stops (.misdealDurationExpiry dt) 0)) ∧
    (s.Awake dt u → ∃ t, exec (.shadowExpiry dt) s = .next t ∧
      (let keeps := fun (life : Nat) (m n : Sparse (Option Shadow)) =>
         ∀ x, x ∈ n ↔ x ∈ m ∧ ∃ h, x.2 = some h ∧ u.clk < h.at_ + life
       keeps 4916 u.shSeed t.shSeed ∧ keeps 4916 u.shTrip t.shTrip ∧ keeps 4916 u.shBin t.shBin ∧
        keeps 4916 u.shSnap t.shSnap ∧ keeps 4916 u.shScnt t.shScnt ∧ keeps cyMs u.shCal t.shCal) ∧
      u.Only t [.furrow, .chan, .tally, .cal] fun _ => False)
end

