-- ==== Sys2Proof/Laws/Sparse.lean ====
section
/-!
SUPPORT. Sparse data: reads after writes, and the canonical form that every operation keeps.
-/
namespace Sys2Proof

variable {α : Type}

theorem Sparse.get_del_self (d : Nat → α) (k : Nat) (m : Sparse α) : Sparse.get d k (Sparse.del k m) = d k := by
  induction m with
  | nil => rfl
  | cons e m ih => obtain ⟨j, v⟩ := e; by_cases h : j = k <;> simp [Sparse.del, Sparse.get, h, ih]

theorem Sparse.get_del_ne (d : Nat → α) {k j : Nat} (h : j ≠ k) (m : Sparse α) :
    Sparse.get d j (Sparse.del k m) = Sparse.get d j m := by
  induction m with
  | nil => rfl
  | cons e m ih =>
    obtain ⟨i, v⟩ := e
    by_cases hi : i = k
    · simp [Sparse.del, Sparse.get, hi, ih, Ne.symm h]
    · simp only [Sparse.del, hi, if_false, Sparse.get, ih]

theorem Sparse.get_ins_self (d : Nat → α) (k : Nat) (v : α) (m : Sparse α) (h : Sparse.get d k m = d k)
    (hm : ∀ e ∈ m, e.1 ≠ k) : Sparse.get d k (Sparse.ins k v m) = v := by
  induction m with
  | nil => simp [Sparse.ins, Sparse.get]
  | cons e m ih =>
    obtain ⟨j, w⟩ := e
    have hj : j ≠ k := hm (j, w) (by simp)
    simp only [Sparse.get, hj, if_false] at h
    have := ih h fun e he => hm e (by simp [he])
    by_cases hl : k < j <;> simp [Sparse.ins, Sparse.get, hl, hj, this]

theorem Sparse.get_ins_ne (d : Nat → α) {k j : Nat} (h : j ≠ k) (v : α) (m : Sparse α) :
    Sparse.get d j (Sparse.ins k v m) = Sparse.get d j m := by
  induction m with
  | nil => simp [Sparse.ins, Sparse.get, Ne.symm h]
  | cons e m ih =>
    obtain ⟨i, w⟩ := e
    by_cases hl : k < i
    · simp [Sparse.ins, Sparse.get, hl, Ne.symm h]
    · simp only [Sparse.ins, hl, if_false, Sparse.get, ih]

theorem Sparse.mem_del {k : Nat} {m : Sparse α} {e : Nat × α} (h : e ∈ Sparse.del k m) : e ∈ m ∧ e.1 ≠ k := by
  induction m with
  | nil => simp [Sparse.del] at h
  | cons f m ih =>
    obtain ⟨j, v⟩ := f
    by_cases hj : j = k
    · simp only [Sparse.del, hj, if_true] at h; exact ⟨by simp [(ih h).1], (ih h).2⟩
    · simp only [Sparse.del, hj, if_false, List.mem_cons] at h
      rcases h with rfl | h
      · exact ⟨by simp, hj⟩
      · exact ⟨by simp [(ih h).1], (ih h).2⟩

/-- A read of the key just written gives the value written. -/
@[simp] theorem Sparse.get_set_self [DecidableEq α] (d : Nat → α) (k : Nat) (v : α) (m : Sparse α) :
    Sparse.get d k (Sparse.set d k v m) = v := by
  unfold Sparse.set
  split
  · next h => rw [Sparse.get_del_self, h]
  · exact Sparse.get_ins_self d k v _ (Sparse.get_del_self d k m) fun e he => (Sparse.mem_del he).2

/-- A write leaves every other key alone. -/
theorem Sparse.get_set_ne [DecidableEq α] (d : Nat → α) {k j : Nat} (h : j ≠ k) (v : α) (m : Sparse α) :
    Sparse.get d j (Sparse.set d k v m) = Sparse.get d j m := by
  unfold Sparse.set
  split
  · exact Sparse.get_del_ne d h m
  · rw [Sparse.get_ins_ne d h, Sparse.get_del_ne d h]

theorem Sparse.wfFrom_mono [DecidableEq α] {d : Nat → α} {b c : Option Nat} {m : Sparse α}
    (h : Sparse.wfFrom d b m = true) (hc : ∀ x, c = some x → ∃ y, b = some y ∧ x ≤ y) :
    Sparse.wfFrom d c m = true := by
  cases m with
  | nil => rfl
  | cons e m =>
    obtain ⟨j, v⟩ := e
    simp only [Sparse.wfFrom, Bool.and_eq_true] at h ⊢
    refine ⟨⟨?_, h.1.2⟩, h.2⟩
    cases c with
    | none => rfl
    | some x =>
      obtain ⟨y, rfl, hy⟩ := hc x rfl
      have h1 := h.1.1
      simp only [decide_eq_true_eq] at h1 ⊢
      exact Nat.lt_of_le_of_lt hy h1

theorem Sparse.filter_wfFrom [DecidableEq α] {d : Nat → α} (p : Nat × α → Bool) {b : Option Nat} {m : Sparse α}
    (h : Sparse.wfFrom d b m = true) : Sparse.wfFrom d b (m.filter p) = true := by
  induction m generalizing b with
  | nil => rfl
  | cons e m ih =>
    obtain ⟨j, v⟩ := e
    simp only [Sparse.wfFrom, Bool.and_eq_true] at h
    by_cases hp : p (j, v) = true
    · simp only [List.filter_cons, hp, if_true, Sparse.wfFrom, Bool.and_eq_true]
      exact ⟨h.1, ih h.2⟩
    · simp only [List.filter_cons, hp, Bool.false_eq_true, if_false]
      refine ih (Sparse.wfFrom_mono h.2 fun x hx => ⟨j, rfl, ?_⟩)
      subst hx
      have h1 := h.1.1
      simp only [decide_eq_true_eq] at h1
      exact Nat.le_of_lt h1

theorem Sparse.del_eq_filter (k : Nat) (m : Sparse α) : Sparse.del k m = m.filter fun e => !decide (e.1 = k) := by
  induction m with
  | nil => rfl
  | cons e m ih => obtain ⟨j, v⟩ := e; by_cases h : j = k <;> simp [Sparse.del, h, ih]

theorem Sparse.ins_wfFrom [DecidableEq α] {d : Nat → α} {k : Nat} {v : α} (hv : v ≠ d k) {b : Option Nat} {m : Sparse α}
    (hb : ∀ x, b = some x → x < k) (hm : ∀ e ∈ m, e.1 ≠ k) (h : Sparse.wfFrom d b m = true) :
    Sparse.wfFrom d b (Sparse.ins k v m) = true := by
  induction m generalizing b with
  | nil =>
    cases b with
    | none => simp [Sparse.ins, Sparse.wfFrom, hv]
    | some x => simp [Sparse.ins, Sparse.wfFrom, hv, hb x rfl]
  | cons e m ih =>
    obtain ⟨j, w⟩ := e
    have hj : j ≠ k := hm (j, w) (by simp)
    simp only [Sparse.wfFrom, Bool.and_eq_true] at h
    by_cases hl : k < j
    · simp only [Sparse.ins, hl, if_true, Sparse.wfFrom, Bool.and_eq_true]
      refine ⟨⟨?_, by simp [hv]⟩, ⟨by simp, h.1.2⟩, h.2⟩
      cases b with
      | none => rfl
      | some x => simp [hb x rfl]
    · simp only [Sparse.ins, hl, if_false, Sparse.wfFrom, Bool.and_eq_true]
      have hjk : j < k := Nat.lt_of_le_of_ne (Nat.le_of_not_lt hl) hj
      exact ⟨h.1, ih (fun x hx => by cases hx; exact hjk) (fun e he => hm e (by simp [he])) h.2⟩

/-- A write keeps the canonical form. -/
theorem Sparse.set_wf [DecidableEq α] {d : Nat → α} (k : Nat) (v : α) {m : Sparse α} (h : Sparse.wf d m = true) :
    Sparse.wf d (Sparse.set d k v m) = true := by
  unfold Sparse.set
  have hd : Sparse.wf d (Sparse.del k m) = true := by rw [Sparse.del_eq_filter]; exact Sparse.filter_wfFrom _ h
  split
  · exact hd
  · next hv => exact Sparse.ins_wfFrom hv (fun x hx => by cases hx) (fun e he => (Sparse.mem_del he).2) hd

/-- Dropping entries keeps the canonical form. -/
theorem Sparse.filter_wf [DecidableEq α] {d : Nat → α} (p : Nat × α → Bool) {m : Sparse α} (h : Sparse.wf d m = true) :
    Sparse.wf d (m.filter p) = true := Sparse.filter_wfFrom p h

namespace Machine

/-- Storing bytes keeps memory canonical. -/
theorem memPut_wf (bs : List Byte) (a : Nat) {m : List Host.Cell} (h : Memory.wf m = true) :
    Memory.wf (memPut bs a m) = true := by
  induction bs generalizing a m with
  | nil => exact h
  | cons b bs ih => exact ih (a + 1) (Sparse.set_wf a b h)

/-- Storing bytes leaves every byte outside them alone. -/
theorem memPut_get_ne (bs : List Byte) (a k : Nat) (m : List Host.Cell) (h : k < a ∨ a + bs.length ≤ k) :
    Sparse.get memDefault k (memPut bs a m) = Sparse.get memDefault k m := by
  induction bs generalizing a m with
  | nil => rfl
  | cons b bs ih =>
    simp only [List.length_cons] at h
    rw [memPut, ih (a + 1) _ (by omega), Sparse.get_set_ne _ (by omega)]

/-- Storing bytes stores them. -/
theorem memPut_get (bs : List Byte) (a i : Nat) (m : List Host.Cell) (h : i < bs.length) :
    Sparse.get memDefault (a + i) (memPut bs a m) = bs.getD i 0 := by
  induction bs generalizing a i m with
  | nil => simp at h
  | cons b bs ih =>
    cases i with
    | zero => rw [memPut, memPut_get_ne _ _ _ _ (by omega)]; simp
    | succ i =>
      simp only [List.length_cons] at h
      have := ih (a + 1) i (Sparse.set memDefault a b m) (by omega)
      rw [memPut, show a + (i + 1) = a + 1 + i by omega, this]
      simp

/-- A byte read after it is stored. -/
@[simp] theorem State.byte_setByte_self (s : State) (a : Nat) (b : Byte) : (s.setByte a b).byte a = b := by
  simp [State.byte, State.setByte]

/-- A byte stored leaves every other byte alone. -/
theorem State.byte_setByte_ne (s : State) {a k : Nat} (b : Byte) (h : k ≠ a) : (s.setByte a b).byte k = s.byte k := by
  simp [State.byte, State.setByte, Sparse.get_set_ne _ h]

/-- Bytes stored leave every byte outside them alone. -/
theorem State.byte_setBytes_ne (s : State) (a k : Nat) (bs : List Byte) (h : k < a ∨ a + bs.length ≤ k) :
    (s.setBytes a bs).byte k = s.byte k := by
  simpa [State.byte, State.setBytes] using memPut_get_ne bs a k s.mem h

/-- Bytes stored read as they were stored. -/
theorem State.byte_setBytes (s : State) (a i : Nat) (bs : List Byte) (h : i < bs.length) :
    (s.setBytes a bs).byte (a + i) = bs.getD i 0 := by
  simpa [State.byte, State.setBytes] using memPut_get bs a i s.mem h

/-- A register read after it is written. -/
@[simp] theorem State.rdW_wrW_self (s : State) (a : Nat) (w : Word) : (s.wrW a w).rdW a = w := by
  simp [State.rdW, State.wrW]

/-- A register written leaves every other register alone. -/
theorem State.rdW_wrW_ne (s : State) {a k : Nat} (w : Word) (h : k ≠ a) : (s.wrW a w).rdW k = s.rdW k := by
  simp [State.rdW, State.wrW, Sparse.get_set_ne _ h]

end Machine

end Sys2Proof
end

