-- ==== Sys2Proof/Laws/KeepBase.lean ====
section
/-!
SUPPORT. What every shared operation keeps: memory and registers canonical, the command queue as it is, a clock that
never runs back, no queue past its depth. Here: registers, furrows, seeds, chains, granary, hoppers, gleaner, silo and thresher.
-/
set_option linter.all false
namespace Sys2Proof.Machine

/-- No queue is longer than the manual lets it be. -/

def Caps (thr : List Job) (trip : List (Nat × List Word)) (al : List LogRec) (ev : List EventFrame) (nv : List NvEntry)
    (rq : List Request) (duo : List TxDesc) (dl : Option Deal) : Prop :=
  thr.length ≤ 32 ∧ trip.length ≤ 16 ∧ al.length ≤ 32 ∧ ev.length ≤ 5 ∧ nv.length ≤ 1024 ∧ rq.length ≤ 64 ∧
    duo.length ≤ 8 ∧ ∀ d, dl = some d → d.entries.length ≤ 512

/-- `Keeps` over the parts it looks at. -/

def KeepsP (p : List Instr) (c : Nat) (m : List Host.Cell) (r : Sparse Word) (q : List Instr) (k : Nat)
    (thr : List Job) (trip : List (Nat × List Word)) (al : List LogRec) (ev : List EventFrame) (nv : List NvEntry)
    (rq : List Request) (duo : List TxDesc) (dl : Option Deal) : Prop :=
  Memory.wf m = true ∧ Sparse.wf regReset r = true ∧ q = p ∧ c ≤ k ∧ Caps thr trip al ev nv rq duo dl

/-- `s` is canonical, its queue is `p`, its clock has reached `c`, and no queue overfills. -/

def Keeps (p : List Instr) (c : Nat) (s : State) : Prop :=
  KeepsP p c s.mem s.regs s.pending s.clk s.thrQ s.tripQ s.alq s.evWait s.nvBuf s.reqs s.duoQ s.deal

@[simp ↓] theorem Keeps_mk (p : List Instr) (c : Nat) (a1 a2 a3 a4 a5 a6 a7 a8 a9 a10 a11 a12 a13 q k f r m x y z v u w) :
    Keeps p c (State.mk a1 a2 a3 a4 a5 a6 a7 a8 a9 a10 a11 a12 a13 q k f r m x y z v u w) ↔
      KeepsP p c m r q k a6.thrQ a4.tripQ a3.alq a3.evWait a7.nvBuf a11.reqs a10.duoQ a12.deal := ⟨id, id⟩

@[simp ↓ high, simp high] theorem OkP_eta (p : List Instr) (c : Nat) (s : State) :
    KeepsP p c s.mem s.regs s.pending s.clk s.thrQ s.tripQ s.alq s.evWait s.nvBuf s.reqs s.duoQ s.deal ↔ Keeps p c s := ⟨id, id⟩

@[simp ↓] theorem Keeps_ite {p : List Instr} {c : Nat} {b : Prop} [Decidable b] {s t : State} (hs : Keeps p c s) (ht : Keeps p c t) :
    Keeps p c (if b then s else t) := by split <;> assumption

@[simp ↓] theorem Keeps_ite2 {α : Type} {p : List Instr} {c : Nat} {b : Prop} [Decidable b] {s t : α × State} (hs : Keeps p c s.2) (ht : Keeps p c t.2) :
    Keeps p c (if b then s else t).2 := by split <;> assumption

@[simp ↓] theorem Keeps_ite3 {α β : Type} {p : List Instr} {c : Nat} {b : Prop} [Decidable b] {s t : α × β × State} (hs : Keeps p c s.2.2) (ht : Keeps p c t.2.2) :
    Keeps p c (if b then s else t).2.2 := by split <;> assumption

@[simp ↓] theorem Keeps_foldl {α : Type} {p : List Instr} {c : Nat} {l : List α} {f : State → α → State} {s : State}
    (hf : ∀ s x, Keeps p c s → Keeps p c (f s x)) (hs : Keeps p c s) : Keeps p c (l.foldl f s) := by
  induction l generalizing s with
  | nil => exact hs
  | cons a l ih => exact ih (hf s a hs)

@[simp ↓] theorem Keeps_foldl2 {α β : Type} {p : List Instr} {c : Nat} {l : List α} {f : β × State → α → β × State} {s : β × State}
    (hf : ∀ s x, Keeps p c s.2 → Keeps p c (f s x).2) (hs : Keeps p c s.2) : Keeps p c (l.foldl f s).2 := by
  induction l generalizing s with
  | nil => exact hs
  | cons a l ih => exact ih (hf s a hs)

@[simp ↓] theorem Keeps_getD {p : List Instr} {c : Nat} {o : Option State} {s : State} (ho : ∀ t, o = some t → Keeps p c t) (hs : Keeps p c s) :
    Keeps p c (o.getD s) := by
  cases o with
  | none => exact hs
  | some t => exact ho t rfl

theorem Keeps.of {p : List Instr} {c : Nat} {s : State}
    (h : KeepsP p c s.mem s.regs s.pending s.clk s.thrQ s.tripQ s.alq s.evWait s.nvBuf s.reqs s.duoQ s.deal) : Keeps p c s := h

theorem KeepsP.thr {p c m r q k thr trip al ev nv rq duo dl} {thr' : List Job} (h : KeepsP p c m r q k thr trip al ev nv rq duo dl)
    (hl : thr'.length ≤ 32) : KeepsP p c m r q k thr' trip al ev nv rq duo dl := by
  obtain ⟨h1, h2, h3, h4, g0, g1, g2, g3, g4, g5, g6, g7⟩ := h
  exact ⟨h1, h2, h3, h4, hl, g1, g2, g3, g4, g5, g6, g7⟩

theorem Keeps.thr_le {p c} {s : State} (h : Keeps p c s) : s.thrQ.length ≤ 32 := h.2.2.2.2.1

theorem KeepsP.trip {p c m r q k thr trip al ev nv rq duo dl} {trip' : List (Nat × List Word)} (h : KeepsP p c m r q k thr trip al ev nv rq duo dl)
    (hl : trip'.length ≤ 16) : KeepsP p c m r q k thr trip' al ev nv rq duo dl := by
  obtain ⟨h1, h2, h3, h4, g0, g1, g2, g3, g4, g5, g6, g7⟩ := h
  exact ⟨h1, h2, h3, h4, g0, hl, g2, g3, g4, g5, g6, g7⟩

theorem Keeps.trip_le {p c} {s : State} (h : Keeps p c s) : s.tripQ.length ≤ 16 := h.2.2.2.2.2.1

theorem KeepsP.al {p c m r q k thr trip al ev nv rq duo dl} {al' : List LogRec} (h : KeepsP p c m r q k thr trip al ev nv rq duo dl)
    (hl : al'.length ≤ 32) : KeepsP p c m r q k thr trip al' ev nv rq duo dl := by
  obtain ⟨h1, h2, h3, h4, g0, g1, g2, g3, g4, g5, g6, g7⟩ := h
  exact ⟨h1, h2, h3, h4, g0, g1, hl, g3, g4, g5, g6, g7⟩

theorem Keeps.al_le {p c} {s : State} (h : Keeps p c s) : s.alq.length ≤ 32 := h.2.2.2.2.2.2.1

theorem KeepsP.ev {p c m r q k thr trip al ev nv rq duo dl} {ev' : List EventFrame} (h : KeepsP p c m r q k thr trip al ev nv rq duo dl)
    (hl : ev'.length ≤ 5) : KeepsP p c m r q k thr trip al ev' nv rq duo dl := by
  obtain ⟨h1, h2, h3, h4, g0, g1, g2, g3, g4, g5, g6, g7⟩ := h
  exact ⟨h1, h2, h3, h4, g0, g1, g2, hl, g4, g5, g6, g7⟩

theorem Keeps.ev_le {p c} {s : State} (h : Keeps p c s) : s.evWait.length ≤ 5 := h.2.2.2.2.2.2.2.1

theorem KeepsP.nv {p c m r q k thr trip al ev nv rq duo dl} {nv' : List NvEntry} (h : KeepsP p c m r q k thr trip al ev nv rq duo dl)
    (hl : nv'.length ≤ 1024) : KeepsP p c m r q k thr trip al ev nv' rq duo dl := by
  obtain ⟨h1, h2, h3, h4, g0, g1, g2, g3, g4, g5, g6, g7⟩ := h
  exact ⟨h1, h2, h3, h4, g0, g1, g2, g3, hl, g5, g6, g7⟩

theorem Keeps.nv_le {p c} {s : State} (h : Keeps p c s) : s.nvBuf.length ≤ 1024 := h.2.2.2.2.2.2.2.2.1

theorem KeepsP.rq {p c m r q k thr trip al ev nv rq duo dl} {rq' : List Request} (h : KeepsP p c m r q k thr trip al ev nv rq duo dl)
    (hl : rq'.length ≤ 64) : KeepsP p c m r q k thr trip al ev nv rq' duo dl := by
  obtain ⟨h1, h2, h3, h4, g0, g1, g2, g3, g4, g5, g6, g7⟩ := h
  exact ⟨h1, h2, h3, h4, g0, g1, g2, g3, g4, hl, g6, g7⟩

theorem Keeps.rq_le {p c} {s : State} (h : Keeps p c s) : s.reqs.length ≤ 64 := h.2.2.2.2.2.2.2.2.2.1

theorem KeepsP.duo {p c m r q k thr trip al ev nv rq duo dl} {duo' : List TxDesc} (h : KeepsP p c m r q k thr trip al ev nv rq duo dl)
    (hl : duo'.length ≤ 8) : KeepsP p c m r q k thr trip al ev nv rq duo' dl := by
  obtain ⟨h1, h2, h3, h4, g0, g1, g2, g3, g4, g5, g6, g7⟩ := h
  exact ⟨h1, h2, h3, h4, g0, g1, g2, g3, g4, g5, hl, g7⟩

theorem Keeps.duo_le {p c} {s : State} (h : Keeps p c s) : s.duoQ.length ≤ 8 := h.2.2.2.2.2.2.2.2.2.2.1

theorem KeepsP.dl {p c m r q k thr trip al ev nv rq duo dl} {dl' : Option Deal} (h : KeepsP p c m r q k thr trip al ev nv rq duo dl)
    (hl : ∀ d, dl' = some d → d.entries.length ≤ 512) : KeepsP p c m r q k thr trip al ev nv rq duo dl' := by
  obtain ⟨h1, h2, h3, h4, g0, g1, g2, g3, g4, g5, g6, g7⟩ := h
  exact ⟨h1, h2, h3, h4, g0, g1, g2, g3, g4, g5, g6, hl⟩

theorem Keeps.dl_le {p c} {s : State} (h : Keeps p c s) : ∀ d, s.deal = some d → d.entries.length ≤ 512 := h.2.2.2.2.2.2.2.2.2.2.2

theorem KeepsP.mem {p c m r q k thr trip al ev nv rq duo dl} {m' : List Host.Cell} (h : KeepsP p c m r q k thr trip al ev nv rq duo dl)
    (hm : Memory.wf m' = true) : KeepsP p c m' r q k thr trip al ev nv rq duo dl := ⟨hm, h.2⟩

theorem KeepsP.regs {p c m r q k thr trip al ev nv rq duo dl} {r' : Sparse Word} (h : KeepsP p c m r q k thr trip al ev nv rq duo dl)
    (hr : Sparse.wf regReset r' = true) : KeepsP p c m r' q k thr trip al ev nv rq duo dl := ⟨h.1, hr, h.2.2⟩

theorem KeepsP.clk {p c m r q k thr trip al ev nv rq duo dl} {k' : Nat} (h : KeepsP p c m r q k thr trip al ev nv rq duo dl)
    (hk : k ≤ k') : KeepsP p c m r q k' thr trip al ev nv rq duo dl := ⟨h.1, h.2.1, h.2.2.1, Nat.le_trans h.2.2.2.1 hk, h.2.2.2.2⟩

theorem shedJob_mem {u : Nat} {q : List Job} {k : Job} (h : shedJob u q = some k) : k ∈ q := by
  unfold shedJob at h
  have : ∀ (l : List Job) (b : Option Job), (∀ j ∈ l, j ∈ q) → (∀ j, b = some j → j ∈ q) →
      ∀ j, l.foldl (fun (b : Option Job) j => match b with
        | some k => if j.suit ≤ k.suit then some j else b
        | none => some j) b = some j → j ∈ q := by
    intro l
    induction l with
    | nil => intro b _ hb j hj; exact hb j hj
    | cons a l ih =>
      intro b hl hb
      refine ih _ (fun j hj => hl j (List.mem_cons_of_mem _ hj)) ?_
      intro j hj
      dsimp only at hj
      split at hj
      · split at hj
        · cases hj; exact hl _ (List.mem_cons_self ..)
        · exact hb j hj
      · cases hj; exact hl _ (List.mem_cons_self ..)
  exact this _ none (fun j hj => (List.mem_filter.1 hj).1) (fun j hj => by cases hj) k h

@[simp low] theorem KeepsP.thr_iff {p c} {s : State} {l : List Job} (h : Keeps p c s) :
    KeepsP p c s.mem s.regs s.pending s.clk l s.tripQ s.alq s.evWait s.nvBuf s.reqs s.duoQ s.deal ↔ l.length ≤ 32 :=
  ⟨fun g => g.2.2.2.2.1, fun g => KeepsP.thr h g⟩

@[simp low] theorem KeepsP.trip_iff {p c} {s : State} {l : List (Nat × List Word)} (h : Keeps p c s) :
    KeepsP p c s.mem s.regs s.pending s.clk s.thrQ l s.alq s.evWait s.nvBuf s.reqs s.duoQ s.deal ↔ l.length ≤ 16 :=
  ⟨fun g => g.2.2.2.2.2.1, fun g => KeepsP.trip h g⟩

@[simp low] theorem KeepsP.al_iff {p c} {s : State} {l : List LogRec} (h : Keeps p c s) :
    KeepsP p c s.mem s.regs s.pending s.clk s.thrQ s.tripQ l s.evWait s.nvBuf s.reqs s.duoQ s.deal ↔ l.length ≤ 32 :=
  ⟨fun g => g.2.2.2.2.2.2.1, fun g => KeepsP.al h g⟩

@[simp low] theorem KeepsP.ev_iff {p c} {s : State} {l : List EventFrame} (h : Keeps p c s) :
    KeepsP p c s.mem s.regs s.pending s.clk s.thrQ s.tripQ s.alq l s.nvBuf s.reqs s.duoQ s.deal ↔ l.length ≤ 5 :=
  ⟨fun g => g.2.2.2.2.2.2.2.1, fun g => KeepsP.ev h g⟩

@[simp low] theorem KeepsP.nv_iff {p c} {s : State} {l : List NvEntry} (h : Keeps p c s) :
    KeepsP p c s.mem s.regs s.pending s.clk s.thrQ s.tripQ s.alq s.evWait l s.reqs s.duoQ s.deal ↔ l.length ≤ 1024 :=
  ⟨fun g => g.2.2.2.2.2.2.2.2.1, fun g => KeepsP.nv h g⟩

@[simp low] theorem KeepsP.rq_iff {p c} {s : State} {l : List Request} (h : Keeps p c s) :
    KeepsP p c s.mem s.regs s.pending s.clk s.thrQ s.tripQ s.alq s.evWait s.nvBuf l s.duoQ s.deal ↔ l.length ≤ 64 :=
  ⟨fun g => g.2.2.2.2.2.2.2.2.2.1, fun g => KeepsP.rq h g⟩

@[simp low] theorem KeepsP.duo_iff {p c} {s : State} {l : List TxDesc} (h : Keeps p c s) :
    KeepsP p c s.mem s.regs s.pending s.clk s.thrQ s.tripQ s.alq s.evWait s.nvBuf s.reqs l s.deal ↔ l.length ≤ 8 :=
  ⟨fun g => g.2.2.2.2.2.2.2.2.2.2.1, fun g => KeepsP.duo h g⟩

@[simp low] theorem KeepsP.dl_iff {p c} {s : State} {l : Option Deal} (h : Keeps p c s) :
    KeepsP p c s.mem s.regs s.pending s.clk s.thrQ s.tripQ s.alq s.evWait s.nvBuf s.reqs s.duoQ l ↔ ∀ d, l = some d → d.entries.length ≤ 512 :=
  ⟨fun g => g.2.2.2.2.2.2.2.2.2.2.2, fun g => KeepsP.dl h g⟩

@[simp low] theorem KeepsP.mem_iff {p c} {s : State} {m} (h : Keeps p c s) :
    KeepsP p c m s.regs s.pending s.clk s.thrQ s.tripQ s.alq s.evWait s.nvBuf s.reqs s.duoQ s.deal ↔ Memory.wf m = true := ⟨fun g => g.1, fun g => KeepsP.mem h g⟩

@[simp low] theorem KeepsP.regs_iff {p c} {s : State} {r} (h : Keeps p c s) :
    KeepsP p c s.mem r s.pending s.clk s.thrQ s.tripQ s.alq s.evWait s.nvBuf s.reqs s.duoQ s.deal ↔ Sparse.wf regReset r = true := ⟨fun g => g.2.1, fun g => KeepsP.regs h g⟩

@[simp ↓] theorem State.wrW_keeps {qp : List Instr} {qc : Nat} (s : State) (a : Nat) (w : Word) (hs : Keeps qp qc s) :
    Keeps qp qc (State.wrW s a w) := ⟨hs.1, Sparse.set_wf a w hs.2.1, hs.2.2⟩

@[simp ↓] theorem State.wr_keeps {qp : List Instr} {qc : Nat} (s : State) (f : Fld) (v : Nat) (hs : Keeps qp qc s) :
    Keeps qp qc (State.wr s f v) := by
  unfold State.wr
  simp +contextual (maxDischargeDepth := 100) [*]

@[simp ↓] theorem State.wrS_keeps {qp : List Instr} {qc : Nat} (s : State) (f : Fld) (z : Int) (hs : Keeps qp qc s) :
    Keeps qp qc (State.wrS s f z) := by
  unfold State.wrS
  simp +contextual (maxDischargeDepth := 100) [*]

@[simp ↓] theorem State.add_keeps {qp : List Instr} {qc : Nat} (s : State) (f : Fld) (n : Nat) (hs : Keeps qp qc s) :
    Keeps qp qc (State.add s f n) := by
  unfold State.add
  simp +contextual (maxDischargeDepth := 100) [*]

@[simp ↓] theorem State.inc_keeps {qp : List Instr} {qc : Nat} (s : State) (f : Fld) (hs : Keeps qp qc s) :
    Keeps qp qc (State.inc s f) := by
  unfold State.inc
  simp +contextual (maxDischargeDepth := 100) [*]

@[simp ↓] theorem State.repeatFlag_keeps {qp : List Instr} {qc : Nat} (s : State) (a i : Nat) (hs : Keeps qp qc s) :
    Keeps qp qc (State.repeatFlag s a i) := by
  unfold State.repeatFlag
  (repeat' split) <;> simp +contextual (maxDischargeDepth := 100) [*]

@[simp ↓] theorem State.setBit_keeps {qp : List Instr} {qc : Nat} (s : State) (a i : Nat) (hs : Keeps qp qc s) :
    Keeps qp qc (State.setBit s a i) := by
  unfold State.setBit
  simp +contextual (maxDischargeDepth := 100) [*]

@[simp ↓] theorem State.flag_keeps {qp : List Instr} {qc : Nat} (s : State) (f : Fld) (hs : Keeps qp qc s) :
    Keeps qp qc (State.flag s f) := by
  unfold State.flag
  simp +contextual (maxDischargeDepth := 100) [*]

@[simp ↓] theorem State.clrBit_keeps {qp : List Instr} {qc : Nat} (s : State) (a i : Nat) (hs : Keeps qp qc s) :
    Keeps qp qc (State.clrBit s a i) := by
  unfold State.clrBit
  simp +contextual (maxDischargeDepth := 100) [*]

@[simp ↓] theorem State.draw_keeps {qp : List Instr} {qc : Nat} (s : State) (hs : Keeps qp qc s) :
    Keeps qp qc (State.draw s).2 := by
  unfold State.draw
  simp +contextual (maxDischargeDepth := 100) [*]

@[simp ↓] theorem State.setRdata_keeps {qp : List Instr} {qc : Nat} (s : State) (o : Nat) (w : Word) (hs : Keeps qp qc s) :
    Keeps qp qc (State.setRdata s o w) := by
  unfold State.setRdata
  simp +contextual (maxDischargeDepth := 100) [*]

@[simp ↓] theorem State.setByte_keeps {qp : List Instr} {qc : Nat} (s : State) (a : Nat) (b : Byte) (hs : Keeps qp qc s) :
    Keeps qp qc (State.setByte s a b) := ⟨Sparse.set_wf a b hs.1, hs.2⟩

@[simp ↓] theorem State.setBytes_keeps {qp : List Instr} {qc : Nat} (s : State) (a : Nat) (bs : List Byte) (hs : Keeps qp qc s) :
    Keeps qp qc (State.setBytes s a bs) := ⟨memPut_wf bs a hs.1, hs.2⟩

@[simp ↓] theorem State.store_keeps {qp : List Instr} {qc : Nat} (s : State) (a n v : Nat) (hs : Keeps qp qc s) :
    Keeps qp qc (State.store s a n v) := by
  unfold State.store
  simp +contextual (maxDischargeDepth := 100) [*]

@[simp ↓] theorem State.ffStore_keeps {qp : List Instr} {qc : Nat} (s : State) (a n v : Nat) (hs : Keeps qp qc s) :
    Keeps qp qc (State.ffStore s a n v) := by
  unfold State.ffStore
  first
  | (simp +contextual (maxDischargeDepth := 100) [*]; done)
  | (repeat' split) <;> (simp +contextual (maxDischargeDepth := 100) [*]; done)
  | (dsimp only; (repeat' first | (simp +contextual (maxDischargeDepth := 100) [*]; done) | split); done)
  | ((simp +contextual (maxDischargeDepth := 100) [*]; repeat' first | (simp +contextual (maxDischargeDepth := 100) [*]; done) | split); done)
  | ((simp +contextual (maxDischargeDepth := 100) [*]; (repeat' split) <;> (simp +contextual (maxDischargeDepth := 100) [*]; done)); done)

@[simp ↓] theorem State.store32_keeps {qp : List Instr} {qc : Nat} (s : State) (a v : Nat) (hs : Keeps qp qc s) :
    Keeps qp qc (State.store32 s a v) := by
  unfold State.store32
  simp +contextual (maxDischargeDepth := 100) [*]

@[simp ↓] theorem State.setFurrow_keeps {qp : List Instr} {qc : Nat} (s : State) (n : Nat) (f : Furrow) (hs : Keeps qp qc s) :
    Keeps qp qc (State.setFurrow s n f) := by
  unfold State.setFurrow
  simp +contextual (maxDischargeDepth := 100) [*]

@[simp ↓] theorem State.segPut_keeps {qp : List Instr} {qc : Nat} (s : State) (n a r : Nat) (hs : Keeps qp qc s) :
    Keeps qp qc (State.segPut s n a r) := by
  unfold State.segPut
  first
  | (simp +contextual (maxDischargeDepth := 100) [*]; done)
  | (repeat' split) <;> (simp +contextual (maxDischargeDepth := 100) [*]; done)
  | (dsimp only; (repeat' first | (simp +contextual (maxDischargeDepth := 100) [*]; done) | split); done)
  | ((simp +contextual (maxDischargeDepth := 100) [*]; repeat' first | (simp +contextual (maxDischargeDepth := 100) [*]; done) | split); done)
  | ((simp +contextual (maxDischargeDepth := 100) [*]; (repeat' split) <;> (simp +contextual (maxDischargeDepth := 100) [*]; done)); done)

@[simp ↓] theorem State.segNow_keeps {qp : List Instr} {qc : Nat} (s : State) (n : Nat) (hs : Keeps qp qc s) :
    Keeps qp qc (State.segNow s n) := by
  unfold State.segNow
  simp +contextual (maxDischargeDepth := 100) [*]

@[simp ↓] theorem State.loadAngle_keeps {qp : List Instr} {qc : Nat} (s : State) (n a prev : Nat) (hs : Keeps qp qc s) :
    Keeps qp qc (State.loadAngle s n a prev) := by
  unfold State.loadAngle
  first
  | (simp +contextual (maxDischargeDepth := 100) [*]; done)
  | (repeat' split) <;> (simp +contextual (maxDischargeDepth := 100) [*]; done)
  | (dsimp only; (repeat' first | (simp +contextual (maxDischargeDepth := 100) [*]; done) | split); done)
  | ((simp +contextual (maxDischargeDepth := 100) [*]; repeat' first | (simp +contextual (maxDischargeDepth := 100) [*]; done) | split); done)
  | ((simp +contextual (maxDischargeDepth := 100) [*]; (repeat' split) <;> (simp +contextual (maxDischargeDepth := 100) [*]; done)); done)

@[simp ↓] theorem State.tbKeep_keeps {qp : List Instr} {qc : Nat} (s : State) (hs : Keeps qp qc s) :
    Keeps qp qc (State.tbKeep s) := by
  unfold State.tbKeep
  first
  | (simp +contextual (maxDischargeDepth := 100) [*]; done)
  | (repeat' split) <;> (simp +contextual (maxDischargeDepth := 100) [*]; done)
  | (dsimp only; (repeat' first | (simp +contextual (maxDischargeDepth := 100) [*]; done) | split); done)
  | ((simp +contextual (maxDischargeDepth := 100) [*]; repeat' first | (simp +contextual (maxDischargeDepth := 100) [*]; done) | split); done)
  | ((simp +contextual (maxDischargeDepth := 100) [*]; (repeat' split) <;> (simp +contextual (maxDischargeDepth := 100) [*]; done)); done)

@[simp ↓] theorem State.wrWords_keeps {qp : List Instr} {qc : Nat} (s : State) (a : Nat) (ws : List Word) (hs : Keeps qp qc s) :
    Keeps qp qc (State.wrWords s a ws) := by
  induction ws generalizing s a with
  | nil => exact hs
  | cons w ws ih => exact ih _ _ (State.wrW_keeps s a w hs)

@[simp ↓] theorem State.logEv_keeps {qp : List Instr} {qc : Nat} (s : State) (code a0 a1 a2 : Nat) (hs : Keeps qp qc s) :
    Keeps qp qc (State.logEv s code a0 a1 a2) := by
  unfold State.logEv
  simp +contextual (maxDischargeDepth := 100) [*]

@[simp ↓] theorem State.swapIn_keeps {qp : List Instr} {qc : Nat} (s : State) (hs : Keeps qp qc s) :
    Keeps qp qc (State.swapIn s) := by
  unfold State.swapIn
  simp +contextual (maxDischargeDepth := 100) [*]

@[simp ↓] theorem State.violate_keeps {qp : List Instr} {qc : Nat} (s : State) (cls orig num addr : Nat) (hs : Keeps qp qc s) :
    Keeps qp qc (State.violate s cls orig num addr) := by
  unfold State.violate
  simp +contextual (maxDischargeDepth := 100) [*]

@[simp ↓] theorem State.safeCause_keeps {qp : List Instr} {qc : Nat} (s : State) (cause : Nat) (hs : Keeps qp qc s) :
    Keeps qp qc (State.safeCause s cause) := by
  unfold State.safeCause
  simp +contextual (maxDischargeDepth := 100) [*]

@[simp ↓] theorem State.burnNext_keeps {qp : List Instr} {qc : Nat} (s : State) (hs : Keeps qp qc s) :
    Keeps qp qc (State.burnNext s) := by
  unfold State.burnNext
  first
  | (simp +contextual (maxDischargeDepth := 100) [*]; done)
  | (repeat' split) <;> (simp +contextual (maxDischargeDepth := 100) [*]; done)
  | (dsimp only; (repeat' first | (simp +contextual (maxDischargeDepth := 100) [*]; done) | split); done)
  | ((simp +contextual (maxDischargeDepth := 100) [*]; repeat' first | (simp +contextual (maxDischargeDepth := 100) [*]; done) | split); done)
  | ((simp +contextual (maxDischargeDepth := 100) [*]; (repeat' split) <;> (simp +contextual (maxDischargeDepth := 100) [*]; done)); done)

@[simp ↓] theorem State.otpBitDue_keeps {qp : List Instr} {qc : Nat} (s : State) (c : Nat) (hs : Keeps qp qc s) :
    Keeps qp qc (State.otpBitDue s c) := by
  unfold State.otpBitDue
  simp +contextual (maxDischargeDepth := 100) [*]

@[simp ↓] theorem State.tamperN_keeps {qp : List Instr} {qc : Nat} (s : State) (c n : Nat) (hs : Keeps qp qc s) :
    Keeps qp qc (State.tamperN s c n) := by
  unfold State.tamperN
  simp +contextual (maxDischargeDepth := 100) [*]

@[simp ↓] theorem State.tamper_keeps {qp : List Instr} {qc : Nat} (s : State) (c : Nat) (hs : Keeps qp qc s) :
    Keeps qp qc (State.tamper s c) := by
  unfold State.tamper
  simp +contextual (maxDischargeDepth := 100) [*]

@[simp ↓] theorem State.bicMismatch_keeps {qp : List Instr} {qc : Nat} (s : State) (orig addr : Nat) (inj : Bool) (hs : Keeps qp qc s) :
    Keeps qp qc (State.bicMismatch s orig addr inj) := by
  unfold State.bicMismatch
  simp +contextual (maxDischargeDepth := 100) [*]

@[simp ↓] theorem State.refuse_keeps {qp : List Instr} {qc : Nat} (s : State) (orig addr : Nat) (isWrite : Bool) (hs : Keeps qp qc s) :
    Keeps qp qc (State.refuse s orig addr isWrite) := by
  unfold State.refuse
  simp +contextual (maxDischargeDepth := 100) [*]

@[simp ↓] theorem State.took_keeps {qp : List Instr} {qc : Nat} (s : State) (o p : Nat) (hs : Keeps qp qc s) :
    Keeps qp qc (State.took s o p) := by
  unfold State.took
  first
  | (simp +contextual (maxDischargeDepth := 100) [*]; done)
  | (repeat' split) <;> (simp +contextual (maxDischargeDepth := 100) [*]; done)
  | (dsimp only; (repeat' first | (simp +contextual (maxDischargeDepth := 100) [*]; done) | split); done)
  | ((simp +contextual (maxDischargeDepth := 100) [*]; repeat' first | (simp +contextual (maxDischargeDepth := 100) [*]; done) | split); done)
  | ((simp +contextual (maxDischargeDepth := 100) [*]; (repeat' split) <;> (simp +contextual (maxDischargeDepth := 100) [*]; done)); done)

@[simp ↓] theorem State.revMark_keeps {qp : List Instr} {qc : Nat} (s : State) (a : Nat) (was : Word) (hs : Keeps qp qc s) :
    Keeps qp qc (State.revMark s a was) := by
  unfold State.revMark
  first
  | (simp +contextual (maxDischargeDepth := 100) [*]; done)
  | (repeat' split) <;> (simp +contextual (maxDischargeDepth := 100) [*]; done)
  | (dsimp only; (repeat' first | (simp +contextual (maxDischargeDepth := 100) [*]; done) | split); done)
  | ((simp +contextual (maxDischargeDepth := 100) [*]; repeat' first | (simp +contextual (maxDischargeDepth := 100) [*]; done) | split); done)
  | ((simp +contextual (maxDischargeDepth := 100) [*]; (repeat' split) <;> (simp +contextual (maxDischargeDepth := 100) [*]; done)); done)

@[simp ↓] theorem State.setSeedTarget_keeps {qp : List Instr} {qc : Nat} (s : State) (i a : Nat) (hs : Keeps qp qc s) :
    Keeps qp qc (State.setSeedTarget s i a) := by
  unfold State.setSeedTarget
  simp +contextual (maxDischargeDepth := 100) [*]

@[simp ↓] theorem State.seedSpent_keeps {qp : List Instr} {qc : Nat} (s : State) (i : Nat) (hs : Keeps qp qc s) :
    Keeps qp qc (State.seedSpent s i) := by
  unfold State.seedSpent
  simp +contextual (maxDischargeDepth := 100) [*]

@[simp ↓] theorem State.sowFlag_keeps {qp : List Instr} {qc : Nat} (s : State) (f : Fld) (i : Nat) (hs : Keeps qp qc s) :
    Keeps qp qc (State.sowFlag s f i) := by
  unfold State.sowFlag
  simp +contextual (maxDischargeDepth := 100) [*]

@[simp ↓] theorem State.seedEval_keeps {qp : List Instr} {qc : Nat} (s : State) (i : Nat) (hs : Keeps qp qc s) :
    Keeps qp qc (State.seedEval s i) := by
  unfold State.seedEval
  simp +contextual (maxDischargeDepth := 100) [*]

@[simp ↓] theorem State.seedsReeval_keeps {qp : List Instr} {qc : Nat} (s : State) (sel : Nat → Bool) (hs : Keeps qp qc s) :
    Keeps qp qc (State.seedsReeval s sel) := by
  unfold State.seedsReeval
  simp +contextual (maxDischargeDepth := 100) [*]

@[simp ↓] theorem State.seedArm_keeps {qp : List Instr} {qc : Nat} (s : State) (i : Nat) (w : Word) (hs : Keeps qp qc s) :
    Keeps qp qc (State.seedArm s i w) := by
  unfold State.seedArm
  simp +contextual (maxDischargeDepth := 100) [*]

@[simp ↓] theorem State.seedDisarm_keeps {qp : List Instr} {qc : Nat} (s : State) (i : Nat) (w : Word) (hs : Keeps qp qc s) :
    Keeps qp qc (State.seedDisarm s i w) := by
  unfold State.seedDisarm
  simp +contextual (maxDischargeDepth := 100) [*]

@[simp ↓] theorem State.seedWrite_keeps {qp : List Instr} {qc : Nat} (s : State) (i k : Nat) (w : Word) (hs : Keeps qp qc s) :
    Keeps qp qc (State.seedWrite s i k w) := by
  unfold State.seedWrite
  simp +contextual (maxDischargeDepth := 100) [*]

@[simp ↓] theorem State.setSeedShadow_keeps {qp : List Instr} {qc : Nat} (s : State) (o : Nat) (h : Option Shadow) (hs : Keeps qp qc s) :
    Keeps qp qc (State.setSeedShadow s o h) := by
  unfold State.setSeedShadow
  simp +contextual (maxDischargeDepth := 100) [*]

@[simp ↓] theorem State.seedRead_keeps {qp : List Instr} {qc : Nat} (s : State) (o i k : Nat) (hs : Keeps qp qc s) :
    Keeps qp qc (State.seedRead s o i k).2 := by
  unfold State.seedRead
  (repeat' split) <;> simp +contextual (maxDischargeDepth := 100) [*]

@[simp ↓] theorem State.furCfgErr_keeps {qp : List Instr} {qc : Nat} (s : State) (n : Nat) (hs : Keeps qp qc s) :
    Keeps qp qc (State.furCfgErr s n) := by
  unfold State.furCfgErr
  simp +contextual (maxDischargeDepth := 100) [*]

@[simp ↓] theorem State.furRestart_keeps {qp : List Instr} {qc : Nat} (s : State) (n : Nat) (hs : Keeps qp qc s) :
    Keeps qp qc (State.furRestart s n) := by
  unfold State.furRestart
  simp +contextual (maxDischargeDepth := 100) [*]

@[simp ↓] theorem State.rsMark_keeps {qp : List Instr} {qc : Nat} (s : State) (n : Nat) (hs : Keeps qp qc s) :
    Keeps qp qc (State.rsMark s n) := by
  unfold State.rsMark
  simp +contextual (maxDischargeDepth := 100) [*]

@[simp ↓] theorem State.loopSet_keeps {qp : List Instr} {qc : Nat} (s : State) (n : Nat) (e : Int) (hs : Keeps qp qc s) :
    Keeps qp qc (State.loopSet s n e) := by
  unfold State.loopSet
  first
  | (simp +contextual (maxDischargeDepth := 100) [*]; done)
  | (repeat' split) <;> (simp +contextual (maxDischargeDepth := 100) [*]; done)
  | (dsimp only; (repeat' first | (simp +contextual (maxDischargeDepth := 100) [*]; done) | split); done)
  | ((simp +contextual (maxDischargeDepth := 100) [*]; repeat' first | (simp +contextual (maxDischargeDepth := 100) [*]; done) | split); done)
  | ((simp +contextual (maxDischargeDepth := 100) [*]; (repeat' split) <;> (simp +contextual (maxDischargeDepth := 100) [*]; done)); done)

@[simp ↓] theorem State.loopOff_keeps {qp : List Instr} {qc : Nat} (s : State) (n : Nat) (hs : Keeps qp qc s) :
    Keeps qp qc (State.loopOff s n) := by
  unfold State.loopOff
  first
  | (simp +contextual (maxDischargeDepth := 100) [*]; done)
  | (repeat' split) <;> (simp +contextual (maxDischargeDepth := 100) [*]; done)
  | (dsimp only; (repeat' first | (simp +contextual (maxDischargeDepth := 100) [*]; done) | split); done)
  | ((simp +contextual (maxDischargeDepth := 100) [*]; repeat' first | (simp +contextual (maxDischargeDepth := 100) [*]; done) | split); done)
  | ((simp +contextual (maxDischargeDepth := 100) [*]; (repeat' split) <;> (simp +contextual (maxDischargeDepth := 100) [*]; done)); done)

@[simp ↓] theorem State.lockWatch_keeps {qp : List Instr} {qc : Nat} (s : State) (n : Nat) (hs : Keeps qp qc s) :
    Keeps qp qc (State.lockWatch s n) := by
  unfold State.lockWatch
  first
  | (simp +contextual (maxDischargeDepth := 100) [*]; done)
  | (repeat' split) <;> (simp +contextual (maxDischargeDepth := 100) [*]; done)
  | (dsimp only; (repeat' first | (simp +contextual (maxDischargeDepth := 100) [*]; done) | split); done)
  | ((simp +contextual (maxDischargeDepth := 100) [*]; repeat' first | (simp +contextual (maxDischargeDepth := 100) [*]; done) | split); done)
  | ((simp +contextual (maxDischargeDepth := 100) [*]; (repeat' split) <;> (simp +contextual (maxDischargeDepth := 100) [*]; done)); done)

@[simp ↓] theorem State.furFollow_keeps {qp : List Instr} {qc : Nat} (s : State) (n : Nat) (hs : Keeps qp qc s) :
    Keeps qp qc (State.furFollow s n) := by
  unfold State.furFollow
  first
  | (simp +contextual (maxDischargeDepth := 100) [*]; done)
  | (repeat' split) <;> (simp +contextual (maxDischargeDepth := 100) [*]; done)
  | (dsimp only; (repeat' first | (simp +contextual (maxDischargeDepth := 100) [*]; done) | split); done)
  | ((simp +contextual (maxDischargeDepth := 100) [*]; repeat' first | (simp +contextual (maxDischargeDepth := 100) [*]; done) | split); done)
  | ((simp +contextual (maxDischargeDepth := 100) [*]; (repeat' split) <;> (simp +contextual (maxDischargeDepth := 100) [*]; done)); done)

@[simp ↓] theorem State.srcFix_keeps {qp : List Instr} {qc : Nat} (s : State) (n ang rate : Nat) (hs : Keeps qp qc s) :
    Keeps qp qc (State.srcFix s n ang rate) := by
  unfold State.srcFix
  first
  | (simp +contextual (maxDischargeDepth := 100) [*]; done)
  | (repeat' split) <;> (simp +contextual (maxDischargeDepth := 100) [*]; done)
  | (dsimp only; (repeat' first | (simp +contextual (maxDischargeDepth := 100) [*]; done) | split); done)
  | ((simp +contextual (maxDischargeDepth := 100) [*]; repeat' first | (simp +contextual (maxDischargeDepth := 100) [*]; done) | split); done)
  | ((simp +contextual (maxDischargeDepth := 100) [*]; (repeat' split) <;> (simp +contextual (maxDischargeDepth := 100) [*]; done)); done)

@[simp ↓] theorem State.srcPhasor_keeps {qp : List Instr} {qc : Nat} (s : State) (n amp ang rate : Nat) (hs : Keeps qp qc s) :
    Keeps qp qc (State.srcPhasor s n amp ang rate) := by
  unfold State.srcPhasor
  first
  | (simp +contextual (maxDischargeDepth := 100) [*]; done)
  | (repeat' split) <;> (simp +contextual (maxDischargeDepth := 100) [*]; done)
  | (dsimp only; (repeat' first | (simp +contextual (maxDischargeDepth := 100) [*]; done) | split); done)
  | ((simp +contextual (maxDischargeDepth := 100) [*]; repeat' first | (simp +contextual (maxDischargeDepth := 100) [*]; done) | split); done)
  | ((simp +contextual (maxDischargeDepth := 100) [*]; (repeat' split) <;> (simp +contextual (maxDischargeDepth := 100) [*]; done)); done)

@[simp ↓] theorem State.holdEnter_keeps {qp : List Instr} {qc : Nat} (s : State) (n : Nat) (hs : Keeps qp qc s) :
    Keeps qp qc (State.holdEnter s n) := by
  unfold State.holdEnter
  simp +contextual (maxDischargeDepth := 100) [*]

@[simp ↓] theorem State.furEnable_keeps {qp : List Instr} {qc : Nat} (s : State) (n : Nat) (hs : Keeps qp qc s) :
    Keeps qp qc (State.furEnable s n) := by
  unfold State.furEnable
  simp +contextual (maxDischargeDepth := 100) [*]

@[simp ↓] theorem State.furStop_keeps {qp : List Instr} {qc : Nat} (s : State) (n : Nat) (hs : Keeps qp qc s) :
    Keeps qp qc (State.furStop s n) := by
  unfold State.furStop
  simp +contextual (maxDischargeDepth := 100) [*]

@[simp ↓] theorem State.cycCheck_keeps {qp : List Instr} {qc : Nat} (s : State) (n : Nat) (hs : Keeps qp qc s) :
    Keeps qp qc (State.cycCheck s n) := by
  unfold State.cycCheck
  first
  | (simp +contextual (maxDischargeDepth := 100) [*]; done)
  | (repeat' split) <;> (simp +contextual (maxDischargeDepth := 100) [*]; done)
  | (dsimp only; (repeat' first | (simp +contextual (maxDischargeDepth := 100) [*]; done) | split); done)
  | ((simp +contextual (maxDischargeDepth := 100) [*]; repeat' first | (simp +contextual (maxDischargeDepth := 100) [*]; done) | split); done)
  | ((simp +contextual (maxDischargeDepth := 100) [*]; (repeat' split) <;> (simp +contextual (maxDischargeDepth := 100) [*]; done)); done)

@[simp ↓] theorem State.holdEnd_keeps {qp : List Instr} {qc : Nat} (s : State) (n : Nat) (hs : Keeps qp qc s) :
    Keeps qp qc (State.holdEnd s n) := by
  unfold State.holdEnd
  first
  | (simp +contextual (maxDischargeDepth := 100) [*]; done)
  | (repeat' split) <;> (simp +contextual (maxDischargeDepth := 100) [*]; done)
  | (dsimp only; (repeat' first | (simp +contextual (maxDischargeDepth := 100) [*]; done) | split); done)
  | ((simp +contextual (maxDischargeDepth := 100) [*]; repeat' first | (simp +contextual (maxDischargeDepth := 100) [*]; done) | split); done)
  | ((simp +contextual (maxDischargeDepth := 100) [*]; (repeat' split) <;> (simp +contextual (maxDischargeDepth := 100) [*]; done)); done)

@[simp ↓] theorem State.holdExit_keeps {qp : List Instr} {qc : Nat} (s : State) (n : Nat) (hs : Keeps qp qc s) :
    Keeps qp qc (State.holdExit s n) := by
  unfold State.holdExit
  first
  | (simp +contextual (maxDischargeDepth := 100) [*]; done)
  | (repeat' split) <;> (simp +contextual (maxDischargeDepth := 100) [*]; done)
  | (dsimp only; (repeat' first | (simp +contextual (maxDischargeDepth := 100) [*]; done) | split); done)
  | ((simp +contextual (maxDischargeDepth := 100) [*]; repeat' first | (simp +contextual (maxDischargeDepth := 100) [*]; done) | split); done)
  | ((simp +contextual (maxDischargeDepth := 100) [*]; (repeat' split) <;> (simp +contextual (maxDischargeDepth := 100) [*]; done)); done)

@[simp ↓] theorem State.holdDone_keeps {qp : List Instr} {qc : Nat} (s : State) (n : Nat) (hs : Keeps qp qc s) :
    Keeps qp qc (State.holdDone s n) := by
  unfold State.holdDone
  first
  | (simp +contextual (maxDischargeDepth := 100) [*]; done)
  | (repeat' split) <;> (simp +contextual (maxDischargeDepth := 100) [*]; done)
  | (dsimp only; (repeat' first | (simp +contextual (maxDischargeDepth := 100) [*]; done) | split); done)
  | ((simp +contextual (maxDischargeDepth := 100) [*]; repeat' first | (simp +contextual (maxDischargeDepth := 100) [*]; done) | split); done)
  | ((simp +contextual (maxDischargeDepth := 100) [*]; (repeat' split) <;> (simp +contextual (maxDischargeDepth := 100) [*]; done)); done)

@[simp ↓] theorem State.furSrcWrite_keeps {qp : List Instr} {qc : Nat} (s : State) (n : Nat) (w : Word) (hs : Keeps qp qc s) :
    Keeps qp qc (State.furSrcWrite s n w) := by
  unfold State.furSrcWrite
  simp +contextual (maxDischargeDepth := 100) [*]

@[simp ↓] theorem State.pulseEdge_keeps {qp : List Instr} {qc : Nat} (s : State) (n : Nat) (hs : Keeps qp qc s) :
    Keeps qp qc (State.pulseEdge s n) := by
  unfold State.pulseEdge
  simp +contextual (maxDischargeDepth := 100) [*]

@[simp ↓] theorem State.indexPulse_keeps {qp : List Instr} {qc : Nat} (s : State) (n : Nat) (hs : Keeps qp qc s) :
    Keeps qp qc (State.indexPulse s n) := by
  unfold State.indexPulse
  simp +contextual (maxDischargeDepth := 100) [*]

@[simp ↓] theorem State.countEdge_keeps {qp : List Instr} {qc : Nat} (s : State) (n : Nat) (up : Bool) (hs : Keeps qp qc s) :
    Keeps qp qc (State.countEdge s n up) := by
  unfold State.countEdge
  simp +contextual (maxDischargeDepth := 100) [*]

@[simp ↓] theorem State.furWithSrc_keeps {qp : List Instr} {qc : Nat} (s : State) (src : Nat) (f : State → Nat → State) (hf : ∀ t n, Keeps qp qc t → Keeps qp qc (f t n)) (hs : Keeps qp qc s) :
    Keeps qp qc (State.furWithSrc s src f) := by
  unfold State.furWithSrc
  simp +contextual (maxDischargeDepth := 100) [*]

@[simp ↓] theorem State.forcehSet_keeps {qp : List Instr} {qc : Nat} (s : State) (n : Nat) (hs : Keeps qp qc s) :
    Keeps qp qc (State.forcehSet s n) := by
  unfold State.forcehSet
  first
  | (simp +contextual (maxDischargeDepth := 100) [*]; done)
  | (repeat' split) <;> (simp +contextual (maxDischargeDepth := 100) [*]; done)
  | (dsimp only; (repeat' first | (simp +contextual (maxDischargeDepth := 100) [*]; done) | split); done)
  | ((simp +contextual (maxDischargeDepth := 100) [*]; repeat' first | (simp +contextual (maxDischargeDepth := 100) [*]; done) | split); done)
  | ((simp +contextual (maxDischargeDepth := 100) [*]; (repeat' split) <;> (simp +contextual (maxDischargeDepth := 100) [*]; done)); done)

@[simp ↓] theorem State.forcehClear_keeps {qp : List Instr} {qc : Nat} (s : State) (n : Nat) (hs : Keeps qp qc s) :
    Keeps qp qc (State.forcehClear s n) := by
  unfold State.forcehClear
  first
  | (simp +contextual (maxDischargeDepth := 100) [*]; done)
  | (repeat' split) <;> (simp +contextual (maxDischargeDepth := 100) [*]; done)
  | (dsimp only; (repeat' first | (simp +contextual (maxDischargeDepth := 100) [*]; done) | split); done)
  | ((simp +contextual (maxDischargeDepth := 100) [*]; repeat' first | (simp +contextual (maxDischargeDepth := 100) [*]; done) | split); done)
  | ((simp +contextual (maxDischargeDepth := 100) [*]; (repeat' split) <;> (simp +contextual (maxDischargeDepth := 100) [*]; done)); done)

@[simp ↓] theorem State.claim_keeps {qp : List Instr} {qc : Nat} (s : State) (t : Nat) (hs : Keeps qp qc s) :
    Keeps qp qc (State.claim s t).2 := by
  unfold State.claim
  (repeat' split) <;> simp +contextual (maxDischargeDepth := 100) [*]

@[simp ↓] theorem State.complete_keeps {qp : List Instr} {qc : Nat} (s : State) (t i : Nat) (hs : Keeps qp qc s) :
    Keeps qp qc (State.complete s t i) := by
  unfold State.complete
  simp +contextual (maxDischargeDepth := 100) [*]

@[simp ↓] theorem State.completeAll_keeps {qp : List Instr} {qc : Nat} (s : State) (t : Nat) (hs : Keeps qp qc s) :
    Keeps qp qc (State.completeAll s t) := by
  unfold State.completeAll
  simp +contextual (maxDischargeDepth := 100) [*]

@[simp ↓] theorem State.setChan_keeps {qp : List Instr} {qc : Nat} (s : State) (c : Nat) (h : Chan) (hs : Keeps qp qc s) :
    Keeps qp qc (State.setChan s c h) := by
  unfold State.setChan
  simp +contextual (maxDischargeDepth := 100) [*]

@[simp ↓] theorem State.putExponents_keeps {qp : List Instr} {qc : Nat} (s : State) (c : Nat) (hs : Keeps qp qc s) :
    Keeps qp qc (State.putExponents s c) := by
  unfold State.putExponents
  simp +contextual (maxDischargeDepth := 100) [*]

@[simp ↓] theorem State.shiftWrite_keeps {qp : List Instr} {qc : Nat} (s : State) (c : Nat) (w : Word) (hs : Keeps qp qc s) :
    Keeps qp qc (State.shiftWrite s c w) := by
  unfold State.shiftWrite
  simp +contextual (maxDischargeDepth := 100) [*]

@[simp ↓] theorem State.cmpWrite_keeps {qp : List Instr} {qc : Nat} (s : State) (k r : Nat) (w : Word) (hs : Keeps qp qc s) :
    Keeps qp qc (State.cmpWrite s k r w) := by
  unfold State.cmpWrite
  (repeat' split) <;> simp +contextual (maxDischargeDepth := 100) [*]

@[simp ↓] theorem State.cmpSample_keeps {qp : List Instr} {qc : Nat} (s : State) (k : Nat) (h : List Word) (hs : Keeps qp qc s) :
    Keeps qp qc (State.cmpSample s k h) := by
  unfold State.cmpSample
  simp +contextual (maxDischargeDepth := 100) [*]

@[simp ↓] theorem State.cmpReturn_keeps {qp : List Instr} {qc : Nat} (s : State) (k : Nat) (hs : Keeps qp qc s) :
    Keeps qp qc (State.cmpReturn s k) := by
  unfold State.cmpReturn
  simp +contextual (maxDischargeDepth := 100) [*]

@[simp ↓] theorem State.tripPush_keeps {qp : List Instr} {qc : Nat} (s : State) (k : Nat) (ts : List Word) (hs : Keeps qp qc s) :
    Keeps qp qc (State.tripPush s k ts) := by
  unfold State.tripPush
  dsimp only
  split
  · next h => exact State.took_keeps _ _ _ (KeepsP.trip hs h)
  · exact State.inc_keeps _ _ (State.flag_keeps _ _ (KeepsP.trip hs (List.length_take_le _ _)))

@[simp ↓] theorem State.tripRead_keeps {qp : List Instr} {qc : Nat} (s : State) (o k : Nat) (hs : Keeps qp qc s) :
    Keeps qp qc (State.tripRead s o k).2 := by
  have hc := hs.trip_le
  unfold State.tripRead
  dsimp only
  split
  · split
    · exact hs
    · next n ts q h => exact KeepsP.trip (trip' := q) hs (by rw [h] at hc; simp at hc; omega)
  · repeat' first | ((simp +contextual (maxDischargeDepth := 100) [*]); done) | split

@[simp ↓] theorem State.setField_keeps {qp : List Instr} {qc : Nat} (s : State) (f : Nat) (x : Field) (hs : Keeps qp qc s) :
    Keeps qp qc (State.setField s f x) := by
  unfold State.setField
  simp +contextual (maxDischargeDepth := 100) [*]

@[simp ↓] theorem State.setBin_keeps {qp : List Instr} {qc : Nat} (s : State) (b : Nat) (z : Int) (hs : Keeps qp qc s) :
    Keeps qp qc (State.setBin s b z) := by
  unfold State.setBin
  simp +contextual (maxDischargeDepth := 100) [*]

@[simp ↓] theorem State.granaryRead_keeps {qp : List Instr} {qc : Nat} (s : State) (o b w : Nat) (hs : Keeps qp qc s) :
    Keeps qp qc (State.granaryRead s o b w).2 := by
  unfold State.granaryRead
  simp +contextual (maxDischargeDepth := 100) [*]

@[simp ↓] theorem State.snapRead_keeps {qp : List Instr} {qc : Nat} (s : State) (c o k w : Nat) (hs : Keeps qp qc s) :
    Keeps qp qc (State.snapRead s c o k w).2 := by
  unfold State.snapRead
  simp +contextual (maxDischargeDepth := 100) [*]

@[simp ↓] theorem State.scntRead_keeps {qp : List Instr} {qc : Nat} (s : State) (o k : Nat) (hs : Keeps qp qc s) :
    Keeps qp qc (State.scntRead s o k).2 := by
  unfold State.scntRead
  (repeat' split) <;> simp +contextual (maxDischargeDepth := 100) [*]

@[simp ↓] theorem State.progWrite_keeps {qp : List Instr} {qc : Nat} (s : State) (b orig : Nat) (set thr : Bool) (z : Int) (hs : Keeps qp qc s) :
    Keeps qp qc (State.progWrite s b orig set thr z) := by
  unfold State.progWrite
  simp +contextual (maxDischargeDepth := 100) [*]

@[simp ↓] theorem State.snapRequest_keeps {qp : List Instr} {qc : Nat} (s : State) (fields : Nat) (aligned : Bool) (hs : Keeps qp qc s) :
    Keeps qp qc (State.snapRequest s fields aligned).2 := by
  unfold State.snapRequest
  dsimp only
  cases s.snaps.filter _ with
  | cons q qs => exact hs
  | nil =>
    refine Keeps_ite2 ?_ ?_
    · exact State.inc_keeps _ _ (State.flag_keeps _ _ hs)
    · exact hs

@[simp ↓] theorem State.ovInc_keeps {qp : List Instr} {qc : Nat} (s : State) (f : Fld) (bit : Nat) (hs : Keeps qp qc s) :
    Keeps qp qc (State.ovInc s f bit) := by
  unfold State.ovInc
  simp +contextual (maxDischargeDepth := 100) [*]

@[simp ↓] theorem State.setHopQ_keeps {qp : List Instr} {qc : Nat} (s : State) (l : Nat) (q : List HopE) (hs : Keeps qp qc s) :
    Keeps qp qc (State.setHopQ s l q) := by
  unfold State.setHopQ
  simp +contextual (maxDischargeDepth := 100) [*]

@[simp ↓] theorem State.hopPush_keeps {qp : List Instr} {qc : Nat} (s : State) (rank l : Nat) (e : HopE) (gapped : Bool) (hs : Keeps qp qc s) :
    Keeps qp qc (State.hopPush s rank l e gapped) := by
  unfold State.hopPush
  first
  | (simp +contextual (maxDischargeDepth := 100) [*]; done)
  | (repeat' split) <;> (simp +contextual (maxDischargeDepth := 100) [*]; done)
  | (dsimp only; (repeat' first | (simp +contextual (maxDischargeDepth := 100) [*]; done) | split); done)
  | ((simp +contextual (maxDischargeDepth := 100) [*]; repeat' first | (simp +contextual (maxDischargeDepth := 100) [*]; done) | split); done)
  | ((simp +contextual (maxDischargeDepth := 100) [*]; (repeat' split) <;> (simp +contextual (maxDischargeDepth := 100) [*]; done)); done)

@[simp ↓] theorem State.hopPop_keeps {qp : List Instr} {qc : Nat} (s : State) (l : Nat) (q : List HopE) (hs : Keeps qp qc s) :
    Keeps qp qc (State.hopPop s l q) := by
  unfold State.hopPop
  first
  | (simp +contextual (maxDischargeDepth := 100) [*]; done)
  | (repeat' split) <;> (simp +contextual (maxDischargeDepth := 100) [*]; done)
  | (dsimp only; (repeat' first | (simp +contextual (maxDischargeDepth := 100) [*]; done) | split); done)
  | ((simp +contextual (maxDischargeDepth := 100) [*]; repeat' first | (simp +contextual (maxDischargeDepth := 100) [*]; done) | split); done)
  | ((simp +contextual (maxDischargeDepth := 100) [*]; (repeat' split) <;> (simp +contextual (maxDischargeDepth := 100) [*]; done)); done)

@[simp ↓] theorem State.hopRouted_keeps {qp : List Instr} {qc : Nat} (s : State) (route kind key tag : Nat) (v : Word) (hs : Keeps qp qc s) :
    Keeps qp qc (State.hopRouted s route kind key tag v) := by
  unfold State.hopRouted
  simp +contextual (maxDischargeDepth := 100) [*]

@[simp ↓] theorem State.hopStream_keeps {qp : List Instr} {qc : Nat} (s : State) (kind ch c : Nat) (v : Word) (hs : Keeps qp qc s) :
    Keeps qp qc (State.hopStream s kind ch c v) := by
  unfold State.hopStream
  simp +contextual (maxDischargeDepth := 100) [*]

@[simp ↓] theorem State.hopResampled_keeps {qp : List Instr} {qc : Nat} (s : State) (n ch k cyc : Nat) (v : Word) (hs : Keeps qp qc s) :
    Keeps qp qc (State.hopResampled s n ch k cyc v) := by
  unfold State.hopResampled
  simp +contextual (maxDischargeDepth := 100) [*]

@[simp ↓] theorem State.hopGleaner_keeps {qp : List Instr} {qc : Nat} (s : State) (inj : Bool) (e code c r : Nat) (hs : Keeps qp qc s) :
    Keeps qp qc (State.hopGleaner s inj e code c r) := by
  unfold State.hopGleaner
  simp +contextual (maxDischargeDepth := 100) [*]

@[simp ↓] theorem State.hopRms_keeps {qp : List Instr} {qc : Nat} (s : State) (m fw : Nat) (half : Bool) (cyc : Nat) (v : Word) (hs : Keeps qp qc s) :
    Keeps qp qc (State.hopRms s m fw half cyc v) := by
  unfold State.hopRms
  simp +contextual (maxDischargeDepth := 100) [*]

@[simp ↓] theorem State.hopThresher_keeps {qp : List Instr} {qc : Nat} (s : State) (poster : Option Nat) (suit state err cnt addr : Nat) (hs : Keeps qp qc s) :
    Keeps qp qc (State.hopThresher s poster suit state err cnt addr) := by
  unfold State.hopThresher
  simp +contextual (maxDischargeDepth := 100) [*]

@[simp ↓] theorem State.quotaWrite_keeps {qp : List Instr} {qc : Nat} (s : State) (l : Nat) (w : Word) (hs : Keeps qp qc s) :
    Keeps qp qc (State.quotaWrite s l w) := by
  unfold State.quotaWrite
  simp +contextual (maxDischargeDepth := 100) [*]

@[simp ↓] theorem State.glnRegNext_keeps {qp : List Instr} {qc : Nat} (s : State) (hs : Keeps qp qc s) :
    Keeps qp qc (State.glnRegNext s) := by
  unfold State.glnRegNext
  dsimp only
  repeat' first | (simp +contextual (maxDischargeDepth := 100) [*]; done) | split

@[simp ↓] theorem State.glnRegBegin_keeps {qp : List Instr} {qc : Nat} (s : State) (hs : Keeps qp qc s) :
    Keeps qp qc (State.glnRegBegin s) := by
  unfold State.glnRegBegin
  first
  | (simp +contextual (maxDischargeDepth := 100) [*]; done)
  | (repeat' split) <;> (simp +contextual (maxDischargeDepth := 100) [*]; done)
  | (dsimp only; (repeat' first | (simp +contextual (maxDischargeDepth := 100) [*]; done) | split); done)
  | ((simp +contextual (maxDischargeDepth := 100) [*]; repeat' first | (simp +contextual (maxDischargeDepth := 100) [*]; done) | split); done)
  | ((simp +contextual (maxDischargeDepth := 100) [*]; (repeat' split) <;> (simp +contextual (maxDischargeDepth := 100) [*]; done)); done)

@[simp ↓] theorem State.glnRegStart_keeps {qp : List Instr} {qc : Nat} (s : State) (hs : Keeps qp qc s) :
    Keeps qp qc (State.glnRegStart s) := by
  unfold State.glnRegStart
  simp +contextual (maxDischargeDepth := 100) [*]

@[simp ↓] theorem State.glnInject_keeps {qp : List Instr} {qc : Nat} (s : State) (hs : Keeps qp qc s) :
    Keeps qp qc (State.glnInject s) := by
  unfold State.glnInject
  simp +contextual (maxDischargeDepth := 100) [*]

@[simp ↓] theorem State.glnCompare_keeps {qp : List Instr} {qc : Nat} (s : State) (w code x : Nat) (hs : Keeps qp qc s) :
    Keeps qp qc (State.glnCompare s w code x) := by
  unfold State.glnCompare
  simp +contextual (maxDischargeDepth := 100) [*]

@[simp ↓] theorem State.glnSeqWrite_keeps {qp : List Instr} {qc : Nat} (s : State) (a : Nat) (w : Word) (hs : Keeps qp qc s) :
    Keeps qp qc (State.glnSeqWrite s a w) := by
  unfold State.glnSeqWrite
  simp +contextual (maxDischargeDepth := 100) [*]

@[simp ↓] theorem State.glnCmpWrite_keeps {qp : List Instr} {qc : Nat} (s : State) (w r : Nat) (v : Word) (hs : Keeps qp qc s) :
    Keeps qp qc (State.glnCmpWrite s w r v) := by
  unfold State.glnCmpWrite
  (repeat' split) <;> simp +contextual (maxDischargeDepth := 100) [*]

@[simp ↓] theorem State.glnCtlWrite_keeps {qp : List Instr} {qc : Nat} (s : State) (w : Word) (hs : Keeps qp qc s) :
    Keeps qp qc (State.glnCtlWrite s w) := by
  unfold State.glnCtlWrite
  simp +contextual (maxDischargeDepth := 100) [*]

@[simp ↓] theorem State.setSilo_keeps {qp : List Instr} {qc : Nat} (s : State) (b : Nat) (x : Silo) (hs : Keeps qp qc s) :
    Keeps qp qc (State.setSilo s b x) := by
  unfold State.setSilo
  simp +contextual (maxDischargeDepth := 100) [*]

@[simp ↓] theorem State.siloRecord_keeps {qp : List Instr} {qc : Nat} (s : State) (b : Nat) (hs : Keeps qp qc s) :
    Keeps qp qc (State.siloRecord s b) := by
  unfold State.siloRecord
  simp +contextual (maxDischargeDepth := 100) [*]

@[simp ↓] theorem State.siloTrigger_keeps {qp : List Instr} {qc : Nat} (s : State) (fuel_ : Nat) (b_ : Nat) (cause_ : Nat) (num_ : Nat) (inst_ : Nat) (back_ : Bool) (hs : Keeps qp qc s) :
    Keeps qp qc (State.siloTrigger s fuel_ b_ cause_ num_ inst_ back_) := by
  induction fuel_ generalizing s b_ cause_ num_ inst_ back_ with
  | zero => exact hs
  | succ n ih =>
    unfold State.siloTrigger
    dsimp only
    split
    · (simp +contextual (maxDischargeDepth := 100) [*])
    · split
      · repeat' first | ((simp +contextual (maxDischargeDepth := 100) [*]); done) | split
      · refine Keeps_foldl (fun t x ht => ih t _ _ _ _ _ ht) ?_
        (simp +contextual (maxDischargeDepth := 100) [*])

@[simp ↓] theorem State.siloArm_keeps {qp : List Instr} {qc : Nat} (s : State) (b : Nat) (hs : Keeps qp qc s) :
    Keeps qp qc (State.siloArm s b) := by
  unfold State.siloArm
  simp +contextual (maxDischargeDepth := 100) [*]

@[simp ↓] theorem State.siloStop_keeps {qp : List Instr} {qc : Nat} (s : State) (b : Nat) (hs : Keeps qp qc s) :
    Keeps qp qc (State.siloStop s b) := by
  unfold State.siloStop
  simp +contextual (maxDischargeDepth := 100) [*]

@[simp ↓] theorem State.siloPut_keeps {qp : List Instr} {qc : Nat} (s : State) (b j k n v fl : Nat) (hs : Keeps qp qc s) :
    Keeps qp qc (State.siloPut s b j k n v fl) := by
  unfold State.siloPut
  simp +contextual (maxDischargeDepth := 100) [*]

@[simp ↓] theorem State.siloNext_keeps {qp : List Instr} {qc : Nat} (s : State) (b j k v fl : Nat) (hs : Keeps qp qc s) :
    Keeps qp qc (State.siloNext s b j k v fl) := by
  unfold State.siloNext
  simp +contextual (maxDischargeDepth := 100) [*]

@[simp ↓] theorem State.siloSample_keeps {qp : List Instr} {qc : Nat} (s : State) (kind k v fl : Nat) (group : Bool) (hs : Keeps qp qc s) :
    Keeps qp qc (State.siloSample s kind k v fl group) := by
  unfold State.siloSample
  simp +contextual (maxDischargeDepth := 100) [*]

@[simp ↓] theorem State.siloCfgWrite_keeps {qp : List Instr} {qc : Nat} (s : State) (b a : Nat) (w m : Word) (hs : Keeps qp qc s) :
    Keeps qp qc (State.siloCfgWrite s b a w m) := by
  unfold State.siloCfgWrite
  simp +contextual (maxDischargeDepth := 100) [*]

theorem State.freeWords_keeps' {qp : List Instr} {qc : Nat} (s : State) (n : Nat) (hs : Keeps qp qc s) :
    Keeps qp qc { s with fresh := s.fresh + n } := by
  simp +contextual (maxDischargeDepth := 100) [*]

@[simp ↓] theorem State.wfRecord_keeps {qp : List Instr} {qc : Nat} (s : State) (b j k : Nat) (hs : Keeps qp qc s) :
    Keeps qp qc (State.wfRecord s b j k).2 := by
  have hf : ∀ n, Keeps qp qc { s with fresh := s.fresh + n } := fun n => State.freeWords_keeps' s n hs
  unfold State.wfRecord
  dsimp only
  repeat' first | exact hs | exact hf _ | exact State.draw_keeps _ hs | split

@[simp ↓] theorem State.wfWrite_keeps {qp : List Instr} {qc : Nat} (s : State) (b : Nat) (y0 : List (Nat × Nat)) (y1 : Nat) (hs : Keeps qp qc s) :
    Keeps qp qc (State.wfWrite s b y0 y1) := by
  induction y0 generalizing s y1 with
  | nil => unfold State.wfWrite; (simp +contextual (maxDischargeDepth := 100) [*])
  | cons e ws ih =>
    obtain ⟨k, j⟩ := e
    unfold State.wfWrite
    dsimp only
    split
    · (simp +contextual (maxDischargeDepth := 100) [*])
    · exact ih _ _ (Keeps_foldl (fun t x ht => State.ffStore_keeps _ _ _ _ ht) (State.wfRecord_keeps _ _ _ _ hs))

@[simp ↓] theorem State.setLane_keeps {qp : List Instr} {qc : Nat} (s : State) (k : Nat) (x : Option Lane) (hs : Keeps qp qc s) :
    Keeps qp qc (State.setLane s k x) := by
  unfold State.setLane
  simp +contextual (maxDischargeDepth := 100) [*]

@[simp ↓] theorem State.thrWord7_keeps {qp : List Instr} {qc : Nat} (s : State) (addr state err cnt : Nat) (hs : Keeps qp qc s) :
    Keeps qp qc (State.thrWord7 s addr state err cnt) := by
  unfold State.thrWord7
  simp +contextual (maxDischargeDepth := 100) [*]

@[simp ↓] theorem State.thrDone_keeps {qp : List Instr} {qc : Nat} (s : State) (addr suit : Nat) (poster : Option Nat) (w0 state err cnt : Nat) (hs : Keeps qp qc s) :
    Keeps qp qc (State.thrDone s addr suit poster w0 state err cnt) := by
  unfold State.thrDone
  simp +contextual (maxDischargeDepth := 100) [*]

@[simp ↓] theorem State.jobEnd_keeps {qp : List Instr} {qc : Nat} (s : State) (j : Job) (state err : Nat) (hs : Keeps qp qc s) :
    Keeps qp qc (State.jobEnd s j state err) := by
  unfold State.jobEnd
  exact State.thrDone_keeps _ _ _ _ _ _ _ _ (KeepsP.thr hs (Nat.le_trans (List.length_filter_le _ _) hs.thr_le))

@[simp ↓] theorem State.thrStart_keeps {qp : List Instr} {qc : Nat} (s : State) (lane : Option Nat) (job cost : Nat) (data : List Nat) (hs : Keeps qp qc s) :
    Keeps qp qc (State.thrStart s lane job cost data) := by
  unfold State.thrStart
  simp +contextual (maxDischargeDepth := 100) [*]

@[simp ↓] theorem State.jobSet_keeps {qp : List Instr} {qc : Nat} (s : State) (j k : Job) (hs : Keeps qp qc s) :
    Keeps qp qc (State.jobSet s j k) := by
  unfold State.jobSet
  exact KeepsP.thr hs (by simpa using hs.thr_le)

@[simp ↓] theorem State.freeWords_keeps {qp : List Instr} {qc : Nat} (s : State) (n : Nat) (hs : Keeps qp qc s) :
    Keeps qp qc (State.freeWords s n).2 := by
  unfold State.freeWords
  simp +contextual (maxDischargeDepth := 100) [*]

@[simp ↓] theorem State.cycWords_keeps {qp : List Instr} {qc : Nat} (s : State) (n cyc : Nat) (hs : Keeps qp qc s) :
    Keeps qp qc (State.cycWords s n cyc).2 := by
  unfold State.cycWords
  (repeat' split) <;> simp +contextual (maxDischargeDepth := 100) [*]

@[simp ↓] theorem State.storeWords_keeps {qp : List Instr} {qc : Nat} (s : State) (a : Nat) (ws : List Word) (hs : Keeps qp qc s) :
    Keeps qp qc (State.storeWords s a ws) := by
  unfold State.storeWords
  simp +contextual (maxDischargeDepth := 100) [*]

@[simp ↓] theorem State.harmHeader_keeps {qp : List Instr} {qc : Nat} (s : State) (ws : List Nat) (hs : Keeps qp qc s) :
    Keeps qp qc (State.harmHeader s ws) := by
  unfold State.harmHeader
  simp +contextual (maxDischargeDepth := 100) [*]

@[simp ↓] theorem State.harmNext_keeps {qp : List Instr} {qc : Nat} (s : State) (j : Job) (hs : Keeps qp qc s) :
    Keeps qp qc (State.harmNext s j) := by
  unfold State.harmNext
  (repeat' split) <;> simp +contextual (maxDischargeDepth := 100) [*]

@[simp ↓] theorem State.foob_keeps {qp : List Instr} {qc : Nat} (s : State) (ws : List Nat) (hs : Keeps qp qc s) :
    Keeps qp qc (State.foob s ws).2 := by
  unfold State.foob
  first
  | (simp +contextual (maxDischargeDepth := 100) [*]; done)
  | (repeat' split) <;> (simp +contextual (maxDischargeDepth := 100) [*]; done)
  | (dsimp only; (repeat' first | (simp +contextual (maxDischargeDepth := 100) [*]; done) | split); done)
  | ((simp +contextual (maxDischargeDepth := 100) [*]; repeat' first | (simp +contextual (maxDischargeDepth := 100) [*]; done) | split); done)
  | ((simp +contextual (maxDischargeDepth := 100) [*]; (repeat' split) <;> (simp +contextual (maxDischargeDepth := 100) [*]; done)); done)

@[simp ↓] theorem State.binResult_keeps {qp : List Instr} {qc : Nat} (s : State) (dest b gsc : Nat) (v : Word) (hs : Keeps qp qc s) :
    Keeps qp qc (State.binResult s dest b gsc v) := by
  unfold State.binResult
  (repeat' split) <;> simp +contextual (maxDischargeDepth := 100) [*]

@[simp ↓] theorem State.binResults_keeps {qp : List Instr} {qc : Nat} (s : State) (dest b gsc : Nat) (vs : List Word) (hs : Keeps qp qc s) :
    Keeps qp qc (State.binResults s dest b gsc vs) := by
  unfold State.binResults
  simp +contextual (maxDischargeDepth := 100) [*]

@[simp ↓] theorem State.harmWrite_keeps {qp : List Instr} {qc : Nat} (s : State) (j : Job) (c : Nat) (data : List Nat) (hs : Keeps qp qc s) :
    Keeps qp qc (State.harmWrite s j c data) := by
  unfold State.harmWrite
  simp +contextual (maxDischargeDepth := 100) [*]

@[simp ↓] theorem State.jobTake_keeps {qp : List Instr} {qc : Nat} (s : State) (j : Job) (hs : Keeps qp qc s) :
    Keeps qp qc (State.jobTake s j) := by
  have h2 : Keeps qp qc { s with thrQ := s.thrQ.filter (· ≠ j) } :=
    KeepsP.thr hs (Nat.le_trans (List.length_filter_le _ _) hs.thr_le)
  unfold State.jobTake
  dsimp only
  split
  · (simp +contextual (maxDischargeDepth := 100) [*])
  · split
    · (simp +contextual (maxDischargeDepth := 100) [*])
    · exact State.thrWord7_keeps _ _ _ _ _ (State.wr_keeps _ _ _ (State.wr_keeps _ _ _ (State.wr_keeps _ _ _ (State.setLane_keeps _ _ _ h2))))
    · (simp +contextual (maxDischargeDepth := 100) [*])

@[simp ↓] theorem State.jobWakes_keeps {qp : List Instr} {qc : Nat} (s : State) (hs : Keeps qp qc s) :
    Keeps qp qc (State.jobWakes s) := by
  unfold State.jobWakes
  exact KeepsP.thr hs (by simpa using hs.thr_le)

@[simp ↓] theorem State.thrChoose_keeps {qp : List Instr} {qc : Nat} (s : State) (fuel_ : Nat) (hs : Keeps qp qc s) :
    Keeps qp qc (State.thrChoose s fuel_) := by
  induction fuel_ generalizing s with
  | zero => exact hs
  | succ n ih =>
    unfold State.thrChoose
    dsimp only
    repeat' first | ((simp +contextual (maxDischargeDepth := 100) [*]); done) | split

@[simp ↓] theorem State.thrNext_keeps {qp : List Instr} {qc : Nat} (s : State) (hs : Keeps qp qc s) :
    Keeps qp qc (State.thrNext s) := by
  unfold State.thrNext
  simp +contextual (maxDischargeDepth := 100) [*]

@[simp ↓] theorem State.laneRecord_keeps {qp : List Instr} {qc : Nat} (s : State) (k : Nat) (l : Lane) (hs : Keeps qp qc s) :
    Keeps qp qc (State.laneRecord s k l) := by
  unfold State.laneRecord
  simp +contextual (maxDischargeDepth := 100) [*]

@[simp ↓] theorem State.thrFinish_keeps {qp : List Instr} {qc : Nat} (s : State) (r : ThrRun) (hs : Keeps qp qc s) :
    Keeps qp qc (State.thrFinish s r) := by
  unfold State.thrFinish
  dsimp only
  repeat' first | (simp +contextual (maxDischargeDepth := 100) [*]; done) | split

@[simp ↓] theorem State.harmLast_keeps {qp : List Instr} {qc : Nat} (s : State) (hs : Keeps qp qc s) :
    Keeps qp qc (State.harmLast s) := by
  unfold State.harmLast
  (repeat' split) <;> simp +contextual (maxDischargeDepth := 100) [*]

@[simp ↓] theorem State.thrFurrowOff_keeps {qp : List Instr} {qc : Nat} (s : State) (n : Nat) (hs : Keeps qp qc s) :
    Keeps qp qc (State.thrFurrowOff s n) := by
  unfold State.thrFurrowOff
  simp +contextual (maxDischargeDepth := 100) [*]

@[simp ↓] theorem State.setThrRes_keeps {qp : List Instr} {qc : Nat} (s : State) (o r : Nat) (hs : Keeps qp qc s) :
    Keeps qp qc (State.setThrRes s o r) := by
  unfold State.setThrRes
  simp +contextual (maxDischargeDepth := 100) [*]

@[simp ↓] theorem State.thrPost_keeps {qp : List Instr} {qc : Nat} (s : State) (o suit : Nat) (poster : Option Nat) (a : Nat) (hs : Keeps qp qc s) :
    Keeps qp qc (State.thrPost s o suit poster a).2 := by
  have hq := hs.thr_le
  unfold State.thrPost
  dsimp only
  split
  · (simp +contextual (maxDischargeDepth := 100) [*])
  · split
    · next h =>
      exact State.thrNext_keeps _ (State.setThrRes_keeps _ _ _ (State.thrWord7_keeps _ _ _ _ _ (KeepsP.thr hs (by simp; omega))))
    · split
      · next k hk =>
        have hm := shedJob_mem hk
        have hl : (s.thrQ.filter fun x => decide (x ≠ k)).length < s.thrQ.length :=
          List.length_filter_lt_length_iff_exists.2 ⟨k, hm, by simp⟩
        have hd : Keeps qp qc (((s.jobEnd k 6 0).ovInc THR_SHED_V 3).flag THR_STAT_SHED) := by (simp +contextual (maxDischargeDepth := 100) [*])
        exact State.thrNext_keeps _ (State.setThrRes_keeps _ _ _ (State.thrWord7_keeps _ _ _ _ _ (KeepsP.thr hd (by rw [List.length_append, List.length_singleton]; exact Nat.lt_of_lt_of_le hl hs.thr_le))))
      · (simp +contextual (maxDischargeDepth := 100) [*])

@[simp ↓] theorem State.thrCancel_keeps {qp : List Instr} {qc : Nat} (s : State) (a : Nat) (hs : Keeps qp qc s) :
    Keeps qp qc (State.thrCancel s a) := by
  unfold State.thrCancel
  (repeat' split) <;> simp +contextual (maxDischargeDepth := 100) [*]

@[simp ↓] theorem State.laneSample_keeps {qp : List Instr} {qc : Nat} (s : State) (c : Nat) (w : Word) (hs : Keeps qp qc s) :
    Keeps qp qc (State.laneSample s c w) := by
  unfold State.laneSample
  (repeat' split) <;> simp +contextual (maxDischargeDepth := 100) [*]

end Sys2Proof.Machine
end

