-- ==== Sys2Proof/Laws/KeepStore.lean ====
section
/-!
SUPPORT. What every shared operation keeps: memory and registers canonical, the command queue as it is, a clock that
never runs back, no queue past its depth. Here: hands, tally, barn and crib, timebases and hedges.
-/
set_option linter.all false
namespace Sys2Proof.Machine

@[simp ↓] theorem State.setHand_keeps {qp : List Instr} {qc : Nat} (s : State) (p h : Nat) (x : Hand) (hs : Keeps qp qc s) :
    Keeps qp qc (State.setHand s p h x) := by
  unfold State.setHand
  simp +contextual (maxDischargeDepth := 100) [*]

@[simp ↓] theorem State.setPlough_keeps {qp : List Instr} {qc : Nat} (s : State) (p : Nat) (x : Plough) (hs : Keeps qp qc s) :
    Keeps qp qc (State.setPlough s p x) := by
  unfold State.setPlough
  simp +contextual (maxDischargeDepth := 100) [*]

@[simp ↓] theorem State.setLogi_keeps {qp : List Instr} {qc : Nat} (s : State) (l : Nat) (x : Logi) (hs : Keeps qp qc s) :
    Keeps qp qc (State.setLogi s l x) := by
  unfold State.setLogi
  simp +contextual (maxDischargeDepth := 100) [*]

@[simp ↓] theorem State.handIdle_keeps {qp : List Instr} {qc : Nat} (s : State) (p h : Nat) (hs : Keeps qp qc s) :
    Keeps qp qc (State.handIdle s p h) := by
  unfold State.handIdle
  simp +contextual (maxDischargeDepth := 100) [*]

@[simp ↓] theorem State.handsIdle_keeps {qp : List Instr} {qc : Nat} (s : State) (p : Nat) (hs : Keeps qp qc s) :
    Keeps qp qc (State.handsIdle s p) := by
  unfold State.handsIdle
  simp +contextual (maxDischargeDepth := 100) [*]

@[simp ↓] theorem State.startReq_keeps {qp : List Instr} {qc : Nat} (s : State) (l vec word : Nat) (hs : Keeps qp qc s) :
    Keeps qp qc (State.startReq s l vec word).2 := by
  unfold State.startReq
  simp +contextual (maxDischargeDepth := 100) [*]

@[simp ↓] theorem State.startOwn_keeps {qp : List Instr} {qc : Nat} (s : State) (l vec word : Nat) (hs : Keeps qp qc s) :
    Keeps qp qc (State.startOwn s l vec word) := by
  unfold State.startOwn
  simp +contextual (maxDischargeDepth := 100) [*]

@[simp ↓] theorem State.v15Place_keeps {qp : List Instr} {qc : Nat} (s : State) (l : Nat) (hs : Keeps qp qc s) :
    Keeps qp qc (State.v15Place s l) := by
  unfold State.v15Place
  simp +contextual (maxDischargeDepth := 100) [*]

@[simp ↓] theorem State.startTaken_keeps {qp : List Instr} {qc : Nat} (s : State) (l : Nat) (r : StartReq) (hs : Keeps qp qc s) :
    Keeps qp qc (State.startTaken s l r) := by
  unfold State.startTaken
  simp +contextual (maxDischargeDepth := 100) [*]

@[simp ↓] theorem State.raise_keeps {qp : List Instr} {qc : Nat} (s : State) (p h pc cause : Nat) (hs : Keeps qp qc s) :
    Keeps qp qc (State.raise s p h pc cause) := by
  unfold State.raise
  simp +contextual (maxDischargeDepth := 100) [*]

@[simp ↓] theorem State.clearTile_keeps {qp : List Instr} {qc : Nat} (s : State) (f : Nat) (hs : Keeps qp qc s) : Keeps qp qc (State.clearTile s f) :=
  ⟨Sparse.filter_wf _ hs.1, hs.2⟩

@[simp ↓] theorem State.swapGo_keeps {qp : List Instr} {qc : Nat} (s : State) (l p f : Nat) (hs : Keeps qp qc s) :
    Keeps qp qc (State.swapGo s l p f) := by
  unfold State.swapGo
  first
  | (simp +contextual (maxDischargeDepth := 100) [*]; done)
  | (repeat' split) <;> (simp +contextual (maxDischargeDepth := 100) [*]; done)
  | (dsimp only; (repeat' first | (simp +contextual (maxDischargeDepth := 100) [*]; done) | split); done)
  | ((simp +contextual (maxDischargeDepth := 100) [*]; repeat' first | (simp +contextual (maxDischargeDepth := 100) [*]; done) | split); done)
  | ((simp +contextual (maxDischargeDepth := 100) [*]; (repeat' split) <;> (simp +contextual (maxDischargeDepth := 100) [*]; done)); done)

@[simp ↓] theorem State.drained_keeps {qp : List Instr} {qc : Nat} (s : State) (p : Nat) (hs : Keeps qp qc s) :
    Keeps qp qc (State.drained s p) := by
  unfold State.drained
  first
  | (simp +contextual (maxDischargeDepth := 100) [*]; done)
  | (repeat' split) <;> (simp +contextual (maxDischargeDepth := 100) [*]; done)
  | (dsimp only; (repeat' first | (simp +contextual (maxDischargeDepth := 100) [*]; done) | split); done)
  | ((simp +contextual (maxDischargeDepth := 100) [*]; repeat' first | (simp +contextual (maxDischargeDepth := 100) [*]; done) | split); done)
  | ((simp +contextual (maxDischargeDepth := 100) [*]; (repeat' split) <;> (simp +contextual (maxDischargeDepth := 100) [*]; done)); done)

@[simp ↓] theorem State.drainFor_keeps {qp : List Instr} {qc : Nat} (s : State) (l p k st t : Nat) (hs : Keeps qp qc s) :
    Keeps qp qc (State.drainFor s l p k st t) := by
  unfold State.drainFor
  first
  | (simp +contextual (maxDischargeDepth := 100) [*]; done)
  | (repeat' split) <;> (simp +contextual (maxDischargeDepth := 100) [*]; done)
  | (dsimp only; (repeat' first | (simp +contextual (maxDischargeDepth := 100) [*]; done) | split); done)
  | ((simp +contextual (maxDischargeDepth := 100) [*]; repeat' first | (simp +contextual (maxDischargeDepth := 100) [*]; done) | split); done)
  | ((simp +contextual (maxDischargeDepth := 100) [*]; (repeat' split) <;> (simp +contextual (maxDischargeDepth := 100) [*]; done)); done)

@[simp ↓] theorem State.restart_keeps {qp : List Instr} {qc : Nat} (s : State) (l : Nat) (hs : Keeps qp qc s) :
    Keeps qp qc (State.restart s l) := by
  unfold State.restart
  split <;> simp [*]

@[simp ↓] theorem State.swapPlough_keeps {qp : List Instr} {qc : Nat} (s : State) (l p f : Nat) (hs : Keeps qp qc s) :
    Keeps qp qc (State.swapPlough s l p f) := by
  unfold State.swapPlough
  simp +contextual (maxDischargeDepth := 100) [*]

@[simp ↓] theorem State.expire_keeps {qp : List Instr} {qc : Nat} (s : State) (l : Nat) (hs : Keeps qp qc s) :
    Keeps qp qc (State.expire s l) := by
  unfold State.expire
  dsimp only
  repeat' first | (simp +contextual (maxDischargeDepth := 100) [*]; done) | split

@[simp ↓] theorem State.regRefuse_keeps {qp : List Instr} {qc : Nat} (s : State) (orig a : Nat) (hs : Keeps qp qc s) :
    Keeps qp qc (State.regRefuse s orig a) := by
  unfold State.regRefuse
  simp +contextual (maxDischargeDepth := 100) [*]

@[simp ↓] theorem State.kick_keeps {qp : List Instr} {qc : Nat} (s : State) (o : Orig) (l : Nat) (w : Word) (hs : Keeps qp qc s) :
    Keeps qp qc (State.kick s o l w).2 := by
  unfold State.kick
  (repeat' split) <;> simp +contextual (maxDischargeDepth := 100) [*]

@[simp ↓] theorem State.plgCmd_keeps {qp : List Instr} {qc : Nat} (s : State) (o : Orig) (w : Word) (hs : Keeps qp qc s) :
    Keeps qp qc (State.plgCmd s o w).2 := by
  unfold State.plgCmd
  dsimp only
  repeat' first | (simp +contextual (maxDischargeDepth := 100) [*]; done) | split

@[simp ↓] theorem State.setStartRes_keeps {qp : List Instr} {qc : Nat} (s : State) (o r : Nat) (hs : Keeps qp qc s) :
    Keeps qp qc (State.setStartRes s o r) := by
  unfold State.setStartRes
  simp +contextual (maxDischargeDepth := 100) [*]

@[simp ↓] theorem State.plgStart_keeps {qp : List Instr} {qc : Nat} (s : State) (o : Orig) (w : Word) (hs : Keeps qp qc s) :
    Keeps qp qc (State.plgStart s o w) := by
  unfold State.plgStart
  simp +contextual (maxDischargeDepth := 100) [*]

@[simp ↓] theorem State.mailSend_keeps {qp : List Instr} {qc : Nat} (s : State) (l : Nat) (data sender : Word) (hs : Keeps qp qc s) :
    Keeps qp qc (State.mailSend s l data sender).2 := by
  unfold State.mailSend
  simp +contextual (maxDischargeDepth := 100) [*]

@[simp ↓] theorem State.jobPost_keeps {qp : List Instr} {qc : Nat} (s : State) (o : Orig) (a : Nat) (hs : Keeps qp qc s) :
    Keeps qp qc (State.jobPost s o a).2 := by
  unfold State.jobPost
  (repeat' split) <;> simp +contextual (maxDischargeDepth := 100) [*]

@[simp ↓] theorem State.mailFrame_keeps {qp : List Instr} {qc : Nat} (s : State) (r l : Nat) (data : Word) (hs : Keeps qp qc s) :
    Keeps qp qc (State.mailFrame s r l data).2 := by
  unfold State.mailFrame
  simp +contextual (maxDischargeDepth := 100) [*]

@[simp ↓] theorem State.fill_keeps {qp : List Instr} {qc : Nat} (s : State) (p pc : Nat) (hs : Keeps qp qc s) :
    Keeps qp qc (State.fill s p pc) := by
  unfold State.fill
  dsimp only
  split
  · exact State.setPlough_keeps _ _ _ (State.draw_keeps _ hs)
  · exact State.setPlough_keeps _ _ _ hs

@[simp ↓] theorem State.issued_keeps {qp : List Instr} {qc : Nat} (s : State) (p h : Nat) (w : Word) (hs : Keeps qp qc s) :
    Keeps qp qc (State.issued s p h w) := by
  unfold State.issued
  simp +contextual (maxDischargeDepth := 100) [*]

@[simp ↓] theorem State.issue_keeps {qp : List Instr} {qc : Nat} (s : State) (p h : Nat) (w : Word) (f : Hand → State → State) (hf : ∀ d t, Keeps qp qc t → Keeps qp qc (f d t)) (hs : Keeps qp qc s) :
    Keeps qp qc (State.issue s p h w f) := by
  unfold State.issue
  simp +contextual (maxDischargeDepth := 100) [*]

@[simp ↓] theorem State.retire_keeps {qp : List Instr} {qc : Nat} (s : State) (p h : Nat) (hd : Hand) (c : Nat) (hs : Keeps qp qc s) :
    Keeps qp qc (State.retire s p h hd c) := by
  unfold State.retire
  simp +contextual (maxDischargeDepth := 100) [*]

@[simp ↓] theorem State.regOp_keeps {qp : List Instr} {qc : Nat} (s : State) (p h : Nat) (w : Word) (c : Nat) (g : Hand → Hand) (hs : Keeps qp qc s) :
    Keeps qp qc (State.regOp s p h w c g) := by
  unfold State.regOp
  simp +contextual (maxDischargeDepth := 100) [*]

@[simp ↓] theorem State.handWait_keeps {qp : List Instr} {qc : Nat} (s : State) (p h : Nat) (w : Wait) (hs : Keeps qp qc s) :
    Keeps qp qc (State.handWait s p h w) := by
  unfold State.handWait
  simp +contextual (maxDischargeDepth := 100) [*]

@[simp ↓] theorem State.afterStores_keeps {qp : List Instr} {qc : Nat} (s : State) (p h : Nat) (f : State → State) (hf : ∀ t, Keeps qp qc t → Keeps qp qc (f t)) (hs : Keeps qp qc s) :
    Keeps qp qc (State.afterStores s p h f) := by
  unfold State.afterStores
  simp +contextual (maxDischargeDepth := 100) [*]

@[simp ↓] theorem State.post_keeps {qp : List Instr} {qc : Nat} (s : State) (p h : Nat) (hd : Hand) (c : Nat) (x : Post) (hs : Keeps qp qc s) :
    Keeps qp qc (State.post s p h hd c x) := by
  unfold State.post
  simp +contextual (maxDischargeDepth := 100) [*]

@[simp ↓] theorem State.dataRefused_keeps {qp : List Instr} {qc : Nat} (s : State) (p h pc a : Nat) (wr reg : Bool) (hs : Keeps qp qc s) :
    Keeps qp qc (State.dataRefused s p h pc a wr reg) := by
  unfold State.dataRefused
  simp +contextual (maxDischargeDepth := 100) [*]

@[simp ↓] theorem State.engWrite_keeps {qp : List Instr} {qc : Nat} (s : State) (ws : List NvWord) (hs : Keeps qp qc s) :
    Keeps qp qc (State.engWrite s ws) := by
  unfold State.engWrite
  first
  | (simp +contextual (maxDischargeDepth := 100) [*]; done)
  | (repeat' split) <;> (simp +contextual (maxDischargeDepth := 100) [*]; done)
  | (dsimp only; (repeat' first | (simp +contextual (maxDischargeDepth := 100) [*]; done) | split); done)
  | ((simp +contextual (maxDischargeDepth := 100) [*]; repeat' first | (simp +contextual (maxDischargeDepth := 100) [*]; done) | split); done)
  | ((simp +contextual (maxDischargeDepth := 100) [*]; (repeat' split) <;> (simp +contextual (maxDischargeDepth := 100) [*]; done)); done)

@[simp ↓] theorem State.recordPut_keeps {qp : List Instr} {qc : Nat} (s : State) (type len a b : Nat) (pl : List Nat) (hs : Keeps qp qc s) :
    Keeps qp qc (State.recordPut s type len a b pl) := by
  unfold State.recordPut
  simp +contextual (maxDischargeDepth := 100) [*]

@[simp ↓] theorem State.addBin_keeps {qp : List Instr} {qc : Nat} (s : State) (f o : Nat) (z : Int) (hs : Keeps qp qc s) :
    Keeps qp qc (State.addBin s f o z) := by
  unfold State.addBin
  simp +contextual (maxDischargeDepth := 100) [*]

@[simp ↓] theorem State.fieldFlags_keeps {qp : List Instr} {qc : Nat} (s : State) (f m : Nat) (hs : Keeps qp qc s) :
    Keeps qp qc (State.fieldFlags s f m) := by
  unfold State.fieldFlags
  simp +contextual (maxDischargeDepth := 100) [*]

@[simp ↓] theorem State.withdraw_keeps {qp : List Instr} {qc : Nat} (s : State) (f r : Nat) (x : IvRow) (hs : Keeps qp qc s) :
    Keeps qp qc (State.withdraw s f r x) := by
  unfold State.withdraw
  simp +contextual (maxDischargeDepth := 100) [*]

@[simp ↓] theorem State.addDir_keeps {qp : List Instr} {qc : Nat} (s : State) (f o : Nat) (p : Int) (hs : Keeps qp qc s) :
    Keeps qp qc (State.addDir s f o p) := by
  unfold State.addDir
  simp +contextual (maxDischargeDepth := 100) [*]

@[simp ↓] theorem State.addQuad_keeps {qp : List Instr} {qc : Nat} (s : State) (f o : Nat) (p q : Int) (hs : Keeps qp qc s) :
    Keeps qp qc (State.addQuad s f o p q) := by
  unfold State.addQuad
  simp +contextual (maxDischargeDepth := 100) [*]

@[simp ↓] theorem State.closeIv_keeps {qp : List Instr} {qc : Nat} (s : State) (f : Nat) (hs : Keeps qp qc s) :
    Keeps qp qc (State.closeIv s f) := by
  unfold State.closeIv
  simp +contextual (maxDischargeDepth := 100) [*]

@[simp ↓] theorem State.feedRound_keeps {qp : List Instr} {qc : Nat} (s : State) (f : Nat) (hs : Keeps qp qc s) :
    Keeps qp qc (State.feedRound s f) := by
  unfold State.feedRound
  first
  | (simp +contextual (maxDischargeDepth := 100) [*]; done)
  | (repeat' split) <;> (simp +contextual (maxDischargeDepth := 100) [*]; done)
  | (dsimp only; (repeat' first | (simp +contextual (maxDischargeDepth := 100) [*]; done) | split); done)
  | ((simp +contextual (maxDischargeDepth := 100) [*]; repeat' first | (simp +contextual (maxDischargeDepth := 100) [*]; done) | split); done)
  | ((simp +contextual (maxDischargeDepth := 100) [*]; (repeat' split) <;> (simp +contextual (maxDischargeDepth := 100) [*]; done)); done)

@[simp ↓] theorem State.elemRound_keeps {qp : List Instr} {qc : Nat} (s : State) (f e : Nat) (adv : Bool) (xv xi : Int) (q : Quad) (hs : Keeps qp qc s) :
    Keeps qp qc (State.elemRound s f e adv xv xi q) := by
  unfold State.elemRound
  first
  | (simp +contextual (maxDischargeDepth := 100) [*]; done)
  | (repeat' split) <;> (simp +contextual (maxDischargeDepth := 100) [*]; done)
  | (dsimp only; (repeat' first | (simp +contextual (maxDischargeDepth := 100) [*]; done) | split); done)
  | ((simp +contextual (maxDischargeDepth := 100) [*]; repeat' first | (simp +contextual (maxDischargeDepth := 100) [*]; done) | split); done)
  | ((simp +contextual (maxDischargeDepth := 100) [*]; (repeat' split) <;> (simp +contextual (maxDischargeDepth := 100) [*]; done)); done)

@[simp ↓] theorem State.fieldRound_keeps {qp : List Instr} {qc : Nat} (s : State) (t f : Nat) (hs : Keeps qp qc s) :
    Keeps qp qc (State.fieldRound s t f) := by
  unfold State.fieldRound
  first
  | (simp +contextual (maxDischargeDepth := 100) [*]; done)
  | (repeat' split) <;> (simp +contextual (maxDischargeDepth := 100) [*]; done)
  | (dsimp only; (repeat' first | (simp +contextual (maxDischargeDepth := 100) [*]; done) | split); done)
  | ((simp +contextual (maxDischargeDepth := 100) [*]; repeat' first | (simp +contextual (maxDischargeDepth := 100) [*]; done) | split); done)
  | ((simp +contextual (maxDischargeDepth := 100) [*]; (repeat' split) <;> (simp +contextual (maxDischargeDepth := 100) [*]; done)); done)

@[simp ↓] theorem State.fieldTry_keeps {qp : List Instr} {qc : Nat} (s : State) (t f : Nat) (hs : Keeps qp qc s) :
    Keeps qp qc (State.fieldTry s t f) := by
  unfold State.fieldTry
  first
  | (simp +contextual (maxDischargeDepth := 100) [*]; done)
  | (repeat' split) <;> (simp +contextual (maxDischargeDepth := 100) [*]; done)
  | (dsimp only; (repeat' first | (simp +contextual (maxDischargeDepth := 100) [*]; done) | split); done)
  | ((simp +contextual (maxDischargeDepth := 100) [*]; repeat' first | (simp +contextual (maxDischargeDepth := 100) [*]; done) | split); done)
  | ((simp +contextual (maxDischargeDepth := 100) [*]; (repeat' split) <;> (simp +contextual (maxDischargeDepth := 100) [*]; done)); done)

@[simp ↓] theorem State.setPulse_keeps {qp : List Instr} {qc : Nat} (s : State) (n : Nat) (p : Pulse) (hs : Keeps qp qc s) :
    Keeps qp qc (State.setPulse s n p) := by
  unfold State.setPulse
  simp +contextual (maxDischargeDepth := 100) [*]

@[simp ↓] theorem State.plsMoved_keeps {qp : List Instr} {qc : Nat} (s t : State) (hs : Keeps qp qc s) (ht : Keeps qp qc t) :
    Keeps qp qc (State.plsMoved s t) := by
  unfold State.plsMoved
  first
  | (simp +contextual (maxDischargeDepth := 100) [*]; done)
  | (repeat' split) <;> (simp +contextual (maxDischargeDepth := 100) [*]; done)
  | (dsimp only; (repeat' first | (simp +contextual (maxDischargeDepth := 100) [*]; done) | split); done)
  | ((simp +contextual (maxDischargeDepth := 100) [*]; repeat' first | (simp +contextual (maxDischargeDepth := 100) [*]; done) | split); done)
  | ((simp +contextual (maxDischargeDepth := 100) [*]; (repeat' split) <;> (simp +contextual (maxDischargeDepth := 100) [*]; done)); done)

@[simp ↓] theorem State.pulseAdd_keeps {qp : List Instr} {qc : Nat} (s : State) (n : Nat) (z : Int) (hs : Keeps qp qc s) :
    Keeps qp qc (State.pulseAdd s n z) := by
  unfold State.pulseAdd
  simp +contextual (maxDischargeDepth := 100) [*]

@[simp ↓] theorem State.pulsesFollow_keeps {qp : List Instr} {qc : Nat} (s : State) (hs : Keeps qp qc s) :
    Keeps qp qc (State.pulsesFollow s) := by
  unfold State.pulsesFollow
  simp +contextual (maxDischargeDepth := 100) [*]

@[simp ↓] theorem State.pulsesResync_keeps {qp : List Instr} {qc : Nat} (s : State) (f : Nat) (hs : Keeps qp qc s) :
    Keeps qp qc (State.pulsesResync s f) := by
  unfold State.pulsesResync
  simp +contextual (maxDischargeDepth := 100) [*]

@[simp ↓] theorem State.cfgBoundary_keeps {qp : List Instr} {qc : Nat} (s : State) (f : Nat) (hs : Keeps qp qc s) :
    Keeps qp qc (State.cfgBoundary s f) := by
  unfold State.cfgBoundary
  (repeat' split) <;> simp +contextual (maxDischargeDepth := 100) [*]

@[simp ↓] theorem State.cfgReach_keeps {qp : List Instr} {qc : Nat} (s : State) (f e : Nat) (hs : Keeps qp qc s) :
    Keeps qp qc (State.cfgReach s f e) := by
  unfold State.cfgReach
  first
  | (simp +contextual (maxDischargeDepth := 100) [*]; done)
  | (repeat' split) <;> (simp +contextual (maxDischargeDepth := 100) [*]; done)
  | (dsimp only; (repeat' first | (simp +contextual (maxDischargeDepth := 100) [*]; done) | split); done)
  | ((simp +contextual (maxDischargeDepth := 100) [*]; repeat' first | (simp +contextual (maxDischargeDepth := 100) [*]; done) | split); done)
  | ((simp +contextual (maxDischargeDepth := 100) [*]; (repeat' split) <;> (simp +contextual (maxDischargeDepth := 100) [*]; done)); done)

@[simp ↓] theorem State.snapField1_keeps {qp : List Instr} {qc : Nat} (s : State) (q : SnapReq) (f : Nat) (hs : Keeps qp qc s) :
    Keeps qp qc (State.snapField1 s q f) := by
  unfold State.snapField1
  simp +contextual (maxDischargeDepth := 100) [*]

@[simp ↓] theorem State.snapsDue_keeps {qp : List Instr} {qc : Nat} (s : State) (hs : Keeps qp qc s) :
    Keeps qp qc (State.snapsDue s) := by
  unfold State.snapsDue
  first
  | (simp +contextual (maxDischargeDepth := 100) [*]; done)
  | (repeat' split) <;> (simp +contextual (maxDischargeDepth := 100) [*]; done)
  | (dsimp only; (repeat' first | (simp +contextual (maxDischargeDepth := 100) [*]; done) | split); done)
  | ((simp +contextual (maxDischargeDepth := 100) [*]; repeat' first | (simp +contextual (maxDischargeDepth := 100) [*]; done) | split); done)
  | ((simp +contextual (maxDischargeDepth := 100) [*]; (repeat' split) <;> (simp +contextual (maxDischargeDepth := 100) [*]; done)); done)

@[simp ↓] theorem State.hcStates_keeps {qp : List Instr} {qc : Nat} (s : State) (f k : Nat) (w : Word) (hs : Keeps qp qc s) :
    Keeps qp qc (State.hcStates s f k w) := by
  unfold State.hcStates
  simp +contextual (maxDischargeDepth := 100) [*]

@[simp ↓] theorem State.tallyRound_keeps {qp : List Instr} {qc : Nat} (s : State) (hs : Keeps qp qc s) :
    Keeps qp qc (State.tallyRound s) := by
  unfold State.tallyRound
  first
  | (simp +contextual (maxDischargeDepth := 100) [*]; done)
  | (repeat' split) <;> (simp +contextual (maxDischargeDepth := 100) [*]; done)
  | (dsimp only; (repeat' first | (simp +contextual (maxDischargeDepth := 100) [*]; done) | split); done)
  | ((simp +contextual (maxDischargeDepth := 100) [*]; repeat' first | (simp +contextual (maxDischargeDepth := 100) [*]; done) | split); done)
  | ((simp +contextual (maxDischargeDepth := 100) [*]; (repeat' split) <;> (simp +contextual (maxDischargeDepth := 100) [*]; done)); done)

@[simp ↓] theorem State.cfgNext_keeps {qp : List Instr} {qc : Nat} (s : State) (f : Nat) (hs : Keeps qp qc s) :
    Keeps qp qc (State.cfgNext s f) := by
  unfold State.cfgNext
  simp +contextual (maxDischargeDepth := 100) [*]

@[simp ↓] theorem State.plsHand_keeps {qp : List Instr} {qc : Nat} (s : State) (k : Nat) (x : Option Nat) (hs : Keeps qp qc s) :
    Keeps qp qc (State.plsHand s k x) := by
  unfold State.plsHand
  first
  | (simp +contextual (maxDischargeDepth := 100) [*]; done)
  | (repeat' split) <;> (simp +contextual (maxDischargeDepth := 100) [*]; done)
  | (dsimp only; (repeat' first | (simp +contextual (maxDischargeDepth := 100) [*]; done) | split); done)
  | ((simp +contextual (maxDischargeDepth := 100) [*]; repeat' first | (simp +contextual (maxDischargeDepth := 100) [*]; done) | split); done)
  | ((simp +contextual (maxDischargeDepth := 100) [*]; (repeat' split) <;> (simp +contextual (maxDischargeDepth := 100) [*]; done)); done)

@[simp ↓] theorem State.setBank_keeps {qp : List Instr} {qc : Nat} (s : State) (o : Nat) (b : NvBank) (hs : Keeps qp qc s) :
    Keeps qp qc (State.setBank s o b) := by
  unfold State.setBank
  simp +contextual (maxDischargeDepth := 100) [*]

@[simp ↓] theorem State.nvPush_keeps {qp : List Instr} {qc : Nat} (s : State) (o : Nat) (crib : Bool) (addr mask data : Nat) (hs : Keeps qp qc s) :
    Keeps qp qc (State.nvPush s o crib addr mask data).2 := by
  have hn := hs.nv_le
  unfold State.nvPush
  dsimp only
  split
  · next h =>
    have : s.nvBuf.length < 1024 := by
      unfold State.pushCode at h
      repeat' split at h
      all_goals first | omega | (simp at h; done)
    exact KeepsP.nv hs (by simp; omega)
  · exact KeepsP.nv hs (by simpa using hn)
  · (simp +contextual (maxDischargeDepth := 100) [*])

@[simp ↓] theorem State.pushWrite_keeps {qp : List Instr} {qc : Nat} (s : State) (o : Nat) (hi : Word) (hs : Keeps qp qc s) :
    Keeps qp qc (State.pushWrite s o hi).2 := by
  unfold State.pushWrite
  simp +contextual (maxDischargeDepth := 100) [*]

@[simp ↓] theorem State.carried_keeps {qp : List Instr} {qc : Nat} (s : State) (c : Commit) (hs : Keeps qp qc s) :
    Keeps qp qc (State.carried s c) := by
  unfold State.carried
  first
  | (simp +contextual (maxDischargeDepth := 100) [*]; done)
  | (repeat' split) <;> (simp +contextual (maxDischargeDepth := 100) [*]; done)
  | (dsimp only; (repeat' first | (simp +contextual (maxDischargeDepth := 100) [*]; done) | split); done)
  | ((simp +contextual (maxDischargeDepth := 100) [*]; repeat' first | (simp +contextual (maxDischargeDepth := 100) [*]; done) | split); done)
  | ((simp +contextual (maxDischargeDepth := 100) [*]; (repeat' split) <;> (simp +contextual (maxDischargeDepth := 100) [*]; done)); done)

@[simp ↓] theorem State.cribBegin_keeps {qp : List Instr} {qc : Nat} (s : State) (y0 : List CribPage) (hs : Keeps qp qc s) :
    Keeps qp qc (State.cribBegin s y0) := by
  induction y0 generalizing s with
  | nil => exact hs
  | cons p ps ih =>
    unfold State.cribBegin
    exact Keeps_ite (ih _ (State.add_keeps _ _ _ hs)) hs

@[simp ↓] theorem State.barnPut_keeps {qp : List Instr} {qc : Nat} (s : State) (a v : Nat) (hs : Keeps qp qc s) :
    Keeps qp qc (State.barnPut s a v) := by
  unfold State.barnPut
  repeat' first | exact State.cribBegin_keeps _ _ hs | exact State.store_keeps _ _ _ _ hs | exact hs | split

@[simp ↓] theorem State.commitWord_keeps {qp : List Instr} {qc : Nat} (s : State) (w : NvWord) (hs : Keeps qp qc s) :
    Keeps qp qc (State.commitWord s w) := by
  have h : Keeps qp qc { s with nvBuf := s.nvBuf.eraseP fun e => !e.crib && e.seal_ && e.addr == w.addr } :=
    KeepsP.nv hs (Nat.le_trans (List.length_eraseP_le) hs.nv_le)
  unfold State.commitWord
  dsimp only
  split
  · split
    · exact State.inc_keeps _ _ h
    · exact State.barnPut_keeps _ _ _ h
  · (simp +contextual (maxDischargeDepth := 100) [*])

@[simp ↓] theorem State.pageDone_keeps {qp : List Instr} {qc : Nat} (s : State) (p : CribPage) (hs : Keeps qp qc s) :
    Keeps qp qc (State.pageDone s p) := by
  unfold State.pageDone
  simp +contextual (maxDischargeDepth := 100) [*]

@[simp ↓] theorem State.copyRun_keeps {qp : List Instr} {qc : Nat} (s : State) (hs : Keeps qp qc s) :
    Keeps qp qc (State.copyRun s) := by
  unfold State.copyRun
  (repeat' split) <;> simp +contextual (maxDischargeDepth := 100) [*]

@[simp ↓] theorem State.engStep_keeps {qp : List Instr} {qc : Nat} (s : State) (hs : Keeps qp qc s) :
    Keeps qp qc (State.engStep s) := by
  unfold State.engStep
  first
  | (simp +contextual (maxDischargeDepth := 100) [*]; done)
  | (repeat' split) <;> (simp +contextual (maxDischargeDepth := 100) [*]; done)
  | (dsimp only; (repeat' first | (simp +contextual (maxDischargeDepth := 100) [*]; done) | split); done)
  | ((simp +contextual (maxDischargeDepth := 100) [*]; repeat' first | (simp +contextual (maxDischargeDepth := 100) [*]; done) | split); done)
  | ((simp +contextual (maxDischargeDepth := 100) [*]; (repeat' split) <;> (simp +contextual (maxDischargeDepth := 100) [*]; done)); done)

@[simp ↓] theorem State.commitNote_keeps {qp : List Instr} {qc : Nat} (s : State) (num start t : Nat) (hs : Keeps qp qc s) :
    Keeps qp qc (State.commitNote s num start t) := by
  unfold State.commitNote
  first
  | (simp +contextual (maxDischargeDepth := 100) [*]; done)
  | (repeat' split) <;> (simp +contextual (maxDischargeDepth := 100) [*]; done)
  | (dsimp only; (repeat' first | (simp +contextual (maxDischargeDepth := 100) [*]; done) | split); done)
  | ((simp +contextual (maxDischargeDepth := 100) [*]; repeat' first | (simp +contextual (maxDischargeDepth := 100) [*]; done) | split); done)
  | ((simp +contextual (maxDischargeDepth := 100) [*]; (repeat' split) <;> (simp +contextual (maxDischargeDepth := 100) [*]; done)); done)

@[simp ↓] theorem State.nvmRun_keeps {qp : List Instr} {qc : Nat} (s : State) (hs : Keeps qp qc s) :
    Keeps qp qc (State.nvmRun s) := by
  unfold State.nvmRun
  dsimp only
  repeat' first | (simp +contextual (maxDischargeDepth := 100) [*]; done) | split

@[simp ↓] theorem State.nvBoundary_keeps {qp : List Instr} {qc : Nat} (s : State) (hs : Keeps qp qc s) :
    Keeps qp qc (State.nvBoundary s) := by
  unfold State.nvBoundary
  (repeat' split) <;> simp +contextual (maxDischargeDepth := 100) [*]

@[simp ↓] theorem State.commitStart_keeps {qp : List Instr} {qc : Nat} (s : State) (kind : Nat) (hs : Keeps qp qc s) :
    Keeps qp qc (State.commitStart s kind) := by
  have h : Keeps qp qc { s with
      nvNum := (s.nvNum + 1) % 2 ^ 32, nvBuf := s.nvBuf.map (fun (e : NvEntry) => { e with seal_ := true }) } :=
    KeepsP.nv hs (by simpa using hs.nv_le)
  unfold State.commitStart
  dsimp only
  have h2 := State.wr_keeps _ NVM_STAT_BUSY 1 h
  split
  · exact State.nvBoundary_keeps _ h2
  · exact h2

@[simp ↓] theorem State.commitReq_keeps {qp : List Instr} {qc : Nat} (s : State) (kind : Nat) (hs : Keeps qp qc s) :
    Keeps qp qc (State.commitReq s kind) := by
  unfold State.commitReq
  simp +contextual (maxDischargeDepth := 100) [*]

@[simp ↓] theorem State.commitHeld_keeps {qp : List Instr} {qc : Nat} (s : State) (hs : Keeps qp qc s) :
    Keeps qp qc (State.commitHeld s) := by
  unfold State.commitHeld
  simp +contextual (maxDischargeDepth := 100) [*]

@[simp ↓] theorem State.commitStall_keeps {qp : List Instr} {qc : Nat} (s : State) (hs : Keeps qp qc s) :
    Keeps qp qc (State.commitStall s) := by
  unfold State.commitStall
  first
  | (simp +contextual (maxDischargeDepth := 100) [*]; done)
  | (repeat' split) <;> (simp +contextual (maxDischargeDepth := 100) [*]; done)
  | (dsimp only; (repeat' first | (simp +contextual (maxDischargeDepth := 100) [*]; done) | split); done)
  | ((simp +contextual (maxDischargeDepth := 100) [*]; repeat' first | (simp +contextual (maxDischargeDepth := 100) [*]; done) | split); done)
  | ((simp +contextual (maxDischargeDepth := 100) [*]; (repeat' split) <;> (simp +contextual (maxDischargeDepth := 100) [*]; done)); done)

@[simp ↓] theorem State.commitFail_keeps {qp : List Instr} {qc : Nat} (s : State) (kind : Nat) (hs : Keeps qp qc s) :
    Keeps qp qc (State.commitFail s kind) := by
  unfold State.commitFail
  extract_lets num busy t r s1 lost src s2 c0 u c1 src2
  have h1 : Keeps qp qc s1 := by
    simp only [s1, r]
    split
    · split
      · split
        · exact State.commitNote_keeps _ _ _ _ hs
        · exact hs
      · exact hs
    · exact hs
  have h2 : Keeps qp qc s2 := by
    refine KeepsP.nv (State.add_keeps _ NVM_CRIBLOST_V lost h1) ?_
    rw [List.length_map]
    exact Nat.le_trans (List.length_filter_le _ _) h1.nv_le
  exact Keeps.of (State.wr_keeps _ NVM_STAT_BUSY 1 (State.carried_keeps _ _ h2))

@[simp ↓] theorem State.commitEnd_keeps {qp : List Instr} {qc : Nat} (s : State) (c : Commit) (hs : Keeps qp qc s) :
    Keeps qp qc (State.commitEnd s c) := by
  unfold State.commitEnd
  extract_lets s1 pages s2
  have h1 : Keeps qp qc s1 := State.commitNote_keeps _ _ _ _ (State.wr_keeps _ _ _ hs)
  have h2 : Keeps qp qc s2 := KeepsP.nv h1 (Nat.le_trans (List.length_filter_le _ _) h1.nv_le)
  exact Keeps_ite (State.cribBegin_keeps _ _ h2) h2

@[simp ↓] theorem State.rowBad_keeps {qp : List Instr} {qc : Nat} (s : State) (row cause : Nat) (hs : Keeps qp qc s) :
    Keeps qp qc (State.rowBad s row cause) := by
  unfold State.rowBad
  simp +contextual (maxDischargeDepth := 100) [*]

@[simp ↓] theorem State.scrub_keeps {qp : List Instr} {qc : Nat} (s : State) (sgl dbl : List (Fin 8192)) (hs : Keeps qp qc s) :
    Keeps qp qc (State.scrub s sgl dbl) := by
  unfold State.scrub
  simp +contextual (maxDischargeDepth := 100) [*]

@[simp ↓] theorem State.copyStart_keeps {qp : List Instr} {qc : Nat} (s : State) (hs : Keeps qp qc s) :
    Keeps qp qc (State.copyStart s) := by
  unfold State.copyStart
  simp +contextual (maxDischargeDepth := 100) [*]

@[simp ↓] theorem State.nvCut_keeps {qp : List Instr} {qc : Nat} (s : State) (hs : Keeps qp qc s) :
    Keeps qp qc (State.nvCut s) := by
  unfold State.nvCut
  extract_lets s1 half s2 s3 tear s4 s5
  have hh : ∀ (t : State) ws, Keeps qp qc t → Keeps qp qc (half t ws) := by
    intro t ws h
    simp only [half]
    split
    · exact Keeps_ite (State.commitWord_keeps _ _ (State.draw_keeps _ h)) (State.draw_keeps _ h)
    · exact h
  have h3 : Keeps qp qc s3 := hh _ _ (hh _ _ (State.nvmRun_keeps _ hs))
  have ht : ∀ (t : State) a p, Keeps qp qc t → Keeps qp qc (tear t a p) := fun t a p h =>
    Keeps_foldl (fun t x ht => State.setByte_keeps _ _ _ (State.draw_keeps _ ht)) h
  have h4 : Keeps qp qc s4 := by
    simp only [s4]
    split
    · exact ht _ _ _ h3
    · exact h3
  have h5 : Keeps qp qc s5 := by
    simp only [s5]
    split
    · split
      · exact ht _ _ _ h4
      · exact h4
    · exact h4
  exact KeepsP.nv h5 (Nat.zero_le _)

@[simp ↓] theorem State.nvmCmd_keeps {qp : List Instr} {qc : Nat} (s : State) (x : Nat) (hs : Keeps qp qc s) :
    Keeps qp qc (State.nvmCmd s x) := by
  unfold State.nvmCmd
  simp +contextual (maxDischargeDepth := 100) [*]

@[simp ↓] theorem State.pfClose_keeps {qp : List Instr} {qc : Nat} (s : State) (c : Commit) (hs : Keeps qp qc s) :
    Keeps qp qc (State.pfClose s c) := by
  unfold State.pfClose
  simp +contextual (maxDischargeDepth := 100) [*]

@[simp ↓] theorem State.inject_keeps {qp : List Instr} {qc : Nat} (s : State) (o a : Nat) (hs : Keeps qp qc s) :
    Keeps qp qc (State.inject s o a) := by
  unfold State.inject
  first
  | (simp +contextual (maxDischargeDepth := 100) [*]; done)
  | (repeat' split) <;> (simp +contextual (maxDischargeDepth := 100) [*]; done)
  | (dsimp only; (repeat' first | (simp +contextual (maxDischargeDepth := 100) [*]; done) | split); done)
  | ((simp +contextual (maxDischargeDepth := 100) [*]; repeat' first | (simp +contextual (maxDischargeDepth := 100) [*]; done) | split); done)
  | ((simp +contextual (maxDischargeDepth := 100) [*]; (repeat' split) <;> (simp +contextual (maxDischargeDepth := 100) [*]; done)); done)

@[simp ↓] theorem State.mismatch_keeps {qp : List Instr} {qc : Nat} (s : State) (o a k : Nat) (hs : Keeps qp qc s) :
    Keeps qp qc (State.mismatch s o a k).2 := by
  unfold State.mismatch
  simp +contextual (maxDischargeDepth := 100) [*]

@[simp ↓] theorem State.eccRead_keeps {qp : List Instr} {qc : Nat} (s : State) (a k : Nat) (hs : Keeps qp qc s) :
    Keeps qp qc (State.eccRead s a k).2 := by
  unfold State.eccRead
  simp +contextual (maxDischargeDepth := 100) [*]

@[simp ↓] theorem State.access_keeps {qp : List Instr} {qc : Nat} (s : State) (o a k : Nat) (hs : Keeps qp qc s) :
    Keeps qp qc (State.access s o a k).2 := by
  unfold State.access
  simp +contextual (maxDischargeDepth := 100) [*]

@[simp ↓] theorem State.flagNote_keeps {qp : List Instr} {qc : Nat} (s : State) (c : Nat) (hs : Keeps qp qc s) :
    Keeps qp qc (State.flagNote s c) := by
  unfold State.flagNote
  first
  | (simp +contextual (maxDischargeDepth := 100) [*]; done)
  | (repeat' split) <;> (simp +contextual (maxDischargeDepth := 100) [*]; done)
  | (dsimp only; (repeat' first | (simp +contextual (maxDischargeDepth := 100) [*]; done) | split); done)
  | ((simp +contextual (maxDischargeDepth := 100) [*]; repeat' first | (simp +contextual (maxDischargeDepth := 100) [*]; done) | split); done)
  | ((simp +contextual (maxDischargeDepth := 100) [*]; (repeat' split) <;> (simp +contextual (maxDischargeDepth := 100) [*]; done)); done)

@[simp ↓] theorem State.flagsKeep_keeps {qp : List Instr} {qc : Nat} (s : State) (hs : Keeps qp qc s) :
    Keeps qp qc (State.flagsKeep s) := by
  unfold State.flagsKeep
  first
  | (simp +contextual (maxDischargeDepth := 100) [*]; done)
  | (repeat' split) <;> (simp +contextual (maxDischargeDepth := 100) [*]; done)
  | (dsimp only; (repeat' first | (simp +contextual (maxDischargeDepth := 100) [*]; done) | split); done)
  | ((simp +contextual (maxDischargeDepth := 100) [*]; repeat' first | (simp +contextual (maxDischargeDepth := 100) [*]; done) | split); done)
  | ((simp +contextual (maxDischargeDepth := 100) [*]; (repeat' split) <;> (simp +contextual (maxDischargeDepth := 100) [*]; done)); done)

@[simp ↓] theorem State.calStep_keeps {qp : List Instr} {qc : Nat} (s : State) (c : Nat) (hs : Keeps qp qc s) :
    Keeps qp qc (State.calStep s c) := by
  unfold State.calStep
  first
  | (simp +contextual (maxDischargeDepth := 100) [*]; done)
  | (repeat' split) <;> (simp +contextual (maxDischargeDepth := 100) [*]; done)
  | (dsimp only; (repeat' first | (simp +contextual (maxDischargeDepth := 100) [*]; done) | split); done)
  | ((simp +contextual (maxDischargeDepth := 100) [*]; repeat' first | (simp +contextual (maxDischargeDepth := 100) [*]; done) | split); done)
  | ((simp +contextual (maxDischargeDepth := 100) [*]; (repeat' split) <;> (simp +contextual (maxDischargeDepth := 100) [*]; done)); done)

@[simp ↓] theorem State.tamperBk_keeps {qp : List Instr} {qc : Nat} (s : State) (c : Nat) (hs : Keeps qp qc s) :
    Keeps qp qc (State.tamperBk s c) := by
  unfold State.tamperBk
  simp +contextual (maxDischargeDepth := 100) [*]

@[simp ↓] theorem State.tamperAny_keeps {qp : List Instr} {qc : Nat} (s : State) (c : Nat) (hs : Keeps qp qc s) :
    Keeps qp qc (State.tamperAny s c) := by
  unfold State.tamperAny
  simp +contextual (maxDischargeDepth := 100) [*]

@[simp ↓] theorem State.dstSet_keeps {qp : List Instr} {qc : Nat} (s : State) (hs : Keeps qp qc s) :
    Keeps qp qc (State.dstSet s) := by
  unfold State.dstSet
  simp +contextual (maxDischargeDepth := 100) [*]

@[simp ↓] theorem State.dstClear_keeps {qp : List Instr} {qc : Nat} (s : State) (hs : Keeps qp qc s) :
    Keeps qp qc (State.dstClear s) := by
  unfold State.dstClear
  simp +contextual (maxDischargeDepth := 100) [*]

@[simp ↓] theorem State.almAct_keeps {qp : List Instr} {qc : Nat} (s : State) (a : Nat) (hs : Keeps qp qc s) :
    Keeps qp qc (State.almAct s a) := by
  unfold State.almAct
  simp +contextual (maxDischargeDepth := 100) [*]

@[simp ↓] theorem State.calTick_keeps {qp : List Instr} {qc : Nat} (s : State) (hs : Keeps qp qc s) :
    Keeps qp qc (State.calTick s) := by
  unfold State.calTick
  simp +contextual (maxDischargeDepth := 100) [*]

@[simp ↓] theorem State.badWr_keeps {qp : List Instr} {qc : Nat} (s : State) (hs : Keeps qp qc s) :
    Keeps qp qc (State.badWr s) := by
  unfold State.badWr
  simp +contextual (maxDischargeDepth := 100) [*]

@[simp ↓] theorem State.adjust_keeps {qp : List Instr} {qc : Nat} (s : State) (o mag addr : Nat) (hs : Keeps qp qc s) :
    Keeps qp qc (State.adjust s o mag addr).2 := by
  unfold State.adjust
  simp +contextual (maxDischargeDepth := 100) [*]

@[simp ↓] theorem State.shift_keeps {qp : List Instr} {qc : Nat} (s : State) (n : Int) (hs : Keeps qp qc s) :
    Keeps qp qc (State.shift s n) := by
  unfold State.shift
  simp +contextual (maxDischargeDepth := 100) [*]

@[simp ↓] theorem State.calSet_keeps {qp : List Instr} {qc : Nat} (s : State) (u : Nat) (hs : Keeps qp qc s) :
    Keeps qp qc (State.calSet s u) := by
  unfold State.calSet
  simp +contextual (maxDischargeDepth := 100) [*]

@[simp ↓] theorem State.bkApply_keeps {qp : List Instr} {qc : Nat} (s : State) (o a : Nat) (w : Word) (hs : Keeps qp qc s) :
    Keeps qp qc (State.bkApply s o a w) := by
  have fold : ∀ (l : List Nat), Keeps qp qc (l.foldl (fun s i => s.clrBit a i) s) := fun l =>
    Keeps_foldl (fun t x ht => State.clrBit_keeps _ _ _ ht) hs
  unfold State.bkApply
  dsimp only
  repeat' first
    | (with_reducible refine Keeps_ite ?_ ?_)
    | (with_reducible apply fold)
    | (with_reducible exact hs)
    | (with_reducible apply State.badWr_keeps)
    | (with_reducible apply State.wrW_keeps)
    | (with_reducible apply State.wr_keeps)
    | (with_reducible apply State.wrS_keeps)
    | (with_reducible apply State.shift_keeps)
    | (with_reducible apply State.calSet_keeps)
    | (with_reducible apply State.adjust_keeps)
    | (show Keeps qp qc (State.adjust _ _ _ _).2; with_reducible apply State.adjust_keeps)
    | split
    | (simp +contextual (maxDischargeDepth := 100) [*])

@[simp ↓] theorem State.bkWrite_keeps {qp : List Instr} {qc : Nat} (s : State) (o a : Nat) (w : Word) (hs : Keeps qp qc s) :
    Keeps qp qc (State.bkWrite s o a w) := by
  unfold State.bkWrite
  simp +contextual (maxDischargeDepth := 100) [*]

@[simp ↓] theorem State.bkFlush_keeps {qp : List Instr} {qc : Nat} (s : State) (hs : Keeps qp qc s) :
    Keeps qp qc (State.bkFlush s) := by
  unfold State.bkFlush
  simp +contextual (maxDischargeDepth := 100) [*]

@[simp ↓] theorem State.bkDeal_keeps {qp : List Instr} {qc : Nat} (s : State) (o a : Nat) (w : Word) (hs : Keeps qp qc s) :
    Keeps qp qc (State.bkDeal s o a w) := by
  unfold State.bkDeal
  first
  | (simp +contextual (maxDischargeDepth := 100) [*]; done)
  | (repeat' split) <;> (simp +contextual (maxDischargeDepth := 100) [*]; done)
  | (dsimp only; (repeat' first | (simp +contextual (maxDischargeDepth := 100) [*]; done) | split); done)
  | ((simp +contextual (maxDischargeDepth := 100) [*]; repeat' first | (simp +contextual (maxDischargeDepth := 100) [*]; done) | split); done)
  | ((simp +contextual (maxDischargeDepth := 100) [*]; (repeat' split) <;> (simp +contextual (maxDischargeDepth := 100) [*]; done)); done)

@[simp ↓] theorem State.isolate_keeps {qp : List Instr} {qc : Nat} (s : State) (hs : Keeps qp qc s) :
    Keeps qp qc (State.isolate s) := by
  unfold State.isolate
  simp +contextual (maxDischargeDepth := 100) [*]

@[simp ↓] theorem State.tbStep_keeps {qp : List Instr} {qc : Nat} (s : State) (n : Nat) (hs : Keeps qp qc s) :
    Keeps qp qc (State.tbStep s n) := by
  unfold State.tbStep
  simp +contextual (maxDischargeDepth := 100) [*]

@[simp ↓] theorem State.tbTrim_keeps {qp : List Instr} {qc : Nat} (s : State) (z : Int) (hs : Keeps qp qc s) :
    Keeps qp qc (State.tbTrim s z) := by
  unfold State.tbTrim
  simp +contextual (maxDischargeDepth := 100) [*]

@[simp ↓] theorem State.tbLoadNow_keeps {qp : List Instr} {qc : Nat} (s : State) (sec ns : Nat) (hs : Keeps qp qc s) :
    Keeps qp qc (State.tbLoadNow s sec ns) := by
  unfold State.tbLoadNow
  simp +contextual (maxDischargeDepth := 100) [*]

@[simp ↓] theorem State.tbCmd_keeps {qp : List Instr} {qc : Nat} (s : State) (o op : Nat) (hs : Keeps qp qc s) :
    Keeps qp qc (State.tbCmd s o op) := by
  unfold State.tbCmd
  simp +contextual (maxDischargeDepth := 100) [*]

@[simp ↓] theorem State.discChange_keeps {qp : List Instr} {qc : Nat} (s : State) (was now : Nat) (hs : Keeps qp qc s) :
    Keeps qp qc (State.discChange s was now) := by
  unfold State.discChange
  simp +contextual (maxDischargeDepth := 100) [*]

@[simp ↓] theorem State.servo_keeps {qp : List Instr} {qc : Nat} (s : State) (z : Int) (hs : Keeps qp qc s) :
    Keeps qp qc (State.servo s z) := by
  unfold State.servo
  simp +contextual (maxDischargeDepth := 100) [*]

@[simp ↓] theorem State.ppsMiss_keeps {qp : List Instr} {qc : Nat} (s : State) (hs : Keeps qp qc s) :
    Keeps qp qc (State.ppsMiss s) := by
  unfold State.ppsMiss
  simp +contextual (maxDischargeDepth := 100) [*]

@[simp ↓] theorem State.ppsAcquire_keeps {qp : List Instr} {qc : Nat} (s : State) (e z : Int) (hs : Keeps qp qc s) :
    Keeps qp qc (State.ppsAcquire s e z) := by
  unfold State.ppsAcquire
  simp +contextual (maxDischargeDepth := 100) [*]

@[simp ↓] theorem State.ppsEdge_keeps {qp : List Instr} {qc : Nat} (s : State) (z : Int) (hs : Keeps qp qc s) :
    Keeps qp qc (State.ppsEdge s z) := by
  unfold State.ppsEdge
  extract_lets
  rename_i early s1 s2 e s3 s4 s5
  have h1 : Keeps qp qc s1 := hs
  have h2 : Keeps qp qc s2 := by
    simp only [s2]
    split
    · next l _ =>
      have hr := State.adjust_keeps (qp := qp) (qc := qc) ({ s1 with tbLoad := none } : State) l.orig
        (s1.tbMag (ticksOf l.sec l.ns)) RTC_TB0CMD h1
      exact Keeps_ite (State.tbLoadNow_keeps _ _ _ hr) hr
    · exact h1
  have h3 : Keeps qp qc s3 := State.wrS_keeps _ _ _ h2
  split
  · exact State.inc_keeps _ _ hs
  · split
    · exact h2
    · split
      · exact State.ppsAcquire_keeps _ _ _ h3
      · split
        · exact State.ppsMiss_keeps _ (State.inc_keeps _ _ (State.setBit_keeps _ _ _ h3))
        · exact State.servo_keeps _ z h3
      · exact State.ppsAcquire_keeps _ _ _ (State.wr_keeps _ RTC_TBSTAT_STATE 1 h3)
      · exact h3

@[simp ↓] theorem State.follow_keeps {qp : List Instr} {qc : Nat} (s : State) (hs : Keeps qp qc s) :
    Keeps qp qc (State.follow s) := by
  unfold State.follow
  simp +contextual (maxDischargeDepth := 100) [*]

@[simp ↓] theorem State.calRead_keeps {qp : List Instr} {qc : Nat} (s : State) (o k : Nat) (hs : Keeps qp qc s) :
    Keeps qp qc (State.calRead s o k).2 := by
  unfold State.calRead
  simp +contextual (maxDischargeDepth := 100) [*]

@[simp ↓] theorem State.hedgeWrite_keeps {qp : List Instr} {qc : Nat} (s : State) (r : Nat) (w : Word) (hs : Keeps qp qc s) :
    Keeps qp qc (State.hedgeWrite s r w) := by
  unfold State.hedgeWrite
  simp +contextual (maxDischargeDepth := 100) [*]

@[simp ↓] theorem State.safeLeave_keeps {qp : List Instr} {qc : Nat} (s : State) (hs : Keeps qp qc s) :
    Keeps qp qc (State.safeLeave s) := by
  unfold State.safeLeave
  simp +contextual (maxDischargeDepth := 100) [*]

@[simp ↓] theorem State.hdgCmd_keeps {qp : List Instr} {qc : Nat} (s : State) (w : Word) (hs : Keeps qp qc s) :
    Keeps qp qc (State.hdgCmd s w) := by
  unfold State.hdgCmd
  simp +contextual (maxDischargeDepth := 100) [*]

@[simp ↓] theorem State.loopBit_keeps {qp : List Instr} {qc : Nat} (s : State) (n : Nat) (ok : Bool) (hs : Keeps qp qc s) :
    Keeps qp qc (State.loopBit s n ok) := by
  unfold State.loopBit
  simp +contextual (maxDischargeDepth := 100) [*]

end Sys2Proof.Machine
end

