-- ==== Sys2Proof/Laws/KeepSense.lean ====
section
/-!
SUPPORT. What every shared operation keeps: memory and registers canonical, the command queue as it is, a clock that
never runs back, no queue past its depth. Here: inputs, yield, modem, rings and update.
-/
set_option linter.all false
namespace Sys2Proof.Machine

@[simp ↓] theorem State.calBegin_keeps {qp : List Instr} {qc : Nat} (s : State) (k : Cal) (hs : Keeps qp qc s) :
    Keeps qp qc (State.calBegin s k) := by
  unfold State.calBegin
  simp +contextual (maxDischargeDepth := 100) [*]

@[simp ↓] theorem State.calNext_keeps {qp : List Instr} {qc : Nat} (s : State) (hs : Keeps qp qc s) :
    Keeps qp qc (State.calNext s) := by
  unfold State.calNext
  (repeat' split) <;> simp +contextual (maxDischargeDepth := 100) [*]

@[simp ↓] theorem State.calEnd_keeps {qp : List Instr} {qc : Nat} (s : State) (hs : Keeps qp qc s) :
    Keeps qp qc (State.calEnd s) := by
  unfold State.calEnd
  first
  | (simp +contextual (maxDischargeDepth := 100) [*]; done)
  | (repeat' split) <;> (simp +contextual (maxDischargeDepth := 100) [*]; done)
  | (dsimp only; (repeat' first | (simp +contextual (maxDischargeDepth := 100) [*]; done) | split); done)
  | ((simp +contextual (maxDischargeDepth := 100) [*]; repeat' first | (simp +contextual (maxDischargeDepth := 100) [*]; done) | split); done)
  | ((simp +contextual (maxDischargeDepth := 100) [*]; (repeat' split) <;> (simp +contextual (maxDischargeDepth := 100) [*]; done)); done)



@[simp ↓] theorem State.chcfgWrite_keeps {qp : List Instr} {qc : Nat} (s : State) (c : Nat) (w : Word) (hs : Keeps qp qc s) :
    Keeps qp qc (State.chcfgWrite s c w) := by
  unfold State.chcfgWrite
  dsimp only
  repeat' first | (simp +contextual (maxDischargeDepth := 100) [*]; done) | split

@[simp ↓] theorem State.shadowAgain_keeps {qp : List Instr} {qc : Nat} (s : State) (c t : Nat) (hs : Keeps qp qc s) :
    Keeps qp qc (State.shadowAgain s c t) := by
  unfold State.shadowAgain
  first
  | (simp +contextual (maxDischargeDepth := 100) [*]; done)
  | (repeat' split) <;> (simp +contextual (maxDischargeDepth := 100) [*]; done)
  | (dsimp only; (repeat' first | (simp +contextual (maxDischargeDepth := 100) [*]; done) | split); done)
  | ((simp +contextual (maxDischargeDepth := 100) [*]; repeat' first | (simp +contextual (maxDischargeDepth := 100) [*]; done) | split); done)
  | ((simp +contextual (maxDischargeDepth := 100) [*]; (repeat' split) <;> (simp +contextual (maxDischargeDepth := 100) [*]; done)); done)

@[simp ↓] theorem State.reassign_keeps {qp : List Instr} {qc : Nat} (s : State) (c : Nat) (hs : Keeps qp qc s) :
    Keeps qp qc (State.reassign s c) := by
  unfold State.reassign
  first
  | (simp +contextual (maxDischargeDepth := 100) [*]; done)
  | (repeat' split) <;> (simp +contextual (maxDischargeDepth := 100) [*]; done)
  | (dsimp only; (repeat' first | (simp +contextual (maxDischargeDepth := 100) [*]; done) | split); done)
  | ((simp +contextual (maxDischargeDepth := 100) [*]; repeat' first | (simp +contextual (maxDischargeDepth := 100) [*]; done) | split); done)
  | ((simp +contextual (maxDischargeDepth := 100) [*]; (repeat' split) <;> (simp +contextual (maxDischargeDepth := 100) [*]; done)); done)

@[simp ↓] theorem State.chcfgTake_keeps {qp : List Instr} {qc : Nat} (s : State) (c : Nat) (hs : Keeps qp qc s) :
    Keeps qp qc (State.chcfgTake s c) := by
  unfold State.chcfgTake
  simp +contextual (maxDischargeDepth := 100) [*]

@[simp ↓] theorem State.putCoefs_keeps {qp : List Instr} {qc : Nat} (s : State) (c sl : Nat) (x : Coefs) (hs : Keeps qp qc s) :
    Keeps qp qc (State.putCoefs s c sl x) := by
  unfold State.putCoefs
  simp +contextual (maxDischargeDepth := 100) [*]

@[simp ↓] theorem State.excursions_keeps {qp : List Instr} {qc : Nat} (s : State) (c sl n : Nat) (hs : Keeps qp qc s) :
    Keeps qp qc (State.excursions s c sl n) := by
  unfold State.excursions
  simp +contextual (maxDischargeDepth := 100) [*]

@[simp ↓] theorem State.coefLoad_keeps {qp : List Instr} {qc : Nat} (s : State) (c sl : Nat) (x : Coefs) (hs : Keeps qp qc s) :
    Keeps qp qc (State.coefLoad s c sl x) := by
  unfold State.coefLoad
  first
  | (simp +contextual (maxDischargeDepth := 100) [*]; done)
  | (repeat' split) <;> (simp +contextual (maxDischargeDepth := 100) [*]; done)
  | (dsimp only; (repeat' first | (simp +contextual (maxDischargeDepth := 100) [*]; done) | split); done)
  | ((simp +contextual (maxDischargeDepth := 100) [*]; repeat' first | (simp +contextual (maxDischargeDepth := 100) [*]; done) | split); done)
  | ((simp +contextual (maxDischargeDepth := 100) [*]; (repeat' split) <;> (simp +contextual (maxDischargeDepth := 100) [*]; done)); done)

@[simp ↓] theorem State.blindMove_keeps {qp : List Instr} {qc : Nat} (s : State) (c sl : Nat) (x : Coefs) (hs : Keeps qp qc s) :
    Keeps qp qc (State.blindMove s c sl x) := by
  unfold State.blindMove
  first
  | (simp +contextual (maxDischargeDepth := 100) [*]; done)
  | (repeat' split) <;> (simp +contextual (maxDischargeDepth := 100) [*]; done)
  | (dsimp only; (repeat' first | (simp +contextual (maxDischargeDepth := 100) [*]; done) | split); done)
  | ((simp +contextual (maxDischargeDepth := 100) [*]; repeat' first | (simp +contextual (maxDischargeDepth := 100) [*]; done) | split); done)
  | ((simp +contextual (maxDischargeDepth := 100) [*]; (repeat' split) <;> (simp +contextual (maxDischargeDepth := 100) [*]; done)); done)

@[simp ↓] theorem State.putShadow_keeps {qp : List Instr} {qc : Nat} (s : State) (c sl : Nat) (r : Residual) (x : Coefs) (hs : Keeps qp qc s) :
    Keeps qp qc (State.putShadow s c sl r x) := by
  unfold State.putShadow
  simp +contextual (maxDischargeDepth := 100) [*]

@[simp ↓] theorem State.stepTo_keeps {qp : List Instr} {qc : Nat} (s : State) (c step : Nat) (hs : Keeps qp qc s) :
    Keeps qp qc (State.stepTo s c step) := by
  unfold State.stepTo
  simp +contextual (maxDischargeDepth := 100) [*]

@[simp ↓] theorem State.rotStart_keeps {qp : List Instr} {qc : Nat} (s : State) (hs : Keeps qp qc s) :
    Keeps qp qc (State.rotStart s) := by
  unfold State.rotStart
  first
  | (simp +contextual (maxDischargeDepth := 100) [*]; done)
  | (repeat' split) <;> (simp +contextual (maxDischargeDepth := 100) [*]; done)
  | (dsimp only; (repeat' first | (simp +contextual (maxDischargeDepth := 100) [*]; done) | split); done)
  | ((simp +contextual (maxDischargeDepth := 100) [*]; repeat' first | (simp +contextual (maxDischargeDepth := 100) [*]; done) | split); done)
  | ((simp +contextual (maxDischargeDepth := 100) [*]; (repeat' split) <;> (simp +contextual (maxDischargeDepth := 100) [*]; done)); done)

@[simp ↓] theorem State.rotChange_keeps {qp : List Instr} {qc : Nat} (s : State) (q : Nat) (hs : Keeps qp qc s) :
    Keeps qp qc (State.rotChange s q) := by
  unfold State.rotChange
  first
  | (simp +contextual (maxDischargeDepth := 100) [*]; done)
  | (repeat' split) <;> (simp +contextual (maxDischargeDepth := 100) [*]; done)
  | (dsimp only; (repeat' first | (simp +contextual (maxDischargeDepth := 100) [*]; done) | split); done)
  | ((simp +contextual (maxDischargeDepth := 100) [*]; repeat' first | (simp +contextual (maxDischargeDepth := 100) [*]; done) | split); done)
  | ((simp +contextual (maxDischargeDepth := 100) [*]; (repeat' split) <;> (simp +contextual (maxDischargeDepth := 100) [*]; done)); done)

@[simp ↓] theorem State.phaseMark_keeps {qp : List Instr} {qc : Nat} (s : State) (c : Nat) (hs : Keeps qp qc s) :
    Keeps qp qc (State.phaseMark s c) := by
  unfold State.phaseMark
  first
  | (simp +contextual (maxDischargeDepth := 100) [*]; done)
  | (repeat' split) <;> (simp +contextual (maxDischargeDepth := 100) [*]; done)
  | (dsimp only; (repeat' first | (simp +contextual (maxDischargeDepth := 100) [*]; done) | split); done)
  | ((simp +contextual (maxDischargeDepth := 100) [*]; repeat' first | (simp +contextual (maxDischargeDepth := 100) [*]; done) | split); done)
  | ((simp +contextual (maxDischargeDepth := 100) [*]; (repeat' split) <;> (simp +contextual (maxDischargeDepth := 100) [*]; done)); done)

@[simp ↓] theorem State.handover_keeps {qp : List Instr} {qc : Nat} (s : State) (c : Nat) (r : Residual) (x : Coefs) (hs : Keeps qp qc s) :
    Keeps qp qc (State.handover s c r x) := by
  unfold State.handover
  simp +contextual (maxDischargeDepth := 100) [*]

@[simp ↓] theorem State.retired_keeps {qp : List Instr} {qc : Nat} (s : State) (c sl cause : Nat) (hs : Keeps qp qc s) :
    Keeps qp qc (State.retired s c sl cause) := by
  unfold State.retired
  simp +contextual (maxDischargeDepth := 100) [*]

@[simp ↓] theorem State.takePhase_keeps {qp : List Instr} {qc : Nat} (s : State) (c sl : Nat) (hs : Keeps qp qc s) :
    Keeps qp qc (State.takePhase s c sl) := by
  unfold State.takePhase
  simp +contextual (maxDischargeDepth := 100) [*]

@[simp ↓] theorem State.retireBegin_keeps {qp : List Instr} {qc : Nat} (s : State) (c sl cause : Nat) (hs : Keeps qp qc s) :
    Keeps qp qc (State.retireBegin s c sl cause) := by
  unfold State.retireBegin
  simp +contextual (maxDischargeDepth := 100) [*]

@[simp ↓] theorem State.putPga_keeps {qp : List Instr} {qc : Nat} (s : State) (c : Nat) (all : Bool) (pga : List Int) (hs : Keeps qp qc s) :
    Keeps qp qc (State.putPga s c all pga) := by
  unfold State.putPga
  first
  | (simp +contextual (maxDischargeDepth := 100) [*]; done)
  | (repeat' split) <;> (simp +contextual (maxDischargeDepth := 100) [*]; done)
  | (dsimp only; (repeat' first | (simp +contextual (maxDischargeDepth := 100) [*]; done) | split); done)
  | ((simp +contextual (maxDischargeDepth := 100) [*]; repeat' first | (simp +contextual (maxDischargeDepth := 100) [*]; done) | split); done)
  | ((simp +contextual (maxDischargeDepth := 100) [*]; (repeat' split) <;> (simp +contextual (maxDischargeDepth := 100) [*]; done)); done)

@[simp ↓] theorem State.calChannel_keeps {qp : List Instr} {qc : Nat} (s : State) (all : Bool) (o : CalOut) (hs : Keeps qp qc s) :
    Keeps qp qc (State.calChannel s all o) := by
  unfold State.calChannel
  first
  | (simp +contextual (maxDischargeDepth := 100) [*]; done)
  | (repeat' split) <;> (simp +contextual (maxDischargeDepth := 100) [*]; done)
  | (dsimp only; (repeat' first | (simp +contextual (maxDischargeDepth := 100) [*]; done) | split); done)
  | ((simp +contextual (maxDischargeDepth := 100) [*]; repeat' first | (simp +contextual (maxDischargeDepth := 100) [*]; done) | split); done)
  | ((simp +contextual (maxDischargeDepth := 100) [*]; (repeat' split) <;> (simp +contextual (maxDischargeDepth := 100) [*]; done)); done)

@[simp ↓] theorem State.anaCmd_keeps {qp : List Instr} {qc : Nat} (s : State) (w : Word) (hs : Keeps qp qc s) :
    Keeps qp qc (State.anaCmd s w) := by
  unfold State.anaCmd
  simp +contextual (maxDischargeDepth := 100) [*]

@[simp ↓] theorem State.gangPut_keeps {qp : List Instr} {qc : Nat} (s : State) (k m : Nat) (hs : Keeps qp qc s) :
    Keeps qp qc (State.gangPut s k m) := by
  unfold State.gangPut
  first
  | (simp +contextual (maxDischargeDepth := 100) [*]; done)
  | (repeat' split) <;> (simp +contextual (maxDischargeDepth := 100) [*]; done)
  | (dsimp only; (repeat' first | (simp +contextual (maxDischargeDepth := 100) [*]; done) | split); done)
  | ((simp +contextual (maxDischargeDepth := 100) [*]; repeat' first | (simp +contextual (maxDischargeDepth := 100) [*]; done) | split); done)
  | ((simp +contextual (maxDischargeDepth := 100) [*]; (repeat' split) <;> (simp +contextual (maxDischargeDepth := 100) [*]; done)); done)

@[simp ↓] theorem State.gangWrite_keeps {qp : List Instr} {qc : Nat} (s : State) (k : Nat) (w : Word) (hs : Keeps qp qc s) :
    Keeps qp qc (State.gangWrite s k w) := by
  unfold State.gangWrite
  simp +contextual (maxDischargeDepth := 100) [*]

@[simp ↓] theorem State.refCUp_keeps {qp : List Instr} {qc : Nat} (s : State) (hs : Keeps qp qc s) :
    Keeps qp qc (State.refCUp s) := by
  unfold State.refCUp
  simp +contextual (maxDischargeDepth := 100) [*]

@[simp ↓] theorem State.refRetire_keeps {qp : List Instr} {qc : Nat} (s : State) (r : Nat) (hs : Keeps qp qc s) :
    Keeps qp qc (State.refRetire s r) := by
  unfold State.refRetire
  simp +contextual (maxDischargeDepth := 100) [*]

@[simp ↓] theorem State.disagree_keeps {qp : List Instr} {qc : Nat} (s : State) (d : Int) (hs : Keeps qp qc s) :
    Keeps qp qc (State.disagree s d) := by
  unfold State.disagree
  simp +contextual (maxDischargeDepth := 100) [*]

@[simp ↓] theorem State.slcCmd_keeps {qp : List Instr} {qc : Nat} (s : State) (op c sl : Nat) (hs : Keeps qp qc s) :
    Keeps qp qc (State.slcCmd s op c sl) := by
  unfold State.slcCmd
  (repeat' split) <;> simp +contextual (maxDischargeDepth := 100) [*]

@[simp ↓] theorem State.slcCtlWrite_keeps {qp : List Instr} {qc : Nat} (s : State) (w : Word) (hs : Keeps qp qc s) :
    Keeps qp qc (State.slcCtlWrite s w) := by
  unfold State.slcCtlWrite
  simp +contextual (maxDischargeDepth := 100) [*]

@[simp ↓] theorem State.slcTolWrite_keeps {qp : List Instr} {qc : Nat} (s : State) (w : Word) (hs : Keeps qp qc s) :
    Keeps qp qc (State.slcTolWrite s w) := by
  unfold State.slcTolWrite
  simp +contextual (maxDischargeDepth := 100) [*]

@[simp ↓] theorem State.logWrite_keeps {qp : List Instr} {qc : Nat} (s : State) (r : LogRec) (hs : Keeps qp qc s) :
    Keeps qp qc (State.logWrite s r) := by
  unfold State.logWrite
  dsimp only
  repeat' first | (simp +contextual (maxDischargeDepth := 100) [*]; done) | split

@[simp ↓] theorem State.yldItem_keeps {qp : List Instr} {qc : Nat} (s : State) (i : Nat) (hs : Keeps qp qc s) :
    Keeps qp qc (State.yldItem s i) := by
  unfold State.yldItem
  simp +contextual (maxDischargeDepth := 100) [*]

@[simp ↓] theorem State.yldRun_keeps {qp : List Instr} {qc : Nat} (s : State) (hs : Keeps qp qc s) :
    Keeps qp qc (State.yldRun s) := by
  unfold State.yldRun
  simp +contextual (maxDischargeDepth := 100) [*]

@[simp ↓] theorem State.yldEvents_keeps {qp : List Instr} {qc : Nat} (s : State) (hs : Keeps qp qc s) :
    Keeps qp qc (State.yldEvents s) := by
  unfold State.yldEvents
  simp +contextual (maxDischargeDepth := 100) [*]

@[simp ↓] theorem State.yldMeasure_keeps {qp : List Instr} {qc : Nat} (s : State) (cell cycles : Word) (osc : List Word) (hs : Keeps qp qc s) :
    Keeps qp qc (State.yldMeasure s cell cycles osc) := by
  unfold State.yldMeasure
  simp +contextual (maxDischargeDepth := 100) [*]

@[simp ↓] theorem State.yldStore_keeps {qp : List Instr} {qc : Nat} (s : State) (day : Nat) (vals : List Nat) (hs : Keeps qp qc s) :
    Keeps qp qc (State.yldStore s day vals) := by
  unfold State.yldStore
  simp +contextual (maxDischargeDepth := 100) [*]

@[simp ↓] theorem State.yldLoad_keeps {qp : List Instr} {qc : Nat} (s : State) (hs : Keeps qp qc s) :
    Keeps qp qc (State.yldLoad s) := by
  unfold State.yldLoad
  extract_lets days sorted cold s1 s2 top
  clear_value sorted
  have h1 : Keeps qp qc s1 := by simp only [s1, Keeps_mk, OkP_eta, hs]
  have h2 : Keeps qp qc s2 := by
    simp only [s2]
    split
    · exact Keeps_foldl (fun t x ht => Keeps_ite (State.wr_keeps _ _ _ ht) ht) h1
    · exact h1
  clear_value s2 cold
  split
  · extract_lets s3 s4 ex
    have h3 : Keeps qp qc s3 := Keeps_ite (State.wr_keeps _ _ _ (State.wr_keeps _ _ _ h2)) h2
    have h4 : Keeps qp qc s4 := Keeps_foldl (fun t x ht => State.wr_keeps _ _ _ (State.wr_keeps _ _ _ ht)) h3
    clear_value s4 ex
    simp only [Keeps_mk, OkP_eta, h4]
  · exact h2

@[simp ↓] theorem State.msdStop_keeps {qp : List Instr} {qc : Nat} (s : State) (k : Nat) (hs : Keeps qp qc s) :
    Keeps qp qc (State.msdStop s k) := by
  unfold State.msdStop
  simp +contextual (maxDischargeDepth := 100) [*]

@[simp ↓] theorem State.msdStart_keeps {qp : List Instr} {qc : Nat} (s : State) (hs : Keeps qp qc s) :
    Keeps qp qc (State.msdStart s) := by
  unfold State.msdStart
  simp +contextual (maxDischargeDepth := 100) [*]

@[simp ↓] theorem State.msdSelect_keeps {qp : List Instr} {qc : Nat} (s : State) (p : Nat) (hs : Keeps qp qc s) :
    Keeps qp qc (State.msdSelect s p).2 := by
  unfold State.msdSelect
  simp +contextual (maxDischargeDepth := 100) [*]

@[simp ↓] theorem State.dutyHold_keeps {qp : List Instr} {qc : Nat} (s : State) (hs : Keeps qp qc s) :
    Keeps qp qc (State.dutyHold s) := by
  unfold State.dutyHold
  simp +contextual (maxDischargeDepth := 100) [*]

@[simp ↓] theorem State.duoSend_keeps {qp : List Instr} {qc : Nat} (s : State) (syms : Nat) (bytes : List Byte) (desc : Option Nat) (hs : Keeps qp qc s) :
    Keeps qp qc (State.duoSend s syms bytes desc) := by
  unfold State.duoSend
  simp +contextual (maxDischargeDepth := 100) [*]

@[simp ↓] theorem State.duoQuiet_keeps {qp : List Instr} {qc : Nat} (s : State) (hs : Keeps qp qc s) :
    Keeps qp qc (State.duoQuiet s) := by
  unfold State.duoQuiet
  simp +contextual (maxDischargeDepth := 100) [*]

@[simp ↓] theorem State.duoHedge_keeps {qp : List Instr} {qc : Nat} (s : State) (hs : Keeps qp qc s) :
    Keeps qp qc (State.duoHedge s) := by
  unfold State.duoHedge
  simp +contextual (maxDischargeDepth := 100) [*]

@[simp ↓] theorem State.descState_keeps {qp : List Instr} {qc : Nat} (s : State) (d : TxDesc) (st : Nat) (hs : Keeps qp qc s) :
    Keeps qp qc (State.descState s d st) := by
  unfold State.descState
  simp +contextual (maxDischargeDepth := 100) [*]

@[simp ↓] theorem State.descEnd_keeps {qp : List Instr} {qc : Nat} (s : State) (d : TxDesc) (st : Nat) (hs : Keeps qp qc s) :
    Keeps qp qc (State.descEnd s d st) := by
  unfold State.descEnd
  have h := State.descState_keeps s d st hs
  exact KeepsP.duo h (Nat.le_trans (List.length_filter_le _ _) h.duo_le)

@[simp ↓] theorem State.descDone_keeps {qp : List Instr} {qc : Nat} (s : State) (d : TxDesc) (hs : Keeps qp qc s) :
    Keeps qp qc (State.descDone s d) := by
  unfold State.descDone
  simp +contextual (maxDischargeDepth := 100) [*]

@[simp ↓] theorem State.descPut_keeps {qp : List Instr} {qc : Nat} (s : State) (d : TxDesc) (hs : Keeps qp qc s) :
    Keeps qp qc (State.descPut s d) := by
  unfold State.descPut
  exact KeepsP.duo hs (by simpa using hs.duo_le)

@[simp ↓] theorem State.acked_keeps {qp : List Instr} {qc : Nat} (s : State) (n seq : Nat) (hs : Keeps qp qc s) :
    Keeps qp qc (State.acked s n seq) := by
  unfold State.acked
  (repeat' split) <;> simp +contextual (maxDischargeDepth := 100) [*]

@[simp ↓] theorem State.setNode_keeps {qp : List Instr} {qc : Nat} (s : State) (n : Nat) (hs : Keeps qp qc s) :
    Keeps qp qc (State.setNode s n) := by
  unfold State.setNode
  simp +contextual (maxDischargeDepth := 100) [*]

@[simp ↓] theorem State.descAll_keeps {qp : List Instr} {qc : Nat} (s : State) (st : Nat) (hs : Keeps qp qc s) :
    Keeps qp qc (State.descAll s st) := by
  unfold State.descAll
  simp +contextual (maxDischargeDepth := 100) [*]

@[simp ↓] theorem State.periodStart_keeps {qp : List Instr} {qc : Nat} (s : State) (hs : Keeps qp qc s) :
    Keeps qp qc (State.periodStart s) := by
  unfold State.periodStart
  simp +contextual (maxDischargeDepth := 100) [*]

@[simp ↓] theorem State.periodLost_keeps {qp : List Instr} {qc : Nat} (s : State) (hs : Keeps qp qc s) :
    Keeps qp qc (State.periodLost s) := by
  unfold State.periodLost
  first
  | (simp +contextual (maxDischargeDepth := 100) [*]; done)
  | (repeat' split) <;> (simp +contextual (maxDischargeDepth := 100) [*]; done)
  | (dsimp only; (repeat' first | (simp +contextual (maxDischargeDepth := 100) [*]; done) | split); done)
  | ((simp +contextual (maxDischargeDepth := 100) [*]; repeat' first | (simp +contextual (maxDischargeDepth := 100) [*]; done) | split); done)
  | ((simp +contextual (maxDischargeDepth := 100) [*]; (repeat' split) <;> (simp +contextual (maxDischargeDepth := 100) [*]; done)); done)

@[simp ↓] theorem State.txPost_keeps {qp : List Instr} {qc : Nat} (s : State) (o : Nat) (a : Nat) (hs : Keeps qp qc s) :
    Keeps qp qc (State.txPost s o a) := by
  unfold State.txPost
  extract_lets
  rename_i res d s0 s1 bad s9
  have hr : ∀ t r, Keeps qp qc t → Keeps qp qc (res t r) := fun t r ht => ht
  have h1 : Keeps qp qc s1 := Keeps.of hs
  split
  · exact hr _ _ hs
  · split
    · exact hr _ _ hs
    · next hl =>
      split
      · exact State.descState_keeps _ _ _ h1
      · split
        · exact State.descState_keeps _ _ _ h1
        · have hd := State.descState_keeps s1 d 1 h1
          refine KeepsP.duo hd ?_
          rw [List.length_append, List.length_singleton]
          have : s1.duoQ = s.duoQ := rfl
          rw [this]
          omega

@[simp ↓] theorem State.rxStore_keeps {qp : List Instr} {qc : Nat} (s : State) (a w : Nat) (hs : Keeps qp qc s) :
    Keeps qp qc (State.rxStore s a w) := by
  unfold State.rxStore
  simp +contextual (maxDischargeDepth := 100) [*]

@[simp ↓] theorem State.rxPut_keeps {qp : List Instr} {qc : Nat} (s : State) (ws : List Nat) (hs : Keeps qp qc s) :
    Keeps qp qc (State.rxPut s ws) := by
  unfold State.rxPut
  simp +contextual (maxDischargeDepth := 100) [*]

@[simp ↓] theorem State.rxRecord_keeps {qp : List Instr} {qc : Nat} (s : State) (mode sy er snr : Nat) (bs : List Byte) (hs : Keeps qp qc s) :
    Keeps qp qc (State.rxRecord s mode sy er snr bs) := by
  unfold State.rxRecord
  simp +contextual (maxDischargeDepth := 100) [*]

@[simp ↓] theorem State.setGain_keeps {qp : List Instr} {qc : Nat} (s : State) (g : Nat) (hs : Keeps qp qc s) :
    Keeps qp qc (State.setGain s g) := by
  unfold State.setGain
  simp +contextual (maxDischargeDepth := 100) [*]

@[simp ↓] theorem State.sendDesc_keeps {qp : List Instr} {qc : Nat} (s : State) (d : TxDesc) (hs : Keeps qp qc s) :
    Keeps qp qc (State.sendDesc s d) := by
  unfold State.sendDesc
  simp +contextual (maxDischargeDepth := 100) [*]

@[simp ↓] theorem State.msdModem_keeps {qp : List Instr} {qc : Nat} (s : State) (sy er : Nat) (crc : Bool) (hs : Keeps qp qc s) :
    Keeps qp qc (State.msdModem s sy er crc).2.2 := by
  unfold State.msdModem
  simp +contextual (maxDischargeDepth := 100) [*]

@[simp ↓] theorem State.duoAccept_keeps {qp : List Instr} {qc : Nat} (s : State) (mode sy er snr : Nat) (bs : List Byte) (hs : Keeps qp qc s) :
    Keeps qp qc (State.duoAccept s mode sy er snr bs) := by
  unfold State.duoAccept
  simp +contextual (maxDischargeDepth := 100) [*]

@[simp ↓] theorem State.duoOff_keeps {qp : List Instr} {qc : Nat} (s : State) (hs : Keeps qp qc s) :
    Keeps qp qc (State.duoOff s) := by
  unfold State.duoOff
  simp +contextual (maxDischargeDepth := 100) [*]

@[simp ↓] theorem State.duoOn_keeps {qp : List Instr} {qc : Nat} (s : State) (hs : Keeps qp qc s) :
    Keeps qp qc (State.duoOn s) := by
  unfold State.duoOn
  simp +contextual (maxDischargeDepth := 100) [*]

@[simp ↓] theorem State.duoCtl_keeps {qp : List Instr} {qc : Nat} (s : State) (w : Word) (hs : Keeps qp qc s) :
    Keeps qp qc (State.duoCtl s w) := by
  unfold State.duoCtl
  simp +contextual (maxDischargeDepth := 100) [*]

@[simp ↓] theorem State.duoLevel_keeps {qp : List Instr} {qc : Nat} (s : State) (o : Nat) (w : Word) (hs : Keeps qp qc s) :
    Keeps qp qc (State.duoLevel s o w) := by
  unfold State.duoLevel
  simp +contextual (maxDischargeDepth := 100) [*]

@[simp ↓] theorem State.txGo_keeps {qp : List Instr} {qc : Nat} (s : State) (t : TxFrame) (hs : Keeps qp qc s) :
    Keeps qp qc (State.txGo s t) := by
  unfold State.txGo
  dsimp only
  repeat' first | (simp +contextual (maxDischargeDepth := 100) [*]; done) | split

@[simp ↓] theorem State.txPut_keeps {qp : List Instr} {qc : Nat} (s : State) (r : Nat) (f : Frame) (bad : Nat) (own : Bool) (hs : Keeps qp qc s) :
    Keeps qp qc (State.txPut s r f bad own) := by
  unfold State.txPut
  dsimp only
  repeat' first | (simp +contextual (maxDischargeDepth := 100) [*]; done) | split

@[simp ↓] theorem State.slotShow_keeps {qp : List Instr} {qc : Nat} (s : State) (hs : Keeps qp qc s) :
    Keeps qp qc (State.slotShow s) := by
  unfold State.slotShow
  simp +contextual (maxDischargeDepth := 100) [*]

@[simp ↓] theorem State.respFrame_keeps {qp : List Instr} {qc : Nat} (s : State) (q : Frame) (status : Nat) (arg1 arg2 : Option Nat) (pay : List Word) (hs : Keeps qp qc s) :
    Keeps qp qc (State.respFrame s q status arg1 arg2 pay).2 := by
  unfold State.respFrame
  simp +contextual (maxDischargeDepth := 100) [*]

@[simp ↓] theorem State.answer_keeps {qp : List Instr} {qc : Nat} (s : State) (ring : Nat) (q : Frame) (fs : List Frame) (hs : Keeps qp qc s) :
    Keeps qp qc (State.answer s ring q fs) := by
  unfold State.answer
  simp +contextual (maxDischargeDepth := 100) [*]

@[simp ↓] theorem State.reqFree_keeps {qp : List Instr} {qc : Nat} (s : State) (id : Nat) (hs : Keeps qp qc s) :
    Keeps qp qc (State.reqFree s id) := by
  unfold State.reqFree
  exact State.slotShow_keeps _ (KeepsP.rq hs (Nat.le_trans (List.length_filter_le _ _) hs.rq_le))

@[simp ↓] theorem State.respondAll_keeps {qp : List Instr} {qc : Nat} (s : State) (q : Request) (fs : List Frame) (hs : Keeps qp qc s) :
    Keeps qp qc (State.respondAll s q fs) := by
  unfold State.respondAll
  simp +contextual (maxDischargeDepth := 100) [*]

@[simp ↓] theorem State.respond_keeps {qp : List Instr} {qc : Nat} (s : State) (q : Request) (status : Nat) (arg2 : Option Nat) (pay : List Word) (hs : Keeps qp qc s) :
    Keeps qp qc (State.respond s q status arg2 pay) := by
  unfold State.respond
  simp +contextual (maxDischargeDepth := 100) [*]

@[simp ↓] theorem State.respondId_keeps {qp : List Instr} {qc : Nat} (s : State) (id status : Nat) (arg2 : Option Nat) (pay : List Word) (hs : Keeps qp qc s) :
    Keeps qp qc (State.respondId s id status arg2 pay) := by
  unfold State.respondId
  (repeat' split) <;> simp +contextual (maxDischargeDepth := 100) [*]

@[simp ↓] theorem State.reqBusy_keeps {qp : List Instr} {qc : Nat} (s : State) (id : Nat) (hs : Keeps qp qc s) :
    Keeps qp qc (State.reqBusy s id) := by
  unfold State.reqBusy
  exact KeepsP.rq hs (by simpa using hs.rq_le)

@[simp ↓] theorem State.dealShow_keeps {qp : List Instr} {qc : Nat} (s : State) (auth : Bool) (hs : Keeps qp qc s) :
    Keeps qp qc (State.dealShow s auth) := by
  unfold State.dealShow
  (repeat' split) <;> simp +contextual (maxDischargeDepth := 100) [*]

@[simp ↓] theorem State.dealEnd_keeps {qp : List Instr} {qc : Nat} (s : State) (res idx : Nat) (hs : Keeps qp qc s) :
    Keeps qp qc (State.dealEnd s res idx) := by
  have h : Keeps qp qc { s with deal := none } := KeepsP.dl hs (by simp)
  unfold State.dealEnd
  (simp +contextual (maxDischargeDepth := 100) [*])

@[simp ↓] theorem State.dealHand_keeps {qp : List Instr} {qc : Nat} (s : State) (w : Option (Nat × Nat × Nat)) (st : Nat) (hs : Keeps qp qc s) :
    Keeps qp qc (State.dealHand s w st) := by
  unfold State.dealHand
  (repeat' split) <;> simp +contextual (maxDischargeDepth := 100) [*]

@[simp ↓] theorem State.dealLate_keeps {qp : List Instr} {qc : Nat} (s : State) (res idx : Nat) (hs : Keeps qp qc s) :
    Keeps qp qc (State.dealLate s res idx) := by
  unfold State.dealLate
  simp +contextual (maxDischargeDepth := 100) [*]

@[simp ↓] theorem State.dealFurOff_keeps {qp : List Instr} {qc : Nat} (s : State) (n : Nat) (hs : Keeps qp qc s) :
    Keeps qp qc (State.dealFurOff s n) := by
  unfold State.dealFurOff
  (repeat' split) <;> simp +contextual (maxDischargeDepth := 100) [*]

@[simp ↓] theorem State.dealPlough_keeps {qp : List Instr} {qc : Nat} (s : State) (hs : Keeps qp qc s) :
    Keeps qp qc (State.dealPlough s) := by
  unfold State.dealPlough
  (repeat' split) <;> simp +contextual (maxDischargeDepth := 100) [*]

@[simp ↓] theorem State.dealSeed_keeps {qp : List Instr} {qc : Nat} (s : State) (hs : Keeps qp qc s) :
    Keeps qp qc (State.dealSeed s) := by
  have hc := hs.dl_le
  unfold State.dealSeed
  split
  · next d hd =>
    split
    · split
      · split
        · exact KeepsP.dl hs (by simpa using hc d hd)
        · exact hs
      · (simp +contextual (maxDischargeDepth := 100) [*])
    · (simp +contextual (maxDischargeDepth := 100) [*])
  · (simp +contextual (maxDischargeDepth := 100) [*])

@[simp ↓] theorem State.updShow_keeps {qp : List Instr} {qc : Nat} (s : State) (hs : Keeps qp qc s) :
    Keeps qp qc (State.updShow s) := by
  unfold State.updShow
  simp +contextual (maxDischargeDepth := 100) [*]

@[simp ↓] theorem State.setMark_keeps {qp : List Instr} {qc : Nat} (s : State) (k : Nat) (m : List Nat) (hs : Keeps qp qc s) :
    Keeps qp qc (State.setMark s k m) := by
  unfold State.setMark
  simp +contextual (maxDischargeDepth := 100) [*]

@[simp ↓] theorem State.setSel_keeps {qp : List Instr} {qc : Nat} (s : State) (p : List Nat) (hs : Keeps qp qc s) :
    Keeps qp qc (State.setSel s p) := by
  unfold State.setSel
  simp +contextual (maxDischargeDepth := 100) [*]

@[simp ↓] theorem State.updPush_keeps {qp : List Instr} {qc : Nat} (s : State) (y0 : List (Nat × Nat)) (y1 : List Nat) (hs : Keeps qp qc s) :
    Keeps qp qc (State.updPush s y0 y1).2.2 := by
  induction y0 generalizing s y1 with
  | nil => exact hs
  | cons e ws ih =>
    obtain ⟨a, v⟩ := e
    unfold State.updPush
    dsimp only
    split
    · exact hs
    · exact ih _ _ (State.nvPush_keeps _ _ _ _ _ _ hs)

@[simp ↓] theorem State.updKick_keeps {qp : List Instr} {qc : Nat} (s : State) (hs : Keeps qp qc s) :
    Keeps qp qc (State.updKick s) := by
  unfold State.updKick
  split
  · exact hs
  · exact State.commitReq_keeps _ _ (State.updPush_keeps _ _ _ hs)

@[simp ↓] theorem State.updJob_keeps {qp : List Instr} {qc : Nat} (s : State) (j : UpdJob) (hs : Keeps qp qc s) :
    Keeps qp qc (State.updJob s j) := by
  unfold State.updJob
  simp +contextual (maxDischargeDepth := 100) [*]

@[simp ↓] theorem State.updNext_keeps {qp : List Instr} {qc : Nat} (s : State) (j : UpdJob) (hs : Keeps qp qc s) :
    Keeps qp qc (State.updNext s j) := by
  unfold State.updNext
  simp +contextual (maxDischargeDepth := 100) [*]

@[simp ↓] theorem State.imgLoad_keeps {qp : List Instr} {qc : Nat} (s : State) (k : Nat) (hs : Keeps qp qc s) :
    Keeps qp qc (State.imgLoad s k) := by
  have h : Keeps qp qc { s with mem := s.mem.filter fun c => decide (fieldRam ≤ c.1) } :=
    KeepsP.mem hs (Sparse.filter_wf _ hs.1)
  unfold State.imgLoad
  refine State.wr_keeps _ _ _ (Keeps_foldl (fun t x ht => State.wrW_keeps _ _ _ ht) (Keeps_foldl (fun t x ht => State.setBytes_keeps _ _ _ ht) h))

@[simp ↓] theorem State.vec0_keeps {qp : List Instr} {qc : Nat} (s : State) (hs : Keeps qp qc s) :
    Keeps qp qc (State.vec0 s) := by
  unfold State.vec0
  simp +contextual (maxDischargeDepth := 100) [*]

@[simp ↓] theorem State.actReset_keeps {qp : List Instr} {qc : Nat} (s : State) (hs : Keeps qp qc s) :
    Keeps qp qc (State.actReset s) := by
  unfold State.actReset
  split
  · exact hs
  extract_lets keep m s1 s2
  have h1 : Keeps qp qc s1 := KeepsP.regs (KeepsP.thr (KeepsP.duo hs (Nat.zero_le _)) (Nat.zero_le _)) (Sparse.filter_wf _ hs.2.1)
  have h2 : Keeps qp qc s2 := Keeps_foldl (fun t x ht => State.rsMark_keeps _ _ ht) h1
  exact Keeps_foldl (fun t x ht => State.wr_keeps _ _ _ (State.wr_keeps _ _ _ (State.wr_keeps _ _ _ (State.wr_keeps _ _ _ ht)))) h2

@[simp ↓] theorem State.actStop_keeps {qp : List Instr} {qc : Nat} (s : State) (hs : Keeps qp qc s) :
    Keeps qp qc (State.actStop s) := by
  unfold State.actStop
  extract_lets s1 s2
  have h1 : Keeps qp qc s2 := State.msdStop_keeps _ _ (State.dealPlough_keeps _ hs)
  refine State.actReset_keeps _ (Keeps_foldl (fun t x ht => ?_) h1)
  split
  · exact State.drainFor_keeps _ _ _ _ _ _ ht
  · exact ht

@[simp ↓] theorem State.recover_keeps {qp : List Instr} {qc : Nat} (s : State) (hs : Keeps qp qc s) :
    Keeps qp qc (State.recover s) := by
  unfold State.recover
  simp +contextual (maxDischargeDepth := 100) [*]

@[simp ↓] theorem State.updFin_keeps {qp : List Instr} {qc : Nat} (s : State) (y0 : UpdFin) (hs : Keeps qp qc s) :
    Keeps qp qc (State.updFin s y0) := by
  unfold State.updFin
  (repeat' split) <;> simp +contextual (maxDischargeDepth := 100) [*]

@[simp ↓] theorem State.updClosed_keeps {qp : List Instr} {qc : Nat} (s : State) (hs : Keeps qp qc s) :
    Keeps qp qc (State.updClosed s) := by
  unfold State.updClosed
  (repeat' split) <;> simp +contextual (maxDischargeDepth := 100) [*]

@[simp ↓] theorem State.updBad_keeps {qp : List Instr} {qc : Nat} (s : State) (hs : Keeps qp qc s) :
    Keeps qp qc (State.updBad s) := by
  unfold State.updBad
  simp +contextual (maxDischargeDepth := 100) [*]

@[simp ↓] theorem State.updBegin_keeps {qp : List Instr} {qc : Nat} (s : State) (kind : Nat) (hs : Keeps qp qc s) :
    Keeps qp qc (State.updBegin s kind) := by
  unfold State.updBegin
  simp +contextual (maxDischargeDepth := 100) [*]

@[simp ↓] theorem State.updResume_keeps {qp : List Instr} {qc : Nat} (s : State) (hs : Keeps qp qc s) :
    Keeps qp qc (State.updResume s) := by
  unfold State.updResume
  simp +contextual (maxDischargeDepth := 100) [*]

@[simp ↓] theorem State.updVerify_keeps {qp : List Instr} {qc : Nat} (s : State) (hs : Keeps qp qc s) :
    Keeps qp qc (State.updVerify s) := by
  unfold State.updVerify
  simp +contextual (maxDischargeDepth := 100) [*]

@[simp ↓] theorem State.updCancel_keeps {qp : List Instr} {qc : Nat} (s : State) (hs : Keeps qp qc s) :
    Keeps qp qc (State.updCancel s) := by
  unfold State.updCancel
  simp +contextual (maxDischargeDepth := 100) [*]

@[simp ↓] theorem State.updBack_keeps {qp : List Instr} {qc : Nat} (s : State) (hs : Keeps qp qc s) :
    Keeps qp qc (State.updBack s) := by
  unfold State.updBack
  simp +contextual (maxDischargeDepth := 100) [*]

@[simp ↓] theorem State.updRevert_keeps {qp : List Instr} {qc : Nat} (s : State) (hs : Keeps qp qc s) :
    Keeps qp qc (State.updRevert s) := by
  unfold State.updRevert
  simp +contextual (maxDischargeDepth := 100) [*]

@[simp ↓] theorem State.updErase_keeps {qp : List Instr} {qc : Nat} (s : State) (hs : Keeps qp qc s) :
    Keeps qp qc (State.updErase s) := by
  unfold State.updErase
  simp +contextual (maxDischargeDepth := 100) [*]

@[simp ↓] theorem State.updCmd_keeps {qp : List Instr} {qc : Nat} (s : State) (op : Nat) (hs : Keeps qp qc s) :
    Keeps qp qc (State.updCmd s op) := by
  unfold State.updCmd
  (repeat' split) <;> simp +contextual (maxDischargeDepth := 100) [*]

@[simp ↓] theorem State.updVerified_keeps {qp : List Instr} {qc : Nat} (s : State) (hs : Keeps qp qc s) :
    Keeps qp qc (State.updVerified s) := by
  unfold State.updVerified
  simp +contextual (maxDischargeDepth := 100) [*]

@[simp ↓] theorem State.updGo_keeps {qp : List Instr} {qc : Nat} (s : State) (hs : Keeps qp qc s) :
    Keeps qp qc (State.updGo s) := by
  unfold State.updGo
  simp +contextual (maxDischargeDepth := 100) [*]

@[simp ↓] theorem State.updFurOff_keeps {qp : List Instr} {qc : Nat} (s : State) (n : Nat) (hs : Keeps qp qc s) :
    Keeps qp qc (State.updFurOff s n) := by
  unfold State.updFurOff
  (repeat' split) <;> simp +contextual (maxDischargeDepth := 100) [*]

@[simp ↓] theorem State.updConfirm_keeps {qp : List Instr} {qc : Nat} (s : State) (w : Word) (hs : Keeps qp qc s) :
    Keeps qp qc (State.updConfirm s w) := by
  unfold State.updConfirm
  simp +contextual (maxDischargeDepth := 100) [*]

@[simp ↓] theorem State.blockBad_keeps {qp : List Instr} {qc : Nat} (s : State) (q : Request) (hs : Keeps qp qc s) :
    Keeps qp qc (State.blockBad s q) := by
  unfold State.blockBad
  simp +contextual (maxDischargeDepth := 100) [*]

@[simp ↓] theorem State.dlBlock_keeps {qp : List Instr} {qc : Nat} (s : State) (q : Request) (bs : List Byte) (hs : Keeps qp qc s) :
    Keeps qp qc (State.dlBlock s q bs) := by
  unfold State.dlBlock
  dsimp only
  repeat' first | (simp +contextual (maxDischargeDepth := 100) [*]; done) | split

@[simp ↓] theorem State.seedMiss_keeps {qp : List Instr} {qc : Nat} (s : State) (i : Nat) (hs : Keeps qp qc s) :
    Keeps qp qc (State.seedMiss s i) := by
  unfold State.seedMiss
  simp +contextual (maxDischargeDepth := 100) [*]

@[simp ↓] theorem State.seedAdvance_keeps {qp : List Instr} {qc : Nat} (s : State) (i : Nat) (hs : Keeps qp qc s) :
    Keeps qp qc (State.seedAdvance s i) := by
  unfold State.seedAdvance
  simp +contextual (maxDischargeDepth := 100) [*]

@[simp ↓] theorem State.seedAct_keeps {qp : List Instr} {qc : Nat} (s : State) (i w3 : Nat) (hs : Keeps qp qc s) :
    Keeps qp qc (State.seedAct s i w3) := by
  unfold State.seedAct
  (repeat' split) <;> simp +contextual (maxDischargeDepth := 100) [*]

@[simp ↓] theorem State.seedSend_keeps {qp : List Instr} {qc : Nat} (s : State) (q : SeedWait) (hs : Keeps qp qc s) :
    Keeps qp qc (State.seedSend s q) := by
  unfold State.seedSend
  simp +contextual (maxDischargeDepth := 100) [*]

@[simp ↓] theorem State.seedLate_keeps {qp : List Instr} {qc : Nat} (s : State) (q : SeedWait) (hs : Keeps qp qc s) :
    Keeps qp qc (State.seedLate s q) := by
  unfold State.seedLate
  simp +contextual (maxDischargeDepth := 100) [*]

end Sys2Proof.Machine
end

