-- ==== Sys2Proof/Laws/KeepBus.lean ====
section
/-!
SUPPORT. What every shared operation keeps: memory and registers canonical, the command queue as it is, a clock that
never runs back, no queue past its depth. Here: streams and register accesses.
-/
set_option linter.all false
namespace Sys2Proof.Machine

@[simp ↓] theorem State.cmpTrip_keeps {qp : List Instr} {qc : Nat} (s : State) (k : Nat) (hs : Keeps qp qc s) :
    Keeps qp qc (State.cmpTrip s k) := by
  unfold State.cmpTrip
  simp +contextual (maxDischargeDepth := 100) [*]

@[simp ↓] theorem State.saturate_keeps {qp : List Instr} {qc : Nat} (s : State) (c m : Nat) (hs : Keeps qp qc s) :
    Keeps qp qc (State.saturate s c m) := by
  unfold State.saturate
  simp +contextual (maxDischargeDepth := 100) [*]

@[simp ↓] theorem State.convAll_keeps {qp : List Instr} {qc : Nat} (s : State) (c : Nat) (xs : List Int) (hs : Keeps qp qc s) :
    Keeps qp qc (State.convAll s c xs) := by
  unfold State.convAll
  first
  | (simp +contextual (maxDischargeDepth := 100) [*]; done)
  | (repeat' split) <;> (simp +contextual (maxDischargeDepth := 100) [*]; done)
  | (dsimp only; (repeat' first | (simp +contextual (maxDischargeDepth := 100) [*]; done) | split); done)
  | ((simp +contextual (maxDischargeDepth := 100) [*]; repeat' first | (simp +contextual (maxDischargeDepth := 100) [*]; done) | split); done)
  | ((simp +contextual (maxDischargeDepth := 100) [*]; (repeat' split) <;> (simp +contextual (maxDischargeDepth := 100) [*]; done)); done)

@[simp ↓] theorem State.coarseSample_keeps {qp : List Instr} {qc : Nat} (s : State) (c : Nat) (xs : List Int) (hs : Keeps qp qc s) :
    Keeps qp qc (State.coarseSample s c xs) := by
  unfold State.coarseSample
  first
  | (simp +contextual (maxDischargeDepth := 100) [*]; done)
  | (repeat' split) <;> (simp +contextual (maxDischargeDepth := 100) [*]; done)
  | (dsimp only; (repeat' first | (simp +contextual (maxDischargeDepth := 100) [*]; done) | split); done)
  | ((simp +contextual (maxDischargeDepth := 100) [*]; repeat' first | (simp +contextual (maxDischargeDepth := 100) [*]; done) | split); done)
  | ((simp +contextual (maxDischargeDepth := 100) [*]; (repeat' split) <;> (simp +contextual (maxDischargeDepth := 100) [*]; done)); done)

@[simp ↓] theorem State.wideSample_keeps {qp : List Instr} {qc : Nat} (s : State) (c : Nat) (xs : List Int) (hs : Keeps qp qc s) :
    Keeps qp qc (State.wideSample s c xs) := by
  unfold State.wideSample
  first
  | (simp +contextual (maxDischargeDepth := 100) [*]; done)
  | (repeat' split) <;> (simp +contextual (maxDischargeDepth := 100) [*]; done)
  | (dsimp only; (repeat' first | (simp +contextual (maxDischargeDepth := 100) [*]; done) | split); done)
  | ((simp +contextual (maxDischargeDepth := 100) [*]; repeat' first | (simp +contextual (maxDischargeDepth := 100) [*]; done) | split); done)
  | ((simp +contextual (maxDischargeDepth := 100) [*]; (repeat' split) <;> (simp +contextual (maxDischargeDepth := 100) [*]; done)); done)

@[simp ↓] theorem State.phasorsIn_keeps {qp : List Instr} {qc : Nat} (s : State) (c : Nat) (ps : List Phasor) (hs : Keeps qp qc s) :
    Keeps qp qc (State.phasorsIn s c ps) := by
  unfold State.phasorsIn
  first
  | (simp +contextual (maxDischargeDepth := 100) [*]; done)
  | (repeat' split) <;> (simp +contextual (maxDischargeDepth := 100) [*]; done)
  | (dsimp only; (repeat' first | (simp +contextual (maxDischargeDepth := 100) [*]; done) | split); done)
  | ((simp +contextual (maxDischargeDepth := 100) [*]; repeat' first | (simp +contextual (maxDischargeDepth := 100) [*]; done) | split); done)
  | ((simp +contextual (maxDischargeDepth := 100) [*]; (repeat' split) <;> (simp +contextual (maxDischargeDepth := 100) [*]; done)); done)

@[simp ↓] theorem State.fineSample_keeps {qp : List Instr} {qc : Nat} (s : State) (c : Nat) (xs : List Int) (ps : List Phasor) (hs : Keeps qp qc s) :
    Keeps qp qc (State.fineSample s c xs ps) := by
  unfold State.fineSample
  first
  | (simp +contextual (maxDischargeDepth := 100) [*]; done)
  | (repeat' split) <;> (simp +contextual (maxDischargeDepth := 100) [*]; done)
  | (dsimp only; (repeat' first | (simp +contextual (maxDischargeDepth := 100) [*]; done) | split); done)
  | ((simp +contextual (maxDischargeDepth := 100) [*]; repeat' first | (simp +contextual (maxDischargeDepth := 100) [*]; done) | split); done)
  | ((simp +contextual (maxDischargeDepth := 100) [*]; (repeat' split) <;> (simp +contextual (maxDischargeDepth := 100) [*]; done)); done)

@[simp ↓] theorem State.rawSample_keeps {qp : List Instr} {qc : Nat} (s : State) (c : Nat) (hs : Keeps qp qc s) :
    Keeps qp qc (State.rawSample s c) := by
  unfold State.rawSample
  first
  | (simp +contextual (maxDischargeDepth := 100) [*]; done)
  | (repeat' split) <;> (simp +contextual (maxDischargeDepth := 100) [*]; done)
  | (dsimp only; (repeat' first | (simp +contextual (maxDischargeDepth := 100) [*]; done) | split); done)
  | ((simp +contextual (maxDischargeDepth := 100) [*]; repeat' first | (simp +contextual (maxDischargeDepth := 100) [*]; done) | split); done)
  | ((simp +contextual (maxDischargeDepth := 100) [*]; (repeat' split) <;> (simp +contextual (maxDischargeDepth := 100) [*]; done)); done)

@[simp ↓] theorem State.rsWrite_keeps {qp : List Instr} {qc : Nat} (s : State) (n r : Nat) (w : Word) (hs : Keeps qp qc s) :
    Keeps qp qc (State.rsWrite s n r w) := by
  unfold State.rsWrite
  (repeat' split) <;> simp +contextual (maxDischargeDepth := 100) [*]

@[simp ↓] theorem State.unsealed_keeps {qp : List Instr} {qc : Nat} (s : State) (c : Nat) (t : State) (hs : Keeps qp qc s) (ht : Keeps qp qc t) :
    Keeps qp qc (State.unsealed s c t) := by
  unfold State.unsealed
  first
  | (simp +contextual (maxDischargeDepth := 100) [*]; done)
  | (repeat' split) <;> (simp +contextual (maxDischargeDepth := 100) [*]; done)
  | (dsimp only; (repeat' first | (simp +contextual (maxDischargeDepth := 100) [*]; done) | split); done)
  | ((simp +contextual (maxDischargeDepth := 100) [*]; repeat' first | (simp +contextual (maxDischargeDepth := 100) [*]; done) | split); done)
  | ((simp +contextual (maxDischargeDepth := 100) [*]; (repeat' split) <;> (simp +contextual (maxDischargeDepth := 100) [*]; done)); done)

@[simp ↓] theorem State.typedWrite_keeps {qp : List Instr} {qc : Nat} (s : State) (deal : Bool) (a : Nat) (w : Word) (hs : Keeps qp qc s) :
    Keeps qp qc (State.typedWrite s deal a w) := by
  unfold State.typedWrite
  simp +contextual (maxDischargeDepth := 100) [*]

@[simp ↓] theorem State.orElse_keeps {qp : List Instr} {qc : Nat} (s : State) (bad : Bool) (err : State → State) (deal : Bool) (a : Nat) (w : Word)
    (he : ∀ t, Keeps qp qc t → Keeps qp qc (err t)) (hs : Keeps qp qc s) : Keeps qp qc (State.orElse s bad err deal a w) := by
  unfold State.orElse
  split
  · exact he _ hs
  · exact State.typedWrite_keeps _ _ _ _ hs

@[simp ↓] theorem State.wrAna_keeps {qp : List Instr} {qc : Nat} (s : State) (deal : Bool) (a : Nat) (w : Word) (hs : Keeps qp qc s) :
    Keeps qp qc (State.wrAna s deal a w) := by
  unfold State.wrAna
  (repeat' split) <;> simp +contextual (maxDischargeDepth := 100) [*]

@[simp ↓] theorem State.wrFlt_keeps {qp : List Instr} {qc : Nat} (s : State) (deal : Bool) (a : Nat) (w : Word) (hs : Keeps qp qc s) :
    Keeps qp qc (State.wrFlt s deal a w) := by
  unfold State.wrFlt
  (repeat' split) <;> simp +contextual (maxDischargeDepth := 100) [*]

@[simp ↓] theorem State.awaitOff_keeps {qp : List Instr} {qc : Nat} (s : State) (n : Nat) (hs : Keeps qp qc s) :
    Keeps qp qc (State.awaitOff s n) := by
  unfold State.awaitOff
  refine Keeps_foldl (fun t x ht => ?_) hs
  split
  · (simp +contextual (maxDischargeDepth := 100) [*])
  · exact ht

@[simp ↓] theorem State.furDisable_keeps {qp : List Instr} {qc : Nat} (s : State) (n : Nat) (hs : Keeps qp qc s) :
    Keeps qp qc (State.furDisable s n) := by
  unfold State.furDisable
  simp +contextual (maxDischargeDepth := 100) [*]

@[simp ↓] theorem State.furCtlWrite_keeps {qp : List Instr} {qc : Nat} (s : State) (n : Nat) (w : Word) (hs : Keeps qp qc s) :
    Keeps qp qc (State.furCtlWrite s n w) := by
  unfold State.furCtlWrite
  simp +contextual (maxDischargeDepth := 100) [*]

@[simp ↓] theorem State.wrFur_keeps {qp : List Instr} {qc : Nat} (s : State) (deal : Bool) (a : Nat) (w : Word) (hs : Keeps qp qc s) :
    Keeps qp qc (State.wrFur s deal a w) := by
  unfold State.wrFur
  simp +contextual (maxDischargeDepth := 100) [*]

@[simp ↓] theorem State.wrSow_keeps {qp : List Instr} {qc : Nat} (s : State) (deal : Bool) (a : Nat) (w : Word) (hs : Keeps qp qc s) :
    Keeps qp qc (State.wrSow s deal a w) := by
  unfold State.wrSow
  simp +contextual (maxDischargeDepth := 100) [*]

@[simp ↓] theorem State.wrTal_keeps {qp : List Instr} {qc : Nat} (s : State) (o : Nat) (deal : Bool) (a : Nat) (w : Word) (hs : Keeps qp qc s) :
    Keeps qp qc (State.wrTal s o deal a w) := by
  unfold State.wrTal
  simp +contextual (maxDischargeDepth := 100) [*]

@[simp ↓] theorem State.plsChange_keeps {qp : List Instr} {qc : Nat} (s : State) (n : Nat) (const : Bool) (was : Word) (hs : Keeps qp qc s) :
    Keeps qp qc (State.plsChange s n const was) := by
  unfold State.plsChange
  simp +contextual (maxDischargeDepth := 100) [*]

@[simp ↓] theorem State.wrPls_keeps {qp : List Instr} {qc : Nat} (s : State) (deal : Bool) (a : Nat) (w : Word) (hs : Keeps qp qc s) :
    Keeps qp qc (State.wrPls s deal a w) := by
  unfold State.wrPls
  simp +contextual (maxDischargeDepth := 100) [*]

@[simp ↓] theorem State.wrThr_keeps {qp : List Instr} {qc : Nat} (s : State) (deal : Bool) (a : Nat) (w : Word) (hs : Keeps qp qc s) :
    Keeps qp qc (State.wrThr s deal a w) := by
  unfold State.wrThr
  dsimp only
  repeat' first | (simp +contextual (maxDischargeDepth := 100) [*]; done) | split

@[simp ↓] theorem State.wrPlg_keeps {qp : List Instr} {qc : Nat} (s : State) (deal : Bool) (a : Nat) (w : Word) (hs : Keeps qp qc s) :
    Keeps qp qc (State.wrPlg s deal a w) := by
  unfold State.wrPlg
  (repeat' split) <;> simp +contextual (maxDischargeDepth := 100) [*]

@[simp ↓] theorem State.wrInt_keeps {qp : List Instr} {qc : Nat} (s : State) (deal : Bool) (a : Nat) (w : Word) (hs : Keeps qp qc s) :
    Keeps qp qc (State.wrInt s deal a w) := by
  unfold State.wrInt
  (repeat' split) <;> simp +contextual (maxDischargeDepth := 100) [*]

@[simp ↓] theorem State.wrNvm_keeps {qp : List Instr} {qc : Nat} (s : State) (o : Nat) (deal : Bool) (a : Nat) (w : Word) (hs : Keeps qp qc s) :
    Keeps qp qc (State.wrNvm s o deal a w) := by
  unfold State.wrNvm
  simp +contextual (maxDischargeDepth := 100) [*]

@[simp ↓] theorem State.wrRtc_keeps {qp : List Instr} {qc : Nat} (s : State) (o : Nat) (deal : Bool) (a : Nat) (w : Word) (hs : Keeps qp qc s) :
    Keeps qp qc (State.wrRtc s o deal a w) := by
  unfold State.wrRtc
  simp +contextual (maxDischargeDepth := 100) [*]

@[simp ↓] theorem State.wrDuo_keeps {qp : List Instr} {qc : Nat} (s : State) (o : Nat) (deal : Bool) (a : Nat) (w : Word) (hs : Keeps qp qc s) :
    Keeps qp qc (State.wrDuo s o deal a w) := by
  unfold State.wrDuo
  simp +contextual (maxDischargeDepth := 100) [*]

@[simp ↓] theorem State.wrHdg_keeps {qp : List Instr} {qc : Nat} (s : State) (o : Nat) (deal : Bool) (a : Nat) (w : Word) (hs : Keeps qp qc s) :
    Keeps qp qc (State.wrHdg s o deal a w) := by
  unfold State.wrHdg
  simp +contextual (maxDischargeDepth := 100) [*]

@[simp ↓] theorem State.wrBal_keeps {qp : List Instr} {qc : Nat} (s : State) (deal : Bool) (a : Nat) (w : Word) (hs : Keeps qp qc s) :
    Keeps qp qc (State.wrBal s deal a w) := by
  unfold State.wrBal
  simp +contextual (maxDischargeDepth := 100) [*]

@[simp ↓] theorem State.regApply_keeps {qp : List Instr} {qc : Nat} (s : State) (o : Nat) (deal : Bool) (a : Nat) (w : Word) (hs : Keeps qp qc s) :
    Keeps qp qc (State.regApply s o deal a w) := by
  unfold State.regApply
  (repeat' split) <;> simp +contextual (maxDischargeDepth := 100) [*]

@[simp ↓] theorem State.readClear_keeps {qp : List Instr} {qc : Nat} (s : State) (a : Nat) (hs : Keeps qp qc s) :
    Keeps qp qc (State.readClear s a) := by
  unfold State.readClear
  simp +contextual (maxDischargeDepth := 100) [*]

@[simp ↓] theorem State.regRead_keeps {qp : List Instr} {qc : Nat} (s : State) (o : Orig) (a : Nat) (hs : Keeps qp qc s) :
    Keeps qp qc (State.regRead s o a).2 := by
  unfold State.regRead
  dsimp only
  repeat' first
    | ((simp +contextual (maxDischargeDepth := 100) [*]); done)
    | split

theorem State.senderWrite_keeps {qp : List Instr} {qc : Nat} (s : State) (o : Orig) (a : Nat) (w : Word) (hs : Keeps qp qc s) :
    ∀ r, State.senderWrite s o a w = some r → Keeps qp qc r.2 := by
  intro r h
  unfold State.senderWrite at h
  repeat' split at h
  all_goals cases h
  · exact State.jobPost_keeps _ _ _ hs
  · exact State.plgCmd_keeps _ _ _ hs
  · exact State.plgStart_keeps _ _ _ hs
  · exact State.kick_keeps _ _ _ _ hs

@[simp ↓] theorem State.rstWrite_keeps {qp : List Instr} {qc : Nat} (s : State) (w : Word) (hs : Keeps qp qc s) :
    Keeps qp qc (State.rstWrite s w) := by
  unfold State.rstWrite
  simp +contextual (maxDischargeDepth := 100) [*]

@[simp ↓] theorem State.duoStatWrite_keeps {qp : List Instr} {qc : Nat} (s : State) (w : Word) (hs : Keeps qp qc s) :
    Keeps qp qc (State.duoStatWrite s w) := by
  unfold State.duoStatWrite
  simp +contextual (maxDischargeDepth := 100) [*]

@[simp ↓] theorem State.regWrite_keeps {qp : List Instr} {qc : Nat} (s : State) (o : Orig) (a : Nat) (w : Word) (hs : Keeps qp qc s) :
    Keeps qp qc (State.regWrite s o a w).2 := by
  unfold State.regWrite
  extract_lets
  rename_i c host s1
  have h1 : Keeps qp qc s1 := State.regApply_keeps _ _ _ _ _ hs
  clear_value s1
  refine Keeps_ite2 (State.refuse_keeps _ _ _ _ hs) (Keeps_ite2 (State.regRefuse_keeps _ _ _ hs) (Keeps_ite2 (State.rstWrite_keeps _ _ hs)
    (Keeps_ite2 (State.refuse_keeps _ _ _ _ hs) (Keeps_ite2 (State.flag_keeps _ _ hs) ?_))))
  split
  · next b t h => exact State.senderWrite_keeps _ _ _ _ hs _ h
  · exact Keeps_ite2 (State.wrW_keeps _ _ _ (State.wr_keeps _ _ _ (State.inc_keeps _ _ h1))) h1

@[simp ↓] theorem State.wordRead_keeps {qp : List Instr} {qc : Nat} (s : State) (o : Orig) (a : Nat) (hs : Keeps qp qc s) :
    Keeps qp qc (State.wordRead s o a).2 := by
  unfold State.wordRead
  simp +contextual (maxDischargeDepth := 100) [*]

@[simp ↓] theorem State.hostRead_keeps {qp : List Instr} {qc : Nat} (s : State) (r : Fin 2) (a : Nat) (hs : Keeps qp qc s) :
    Keeps qp qc (State.hostRead s r a).2 := by
  unfold State.hostRead
  simp +contextual (maxDischargeDepth := 100) [*]

@[simp ↓] theorem State.hostWrite_keeps {qp : List Instr} {qc : Nat} (s : State) (r : Fin 2) (a : Nat) (w : Word) (hs : Keeps qp qc s) :
    Keeps qp qc (State.hostWrite s r a w).2 := by
  unfold State.hostWrite
  simp +contextual (maxDischargeDepth := 100) [*]

end Sys2Proof.Machine
end

