-- ==== Sys2Proof/Laws/KeepHand.lean ====
section
/-!
SUPPORT. What every shared operation keeps: memory and registers canonical, the command queue as it is, a clock that
never runs back, no queue past its depth. Here: instructions and deals.
-/
set_option linter.all false
namespace Sys2Proof.Machine

@[simp ↓] theorem State.loadOp_keeps {qp : List Instr} {qc : Nat} (s : State) (p h : Nat) (w : Word) (kind rd ra : Nat) (imm : BitVec 16) (n : Nat) (hs : Keeps qp qc s) :
    Keeps qp qc (State.loadOp s p h w kind rd ra imm n) := by
  unfold State.loadOp
  simp +contextual (maxDischargeDepth := 100) [*]

@[simp ↓] theorem State.storeOp_keeps {qp : List Instr} {qc : Nat} (s : State) (p h : Nat) (w : Word) (ra : Nat) (imm : BitVec 16) (n c : Nat) (f : Hand → List Byte) (hs : Keeps qp qc s) :
    Keeps qp qc (State.storeOp s p h w ra imm n c f) := by
  unfold State.storeOp
  simp +contextual (maxDischargeDepth := 100) [*]

@[simp ↓] theorem State.atomicOp_keeps {qp : List Instr} {qc : Nat} (s : State) (p h : Nat) (w : Word) (rd ra k : Nat) (f : Word → Hand → Option Word) (hs : Keeps qp qc s) :
    Keeps qp qc (State.atomicOp s p h w rd ra k f) := by
  unfold State.atomicOp
  refine State.issue_keeps _ _ _ _ _ (fun x t ht => State.afterStores_keeps _ _ _ _ (fun u hu => ?_) ht) hs
  extract_lets
  rename_i a b r s1 tw s2
  have h1 : Keeps qp qc s1 := State.access_keeps _ _ _ _ hu
  have h2 : Keeps qp qc s2 := by
    simp only [s2]
    split
    · exact State.store32_keeps _ _ _ h1
    · exact h1
  clear_value s1 s2
  exact Keeps_ite (State.dataRefused_keeps _ _ _ _ _ _ _ hu) (Keeps_ite (State.raise_keeps _ _ _ _ _ hu)
    (Keeps_ite (State.raise_keeps _ _ _ _ _ h1) (State.retire_keeps _ _ _ _ _ h2)))

@[simp ↓] theorem State.branchOp_keeps {qp : List Instr} {qc : Nat} (s : State) (p h : Nat) (w : Word) (off : BitVec 16) (c : Hand → Bool) (hs : Keeps qp qc s) :
    Keeps qp qc (State.branchOp s p h w off c) := by
  unfold State.branchOp
  simp +contextual (maxDischargeDepth := 100) [*]

@[simp ↓] theorem State.jumpOp_keeps {qp : List Instr} {qc : Nat} (s : State) (p h : Nat) (w : Word) (off : BitVec 26) (g : Hand → Hand) (hs : Keeps qp qc s) :
    Keeps qp qc (State.jumpOp s p h w off g) := by
  unfold State.jumpOp
  simp +contextual (maxDischargeDepth := 100) [*]

@[simp ↓] theorem State.dealRun_keeps {qp : List Instr} {qc : Nat} (s : State) (y0 : Nat) (y1 : List (Nat × Word)) (hs : Keeps qp qc s) :
    Keeps qp qc (State.dealRun s y0 y1).2 := by
  induction y1 generalizing s y0 with
  | nil => exact hs
  | cons e es ih =>
    obtain ⟨a, w⟩ := e
    unfold State.dealRun
    extract_lets
    rename_i t
    have h : Keeps qp qc t :=
      State.regApply_keeps _ _ _ _ _ (Keeps_foldl (fun t x ht => State.wr_keeps _ _ _ ht) hs)
    clear_value t
    exact Keeps_ite2 hs (Keeps_ite2 h (ih _ _ h))

@[simp ↓] theorem State.checkViol_keeps {qp : List Instr} {qc : Nat} (s : State) (es : List (Nat × Word)) (i : Nat) (hs : Keeps qp qc s) :
    Keeps qp qc (State.checkViol s es i) := by
  unfold State.checkViol
  (repeat' split) <;> simp +contextual (maxDischargeDepth := 100) [*]

@[simp ↓] theorem State.authVerify_keeps {qp : List Instr} {qc : Nat} (s : State) (msg : List Byte) (mac : Option (List Byte)) (hs : Keeps qp qc s) :
    Keeps qp qc (State.authVerify s msg mac).2 := by
  unfold State.authVerify
  simp +contextual (maxDischargeDepth := 100) [*]

theorem State.ceilPush_keeps {qp : List Instr} {qc : Nat} (s : State) (hs : Keeps qp qc s) : ∀ t, State.ceilPush s = some t → Keeps qp qc t := by
  intro t h
  unfold State.ceilPush at h
  dsimp only at h
  split at h
  · cases h
  · cases h
    exact State.commitReq_keeps _ _ (State.updPush_keeps _ _ _ hs)

@[simp ↓] theorem State.dealVerify_keeps {qp : List Instr} {qc : Nat} (s : State) (hs : Keeps qp qc s) :
    Keeps qp qc (State.dealVerify s) := by
  have hc := hs.dl_le
  unfold State.dealVerify
  split
  · next d hd =>
    split
    · next p hp =>
      split
      · have hr := State.authVerify_keeps s (s.playMsg d p) p.mac hs
        exact KeepsP.dl hr (by simpa using hc d hd)
      · exact hs
    · exact hs
  · exact hs

@[simp ↓] theorem State.ceilClosed_keeps {qp : List Instr} {qc : Nat} (s : State) (hs : Keeps qp qc s) :
    Keeps qp qc (State.ceilClosed s) := by
  unfold State.ceilClosed
  (repeat' split) <;> simp +contextual (maxDischargeDepth := 100) [*]

@[simp ↓] theorem State.dealOpen_keeps {qp : List Instr} {qc : Nat} (s : State) (owner tmo : Nat) (seed : Bool) (hs : Keeps qp qc s) :
    Keeps qp qc (State.dealOpen s owner tmo seed).2 := by
  unfold State.dealOpen
  split
  · exact hs
  · split
    · exact hs
    · exact State.dealShow_keeps _ _ (KeepsP.dl hs (by simp))

@[simp ↓] theorem State.dealEntry_keeps {qp : List Instr} {qc : Nat} (s : State) (owner a : Nat) (w : Word) (hs : Keeps qp qc s) :
    Keeps qp qc (State.dealEntry s owner a w).2 := by
  have hc := hs.dl_le
  unfold State.dealEntry
  split
  · next d hd =>
    have hd' : s.deal = some d := by
      unfold State.openDeal at hd
      split at hd
      · split at hd
        · cases hd; assumption
        · cases hd
      · cases hd
    split
    · exact hs
    · split
      · exact hs
      · refine State.dealShow_keeps _ _ (KeepsP.dl hs ?_)
        intro x hx
        cases hx
        simp only [List.length_append, List.length_singleton]
        omega
  · exact hs

@[simp ↓] theorem State.dealPlay_keeps {qp : List Instr} {qc : Nat} (s : State) (owner : Nat) (p : Play) (hs : Keeps qp qc s) :
    Keeps qp qc (State.dealPlay s owner p).2 := by
  have hc := hs.dl_le
  unfold State.dealPlay
  refine Keeps_ite2 hs ?_
  split
  · exact hs
  · next d hd =>
    have hd' : s.deal = some d := by
      unfold State.openDeal at hd
      split at hd
      · split at hd
        · cases hd; assumption
        · cases hd
      · cases hd
    have hold : ∀ (t : State) (q : Play), Keeps qp qc t → Keeps qp qc { t with deal := some { d with checking := some q } } :=
      fun t q ht => KeepsP.dl ht (fun x hx => by cases hx; exact hc d hd')
    refine Keeps_ite2 hs (Keeps_ite2 (hold _ _ hs) (Keeps_ite2 (hold _ _ hs) (Keeps_ite2 ?_ (State.dealVerify_keeps _ (hold _ _ hs)))))
    split
    · next t h => exact hold _ _ (State.ceilPush_keeps _ hs _ h)
    · exact hs

@[simp ↓] theorem State.dealFold_keeps {qp : List Instr} {qc : Nat} (s : State) (owner : Nat) (hs : Keeps qp qc s) :
    Keeps qp qc (State.dealFold s owner).2 := by
  unfold State.dealFold
  (repeat' split) <;> simp +contextual (maxDischargeDepth := 100) [*]

@[simp ↓] theorem State.playAnswer_keeps {qp : List Instr} {qc : Nat} (s : State) (p : Play) (st : Nat) (idx : Option Nat) (hand : Nat) (hs : Keeps qp qc s) :
    Keeps qp qc (State.playAnswer s p st idx hand) := by
  unfold State.playAnswer
  first
  | (simp +contextual (maxDischargeDepth := 100) [*]; done)
  | (repeat' split) <;> (simp +contextual (maxDischargeDepth := 100) [*]; done)
  | (dsimp only; (repeat' first | (simp +contextual (maxDischargeDepth := 100) [*]; done) | split); done)
  | ((simp +contextual (maxDischargeDepth := 100) [*]; repeat' first | (simp +contextual (maxDischargeDepth := 100) [*]; done) | split); done)
  | ((simp +contextual (maxDischargeDepth := 100) [*]; (repeat' split) <;> (simp +contextual (maxDischargeDepth := 100) [*]; done)); done)

@[simp ↓] theorem State.cfgPush_keeps {qp : List Instr} {qc : Nat} (s : State) (f : Nat) (hs : Keeps qp qc s) :
    Keeps qp qc (State.cfgPush s f) := by
  unfold State.cfgPush
  simp +contextual (maxDischargeDepth := 100) [*]

@[simp ↓] theorem State.dealApply_keeps {qp : List Instr} {qc : Nat} (s : State) (es : List (Nat × Word)) (hs : Keeps qp qc s) :
    Keeps qp qc (State.dealApply s es) := by
  unfold State.dealApply
  simp +contextual (maxDischargeDepth := 100) [*]

@[simp ↓] theorem State.dealCome_keeps {qp : List Instr} {qc : Nat} (s : State) (hs : Keeps qp qc s) :
    Keeps qp qc (State.dealCome s) := by
  unfold State.dealCome
  first
  | (simp +contextual (maxDischargeDepth := 100) [*]; done)
  | (repeat' split) <;> (simp +contextual (maxDischargeDepth := 100) [*]; done)
  | (dsimp only; (repeat' first | (simp +contextual (maxDischargeDepth := 100) [*]; done) | split); done)
  | ((simp +contextual (maxDischargeDepth := 100) [*]; repeat' first | (simp +contextual (maxDischargeDepth := 100) [*]; done) | split); done)
  | ((simp +contextual (maxDischargeDepth := 100) [*]; (repeat' split) <;> (simp +contextual (maxDischargeDepth := 100) [*]; done)); done)

@[simp ↓] theorem State.dreq_keeps {qp : List Instr} {qc : Nat} (s : State) (p h : Nat) (w : Word) (rd : Nat) (f : Hand → Nat → State → Nat × State) (hf : ∀ x n t, Keeps qp qc t → Keeps qp qc (f x n t).2) (hs : Keeps qp qc s) :
    Keeps qp qc (State.dreq s p h w rd f) := by
  unfold State.dreq
  refine State.issue_keeps _ _ _ _ _ (fun x t ht => State.afterStores_keeps _ _ _ _ (fun u hu => ?_) ht) hs
  exact State.retire_keeps _ _ _ _ _ (Keeps_ite2 hu (hf _ _ _ hu))

end Sys2Proof.Machine
end

