-- ==== Sys2Proof/Laws/KeepStep.lean ====
section
/-!
SUPPORT. What every shared operation keeps: memory and registers canonical, the command queue as it is, a clock that
never runs back, no queue past its depth. Here: frames, alarms, resets, start-up and the passing of time.
-/
set_option linter.all false
namespace Sys2Proof.Machine

@[simp ↓] theorem State.ringErrs_keeps {qp : List Instr} {qc : Nat} (s : State) (r n : Nat) (hs : Keeps qp qc s) :
    Keeps qp qc (State.ringErrs s r n) := by
  unfold State.ringErrs
  simp +contextual (maxDischargeDepth := 100) [*]

@[simp ↓] theorem State.forward_keeps {qp : List Instr} {qc : Nat} (s : State) (r : Nat) (f : Frame) (hs : Keeps qp qc s) :
    Keeps qp qc (State.forward s r f) := by
  unfold State.forward
  simp +contextual (maxDischargeDepth := 100) [*]

@[simp ↓] theorem State.enumIn_keeps {qp : List Instr} {qc : Nat} (s : State) (r : Nat) (f : Frame) (hs : Keeps qp qc s) :
    Keeps qp qc (State.enumIn s r f) := by
  unfold State.enumIn
  simp +contextual (maxDischargeDepth := 100) [*]

@[simp ↓] theorem State.ownFrame_keeps {qp : List Instr} {qc : Nat} (s : State) (op tag att arg1 : Nat) (pay : List Word) (hs : Keeps qp qc s) :
    Keeps qp qc (State.ownFrame s op tag att arg1 pay).2 := by
  unfold State.ownFrame
  simp +contextual (maxDischargeDepth := 100) [*]

@[simp ↓] theorem State.syncAdopt_keeps {qp : List Instr} {qc : Nat} (s : State) (r : Nat) (pay : List Word) (hs : Keeps qp qc s) :
    Keeps qp qc (State.syncAdopt s r pay) := by
  unfold State.syncAdopt
  simp +contextual (maxDischargeDepth := 100) [*]

@[simp ↓] theorem State.syncFurrow_keeps {qp : List Instr} {qc : Nat} (s : State) (pay : List Word) (n : Nat) (hs : Keeps qp qc s) :
    Keeps qp qc (State.syncFurrow s pay n) := by
  unfold State.syncFurrow
  simp +contextual (maxDischargeDepth := 100) [*]

@[simp ↓] theorem State.syncTake_keeps {qp : List Instr} {qc : Nat} (s : State) (r : Nat) (pay : List Word) (hs : Keeps qp qc s) :
    Keeps qp qc (State.syncTake s r pay) := by
  unfold State.syncTake
  simp +contextual (maxDischargeDepth := 100) [*]

@[simp ↓] theorem State.syncForward_keeps {qp : List Instr} {qc : Nat} (s : State) (r : Nat) (f : Frame) (hs : Keeps qp qc s) :
    Keeps qp qc (State.syncForward s r f) := by
  unfold State.syncForward
  simp +contextual (maxDischargeDepth := 100) [*]

@[simp ↓] theorem State.syncIn_keeps {qp : List Instr} {qc : Nat} (s : State) (r : Nat) (f : Frame) (hs : Keeps qp qc s) :
    Keeps qp qc (State.syncIn s r f) := by
  unfold State.syncIn
  simp +contextual (maxDischargeDepth := 100) [*]

@[simp ↓] theorem State.evSend_keeps {qp : List Instr} {qc : Nat} (s : State) (e : EvOut) (hs : Keeps qp qc s) :
    Keeps qp qc (State.evSend s e) := by
  unfold State.evSend
  simp +contextual (maxDischargeDepth := 100) [*]

@[simp ↓] theorem State.evAck_keeps {qp : List Instr} {qc : Nat} (s : State) (t : Nat) (hs : Keeps qp qc s) :
    Keeps qp qc (State.evAck s t) := by
  unfold State.evAck
  (repeat' split) <;> simp +contextual (maxDischargeDepth := 100) [*]

@[simp ↓] theorem State.readWords_keeps {qp : List Instr} {qc : Nat} (s : State) (r : Fin 2) (at_ k : Nat) (y0 : Nat) (y1 : Nat) (y2 : Nat) (hs : Keeps qp qc s) :
    Keeps qp qc (State.readWords s r at_ k y0 y1 y2).2.2 := by
  induction y2 generalizing s y0 y1 with
  | zero => exact hs
  | succ n ih =>
    unfold State.readWords
    extract_lets
    rename_i e
    have he : Keeps qp qc e.2 := by
      simp only [e]
      split
      · exact State.access_keeps _ _ _ _ hs
      · exact hs
    clear_value e
    refine Keeps_ite3 he ?_
    have hr := State.hostRead_keeps e.2 r y1 he
    split
    · next t h => rw [h] at hr; exact hr
    · next w t h => rw [h] at hr; exact ih _ _ _ hr

@[simp ↓] theorem State.writeWords_keeps {qp : List Instr} {qc : Nat} (s : State) (r : Fin 2) (at_ k : Nat) (y0 : Nat) (y1 : Nat) (y2 : List Word) (hs : Keeps qp qc s) :
    Keeps qp qc (State.writeWords s r at_ k y0 y1 y2).2.2 := by
  induction y2 generalizing s y0 y1 with
  | nil => exact hs
  | cons w ws ih =>
    unfold State.writeWords
    extract_lets
    rename_i e x own q
    have he : Keeps qp qc e.2 := by
      simp only [e]
      split
      · exact State.mismatch_keeps _ _ _ _ hs
      · exact hs
    clear_value e
    have hx : Keeps qp qc x.2 := State.hostWrite_keeps _ _ _ _ he
    clear_value x
    exact Keeps_ite3 he (Keeps_ite3 hx (ih _ _ _ hx))

@[simp ↓] theorem State.entryWords_keeps {qp : List Instr} {qc : Nat} (s : State) (y0 : Nat) (y1 : List Word) (hs : Keeps qp qc s) :
    Keeps qp qc (State.entryWords s y0 y1).2.2 := by
  induction y1 generalizing s y0 with
  | nil => exact hs
  | cons w ws ih =>
    unfold State.entryWords
    extract_lets
    rename_i x q
    have hx : Keeps qp qc x.2 := State.dealEntry_keeps _ _ _ _ hs
    clear_value x
    exact Keeps_ite3 hx (ih _ _ hx)

theorem State.bulkMore_keeps {qp : List Instr} {qc : Nat} (s : State) (r : Nat) (f : Frame) (hs : Keeps qp qc s) :
    ∀ t, State.bulkMore s r f = some t → Keeps qp qc t := by
  intro t h
  unfold State.bulkMore at h
  split at h
  · split at h
    · cases h
      exact KeepsP.rq hs (by simpa using hs.rq_le)
    · cases h
  · cases h

@[simp ↓] theorem State.requestIn_keeps {qp : List Instr} {qc : Nat} (s : State) (r : Nat) (f : Frame) (hs : Keeps qp qc s) :
    Keeps qp qc (State.requestIn s r f) := by
  have hr := hs.rq_le
  unfold State.requestIn
  extract_lets
  rename_i fresh
  have hf : Keeps qp qc (fresh s) := by
    simp only [fresh]
    refine Keeps_ite ?_ ?_
    · exact State.answer_keeps _ _ _ _ (State.respFrame_keeps _ _ _ _ _ _ hs)
    · split
      · exact State.answer_keeps _ _ _ _ (State.inc_keeps _ _ (State.respFrame_keeps _ _ _ _ _ _ (State.draw_keeps _ hs)))
      · refine State.slotShow_keeps _ (KeepsP.rq hs ?_)
        rw [List.length_append, List.length_singleton]
        omega
  split
  · next t h => exact State.bulkMore_keeps _ _ _ hs _ h
  · refine Keeps_ite hf ?_
    split
    · exact Keeps_foldl (fun t x ht => State.txPut_keeps _ _ _ _ _ ht) (State.inc_keeps _ _ hs)
    · exact Keeps_ite hs hf

@[simp ↓] theorem State.bcastIn_keeps {qp : List Instr} {qc : Nat} (s : State) (r : Fin 2) (f : Frame) (at_ k : Nat) (hs : Keeps qp qc s) :
    Keeps qp qc (State.bcastIn s r f at_ k) := by
  unfold State.bcastIn
  simp +contextual (maxDischargeDepth := 100) [*]

@[simp ↓] theorem State.frameIn_keeps {qp : List Instr} {qc : Nat} (s : State) (r : Fin 2) (f : Frame) (at_ k : Nat) (hs : Keeps qp qc s) :
    Keeps qp qc (State.frameIn s r f at_ k) := by
  unfold State.frameIn
  simp +contextual (maxDischargeDepth := 100) [*]

@[simp ↓] theorem State.nextReq_keeps {qp : List Instr} {qc : Nat} (s : State) (op : Nat) (f : Request → State → State) (hf : ∀ d t, Keeps qp qc t → Keeps qp qc (f d t)) (hs : Keeps qp qc s) :
    Keeps qp qc (State.nextReq s op f) := by
  unfold State.nextReq
  split <;> simp +contextual (maxDischargeDepth := 100) [*]

theorem State.confirmWait_keeps {qp : List Instr} {qc : Nat} (s : State) (q : Request) (was n : Nat) (hs : Keeps qp qc s) :
    ∀ t, State.confirmWait s q was n = some t → Keeps qp qc t := by
  intro t h
  unfold State.confirmWait at h
  repeat' split at h
  all_goals cases h
  exact State.reqBusy_keeps _ _ hs

@[simp ↓] theorem State.nextBulk_keeps {qp : List Instr} {qc : Nat} (s : State) (p : Request → Bool) (f : Request → State → State) (hf : ∀ d t, Keeps qp qc t → Keeps qp qc (f d t)) (hs : Keeps qp qc s) :
    Keeps qp qc (State.nextBulk s p f) := by
  unfold State.nextBulk
  split <;> simp +contextual (maxDischargeDepth := 100) [*]

@[simp ↓] theorem State.bulkFrames_keeps {qp : List Instr} {qc : Nat} (s : State) (q : Frame) (st : Nat) (y0 : Nat) (y1 : Nat) (y2 : List Word) (hs : Keeps qp qc s) :
    Keeps qp qc (State.bulkFrames s q st y0 y1 y2).2 := by
  induction y0 generalizing s y1 y2 with
  | zero => exact hs
  | succ n ih =>
    unfold State.bulkFrames
    have h : ∀ a b c d, Keeps qp qc (s.respFrame q a b c d).2 := fun a b c d => State.respFrame_keeps s q a b c d hs
    split
    · exact h st (some y1) (some 0x4000) y2
    · exact ih _ _ _ (h 0 (some y1) (some 0) (y2.take 64))

@[simp ↓] theorem State.bulkPut_keeps {qp : List Instr} {qc : Nat} (s : State) (r : Fin 2) (at_ k : Nat) (y0 : Nat) (y1 : Nat) (y2 : List Word) (hs : Keeps qp qc s) :
    Keeps qp qc (State.bulkPut s r at_ k y0 y1 y2).2.2 := by
  induction y2 generalizing s y0 y1 with
  | nil => exact hs
  | cons w ws ih =>
    unfold State.bulkPut
    extract_lets
    rename_i e q
    have he : Keeps qp qc e.2 := by
      simp only [e]
      split
      · exact State.mismatch_keeps _ _ _ _ hs
      · exact hs
    clear_value e
    exact Keeps_ite3 (State.refuse_keeps _ _ _ _ hs) (Keeps_ite3 he (ih _ _ _ (State.store32_keeps _ _ _ he)))

@[simp ↓] theorem State.bootLog_keeps {qp : List Instr} {qc : Nat} (s : State) (hs : Keeps qp qc s) :
    Keeps qp qc (State.bootLog s) := by
  unfold State.bootLog
  simp +contextual (maxDischargeDepth := 100) [*]

@[simp ↓] theorem State.bootRecover_keeps {qp : List Instr} {qc : Nat} (s : State) (hs : Keeps qp qc s) :
    Keeps qp qc (State.bootRecover s) := by
  unfold State.bootRecover
  simp +contextual (maxDischargeDepth := 100) [*]

@[simp ↓] theorem State.recoverAuth_keeps {qp : List Instr} {qc : Nat} (s : State) (q : Request) (mac : List Byte) (hs : Keeps qp qc s) :
    Keeps qp qc (State.recoverAuth s q mac) := by
  unfold State.recoverAuth
  simp +contextual (maxDischargeDepth := 100) [*]

@[simp ↓] theorem State.alerts_keeps {qp : List Instr} {qc : Nat} (s : State) (now : Nat) (hs : Keeps qp qc s) :
    Keeps qp qc (State.alerts s now) := by
  unfold State.alerts
  simp +contextual (maxDischargeDepth := 100) [*]

@[simp ↓] theorem State.latchGroup_keeps {qp : List Instr} {qc : Nat} (s : State) (b : Nat) (fs : List Nat) (hs : Keeps qp qc s) :
    Keeps qp qc (State.latchGroup s b fs) := by
  unfold State.latchGroup
  simp +contextual (maxDischargeDepth := 100) [*]

@[simp ↓] theorem State.eventGroup_keeps {qp : List Instr} {qc : Nat} (s : State) (g : List Nat) (hs : Keeps qp qc s) :
    Keeps qp qc (State.eventGroup s g) := by
  unfold State.eventGroup
  split
  · exact hs
  · extract_lets
    refine Keeps_ite hs ?_
    by_cases h : (if s.evOut.isSome = true then 4 else 5) ≤ s.evWait.length
    · rw [if_pos h]; exact State.inc_keeps _ _ hs
    · rw [if_neg h]
      refine KeepsP.ev hs ?_
      rw [List.length_append, List.length_singleton]
      split at h <;> omega

@[simp ↓] theorem State.logGroup_keeps {qp : List Instr} {qc : Nat} (s : State) (g : List Nat) (hs : Keeps qp qc s) :
    Keeps qp qc (State.logGroup s g) := by
  unfold State.logGroup
  extract_lets
  refine Keeps_ite hs ?_
  split
  · exact State.inc_keeps _ _ hs
  · refine KeepsP.al hs ?_
    rw [List.length_append, List.length_singleton]
    omega

@[simp ↓] theorem State.respondGroup_keeps {qp : List Instr} {qc : Nat} (s : State) (g : List Nat) (now : Nat) (hs : Keeps qp qc s) :
    Keeps qp qc (State.respondGroup s g now) := by
  unfold State.respondGroup
  simp +contextual (maxDischargeDepth := 100) [*]

@[simp ↓] theorem State.safeEnter_keeps {qp : List Instr} {qc : Nat} (s : State) (hs : Keeps qp qc s) :
    Keeps qp qc (State.safeEnter s) := by
  unfold State.safeEnter
  simp +contextual (maxDischargeDepth := 100) [*]

@[simp ↓] theorem State.safeRun_keeps {qp : List Instr} {qc : Nat} (s : State) (hs : Keeps qp qc s) :
    Keeps qp qc (State.safeRun s) := by
  unfold State.safeRun
  simp +contextual (maxDischargeDepth := 100) [*]

@[simp ↓] theorem State.nextCycle_keeps {qp : List Instr} {qc : Nat} (s : State) (hs : Keeps qp qc s) : Keeps qp qc (State.nextCycle s) :=
  ⟨hs.1, hs.2.1, hs.2.2.1, Nat.le_succ_of_le hs.2.2.2.1, hs.2.2.2.2⟩

@[simp ↓] theorem State.cycleEnd_keeps {qp : List Instr} {qc : Nat} (s : State) (hs : Keeps qp qc s) :
    Keeps qp qc (State.cycleEnd s) := by
  unfold State.cycleEnd
  refine Keeps_ite (State.nextCycle_keeps _ hs) ?_
  extract_lets s1 now g s2
  have h1 : Keeps qp qc s1 := State.flagsKeep_keeps _ (State.tbKeep_keeps _ (State.yldEvents_keeps _ hs))
  clear_value s1
  have h2 : Keeps qp qc s2 := Keeps_ite (State.alerts_keeps _ _ h1) (State.respondGroup_keeps _ _ _ h1)
  clear_value s2
  exact State.safeRun_keeps _ (State.nextCycle_keeps _ (Keeps.of h2))

@[simp ↓] theorem State.advance_keeps {qp : List Instr} {qc : Nat} (dt : Nat) (s : State) (hs : Keeps qp qc s) : Keeps qp qc (State.advance dt s) := by
  unfold State.advance
  have h : Keeps qp qc s.cycleEnd.cycleEnd := by simp [hs]
  split
  · exact hs
  · simp [hs]
  · exact State.nvmRun_keeps _ h
  · next n =>
    have g : Keeps qp qc { s.cycleEnd.cycleEnd with clk := s.cycleEnd.cycleEnd.clk + n } :=
      KeepsP.clk h (Nat.le_add_right ..)
    exact State.nvmRun_keeps _ (State.nextCycle_keeps _ g)

@[simp ↓] theorem State.turn_keeps {qp : List Instr} {qc : Nat} (s : State) (dt : Nat) (ks : State → List (Nat × Nat)) (hs : Keeps qp qc s) :
    Keeps qp qc (State.turn s dt ks) := by
  unfold State.turn
  first
  | (simp +contextual (maxDischargeDepth := 100) [*]; done)
  | (repeat' split) <;> (simp +contextual (maxDischargeDepth := 100) [*]; done)
  | (dsimp only; (repeat' first | (simp +contextual (maxDischargeDepth := 100) [*]; done) | split); done)
  | ((simp +contextual (maxDischargeDepth := 100) [*]; repeat' first | (simp +contextual (maxDischargeDepth := 100) [*]; done) | split); done)
  | ((simp +contextual (maxDischargeDepth := 100) [*]; (repeat' split) <;> (simp +contextual (maxDischargeDepth := 100) [*]; done)); done)

@[simp ↓] theorem State.dealFirst_keeps {qp : List Instr} {qc : Nat} (s : State) (hs : Keeps qp qc s) :
    Keeps qp qc (State.dealFirst s) := by
  unfold State.dealFirst
  first
  | (simp +contextual (maxDischargeDepth := 100) [*]; done)
  | (repeat' split) <;> (simp +contextual (maxDischargeDepth := 100) [*]; done)
  | (dsimp only; (repeat' first | (simp +contextual (maxDischargeDepth := 100) [*]; done) | split); done)
  | ((simp +contextual (maxDischargeDepth := 100) [*]; repeat' first | (simp +contextual (maxDischargeDepth := 100) [*]; done) | split); done)
  | ((simp +contextual (maxDischargeDepth := 100) [*]; (repeat' split) <;> (simp +contextual (maxDischargeDepth := 100) [*]; done)); done)

@[simp ↓] theorem State.binOp_keeps {qp : List Instr} {qc : Nat} (s : State) (p h : Nat) (w : Word) (rn : Nat) (set : Bool) (z : Hand → Int) (hs : Keeps qp qc s) :
    Keeps qp qc (State.binOp s p h w rn set z) := by
  unfold State.binOp
  simp +contextual (maxDischargeDepth := 100) [*]

@[simp ↓] theorem State.wordsRead_keeps {qp : List Instr} {qc : Nat} (s : State) (o : Orig) (y0 : Nat) (y1 : Nat) (hs : Keeps qp qc s) :
    Keeps qp qc (State.wordsRead s o y0 y1).2 := by
  induction y1 generalizing s y0 with
  | zero => exact hs
  | succ n ih => exact ih _ _ (State.wordRead_keeps _ _ _ hs)

@[simp ↓] theorem State.loadDone_keeps {qp : List Instr} {qc : Nat} (s : State) (p : Fin 5) (h : Fin 16) (kind rd a : Nat) (hs : Keeps qp qc s) :
    Keeps qp qc (State.loadDone s p h kind rd a) := by
  unfold State.loadDone
  simp +contextual (maxDischargeDepth := 100) [*]

@[simp ↓] theorem State.regStores_keeps {qp : List Instr} {qc : Nat} (s : State) (o : Orig) (y0 : Nat) (y1 : List Word) (hs : Keeps qp qc s) :
    Keeps qp qc (State.regStores s o y0 y1) := by
  induction y1 generalizing s y0 with
  | nil => exact hs
  | cons w ws ih => exact ih _ _ (State.regWrite_keeps _ _ _ _ hs)

@[simp ↓] theorem State.postDone_keeps {qp : List Instr} {qc : Nat} (s : State) (p : Fin 5) (y0 : Post) (hs : Keeps qp qc s) :
    Keeps qp qc (State.postDone s p y0) := by
  unfold State.postDone
  (repeat' split) <;> simp +contextual (maxDischargeDepth := 100) [*]

@[simp ↓] theorem State.roomWake_keeps {qp : List Instr} {qc : Nat} (s : State) (p : Nat) (hs : Keeps qp qc s) :
    Keeps qp qc (State.roomWake s p) := by
  unfold State.roomWake
  simp +contextual (maxDischargeDepth := 100) [*]

@[simp ↓] theorem State.failTimes_keeps {qp : List Instr} {qc : Nat} (s : State) (o a : Nat) (y0 : Nat) (hs : Keeps qp qc s) :
    Keeps qp qc (State.failTimes s o a y0) := by
  induction y0 generalizing s with
  | zero => exact hs
  | succ n ih => exact ih _ (State.bicMismatch_keeps _ _ _ _ hs)

@[simp ↓] theorem State.thrRead_keeps {qp : List Instr} {qc : Nat} (s : State) (k : Nat) (hs : Keeps qp qc s) :
    Keeps qp qc (State.thrRead s k) := by
  unfold State.thrRead
  (repeat' split) <;> simp +contextual (maxDischargeDepth := 100) [*]

theorem plainReset_wf (warm : Bool) {m : Sparse Word} (h : Sparse.wf regReset m = true) :
    Sparse.wf regReset (plainReset warm m) = true := by
  unfold plainReset Sparse.wf at *
  generalize hb : (none : Option Nat) = b at h ⊢
  clear hb
  induction m generalizing b with
  | nil => rfl
  | cons e m ih =>
    obtain ⟨j, v⟩ := e
    simp only [Sparse.wfFrom, Bool.and_eq_true] at h
    have hm := ih (some j) h.2
    rw [List.filterMap_cons]
    split
    · refine Sparse.wfFrom_mono hm fun x hx => ⟨j, rfl, ?_⟩
      subst hx
      have h1 := h.1.1
      simp only [decide_eq_true_eq] at h1
      exact Nat.le_of_lt h1
    · next b' hb =>
      dsimp only at hb
      split at hb
      · cases hb
      · next hne =>
        cases hb
        simp only [Sparse.wfFrom, Bool.and_eq_true]
        exact ⟨⟨h.1.1, by simpa using hne⟩, hm⟩

theorem resetRegs_wf (warm : Bool) {m : Sparse Word} (h : Sparse.wf regReset m = true) :
    Sparse.wf regReset (resetRegs warm m) = true := by
  have hp := plainReset_wf warm h
  have h1 : ∀ (ks : List Nat) x, Sparse.wf regReset x = true → Sparse.wf regReset (ks.foldl (fun x k =>
      Sparse.set regReset (HDG_PLS + 4 * k) (Sparse.get regReset (HDG_PLS + 256 + 4 * k) x) x) x) = true := by
    intro ks
    induction ks with
    | nil => exact fun x hx => hx
    | cons k ks ih => exact fun x hx => ih _ (Sparse.set_wf _ _ hx)
  have h2 : ∀ (ps : List Nat) x, Sparse.wf regReset x = true → Sparse.wf regReset (ps.foldl (fun x p =>
      if warm ∧ bits (Sparse.get regReset (PLG_PSTAT p) m).toNat 2 0 = 3 then
        Sparse.set regReset (PLG_PSTAT p)
          (putF (putF (Sparse.get regReset (PLG_PSTAT p) x) (PLG_PSTAT_STATE p) 3) (PLG_PSTAT_LOG p) 7) x
      else x) x) = true := by
    intro ps
    induction ps with
    | nil => exact fun x hx => hx
    | cons p ps ih =>
      intro x hx
      refine ih _ ?_
      dsimp only
      split
      · exact Sparse.set_wf _ _ hx
      · exact hx
  exact h2 _ _ (h1 _ _ hp)

@[simp ↓] theorem State.resetInto_keeps {qp : List Instr} {qc : Nat} (s : State) (warm : Bool) (cause : Nat) (hs : Keeps qp qc s) :
    Keeps qp qc (State.resetInto s warm cause) := by
  unfold State.resetInto
  extract_lets
  rename_i s1 now s9
  have h1 : Keeps qp qc s1 := State.nvCut_keeps _ hs
  clear_value s1
  have hr := resetRegs_wf warm h1.2.1
  generalize resetRegs warm s1.regs = r at hr ⊢
  refine ⟨Sparse.filter_wf _ h1.1, hr, h1.2.2.1, h1.2.2.2.1, ?_⟩
  exact ⟨Nat.zero_le _, Nat.zero_le _, Nat.zero_le _, Nat.zero_le _, Nat.zero_le _, Nat.zero_le _, Nat.zero_le _,
    fun d h => by cases h⟩

@[simp ↓] theorem State.commitClosed_keeps {qp : List Instr} {qc : Nat} (s : State) (hs : Keeps qp qc s) :
    Keeps qp qc (State.commitClosed s) := by
  unfold State.commitClosed
  simp +contextual (maxDischargeDepth := 100) [*]

@[simp ↓] theorem State.actDrop_keeps {qp : List Instr} {qc : Nat} (s : State) (hs : Keeps qp qc s) :
    Keeps qp qc (State.actDrop s) := by
  unfold State.actDrop
  split
  · refine Keeps_ite hs ?_
    have h := State.wr_keeps s UPD_STAT_ACTPEND 0 hs
    exact KeepsP.nv h (Nat.le_trans (List.length_filter_le _ _) hs.nv_le)
  · exact hs

@[simp ↓] theorem State.ploughMap_keeps {qp : List Instr} {qc : Nat} (s : State) (passed : Nat) (hs : Keeps qp qc s) :
    Keeps qp qc (State.ploughMap s passed) := by
  unfold State.ploughMap
  extract_lets
  refine State.wr_keeps _ _ _ (Keeps_foldl (fun t x ht => ?_) hs)
  extract_lets
  rename_i t1
  have h1 : Keeps qp qc t1 := Keeps_ite ht (State.wr_keeps _ _ _ ht)
  clear_value t1
  split
  · exact State.wr_keeps _ _ _ (State.wr_keeps _ _ _ h1)
  · exact State.wr_keeps _ _ _ (State.wr_keeps _ _ _ h1)

@[simp ↓] theorem State.tbBoot_keeps {qp : List Instr} {qc : Nat} (s : State) (hs : Keeps qp qc s) :
    Keeps qp qc (State.tbBoot s) := by
  unfold State.tbBoot
  simp +contextual (maxDischargeDepth := 100) [*]

@[simp ↓] theorem State.mapBoot_keeps {qp : List Instr} {qc : Nat} (s : State) (hs : Keeps qp qc s) :
    Keeps qp qc (State.mapBoot s) := by
  unfold State.mapBoot
  (repeat' split) <;> simp +contextual (maxDischargeDepth := 100) [*]

@[simp ↓] theorem State.revBoot_keeps {qp : List Instr} {qc : Nat} (s : State) (hs : Keeps qp qc s) :
    Keeps qp qc (State.revBoot s) := by
  unfold State.revBoot
  (repeat' split) <;> simp +contextual (maxDischargeDepth := 100) [*]

@[simp ↓] theorem State.energyBoot_keeps {qp : List Instr} {qc : Nat} (s : State) (c : Option Nat) (f : Nat) (hs : Keeps qp qc s) :
    Keeps qp qc (State.energyBoot s c f) := by
  unfold State.energyBoot
  (repeat' split) <;> simp +contextual (maxDischargeDepth := 100) [*]

@[simp ↓] theorem State.pulseBoot_keeps {qp : List Instr} {qc : Nat} (s : State) (hs : Keeps qp qc s) :
    Keeps qp qc (State.pulseBoot s) := by
  unfold State.pulseBoot
  (repeat' split) <;> simp +contextual (maxDischargeDepth := 100) [*]

@[simp ↓] theorem State.loadBoot_keeps {qp : List Instr} {qc : Nat} (s : State) (hs : Keeps qp qc s) :
    Keeps qp qc (State.loadBoot s) := by
  unfold State.loadBoot
  extract_lets opn closes cut s1 s2a s2 last s3 s4
  clear_value opn closes cut last
  have h1 : Keeps qp qc s1 := by dsimp only [s1]; split <;> simp [hs]
  have h2 : Keeps qp qc s2 := by dsimp only [s2, s2a]; split <;> simp [h1]
  clear_value s2
  have h3 : Keeps qp qc s3 := by dsimp only [s3]; simp [h2]
  have h4 : Keeps qp qc s4 := h3
  clear_value s4
  simp +contextual (maxDischargeDepth := 100) [h4]

@[simp ↓] theorem State.tamperLate_keeps {qp : List Instr} {qc : Nat} (s : State) (c : Nat) (f : Fld) (hs : Keeps qp qc s) :
    Keeps qp qc (State.tamperLate s c f) := by
  unfold State.tamperLate
  first
  | (simp +contextual (maxDischargeDepth := 100) [*]; done)
  | (repeat' split) <;> (simp +contextual (maxDischargeDepth := 100) [*]; done)
  | (dsimp only; (repeat' first | (simp +contextual (maxDischargeDepth := 100) [*]; done) | split); done)
  | ((simp +contextual (maxDischargeDepth := 100) [*]; repeat' first | (simp +contextual (maxDischargeDepth := 100) [*]; done) | split); done)
  | ((simp +contextual (maxDischargeDepth := 100) [*]; (repeat' split) <;> (simp +contextual (maxDischargeDepth := 100) [*]; done)); done)

@[simp ↓] theorem State.tamperBoot_keeps {qp : List Instr} {qc : Nat} (s : State) (hs : Keeps qp qc s) :
    Keeps qp qc (State.tamperBoot s) := by
  unfold State.tamperBoot
  simp +contextual (maxDischargeDepth := 100) [*]

@[simp ↓] theorem State.logBoot_keeps {qp : List Instr} {qc : Nat} (s : State) (hs : Keeps qp qc s) :
    Keeps qp qc (State.logBoot s) := by
  unfold State.logBoot
  extract_lets
  rename_i all
  clear_value all
  split
  · exact State.wr_keeps _ _ _ (State.wr_keeps _ _ _ hs)
  · exact hs

@[simp ↓] theorem State.updBoot_keeps {qp : List Instr} {qc : Nat} (s : State) (hs : Keeps qp qc s) :
    Keeps qp qc (State.updBoot s) := by
  unfold State.updBoot
  simp +contextual (maxDischargeDepth := 100) [*]

@[simp ↓] theorem State.ceilBoot_keeps {qp : List Instr} {qc : Nat} (s : State) (hs : Keeps qp qc s) :
    Keeps qp qc (State.ceilBoot s) := by
  unfold State.ceilBoot
  extract_lets
  rename_i c s0 s1
  have h0 : Keeps qp qc s0 := State.wrW_keeps _ _ _ hs
  have h1 : Keeps qp qc s1 := by simp only [s1, Keeps_mk, OkP_eta, h0]
  clear_value s1
  exact Keeps_getD (fun t h => State.ceilPush_keeps _ h1 _ h) h1

@[simp ↓] theorem State.slotTry_keeps {qp : List Instr} {qc : Nat} (s : State) (k : Nat) (hs : Keeps qp qc s) :
    Keeps qp qc (State.slotTry s k).2 := by
  unfold State.slotTry
  simp +contextual (maxDischargeDepth := 100) [*]

@[simp ↓] theorem State.bootWrite_keeps {qp : List Instr} {qc : Nat} (s : State) (recs : List (Nat × List Nat)) (hs : Keeps qp qc s) :
    Keeps qp qc (State.bootWrite s recs) := by
  unfold State.bootWrite
  simp +contextual (maxDischargeDepth := 100) [*]

@[simp ↓] theorem State.slotTake_keeps {qp : List Instr} {qc : Nat} (s : State) (k : Nat) (hs : Keeps qp qc s) :
    Keeps qp qc (State.slotTake s k) := by
  unfold State.slotTake
  simp +contextual (maxDischargeDepth := 100) [*]

@[simp ↓] theorem State.slotScan_keeps {qp : List Instr} {qc : Nat} (s : State) (y0 : List Nat) (hs : Keeps qp qc s) :
    Keeps qp qc (State.slotScan s y0) := by
  induction y0 generalizing s with
  | nil => exact State.bootRecover_keeps _ hs
  | cons k ks ih =>
    unfold State.slotScan
    have hr := State.slotTry_keeps s k hs
    exact Keeps_ite (Keeps_ite (State.slotTake_keeps _ _ hr) (ih _ hr)) (ih _ hs)

@[simp ↓] theorem State.slotPick_keeps {qp : List Instr} {qc : Nat} (s : State) (hs : Keeps qp qc s) :
    Keeps qp qc (State.slotPick s) := by
  unfold State.slotPick
  simp +contextual (maxDischargeDepth := 100) [*]

@[simp ↓] theorem State.loadStart_keeps {qp : List Instr} {qc : Nat} (s : State) (k : Nat) (hs : Keeps qp qc s) :
    Keeps qp qc (State.loadStart s k) := by
  unfold State.loadStart
  simp +contextual (maxDischargeDepth := 100) [*]

end Sys2Proof.Machine
end

