-- ==== Sys2Proof/Laws/State.lean ====
section
/-!
SUPPORT. What each named update of the state leaves alone, field by field, and what a read gives after it.
-/
namespace Sys2Proof.Machine

/-! ### `State.wrW` -/

@[simp] theorem State.wrW_toClockSt (s : State) (a : Nat) (w : Word) : (s.wrW a w).toClockSt = s.toClockSt := rfl
@[simp] theorem State.wrW_toFurrowSt (s : State) (a : Nat) (w : Word) : (s.wrW a w).toFurrowSt = s.toFurrowSt := rfl
@[simp] theorem State.wrW_toAlarmSt (s : State) (a : Nat) (w : Word) : (s.wrW a w).toAlarmSt = s.toAlarmSt := rfl
@[simp] theorem State.wrW_toChanSt (s : State) (a : Nat) (w : Word) : (s.wrW a w).toChanSt = s.toChanSt := rfl
@[simp] theorem State.wrW_toTallySt (s : State) (a : Nat) (w : Word) : (s.wrW a w).toTallySt = s.toTallySt := rfl
@[simp] theorem State.wrW_toEngineSt (s : State) (a : Nat) (w : Word) : (s.wrW a w).toEngineSt = s.toEngineSt := rfl
@[simp] theorem State.wrW_toNvmSt (s : State) (a : Nat) (w : Word) : (s.wrW a w).toNvmSt = s.toNvmSt := rfl
@[simp] theorem State.wrW_toCalSt (s : State) (a : Nat) (w : Word) : (s.wrW a w).toCalSt = s.toCalSt := rfl
@[simp] theorem State.wrW_toHealthSt (s : State) (a : Nat) (w : Word) : (s.wrW a w).toHealthSt = s.toHealthSt := rfl
@[simp] theorem State.wrW_toModemSt (s : State) (a : Nat) (w : Word) : (s.wrW a w).toModemSt = s.toModemSt := rfl
@[simp] theorem State.wrW_toRingSt (s : State) (a : Nat) (w : Word) : (s.wrW a w).toRingSt = s.toRingSt := rfl
@[simp] theorem State.wrW_toDealSt (s : State) (a : Nat) (w : Word) : (s.wrW a w).toDealSt = s.toDealSt := rfl
@[simp] theorem State.wrW_toUpdSt (s : State) (a : Nat) (w : Word) : (s.wrW a w).toUpdSt = s.toUpdSt := rfl
@[simp] theorem State.wrW_pending (s : State) (a : Nat) (w : Word) : (s.wrW a w).pending = s.pending := rfl
@[simp] theorem State.wrW_clk (s : State) (a : Nat) (w : Word) : (s.wrW a w).clk = s.clk := rfl
@[simp] theorem State.wrW_fresh (s : State) (a : Nat) (w : Word) : (s.wrW a w).fresh = s.fresh := rfl
@[simp] theorem State.wrW_mem (s : State) (a : Nat) (w : Word) : (s.wrW a w).mem = s.mem := rfl
@[simp] theorem State.wrW_rdata (s : State) (a : Nat) (w : Word) : (s.wrW a w).rdata = s.rdata := rfl
@[simp] theorem State.wrW_clrNow (s : State) (a : Nat) (w : Word) : (s.wrW a w).clrNow = s.clrNow := rfl
@[simp] theorem State.wrW_setNow (s : State) (a : Nat) (w : Word) : (s.wrW a w).setNow = s.setNow := rfl
@[simp] theorem State.wrW_taken (s : State) (a : Nat) (w : Word) : (s.wrW a w).taken = s.taken := rfl
@[simp] theorem State.wrW_regsWas (s : State) (a : Nat) (w : Word) : (s.wrW a w).regsWas = s.regsWas := rfl
@[simp] theorem State.wrW_inReset (s : State) (a : Nat) (w : Word) : (s.wrW a w).inReset = s.inReset := rfl
@[simp] theorem State.wrW_byte (s : State) (a : Nat) (w : Word) (k : Nat) : (s.wrW a w).byte k = s.byte k := rfl

/-! ### `State.wr` -/

@[simp] theorem State.wr_toClockSt (s : State) (f : Fld) (v : Nat) : (s.wr f v).toClockSt = s.toClockSt := rfl
@[simp] theorem State.wr_toFurrowSt (s : State) (f : Fld) (v : Nat) : (s.wr f v).toFurrowSt = s.toFurrowSt := rfl
@[simp] theorem State.wr_toAlarmSt (s : State) (f : Fld) (v : Nat) : (s.wr f v).toAlarmSt = s.toAlarmSt := rfl
@[simp] theorem State.wr_toChanSt (s : State) (f : Fld) (v : Nat) : (s.wr f v).toChanSt = s.toChanSt := rfl
@[simp] theorem State.wr_toTallySt (s : State) (f : Fld) (v : Nat) : (s.wr f v).toTallySt = s.toTallySt := rfl
@[simp] theorem State.wr_toEngineSt (s : State) (f : Fld) (v : Nat) : (s.wr f v).toEngineSt = s.toEngineSt := rfl
@[simp] theorem State.wr_toNvmSt (s : State) (f : Fld) (v : Nat) : (s.wr f v).toNvmSt = s.toNvmSt := rfl
@[simp] theorem State.wr_toCalSt (s : State) (f : Fld) (v : Nat) : (s.wr f v).toCalSt = s.toCalSt := rfl
@[simp] theorem State.wr_toHealthSt (s : State) (f : Fld) (v : Nat) : (s.wr f v).toHealthSt = s.toHealthSt := rfl
@[simp] theorem State.wr_toModemSt (s : State) (f : Fld) (v : Nat) : (s.wr f v).toModemSt = s.toModemSt := rfl
@[simp] theorem State.wr_toRingSt (s : State) (f : Fld) (v : Nat) : (s.wr f v).toRingSt = s.toRingSt := rfl
@[simp] theorem State.wr_toDealSt (s : State) (f : Fld) (v : Nat) : (s.wr f v).toDealSt = s.toDealSt := rfl
@[simp] theorem State.wr_toUpdSt (s : State) (f : Fld) (v : Nat) : (s.wr f v).toUpdSt = s.toUpdSt := rfl
@[simp] theorem State.wr_pending (s : State) (f : Fld) (v : Nat) : (s.wr f v).pending = s.pending := rfl
@[simp] theorem State.wr_clk (s : State) (f : Fld) (v : Nat) : (s.wr f v).clk = s.clk := rfl
@[simp] theorem State.wr_fresh (s : State) (f : Fld) (v : Nat) : (s.wr f v).fresh = s.fresh := rfl
@[simp] theorem State.wr_mem (s : State) (f : Fld) (v : Nat) : (s.wr f v).mem = s.mem := rfl
@[simp] theorem State.wr_rdata (s : State) (f : Fld) (v : Nat) : (s.wr f v).rdata = s.rdata := rfl
@[simp] theorem State.wr_clrNow (s : State) (f : Fld) (v : Nat) : (s.wr f v).clrNow = s.clrNow := rfl
@[simp] theorem State.wr_setNow (s : State) (f : Fld) (v : Nat) : (s.wr f v).setNow = s.setNow := rfl
@[simp] theorem State.wr_taken (s : State) (f : Fld) (v : Nat) : (s.wr f v).taken = s.taken := rfl
@[simp] theorem State.wr_regsWas (s : State) (f : Fld) (v : Nat) : (s.wr f v).regsWas = s.regsWas := rfl
@[simp] theorem State.wr_inReset (s : State) (f : Fld) (v : Nat) : (s.wr f v).inReset = s.inReset := rfl
@[simp] theorem State.wr_byte (s : State) (f : Fld) (v : Nat) (k : Nat) : (s.wr f v).byte k = s.byte k := rfl

/-! ### `State.setRdata` -/

@[simp] theorem State.setRdata_toClockSt (s : State) (o : Nat) (w : Word) : (s.setRdata o w).toClockSt = s.toClockSt := rfl
@[simp] theorem State.setRdata_toFurrowSt (s : State) (o : Nat) (w : Word) : (s.setRdata o w).toFurrowSt = s.toFurrowSt := rfl
@[simp] theorem State.setRdata_toAlarmSt (s : State) (o : Nat) (w : Word) : (s.setRdata o w).toAlarmSt = s.toAlarmSt := rfl
@[simp] theorem State.setRdata_toChanSt (s : State) (o : Nat) (w : Word) : (s.setRdata o w).toChanSt = s.toChanSt := rfl
@[simp] theorem State.setRdata_toTallySt (s : State) (o : Nat) (w : Word) : (s.setRdata o w).toTallySt = s.toTallySt := rfl
@[simp] theorem State.setRdata_toEngineSt (s : State) (o : Nat) (w : Word) : (s.setRdata o w).toEngineSt = s.toEngineSt := rfl
@[simp] theorem State.setRdata_toNvmSt (s : State) (o : Nat) (w : Word) : (s.setRdata o w).toNvmSt = s.toNvmSt := rfl
@[simp] theorem State.setRdata_toCalSt (s : State) (o : Nat) (w : Word) : (s.setRdata o w).toCalSt = s.toCalSt := rfl
@[simp] theorem State.setRdata_toHealthSt (s : State) (o : Nat) (w : Word) : (s.setRdata o w).toHealthSt = s.toHealthSt := rfl
@[simp] theorem State.setRdata_toModemSt (s : State) (o : Nat) (w : Word) : (s.setRdata o w).toModemSt = s.toModemSt := rfl
@[simp] theorem State.setRdata_toRingSt (s : State) (o : Nat) (w : Word) : (s.setRdata o w).toRingSt = s.toRingSt := rfl
@[simp] theorem State.setRdata_toDealSt (s : State) (o : Nat) (w : Word) : (s.setRdata o w).toDealSt = s.toDealSt := rfl
@[simp] theorem State.setRdata_toUpdSt (s : State) (o : Nat) (w : Word) : (s.setRdata o w).toUpdSt = s.toUpdSt := rfl
@[simp] theorem State.setRdata_pending (s : State) (o : Nat) (w : Word) : (s.setRdata o w).pending = s.pending := rfl
@[simp] theorem State.setRdata_clk (s : State) (o : Nat) (w : Word) : (s.setRdata o w).clk = s.clk := rfl
@[simp] theorem State.setRdata_fresh (s : State) (o : Nat) (w : Word) : (s.setRdata o w).fresh = s.fresh := rfl
@[simp] theorem State.setRdata_regs (s : State) (o : Nat) (w : Word) : (s.setRdata o w).regs = s.regs := rfl
@[simp] theorem State.setRdata_mem (s : State) (o : Nat) (w : Word) : (s.setRdata o w).mem = s.mem := rfl
@[simp] theorem State.setRdata_clrNow (s : State) (o : Nat) (w : Word) : (s.setRdata o w).clrNow = s.clrNow := rfl
@[simp] theorem State.setRdata_setNow (s : State) (o : Nat) (w : Word) : (s.setRdata o w).setNow = s.setNow := rfl
@[simp] theorem State.setRdata_taken (s : State) (o : Nat) (w : Word) : (s.setRdata o w).taken = s.taken := rfl
@[simp] theorem State.setRdata_regsWas (s : State) (o : Nat) (w : Word) : (s.setRdata o w).regsWas = s.regsWas := rfl
@[simp] theorem State.setRdata_inReset (s : State) (o : Nat) (w : Word) : (s.setRdata o w).inReset = s.inReset := rfl
@[simp] theorem State.setRdata_rdW (s : State) (o : Nat) (w : Word) (k : Nat) : (s.setRdata o w).rdW k = s.rdW k := rfl
@[simp] theorem State.setRdata_rd (s : State) (o : Nat) (w : Word) (g : Fld) : (s.setRdata o w).rd g = s.rd g := rfl
@[simp] theorem State.setRdata_byte (s : State) (o : Nat) (w : Word) (k : Nat) : (s.setRdata o w).byte k = s.byte k := rfl

/-! ### `State.setByte` -/

@[simp] theorem State.setByte_toClockSt (s : State) (a : Nat) (b : Byte) : (s.setByte a b).toClockSt = s.toClockSt := rfl
@[simp] theorem State.setByte_toFurrowSt (s : State) (a : Nat) (b : Byte) : (s.setByte a b).toFurrowSt = s.toFurrowSt := rfl
@[simp] theorem State.setByte_toAlarmSt (s : State) (a : Nat) (b : Byte) : (s.setByte a b).toAlarmSt = s.toAlarmSt := rfl
@[simp] theorem State.setByte_toChanSt (s : State) (a : Nat) (b : Byte) : (s.setByte a b).toChanSt = s.toChanSt := rfl
@[simp] theorem State.setByte_toTallySt (s : State) (a : Nat) (b : Byte) : (s.setByte a b).toTallySt = s.toTallySt := rfl
@[simp] theorem State.setByte_toEngineSt (s : State) (a : Nat) (b : Byte) : (s.setByte a b).toEngineSt = s.toEngineSt := rfl
@[simp] theorem State.setByte_toNvmSt (s : State) (a : Nat) (b : Byte) : (s.setByte a b).toNvmSt = s.toNvmSt := rfl
@[simp] theorem State.setByte_toCalSt (s : State) (a : Nat) (b : Byte) : (s.setByte a b).toCalSt = s.toCalSt := rfl
@[simp] theorem State.setByte_toHealthSt (s : State) (a : Nat) (b : Byte) : (s.setByte a b).toHealthSt = s.toHealthSt := rfl
@[simp] theorem State.setByte_toModemSt (s : State) (a : Nat) (b : Byte) : (s.setByte a b).toModemSt = s.toModemSt := rfl
@[simp] theorem State.setByte_toRingSt (s : State) (a : Nat) (b : Byte) : (s.setByte a b).toRingSt = s.toRingSt := rfl
@[simp] theorem State.setByte_toDealSt (s : State) (a : Nat) (b : Byte) : (s.setByte a b).toDealSt = s.toDealSt := rfl
@[simp] theorem State.setByte_toUpdSt (s : State) (a : Nat) (b : Byte) : (s.setByte a b).toUpdSt = s.toUpdSt := rfl
@[simp] theorem State.setByte_pending (s : State) (a : Nat) (b : Byte) : (s.setByte a b).pending = s.pending := rfl
@[simp] theorem State.setByte_clk (s : State) (a : Nat) (b : Byte) : (s.setByte a b).clk = s.clk := rfl
@[simp] theorem State.setByte_fresh (s : State) (a : Nat) (b : Byte) : (s.setByte a b).fresh = s.fresh := rfl
@[simp] theorem State.setByte_regs (s : State) (a : Nat) (b : Byte) : (s.setByte a b).regs = s.regs := rfl
@[simp] theorem State.setByte_rdata (s : State) (a : Nat) (b : Byte) : (s.setByte a b).rdata = s.rdata := rfl
@[simp] theorem State.setByte_clrNow (s : State) (a : Nat) (b : Byte) : (s.setByte a b).clrNow = s.clrNow := rfl
@[simp] theorem State.setByte_setNow (s : State) (a : Nat) (b : Byte) : (s.setByte a b).setNow = s.setNow := rfl
@[simp] theorem State.setByte_taken (s : State) (a : Nat) (b : Byte) : (s.setByte a b).taken = s.taken := rfl
@[simp] theorem State.setByte_regsWas (s : State) (a : Nat) (b : Byte) : (s.setByte a b).regsWas = s.regsWas := rfl
@[simp] theorem State.setByte_inReset (s : State) (a : Nat) (b : Byte) : (s.setByte a b).inReset = s.inReset := rfl
@[simp] theorem State.setByte_rdW (s : State) (a : Nat) (b : Byte) (k : Nat) : (s.setByte a b).rdW k = s.rdW k := rfl
@[simp] theorem State.setByte_rd (s : State) (a : Nat) (b : Byte) (g : Fld) : (s.setByte a b).rd g = s.rd g := rfl

/-! ### `State.setBytes` -/

@[simp] theorem State.setBytes_toClockSt (s : State) (a : Nat) (bs : List Byte) : (s.setBytes a bs).toClockSt = s.toClockSt := rfl
@[simp] theorem State.setBytes_toFurrowSt (s : State) (a : Nat) (bs : List Byte) : (s.setBytes a bs).toFurrowSt = s.toFurrowSt := rfl
@[simp] theorem State.setBytes_toAlarmSt (s : State) (a : Nat) (bs : List Byte) : (s.setBytes a bs).toAlarmSt = s.toAlarmSt := rfl
@[simp] theorem State.setBytes_toChanSt (s : State) (a : Nat) (bs : List Byte) : (s.setBytes a bs).toChanSt = s.toChanSt := rfl
@[simp] theorem State.setBytes_toTallySt (s : State) (a : Nat) (bs : List Byte) : (s.setBytes a bs).toTallySt = s.toTallySt := rfl
@[simp] theorem State.setBytes_toEngineSt (s : State) (a : Nat) (bs : List Byte) : (s.setBytes a bs).toEngineSt = s.toEngineSt := rfl
@[simp] theorem State.setBytes_toNvmSt (s : State) (a : Nat) (bs : List Byte) : (s.setBytes a bs).toNvmSt = s.toNvmSt := rfl
@[simp] theorem State.setBytes_toCalSt (s : State) (a : Nat) (bs : List Byte) : (s.setBytes a bs).toCalSt = s.toCalSt := rfl
@[simp] theorem State.setBytes_toHealthSt (s : State) (a : Nat) (bs : List Byte) : (s.setBytes a bs).toHealthSt = s.toHealthSt := rfl
@[simp] theorem State.setBytes_toModemSt (s : State) (a : Nat) (bs : List Byte) : (s.setBytes a bs).toModemSt = s.toModemSt := rfl
@[simp] theorem State.setBytes_toRingSt (s : State) (a : Nat) (bs : List Byte) : (s.setBytes a bs).toRingSt = s.toRingSt := rfl
@[simp] theorem State.setBytes_toDealSt (s : State) (a : Nat) (bs : List Byte) : (s.setBytes a bs).toDealSt = s.toDealSt := rfl
@[simp] theorem State.setBytes_toUpdSt (s : State) (a : Nat) (bs : List Byte) : (s.setBytes a bs).toUpdSt = s.toUpdSt := rfl
@[simp] theorem State.setBytes_pending (s : State) (a : Nat) (bs : List Byte) : (s.setBytes a bs).pending = s.pending := rfl
@[simp] theorem State.setBytes_clk (s : State) (a : Nat) (bs : List Byte) : (s.setBytes a bs).clk = s.clk := rfl
@[simp] theorem State.setBytes_fresh (s : State) (a : Nat) (bs : List Byte) : (s.setBytes a bs).fresh = s.fresh := rfl
@[simp] theorem State.setBytes_regs (s : State) (a : Nat) (bs : List Byte) : (s.setBytes a bs).regs = s.regs := rfl
@[simp] theorem State.setBytes_rdata (s : State) (a : Nat) (bs : List Byte) : (s.setBytes a bs).rdata = s.rdata := rfl
@[simp] theorem State.setBytes_clrNow (s : State) (a : Nat) (bs : List Byte) : (s.setBytes a bs).clrNow = s.clrNow := rfl
@[simp] theorem State.setBytes_setNow (s : State) (a : Nat) (bs : List Byte) : (s.setBytes a bs).setNow = s.setNow := rfl
@[simp] theorem State.setBytes_taken (s : State) (a : Nat) (bs : List Byte) : (s.setBytes a bs).taken = s.taken := rfl
@[simp] theorem State.setBytes_regsWas (s : State) (a : Nat) (bs : List Byte) : (s.setBytes a bs).regsWas = s.regsWas := rfl
@[simp] theorem State.setBytes_inReset (s : State) (a : Nat) (bs : List Byte) : (s.setBytes a bs).inReset = s.inReset := rfl
@[simp] theorem State.setBytes_rdW (s : State) (a : Nat) (bs : List Byte) (k : Nat) : (s.setBytes a bs).rdW k = s.rdW k := rfl
@[simp] theorem State.setBytes_rd (s : State) (a : Nat) (bs : List Byte) (g : Fld) : (s.setBytes a bs).rd g = s.rd g := rfl

/-! ### `State.store` -/

@[simp] theorem State.store_toClockSt (s : State) (a n v : Nat) : (s.store a n v).toClockSt = s.toClockSt := rfl
@[simp] theorem State.store_toFurrowSt (s : State) (a n v : Nat) : (s.store a n v).toFurrowSt = s.toFurrowSt := rfl
@[simp] theorem State.store_toAlarmSt (s : State) (a n v : Nat) : (s.store a n v).toAlarmSt = s.toAlarmSt := rfl
@[simp] theorem State.store_toChanSt (s : State) (a n v : Nat) : (s.store a n v).toChanSt = s.toChanSt := rfl
@[simp] theorem State.store_toTallySt (s : State) (a n v : Nat) : (s.store a n v).toTallySt = s.toTallySt := rfl
@[simp] theorem State.store_toEngineSt (s : State) (a n v : Nat) : (s.store a n v).toEngineSt = s.toEngineSt := rfl
@[simp] theorem State.store_toNvmSt (s : State) (a n v : Nat) : (s.store a n v).toNvmSt = s.toNvmSt := rfl
@[simp] theorem State.store_toCalSt (s : State) (a n v : Nat) : (s.store a n v).toCalSt = s.toCalSt := rfl
@[simp] theorem State.store_toHealthSt (s : State) (a n v : Nat) : (s.store a n v).toHealthSt = s.toHealthSt := rfl
@[simp] theorem State.store_toModemSt (s : State) (a n v : Nat) : (s.store a n v).toModemSt = s.toModemSt := rfl
@[simp] theorem State.store_toRingSt (s : State) (a n v : Nat) : (s.store a n v).toRingSt = s.toRingSt := rfl
@[simp] theorem State.store_toDealSt (s : State) (a n v : Nat) : (s.store a n v).toDealSt = s.toDealSt := rfl
@[simp] theorem State.store_toUpdSt (s : State) (a n v : Nat) : (s.store a n v).toUpdSt = s.toUpdSt := rfl
@[simp] theorem State.store_pending (s : State) (a n v : Nat) : (s.store a n v).pending = s.pending := rfl
@[simp] theorem State.store_clk (s : State) (a n v : Nat) : (s.store a n v).clk = s.clk := rfl
@[simp] theorem State.store_fresh (s : State) (a n v : Nat) : (s.store a n v).fresh = s.fresh := rfl
@[simp] theorem State.store_regs (s : State) (a n v : Nat) : (s.store a n v).regs = s.regs := rfl
@[simp] theorem State.store_rdata (s : State) (a n v : Nat) : (s.store a n v).rdata = s.rdata := rfl
@[simp] theorem State.store_clrNow (s : State) (a n v : Nat) : (s.store a n v).clrNow = s.clrNow := rfl
@[simp] theorem State.store_setNow (s : State) (a n v : Nat) : (s.store a n v).setNow = s.setNow := rfl
@[simp] theorem State.store_taken (s : State) (a n v : Nat) : (s.store a n v).taken = s.taken := rfl
@[simp] theorem State.store_regsWas (s : State) (a n v : Nat) : (s.store a n v).regsWas = s.regsWas := rfl
@[simp] theorem State.store_inReset (s : State) (a n v : Nat) : (s.store a n v).inReset = s.inReset := rfl
@[simp] theorem State.store_rdW (s : State) (a n v : Nat) (k : Nat) : (s.store a n v).rdW k = s.rdW k := rfl
@[simp] theorem State.store_rd (s : State) (a n v : Nat) (g : Fld) : (s.store a n v).rd g = s.rd g := rfl

/-! ### `State.setFurrow` -/

@[simp] theorem State.setFurrow_toClockSt (s : State) (n : Nat) (f : Furrow) : (s.setFurrow n f).toClockSt = s.toClockSt := rfl
@[simp] theorem State.setFurrow_tb0 (s : State) (n : Nat) (f : Furrow) : (s.setFurrow n f).tb0 = s.tb0 := rfl
@[simp] theorem State.setFurrow_tb1 (s : State) (n : Nat) (f : Furrow) : (s.setFurrow n f).tb1 = s.tb1 := rfl
@[simp] theorem State.setFurrow_tbH (s : State) (n : Nat) (f : Furrow) : (s.setFurrow n f).tbH = s.tbH := rfl
@[simp] theorem State.setFurrow_seedQ (s : State) (n : Nat) (f : Furrow) : (s.setFurrow n f).seedQ = s.seedQ := rfl
@[simp] theorem State.setFurrow_seedD (s : State) (n : Nat) (f : Furrow) : (s.setFurrow n f).seedD = s.seedD := rfl
@[simp] theorem State.setFurrow_dispClk (s : State) (n : Nat) (f : Furrow) : (s.setFurrow n f).dispClk = s.dispClk := rfl
@[simp] theorem State.setFurrow_dispUsed (s : State) (n : Nat) (f : Furrow) : (s.setFurrow n f).dispUsed = s.dispUsed := rfl
@[simp] theorem State.setFurrow_sync0 (s : State) (n : Nat) (f : Furrow) : (s.setFurrow n f).sync0 = s.sync0 := rfl
@[simp] theorem State.setFurrow_sync1 (s : State) (n : Nat) (f : Furrow) : (s.setFurrow n f).sync1 = s.sync1 := rfl
@[simp] theorem State.setFurrow_shSeed (s : State) (n : Nat) (f : Furrow) : (s.setFurrow n f).shSeed = s.shSeed := rfl
@[simp] theorem State.setFurrow_toAlarmSt (s : State) (n : Nat) (f : Furrow) : (s.setFurrow n f).toAlarmSt = s.toAlarmSt := rfl
@[simp] theorem State.setFurrow_toChanSt (s : State) (n : Nat) (f : Furrow) : (s.setFurrow n f).toChanSt = s.toChanSt := rfl
@[simp] theorem State.setFurrow_toTallySt (s : State) (n : Nat) (f : Furrow) : (s.setFurrow n f).toTallySt = s.toTallySt := rfl
@[simp] theorem State.setFurrow_toEngineSt (s : State) (n : Nat) (f : Furrow) : (s.setFurrow n f).toEngineSt = s.toEngineSt := rfl
@[simp] theorem State.setFurrow_toNvmSt (s : State) (n : Nat) (f : Furrow) : (s.setFurrow n f).toNvmSt = s.toNvmSt := rfl
@[simp] theorem State.setFurrow_toCalSt (s : State) (n : Nat) (f : Furrow) : (s.setFurrow n f).toCalSt = s.toCalSt := rfl
@[simp] theorem State.setFurrow_toHealthSt (s : State) (n : Nat) (f : Furrow) : (s.setFurrow n f).toHealthSt = s.toHealthSt := rfl
@[simp] theorem State.setFurrow_toModemSt (s : State) (n : Nat) (f : Furrow) : (s.setFurrow n f).toModemSt = s.toModemSt := rfl
@[simp] theorem State.setFurrow_toRingSt (s : State) (n : Nat) (f : Furrow) : (s.setFurrow n f).toRingSt = s.toRingSt := rfl
@[simp] theorem State.setFurrow_toDealSt (s : State) (n : Nat) (f : Furrow) : (s.setFurrow n f).toDealSt = s.toDealSt := rfl
@[simp] theorem State.setFurrow_toUpdSt (s : State) (n : Nat) (f : Furrow) : (s.setFurrow n f).toUpdSt = s.toUpdSt := rfl
@[simp] theorem State.setFurrow_pending (s : State) (n : Nat) (f : Furrow) : (s.setFurrow n f).pending = s.pending := rfl
@[simp] theorem State.setFurrow_clk (s : State) (n : Nat) (f : Furrow) : (s.setFurrow n f).clk = s.clk := rfl
@[simp] theorem State.setFurrow_fresh (s : State) (n : Nat) (f : Furrow) : (s.setFurrow n f).fresh = s.fresh := rfl
@[simp] theorem State.setFurrow_regs (s : State) (n : Nat) (f : Furrow) : (s.setFurrow n f).regs = s.regs := rfl
@[simp] theorem State.setFurrow_mem (s : State) (n : Nat) (f : Furrow) : (s.setFurrow n f).mem = s.mem := rfl
@[simp] theorem State.setFurrow_rdata (s : State) (n : Nat) (f : Furrow) : (s.setFurrow n f).rdata = s.rdata := rfl
@[simp] theorem State.setFurrow_clrNow (s : State) (n : Nat) (f : Furrow) : (s.setFurrow n f).clrNow = s.clrNow := rfl
@[simp] theorem State.setFurrow_setNow (s : State) (n : Nat) (f : Furrow) : (s.setFurrow n f).setNow = s.setNow := rfl
@[simp] theorem State.setFurrow_taken (s : State) (n : Nat) (f : Furrow) : (s.setFurrow n f).taken = s.taken := rfl
@[simp] theorem State.setFurrow_regsWas (s : State) (n : Nat) (f : Furrow) : (s.setFurrow n f).regsWas = s.regsWas := rfl
@[simp] theorem State.setFurrow_inReset (s : State) (n : Nat) (f : Furrow) : (s.setFurrow n f).inReset = s.inReset := rfl
@[simp] theorem State.setFurrow_rdW (s : State) (n : Nat) (f : Furrow) (k : Nat) : (s.setFurrow n f).rdW k = s.rdW k := rfl
@[simp] theorem State.setFurrow_rd (s : State) (n : Nat) (f : Furrow) (g : Fld) : (s.setFurrow n f).rd g = s.rd g := rfl
@[simp] theorem State.setFurrow_byte (s : State) (n : Nat) (f : Furrow) (k : Nat) : (s.setFurrow n f).byte k = s.byte k := rfl

/-! ### `State.setChan` -/

@[simp] theorem State.setChan_toClockSt (s : State) (c : Nat) (h : Chan) : (s.setChan c h).toClockSt = s.toClockSt := rfl
@[simp] theorem State.setChan_toFurrowSt (s : State) (c : Nat) (h : Chan) : (s.setChan c h).toFurrowSt = s.toFurrowSt := rfl
@[simp] theorem State.setChan_toAlarmSt (s : State) (c : Nat) (h : Chan) : (s.setChan c h).toAlarmSt = s.toAlarmSt := rfl
@[simp] theorem State.setChan_gang (s : State) (c : Nat) (h : Chan) : (s.setChan c h).gang = s.gang := rfl
@[simp] theorem State.setChan_cal (s : State) (c : Nat) (h : Chan) : (s.setChan c h).cal = s.cal := rfl
@[simp] theorem State.setChan_calWait (s : State) (c : Nat) (h : Chan) : (s.setChan c h).calWait = s.calWait := rfl
@[simp] theorem State.setChan_rotT0 (s : State) (c : Nat) (h : Chan) : (s.setChan c h).rotT0 = s.rotT0 := rfl
@[simp] theorem State.setChan_refs (s : State) (c : Nat) (h : Chan) : (s.setChan c h).refs = s.refs := rfl
@[simp] theorem State.setChan_mapDirty (s : State) (c : Nat) (h : Chan) : (s.setChan c h).mapDirty = s.mapDirty := rfl
@[simp] theorem State.setChan_tripQ (s : State) (c : Nat) (h : Chan) : (s.setChan c h).tripQ = s.tripQ := rfl
@[simp] theorem State.setChan_shTrip (s : State) (c : Nat) (h : Chan) : (s.setChan c h).shTrip = s.shTrip := rfl
@[simp] theorem State.setChan_cmpClk (s : State) (c : Nat) (h : Chan) : (s.setChan c h).cmpClk = s.cmpClk := rfl
@[simp] theorem State.setChan_toTallySt (s : State) (c : Nat) (h : Chan) : (s.setChan c h).toTallySt = s.toTallySt := rfl
@[simp] theorem State.setChan_toEngineSt (s : State) (c : Nat) (h : Chan) : (s.setChan c h).toEngineSt = s.toEngineSt := rfl
@[simp] theorem State.setChan_toNvmSt (s : State) (c : Nat) (h : Chan) : (s.setChan c h).toNvmSt = s.toNvmSt := rfl
@[simp] theorem State.setChan_toCalSt (s : State) (c : Nat) (h : Chan) : (s.setChan c h).toCalSt = s.toCalSt := rfl
@[simp] theorem State.setChan_toHealthSt (s : State) (c : Nat) (h : Chan) : (s.setChan c h).toHealthSt = s.toHealthSt := rfl
@[simp] theorem State.setChan_toModemSt (s : State) (c : Nat) (h : Chan) : (s.setChan c h).toModemSt = s.toModemSt := rfl
@[simp] theorem State.setChan_toRingSt (s : State) (c : Nat) (h : Chan) : (s.setChan c h).toRingSt = s.toRingSt := rfl
@[simp] theorem State.setChan_toDealSt (s : State) (c : Nat) (h : Chan) : (s.setChan c h).toDealSt = s.toDealSt := rfl
@[simp] theorem State.setChan_toUpdSt (s : State) (c : Nat) (h : Chan) : (s.setChan c h).toUpdSt = s.toUpdSt := rfl
@[simp] theorem State.setChan_pending (s : State) (c : Nat) (h : Chan) : (s.setChan c h).pending = s.pending := rfl
@[simp] theorem State.setChan_clk (s : State) (c : Nat) (h : Chan) : (s.setChan c h).clk = s.clk := rfl
@[simp] theorem State.setChan_fresh (s : State) (c : Nat) (h : Chan) : (s.setChan c h).fresh = s.fresh := rfl
@[simp] theorem State.setChan_regs (s : State) (c : Nat) (h : Chan) : (s.setChan c h).regs = s.regs := rfl
@[simp] theorem State.setChan_mem (s : State) (c : Nat) (h : Chan) : (s.setChan c h).mem = s.mem := rfl
@[simp] theorem State.setChan_rdata (s : State) (c : Nat) (h : Chan) : (s.setChan c h).rdata = s.rdata := rfl
@[simp] theorem State.setChan_clrNow (s : State) (c : Nat) (h : Chan) : (s.setChan c h).clrNow = s.clrNow := rfl
@[simp] theorem State.setChan_setNow (s : State) (c : Nat) (h : Chan) : (s.setChan c h).setNow = s.setNow := rfl
@[simp] theorem State.setChan_taken (s : State) (c : Nat) (h : Chan) : (s.setChan c h).taken = s.taken := rfl
@[simp] theorem State.setChan_regsWas (s : State) (c : Nat) (h : Chan) : (s.setChan c h).regsWas = s.regsWas := rfl
@[simp] theorem State.setChan_inReset (s : State) (c : Nat) (h : Chan) : (s.setChan c h).inReset = s.inReset := rfl
@[simp] theorem State.setChan_rdW (s : State) (c : Nat) (h : Chan) (k : Nat) : (s.setChan c h).rdW k = s.rdW k := rfl
@[simp] theorem State.setChan_rd (s : State) (c : Nat) (h : Chan) (g : Fld) : (s.setChan c h).rd g = s.rd g := rfl
@[simp] theorem State.setChan_byte (s : State) (c : Nat) (h : Chan) (k : Nat) : (s.setChan c h).byte k = s.byte k := rfl

/-! ### `State.setHand` -/

@[simp] theorem State.setHand_toClockSt (s : State) (p h : Nat) (x : Hand) : (s.setHand p h x).toClockSt = s.toClockSt := rfl
@[simp] theorem State.setHand_toFurrowSt (s : State) (p h : Nat) (x : Hand) : (s.setHand p h x).toFurrowSt = s.toFurrowSt := rfl
@[simp] theorem State.setHand_toAlarmSt (s : State) (p h : Nat) (x : Hand) : (s.setHand p h x).toAlarmSt = s.toAlarmSt := rfl
@[simp] theorem State.setHand_toChanSt (s : State) (p h : Nat) (x : Hand) : (s.setHand p h x).toChanSt = s.toChanSt := rfl
@[simp] theorem State.setHand_toTallySt (s : State) (p h : Nat) (x : Hand) : (s.setHand p h x).toTallySt = s.toTallySt := rfl
@[simp] theorem State.setHand_thrQ (s : State) (p h : Nat) (x : Hand) : (s.setHand p h x).thrQ = s.thrQ := rfl
@[simp] theorem State.setHand_thrId (s : State) (p h : Nat) (x : Hand) : (s.setHand p h x).thrId = s.thrId := rfl
@[simp] theorem State.setHand_lanes (s : State) (p h : Nat) (x : Hand) : (s.setHand p h x).lanes = s.lanes := rfl
@[simp] theorem State.setHand_thrRun (s : State) (p h : Nat) (x : Hand) : (s.setHand p h x).thrRun = s.thrRun := rfl
@[simp] theorem State.setHand_thrRes (s : State) (p h : Nat) (x : Hand) : (s.setHand p h x).thrRes = s.thrRes := rfl
@[simp] theorem State.setHand_thrBusy (s : State) (p h : Nat) (x : Hand) : (s.setHand p h x).thrBusy = s.thrBusy := rfl
@[simp] theorem State.setHand_thrIrq (s : State) (p h : Nat) (x : Hand) : (s.setHand p h x).thrIrq = s.thrIrq := rfl
@[simp] theorem State.setHand_rsPos (s : State) (p h : Nat) (x : Hand) : (s.setHand p h x).rsPos = s.rsPos := rfl
@[simp] theorem State.setHand_silo (s : State) (p h : Nat) (x : Hand) : (s.setHand p h x).silo = s.silo := rfl
@[simp] theorem State.setHand_hop (s : State) (p h : Nat) (x : Hand) : (s.setHand p h x).hop = s.hop := rfl
@[simp] theorem State.setHand_hopGap (s : State) (p h : Nat) (x : Hand) : (s.setHand p h x).hopGap = s.hopGap := rfl
@[simp] theorem State.setHand_hopNow (s : State) (p h : Nat) (x : Hand) : (s.setHand p h x).hopNow = s.hopNow := rfl
@[simp] theorem State.setHand_hopWas (s : State) (p h : Nat) (x : Hand) : (s.setHand p h x).hopWas = s.hopWas := rfl
@[simp] theorem State.setHand_hopGapWas (s : State) (p h : Nat) (x : Hand) : (s.setHand p h x).hopGapWas = s.hopGapWas := rfl
@[simp] theorem State.setHand_hopShut (s : State) (p h : Nat) (x : Hand) : (s.setHand p h x).hopShut = s.hopShut := rfl
@[simp] theorem State.setHand_gln (s : State) (p h : Nat) (x : Hand) : (s.setHand p h x).gln = s.gln := rfl
@[simp] theorem State.setHand_plough (s : State) (p h : Nat) (x : Hand) : (s.setHand p h x).plough = s.plough := rfl
@[simp] theorem State.setHand_logi (s : State) (p h : Nat) (x : Hand) : (s.setHand p h x).logi = s.logi := rfl
@[simp] theorem State.setHand_startRes (s : State) (p h : Nat) (x : Hand) : (s.setHand p h x).startRes = s.startRes := rfl
@[simp] theorem State.setHand_ovEv (s : State) (p h : Nat) (x : Hand) : (s.setHand p h x).ovEv = s.ovEv := rfl
@[simp] theorem State.setHand_ovSec (s : State) (p h : Nat) (x : Hand) : (s.setHand p h x).ovSec = s.ovSec := rfl
@[simp] theorem State.setHand_ramScrub (s : State) (p h : Nat) (x : Hand) : (s.setHand p h x).ramScrub = s.ramScrub := rfl
@[simp] theorem State.setHand_toNvmSt (s : State) (p h : Nat) (x : Hand) : (s.setHand p h x).toNvmSt = s.toNvmSt := rfl
@[simp] theorem State.setHand_toCalSt (s : State) (p h : Nat) (x : Hand) : (s.setHand p h x).toCalSt = s.toCalSt := rfl
@[simp] theorem State.setHand_toHealthSt (s : State) (p h : Nat) (x : Hand) : (s.setHand p h x).toHealthSt = s.toHealthSt := rfl
@[simp] theorem State.setHand_toModemSt (s : State) (p h : Nat) (x : Hand) : (s.setHand p h x).toModemSt = s.toModemSt := rfl
@[simp] theorem State.setHand_toRingSt (s : State) (p h : Nat) (x : Hand) : (s.setHand p h x).toRingSt = s.toRingSt := rfl
@[simp] theorem State.setHand_toDealSt (s : State) (p h : Nat) (x : Hand) : (s.setHand p h x).toDealSt = s.toDealSt := rfl
@[simp] theorem State.setHand_toUpdSt (s : State) (p h : Nat) (x : Hand) : (s.setHand p h x).toUpdSt = s.toUpdSt := rfl
@[simp] theorem State.setHand_pending (s : State) (p h : Nat) (x : Hand) : (s.setHand p h x).pending = s.pending := rfl
@[simp] theorem State.setHand_clk (s : State) (p h : Nat) (x : Hand) : (s.setHand p h x).clk = s.clk := rfl
@[simp] theorem State.setHand_fresh (s : State) (p h : Nat) (x : Hand) : (s.setHand p h x).fresh = s.fresh := rfl
@[simp] theorem State.setHand_regs (s : State) (p h : Nat) (x : Hand) : (s.setHand p h x).regs = s.regs := rfl
@[simp] theorem State.setHand_mem (s : State) (p h : Nat) (x : Hand) : (s.setHand p h x).mem = s.mem := rfl
@[simp] theorem State.setHand_rdata (s : State) (p h : Nat) (x : Hand) : (s.setHand p h x).rdata = s.rdata := rfl
@[simp] theorem State.setHand_clrNow (s : State) (p h : Nat) (x : Hand) : (s.setHand p h x).clrNow = s.clrNow := rfl
@[simp] theorem State.setHand_setNow (s : State) (p h : Nat) (x : Hand) : (s.setHand p h x).setNow = s.setNow := rfl
@[simp] theorem State.setHand_taken (s : State) (p h : Nat) (x : Hand) : (s.setHand p h x).taken = s.taken := rfl
@[simp] theorem State.setHand_regsWas (s : State) (p h : Nat) (x : Hand) : (s.setHand p h x).regsWas = s.regsWas := rfl
@[simp] theorem State.setHand_inReset (s : State) (p h : Nat) (x : Hand) : (s.setHand p h x).inReset = s.inReset := rfl
@[simp] theorem State.setHand_rdW (s : State) (p h : Nat) (x : Hand) (k : Nat) : (s.setHand p h x).rdW k = s.rdW k := rfl
@[simp] theorem State.setHand_rd (s : State) (p h : Nat) (x : Hand) (g : Fld) : (s.setHand p h x).rd g = s.rd g := rfl
@[simp] theorem State.setHand_byte (s : State) (p h : Nat) (x : Hand) (k : Nat) : (s.setHand p h x).byte k = s.byte k := rfl

/-! ### `State.setPlough` -/

@[simp] theorem State.setPlough_toClockSt (s : State) (p : Nat) (x : Plough) : (s.setPlough p x).toClockSt = s.toClockSt := rfl
@[simp] theorem State.setPlough_toFurrowSt (s : State) (p : Nat) (x : Plough) : (s.setPlough p x).toFurrowSt = s.toFurrowSt := rfl
@[simp] theorem State.setPlough_toAlarmSt (s : State) (p : Nat) (x : Plough) : (s.setPlough p x).toAlarmSt = s.toAlarmSt := rfl
@[simp] theorem State.setPlough_toChanSt (s : State) (p : Nat) (x : Plough) : (s.setPlough p x).toChanSt = s.toChanSt := rfl
@[simp] theorem State.setPlough_toTallySt (s : State) (p : Nat) (x : Plough) : (s.setPlough p x).toTallySt = s.toTallySt := rfl
@[simp] theorem State.setPlough_thrQ (s : State) (p : Nat) (x : Plough) : (s.setPlough p x).thrQ = s.thrQ := rfl
@[simp] theorem State.setPlough_thrId (s : State) (p : Nat) (x : Plough) : (s.setPlough p x).thrId = s.thrId := rfl
@[simp] theorem State.setPlough_lanes (s : State) (p : Nat) (x : Plough) : (s.setPlough p x).lanes = s.lanes := rfl
@[simp] theorem State.setPlough_thrRun (s : State) (p : Nat) (x : Plough) : (s.setPlough p x).thrRun = s.thrRun := rfl
@[simp] theorem State.setPlough_thrRes (s : State) (p : Nat) (x : Plough) : (s.setPlough p x).thrRes = s.thrRes := rfl
@[simp] theorem State.setPlough_thrBusy (s : State) (p : Nat) (x : Plough) : (s.setPlough p x).thrBusy = s.thrBusy := rfl
@[simp] theorem State.setPlough_thrIrq (s : State) (p : Nat) (x : Plough) : (s.setPlough p x).thrIrq = s.thrIrq := rfl
@[simp] theorem State.setPlough_rsPos (s : State) (p : Nat) (x : Plough) : (s.setPlough p x).rsPos = s.rsPos := rfl
@[simp] theorem State.setPlough_silo (s : State) (p : Nat) (x : Plough) : (s.setPlough p x).silo = s.silo := rfl
@[simp] theorem State.setPlough_hop (s : State) (p : Nat) (x : Plough) : (s.setPlough p x).hop = s.hop := rfl
@[simp] theorem State.setPlough_hopGap (s : State) (p : Nat) (x : Plough) : (s.setPlough p x).hopGap = s.hopGap := rfl
@[simp] theorem State.setPlough_hopNow (s : State) (p : Nat) (x : Plough) : (s.setPlough p x).hopNow = s.hopNow := rfl
@[simp] theorem State.setPlough_hopWas (s : State) (p : Nat) (x : Plough) : (s.setPlough p x).hopWas = s.hopWas := rfl
@[simp] theorem State.setPlough_hopGapWas (s : State) (p : Nat) (x : Plough) : (s.setPlough p x).hopGapWas = s.hopGapWas := rfl
@[simp] theorem State.setPlough_hopShut (s : State) (p : Nat) (x : Plough) : (s.setPlough p x).hopShut = s.hopShut := rfl
@[simp] theorem State.setPlough_gln (s : State) (p : Nat) (x : Plough) : (s.setPlough p x).gln = s.gln := rfl
@[simp] theorem State.setPlough_hand (s : State) (p : Nat) (x : Plough) : (s.setPlough p x).hand = s.hand := rfl
@[simp] theorem State.setPlough_logi (s : State) (p : Nat) (x : Plough) : (s.setPlough p x).logi = s.logi := rfl
@[simp] theorem State.setPlough_startRes (s : State) (p : Nat) (x : Plough) : (s.setPlough p x).startRes = s.startRes := rfl
@[simp] theorem State.setPlough_ovEv (s : State) (p : Nat) (x : Plough) : (s.setPlough p x).ovEv = s.ovEv := rfl
@[simp] theorem State.setPlough_ovSec (s : State) (p : Nat) (x : Plough) : (s.setPlough p x).ovSec = s.ovSec := rfl
@[simp] theorem State.setPlough_ramScrub (s : State) (p : Nat) (x : Plough) : (s.setPlough p x).ramScrub = s.ramScrub := rfl
@[simp] theorem State.setPlough_toNvmSt (s : State) (p : Nat) (x : Plough) : (s.setPlough p x).toNvmSt = s.toNvmSt := rfl
@[simp] theorem State.setPlough_toCalSt (s : State) (p : Nat) (x : Plough) : (s.setPlough p x).toCalSt = s.toCalSt := rfl
@[simp] theorem State.setPlough_toHealthSt (s : State) (p : Nat) (x : Plough) : (s.setPlough p x).toHealthSt = s.toHealthSt := rfl
@[simp] theorem State.setPlough_toModemSt (s : State) (p : Nat) (x : Plough) : (s.setPlough p x).toModemSt = s.toModemSt := rfl
@[simp] theorem State.setPlough_toRingSt (s : State) (p : Nat) (x : Plough) : (s.setPlough p x).toRingSt = s.toRingSt := rfl
@[simp] theorem State.setPlough_toDealSt (s : State) (p : Nat) (x : Plough) : (s.setPlough p x).toDealSt = s.toDealSt := rfl
@[simp] theorem State.setPlough_toUpdSt (s : State) (p : Nat) (x : Plough) : (s.setPlough p x).toUpdSt = s.toUpdSt := rfl
@[simp] theorem State.setPlough_pending (s : State) (p : Nat) (x : Plough) : (s.setPlough p x).pending = s.pending := rfl
@[simp] theorem State.setPlough_clk (s : State) (p : Nat) (x : Plough) : (s.setPlough p x).clk = s.clk := rfl
@[simp] theorem State.setPlough_fresh (s : State) (p : Nat) (x : Plough) : (s.setPlough p x).fresh = s.fresh := rfl
@[simp] theorem State.setPlough_regs (s : State) (p : Nat) (x : Plough) : (s.setPlough p x).regs = s.regs := rfl
@[simp] theorem State.setPlough_mem (s : State) (p : Nat) (x : Plough) : (s.setPlough p x).mem = s.mem := rfl
@[simp] theorem State.setPlough_rdata (s : State) (p : Nat) (x : Plough) : (s.setPlough p x).rdata = s.rdata := rfl
@[simp] theorem State.setPlough_clrNow (s : State) (p : Nat) (x : Plough) : (s.setPlough p x).clrNow = s.clrNow := rfl
@[simp] theorem State.setPlough_setNow (s : State) (p : Nat) (x : Plough) : (s.setPlough p x).setNow = s.setNow := rfl
@[simp] theorem State.setPlough_taken (s : State) (p : Nat) (x : Plough) : (s.setPlough p x).taken = s.taken := rfl
@[simp] theorem State.setPlough_regsWas (s : State) (p : Nat) (x : Plough) : (s.setPlough p x).regsWas = s.regsWas := rfl
@[simp] theorem State.setPlough_inReset (s : State) (p : Nat) (x : Plough) : (s.setPlough p x).inReset = s.inReset := rfl
@[simp] theorem State.setPlough_rdW (s : State) (p : Nat) (x : Plough) (k : Nat) : (s.setPlough p x).rdW k = s.rdW k := rfl
@[simp] theorem State.setPlough_rd (s : State) (p : Nat) (x : Plough) (g : Fld) : (s.setPlough p x).rd g = s.rd g := rfl
@[simp] theorem State.setPlough_byte (s : State) (p : Nat) (x : Plough) (k : Nat) : (s.setPlough p x).byte k = s.byte k := rfl

/-! ### `State.setLogi` -/

@[simp] theorem State.setLogi_toClockSt (s : State) (l : Nat) (x : Logi) : (s.setLogi l x).toClockSt = s.toClockSt := rfl
@[simp] theorem State.setLogi_toFurrowSt (s : State) (l : Nat) (x : Logi) : (s.setLogi l x).toFurrowSt = s.toFurrowSt := rfl
@[simp] theorem State.setLogi_toAlarmSt (s : State) (l : Nat) (x : Logi) : (s.setLogi l x).toAlarmSt = s.toAlarmSt := rfl
@[simp] theorem State.setLogi_toChanSt (s : State) (l : Nat) (x : Logi) : (s.setLogi l x).toChanSt = s.toChanSt := rfl
@[simp] theorem State.setLogi_toTallySt (s : State) (l : Nat) (x : Logi) : (s.setLogi l x).toTallySt = s.toTallySt := rfl
@[simp] theorem State.setLogi_thrQ (s : State) (l : Nat) (x : Logi) : (s.setLogi l x).thrQ = s.thrQ := rfl
@[simp] theorem State.setLogi_thrId (s : State) (l : Nat) (x : Logi) : (s.setLogi l x).thrId = s.thrId := rfl
@[simp] theorem State.setLogi_lanes (s : State) (l : Nat) (x : Logi) : (s.setLogi l x).lanes = s.lanes := rfl
@[simp] theorem State.setLogi_thrRun (s : State) (l : Nat) (x : Logi) : (s.setLogi l x).thrRun = s.thrRun := rfl
@[simp] theorem State.setLogi_thrRes (s : State) (l : Nat) (x : Logi) : (s.setLogi l x).thrRes = s.thrRes := rfl
@[simp] theorem State.setLogi_thrBusy (s : State) (l : Nat) (x : Logi) : (s.setLogi l x).thrBusy = s.thrBusy := rfl
@[simp] theorem State.setLogi_thrIrq (s : State) (l : Nat) (x : Logi) : (s.setLogi l x).thrIrq = s.thrIrq := rfl
@[simp] theorem State.setLogi_rsPos (s : State) (l : Nat) (x : Logi) : (s.setLogi l x).rsPos = s.rsPos := rfl
@[simp] theorem State.setLogi_silo (s : State) (l : Nat) (x : Logi) : (s.setLogi l x).silo = s.silo := rfl
@[simp] theorem State.setLogi_hop (s : State) (l : Nat) (x : Logi) : (s.setLogi l x).hop = s.hop := rfl
@[simp] theorem State.setLogi_hopGap (s : State) (l : Nat) (x : Logi) : (s.setLogi l x).hopGap = s.hopGap := rfl
@[simp] theorem State.setLogi_hopNow (s : State) (l : Nat) (x : Logi) : (s.setLogi l x).hopNow = s.hopNow := rfl
@[simp] theorem State.setLogi_hopWas (s : State) (l : Nat) (x : Logi) : (s.setLogi l x).hopWas = s.hopWas := rfl
@[simp] theorem State.setLogi_hopGapWas (s : State) (l : Nat) (x : Logi) : (s.setLogi l x).hopGapWas = s.hopGapWas := rfl
@[simp] theorem State.setLogi_hopShut (s : State) (l : Nat) (x : Logi) : (s.setLogi l x).hopShut = s.hopShut := rfl
@[simp] theorem State.setLogi_gln (s : State) (l : Nat) (x : Logi) : (s.setLogi l x).gln = s.gln := rfl
@[simp] theorem State.setLogi_hand (s : State) (l : Nat) (x : Logi) : (s.setLogi l x).hand = s.hand := rfl
@[simp] theorem State.setLogi_plough (s : State) (l : Nat) (x : Logi) : (s.setLogi l x).plough = s.plough := rfl
@[simp] theorem State.setLogi_startRes (s : State) (l : Nat) (x : Logi) : (s.setLogi l x).startRes = s.startRes := rfl
@[simp] theorem State.setLogi_ovEv (s : State) (l : Nat) (x : Logi) : (s.setLogi l x).ovEv = s.ovEv := rfl
@[simp] theorem State.setLogi_ovSec (s : State) (l : Nat) (x : Logi) : (s.setLogi l x).ovSec = s.ovSec := rfl
@[simp] theorem State.setLogi_ramScrub (s : State) (l : Nat) (x : Logi) : (s.setLogi l x).ramScrub = s.ramScrub := rfl
@[simp] theorem State.setLogi_toNvmSt (s : State) (l : Nat) (x : Logi) : (s.setLogi l x).toNvmSt = s.toNvmSt := rfl
@[simp] theorem State.setLogi_toCalSt (s : State) (l : Nat) (x : Logi) : (s.setLogi l x).toCalSt = s.toCalSt := rfl
@[simp] theorem State.setLogi_toHealthSt (s : State) (l : Nat) (x : Logi) : (s.setLogi l x).toHealthSt = s.toHealthSt := rfl
@[simp] theorem State.setLogi_toModemSt (s : State) (l : Nat) (x : Logi) : (s.setLogi l x).toModemSt = s.toModemSt := rfl
@[simp] theorem State.setLogi_toRingSt (s : State) (l : Nat) (x : Logi) : (s.setLogi l x).toRingSt = s.toRingSt := rfl
@[simp] theorem State.setLogi_toDealSt (s : State) (l : Nat) (x : Logi) : (s.setLogi l x).toDealSt = s.toDealSt := rfl
@[simp] theorem State.setLogi_toUpdSt (s : State) (l : Nat) (x : Logi) : (s.setLogi l x).toUpdSt = s.toUpdSt := rfl
@[simp] theorem State.setLogi_pending (s : State) (l : Nat) (x : Logi) : (s.setLogi l x).pending = s.pending := rfl
@[simp] theorem State.setLogi_clk (s : State) (l : Nat) (x : Logi) : (s.setLogi l x).clk = s.clk := rfl
@[simp] theorem State.setLogi_fresh (s : State) (l : Nat) (x : Logi) : (s.setLogi l x).fresh = s.fresh := rfl
@[simp] theorem State.setLogi_regs (s : State) (l : Nat) (x : Logi) : (s.setLogi l x).regs = s.regs := rfl
@[simp] theorem State.setLogi_mem (s : State) (l : Nat) (x : Logi) : (s.setLogi l x).mem = s.mem := rfl
@[simp] theorem State.setLogi_rdata (s : State) (l : Nat) (x : Logi) : (s.setLogi l x).rdata = s.rdata := rfl
@[simp] theorem State.setLogi_clrNow (s : State) (l : Nat) (x : Logi) : (s.setLogi l x).clrNow = s.clrNow := rfl
@[simp] theorem State.setLogi_setNow (s : State) (l : Nat) (x : Logi) : (s.setLogi l x).setNow = s.setNow := rfl
@[simp] theorem State.setLogi_taken (s : State) (l : Nat) (x : Logi) : (s.setLogi l x).taken = s.taken := rfl
@[simp] theorem State.setLogi_regsWas (s : State) (l : Nat) (x : Logi) : (s.setLogi l x).regsWas = s.regsWas := rfl
@[simp] theorem State.setLogi_inReset (s : State) (l : Nat) (x : Logi) : (s.setLogi l x).inReset = s.inReset := rfl
@[simp] theorem State.setLogi_rdW (s : State) (l : Nat) (x : Logi) (k : Nat) : (s.setLogi l x).rdW k = s.rdW k := rfl
@[simp] theorem State.setLogi_rd (s : State) (l : Nat) (x : Logi) (g : Fld) : (s.setLogi l x).rd g = s.rd g := rfl
@[simp] theorem State.setLogi_byte (s : State) (l : Nat) (x : Logi) (k : Nat) : (s.setLogi l x).byte k = s.byte k := rfl

/-! ### `State.setField` -/

@[simp] theorem State.setField_toClockSt (s : State) (f : Nat) (x : Field) : (s.setField f x).toClockSt = s.toClockSt := rfl
@[simp] theorem State.setField_toFurrowSt (s : State) (f : Nat) (x : Field) : (s.setField f x).toFurrowSt = s.toFurrowSt := rfl
@[simp] theorem State.setField_toAlarmSt (s : State) (f : Nat) (x : Field) : (s.setField f x).toAlarmSt = s.toAlarmSt := rfl
@[simp] theorem State.setField_toChanSt (s : State) (f : Nat) (x : Field) : (s.setField f x).toChanSt = s.toChanSt := rfl
@[simp] theorem State.setField_bins (s : State) (f : Nat) (x : Field) : (s.setField f x).bins = s.bins := rfl
@[simp] theorem State.setField_binMeta (s : State) (f : Nat) (x : Field) : (s.setField f x).binMeta = s.binMeta := rfl
@[simp] theorem State.setField_rounds (s : State) (f : Nat) (x : Field) : (s.setField f x).rounds = s.rounds := rfl
@[simp] theorem State.setField_roundClk (s : State) (f : Nat) (x : Field) : (s.setField f x).roundClk = s.roundClk := rfl
@[simp] theorem State.setField_snaps (s : State) (f : Nat) (x : Field) : (s.setField f x).snaps = s.snaps := rfl
@[simp] theorem State.setField_snapBank (s : State) (f : Nat) (x : Field) : (s.setField f x).snapBank = s.snapBank := rfl
@[simp] theorem State.setField_snapSel (s : State) (f : Nat) (x : Field) : (s.setField f x).snapSel = s.snapSel := rfl
@[simp] theorem State.setField_shBin (s : State) (f : Nat) (x : Field) : (s.setField f x).shBin = s.shBin := rfl
@[simp] theorem State.setField_shSnap (s : State) (f : Nat) (x : Field) : (s.setField f x).shSnap = s.shSnap := rfl
@[simp] theorem State.setField_shScnt (s : State) (f : Nat) (x : Field) : (s.setField f x).shScnt = s.shScnt := rfl
@[simp] theorem State.setField_hcLast (s : State) (f : Nat) (x : Field) : (s.setField f x).hcLast = s.hcLast := rfl
@[simp] theorem State.setField_pulse (s : State) (f : Nat) (x : Field) : (s.setField f x).pulse = s.pulse := rfl
@[simp] theorem State.setField_plsSpare (s : State) (f : Nat) (x : Field) : (s.setField f x).plsSpare = s.plsSpare := rfl
@[simp] theorem State.setField_plsAt (s : State) (f : Nat) (x : Field) : (s.setField f x).plsAt = s.plsAt := rfl
@[simp] theorem State.setField_plsBack (s : State) (f : Nat) (x : Field) : (s.setField f x).plsBack = s.plsBack := rfl
@[simp] theorem State.setField_toEngineSt (s : State) (f : Nat) (x : Field) : (s.setField f x).toEngineSt = s.toEngineSt := rfl
@[simp] theorem State.setField_toNvmSt (s : State) (f : Nat) (x : Field) : (s.setField f x).toNvmSt = s.toNvmSt := rfl
@[simp] theorem State.setField_toCalSt (s : State) (f : Nat) (x : Field) : (s.setField f x).toCalSt = s.toCalSt := rfl
@[simp] theorem State.setField_toHealthSt (s : State) (f : Nat) (x : Field) : (s.setField f x).toHealthSt = s.toHealthSt := rfl
@[simp] theorem State.setField_toModemSt (s : State) (f : Nat) (x : Field) : (s.setField f x).toModemSt = s.toModemSt := rfl
@[simp] theorem State.setField_toRingSt (s : State) (f : Nat) (x : Field) : (s.setField f x).toRingSt = s.toRingSt := rfl
@[simp] theorem State.setField_toDealSt (s : State) (f : Nat) (x : Field) : (s.setField f x).toDealSt = s.toDealSt := rfl
@[simp] theorem State.setField_toUpdSt (s : State) (f : Nat) (x : Field) : (s.setField f x).toUpdSt = s.toUpdSt := rfl
@[simp] theorem State.setField_pending (s : State) (f : Nat) (x : Field) : (s.setField f x).pending = s.pending := rfl
@[simp] theorem State.setField_clk (s : State) (f : Nat) (x : Field) : (s.setField f x).clk = s.clk := rfl
@[simp] theorem State.setField_fresh (s : State) (f : Nat) (x : Field) : (s.setField f x).fresh = s.fresh := rfl
@[simp] theorem State.setField_regs (s : State) (f : Nat) (x : Field) : (s.setField f x).regs = s.regs := rfl
@[simp] theorem State.setField_mem (s : State) (f : Nat) (x : Field) : (s.setField f x).mem = s.mem := rfl
@[simp] theorem State.setField_rdata (s : State) (f : Nat) (x : Field) : (s.setField f x).rdata = s.rdata := rfl
@[simp] theorem State.setField_clrNow (s : State) (f : Nat) (x : Field) : (s.setField f x).clrNow = s.clrNow := rfl
@[simp] theorem State.setField_setNow (s : State) (f : Nat) (x : Field) : (s.setField f x).setNow = s.setNow := rfl
@[simp] theorem State.setField_taken (s : State) (f : Nat) (x : Field) : (s.setField f x).taken = s.taken := rfl
@[simp] theorem State.setField_regsWas (s : State) (f : Nat) (x : Field) : (s.setField f x).regsWas = s.regsWas := rfl
@[simp] theorem State.setField_inReset (s : State) (f : Nat) (x : Field) : (s.setField f x).inReset = s.inReset := rfl
@[simp] theorem State.setField_rdW (s : State) (f : Nat) (x : Field) (k : Nat) : (s.setField f x).rdW k = s.rdW k := rfl
@[simp] theorem State.setField_rd (s : State) (f : Nat) (x : Field) (g : Fld) : (s.setField f x).rd g = s.rd g := rfl
@[simp] theorem State.setField_byte (s : State) (f : Nat) (x : Field) (k : Nat) : (s.setField f x).byte k = s.byte k := rfl

/-! ### `State.setBin` -/

@[simp] theorem State.setBin_toClockSt (s : State) (b : Nat) (z : Int) : (s.setBin b z).toClockSt = s.toClockSt := rfl
@[simp] theorem State.setBin_toFurrowSt (s : State) (b : Nat) (z : Int) : (s.setBin b z).toFurrowSt = s.toFurrowSt := rfl
@[simp] theorem State.setBin_toAlarmSt (s : State) (b : Nat) (z : Int) : (s.setBin b z).toAlarmSt = s.toAlarmSt := rfl
@[simp] theorem State.setBin_toChanSt (s : State) (b : Nat) (z : Int) : (s.setBin b z).toChanSt = s.toChanSt := rfl
@[simp] theorem State.setBin_binMeta (s : State) (b : Nat) (z : Int) : (s.setBin b z).binMeta = s.binMeta := rfl
@[simp] theorem State.setBin_field (s : State) (b : Nat) (z : Int) : (s.setBin b z).field = s.field := rfl
@[simp] theorem State.setBin_rounds (s : State) (b : Nat) (z : Int) : (s.setBin b z).rounds = s.rounds := rfl
@[simp] theorem State.setBin_roundClk (s : State) (b : Nat) (z : Int) : (s.setBin b z).roundClk = s.roundClk := rfl
@[simp] theorem State.setBin_snaps (s : State) (b : Nat) (z : Int) : (s.setBin b z).snaps = s.snaps := rfl
@[simp] theorem State.setBin_snapBank (s : State) (b : Nat) (z : Int) : (s.setBin b z).snapBank = s.snapBank := rfl
@[simp] theorem State.setBin_snapSel (s : State) (b : Nat) (z : Int) : (s.setBin b z).snapSel = s.snapSel := rfl
@[simp] theorem State.setBin_shBin (s : State) (b : Nat) (z : Int) : (s.setBin b z).shBin = s.shBin := rfl
@[simp] theorem State.setBin_shSnap (s : State) (b : Nat) (z : Int) : (s.setBin b z).shSnap = s.shSnap := rfl
@[simp] theorem State.setBin_shScnt (s : State) (b : Nat) (z : Int) : (s.setBin b z).shScnt = s.shScnt := rfl
@[simp] theorem State.setBin_hcLast (s : State) (b : Nat) (z : Int) : (s.setBin b z).hcLast = s.hcLast := rfl
@[simp] theorem State.setBin_pulse (s : State) (b : Nat) (z : Int) : (s.setBin b z).pulse = s.pulse := rfl
@[simp] theorem State.setBin_plsSpare (s : State) (b : Nat) (z : Int) : (s.setBin b z).plsSpare = s.plsSpare := rfl
@[simp] theorem State.setBin_plsAt (s : State) (b : Nat) (z : Int) : (s.setBin b z).plsAt = s.plsAt := rfl
@[simp] theorem State.setBin_plsBack (s : State) (b : Nat) (z : Int) : (s.setBin b z).plsBack = s.plsBack := rfl
@[simp] theorem State.setBin_toEngineSt (s : State) (b : Nat) (z : Int) : (s.setBin b z).toEngineSt = s.toEngineSt := rfl
@[simp] theorem State.setBin_toNvmSt (s : State) (b : Nat) (z : Int) : (s.setBin b z).toNvmSt = s.toNvmSt := rfl
@[simp] theorem State.setBin_toCalSt (s : State) (b : Nat) (z : Int) : (s.setBin b z).toCalSt = s.toCalSt := rfl
@[simp] theorem State.setBin_toHealthSt (s : State) (b : Nat) (z : Int) : (s.setBin b z).toHealthSt = s.toHealthSt := rfl
@[simp] theorem State.setBin_toModemSt (s : State) (b : Nat) (z : Int) : (s.setBin b z).toModemSt = s.toModemSt := rfl
@[simp] theorem State.setBin_toRingSt (s : State) (b : Nat) (z : Int) : (s.setBin b z).toRingSt = s.toRingSt := rfl
@[simp] theorem State.setBin_toDealSt (s : State) (b : Nat) (z : Int) : (s.setBin b z).toDealSt = s.toDealSt := rfl
@[simp] theorem State.setBin_toUpdSt (s : State) (b : Nat) (z : Int) : (s.setBin b z).toUpdSt = s.toUpdSt := rfl
@[simp] theorem State.setBin_pending (s : State) (b : Nat) (z : Int) : (s.setBin b z).pending = s.pending := rfl
@[simp] theorem State.setBin_clk (s : State) (b : Nat) (z : Int) : (s.setBin b z).clk = s.clk := rfl
@[simp] theorem State.setBin_fresh (s : State) (b : Nat) (z : Int) : (s.setBin b z).fresh = s.fresh := rfl
@[simp] theorem State.setBin_regs (s : State) (b : Nat) (z : Int) : (s.setBin b z).regs = s.regs := rfl
@[simp] theorem State.setBin_mem (s : State) (b : Nat) (z : Int) : (s.setBin b z).mem = s.mem := rfl
@[simp] theorem State.setBin_rdata (s : State) (b : Nat) (z : Int) : (s.setBin b z).rdata = s.rdata := rfl
@[simp] theorem State.setBin_clrNow (s : State) (b : Nat) (z : Int) : (s.setBin b z).clrNow = s.clrNow := rfl
@[simp] theorem State.setBin_setNow (s : State) (b : Nat) (z : Int) : (s.setBin b z).setNow = s.setNow := rfl
@[simp] theorem State.setBin_taken (s : State) (b : Nat) (z : Int) : (s.setBin b z).taken = s.taken := rfl
@[simp] theorem State.setBin_regsWas (s : State) (b : Nat) (z : Int) : (s.setBin b z).regsWas = s.regsWas := rfl
@[simp] theorem State.setBin_inReset (s : State) (b : Nat) (z : Int) : (s.setBin b z).inReset = s.inReset := rfl
@[simp] theorem State.setBin_rdW (s : State) (b : Nat) (z : Int) (k : Nat) : (s.setBin b z).rdW k = s.rdW k := rfl
@[simp] theorem State.setBin_rd (s : State) (b : Nat) (z : Int) (g : Fld) : (s.setBin b z).rd g = s.rd g := rfl
@[simp] theorem State.setBin_byte (s : State) (b : Nat) (z : Int) (k : Nat) : (s.setBin b z).byte k = s.byte k := rfl

/-! ### `State.setHopQ` -/

@[simp] theorem State.setHopQ_toClockSt (s : State) (l : Nat) (q : List HopE) : (s.setHopQ l q).toClockSt = s.toClockSt := rfl
@[simp] theorem State.setHopQ_toFurrowSt (s : State) (l : Nat) (q : List HopE) : (s.setHopQ l q).toFurrowSt = s.toFurrowSt := rfl
@[simp] theorem State.setHopQ_toAlarmSt (s : State) (l : Nat) (q : List HopE) : (s.setHopQ l q).toAlarmSt = s.toAlarmSt := rfl
@[simp] theorem State.setHopQ_toChanSt (s : State) (l : Nat) (q : List HopE) : (s.setHopQ l q).toChanSt = s.toChanSt := rfl
@[simp] theorem State.setHopQ_toTallySt (s : State) (l : Nat) (q : List HopE) : (s.setHopQ l q).toTallySt = s.toTallySt := rfl
@[simp] theorem State.setHopQ_thrQ (s : State) (l : Nat) (q : List HopE) : (s.setHopQ l q).thrQ = s.thrQ := rfl
@[simp] theorem State.setHopQ_thrId (s : State) (l : Nat) (q : List HopE) : (s.setHopQ l q).thrId = s.thrId := rfl
@[simp] theorem State.setHopQ_lanes (s : State) (l : Nat) (q : List HopE) : (s.setHopQ l q).lanes = s.lanes := rfl
@[simp] theorem State.setHopQ_thrRun (s : State) (l : Nat) (q : List HopE) : (s.setHopQ l q).thrRun = s.thrRun := rfl
@[simp] theorem State.setHopQ_thrRes (s : State) (l : Nat) (q : List HopE) : (s.setHopQ l q).thrRes = s.thrRes := rfl
@[simp] theorem State.setHopQ_thrBusy (s : State) (l : Nat) (q : List HopE) : (s.setHopQ l q).thrBusy = s.thrBusy := rfl
@[simp] theorem State.setHopQ_thrIrq (s : State) (l : Nat) (q : List HopE) : (s.setHopQ l q).thrIrq = s.thrIrq := rfl
@[simp] theorem State.setHopQ_rsPos (s : State) (l : Nat) (q : List HopE) : (s.setHopQ l q).rsPos = s.rsPos := rfl
@[simp] theorem State.setHopQ_silo (s : State) (l : Nat) (q : List HopE) : (s.setHopQ l q).silo = s.silo := rfl
@[simp] theorem State.setHopQ_hopGap (s : State) (l : Nat) (q : List HopE) : (s.setHopQ l q).hopGap = s.hopGap := rfl
@[simp] theorem State.setHopQ_hopNow (s : State) (l : Nat) (q : List HopE) : (s.setHopQ l q).hopNow = s.hopNow := rfl
@[simp] theorem State.setHopQ_hopWas (s : State) (l : Nat) (q : List HopE) : (s.setHopQ l q).hopWas = s.hopWas := rfl
@[simp] theorem State.setHopQ_hopGapWas (s : State) (l : Nat) (q : List HopE) : (s.setHopQ l q).hopGapWas = s.hopGapWas := rfl
@[simp] theorem State.setHopQ_hopShut (s : State) (l : Nat) (q : List HopE) : (s.setHopQ l q).hopShut = s.hopShut := rfl
@[simp] theorem State.setHopQ_gln (s : State) (l : Nat) (q : List HopE) : (s.setHopQ l q).gln = s.gln := rfl
@[simp] theorem State.setHopQ_hand (s : State) (l : Nat) (q : List HopE) : (s.setHopQ l q).hand = s.hand := rfl
@[simp] theorem State.setHopQ_plough (s : State) (l : Nat) (q : List HopE) : (s.setHopQ l q).plough = s.plough := rfl
@[simp] theorem State.setHopQ_logi (s : State) (l : Nat) (q : List HopE) : (s.setHopQ l q).logi = s.logi := rfl
@[simp] theorem State.setHopQ_startRes (s : State) (l : Nat) (q : List HopE) : (s.setHopQ l q).startRes = s.startRes := rfl
@[simp] theorem State.setHopQ_ovEv (s : State) (l : Nat) (q : List HopE) : (s.setHopQ l q).ovEv = s.ovEv := rfl
@[simp] theorem State.setHopQ_ovSec (s : State) (l : Nat) (q : List HopE) : (s.setHopQ l q).ovSec = s.ovSec := rfl
@[simp] theorem State.setHopQ_ramScrub (s : State) (l : Nat) (q : List HopE) : (s.setHopQ l q).ramScrub = s.ramScrub := rfl
@[simp] theorem State.setHopQ_toNvmSt (s : State) (l : Nat) (q : List HopE) : (s.setHopQ l q).toNvmSt = s.toNvmSt := rfl
@[simp] theorem State.setHopQ_toCalSt (s : State) (l : Nat) (q : List HopE) : (s.setHopQ l q).toCalSt = s.toCalSt := rfl
@[simp] theorem State.setHopQ_toHealthSt (s : State) (l : Nat) (q : List HopE) : (s.setHopQ l q).toHealthSt = s.toHealthSt := rfl
@[simp] theorem State.setHopQ_toModemSt (s : State) (l : Nat) (q : List HopE) : (s.setHopQ l q).toModemSt = s.toModemSt := rfl
@[simp] theorem State.setHopQ_toRingSt (s : State) (l : Nat) (q : List HopE) : (s.setHopQ l q).toRingSt = s.toRingSt := rfl
@[simp] theorem State.setHopQ_toDealSt (s : State) (l : Nat) (q : List HopE) : (s.setHopQ l q).toDealSt = s.toDealSt := rfl
@[simp] theorem State.setHopQ_toUpdSt (s : State) (l : Nat) (q : List HopE) : (s.setHopQ l q).toUpdSt = s.toUpdSt := rfl
@[simp] theorem State.setHopQ_pending (s : State) (l : Nat) (q : List HopE) : (s.setHopQ l q).pending = s.pending := rfl
@[simp] theorem State.setHopQ_clk (s : State) (l : Nat) (q : List HopE) : (s.setHopQ l q).clk = s.clk := rfl
@[simp] theorem State.setHopQ_fresh (s : State) (l : Nat) (q : List HopE) : (s.setHopQ l q).fresh = s.fresh := rfl
@[simp] theorem State.setHopQ_regs (s : State) (l : Nat) (q : List HopE) : (s.setHopQ l q).regs = s.regs := rfl
@[simp] theorem State.setHopQ_mem (s : State) (l : Nat) (q : List HopE) : (s.setHopQ l q).mem = s.mem := rfl
@[simp] theorem State.setHopQ_rdata (s : State) (l : Nat) (q : List HopE) : (s.setHopQ l q).rdata = s.rdata := rfl
@[simp] theorem State.setHopQ_clrNow (s : State) (l : Nat) (q : List HopE) : (s.setHopQ l q).clrNow = s.clrNow := rfl
@[simp] theorem State.setHopQ_setNow (s : State) (l : Nat) (q : List HopE) : (s.setHopQ l q).setNow = s.setNow := rfl
@[simp] theorem State.setHopQ_taken (s : State) (l : Nat) (q : List HopE) : (s.setHopQ l q).taken = s.taken := rfl
@[simp] theorem State.setHopQ_regsWas (s : State) (l : Nat) (q : List HopE) : (s.setHopQ l q).regsWas = s.regsWas := rfl
@[simp] theorem State.setHopQ_inReset (s : State) (l : Nat) (q : List HopE) : (s.setHopQ l q).inReset = s.inReset := rfl
@[simp] theorem State.setHopQ_rdW (s : State) (l : Nat) (q : List HopE) (k : Nat) : (s.setHopQ l q).rdW k = s.rdW k := rfl
@[simp] theorem State.setHopQ_rd (s : State) (l : Nat) (q : List HopE) (g : Fld) : (s.setHopQ l q).rd g = s.rd g := rfl
@[simp] theorem State.setHopQ_byte (s : State) (l : Nat) (q : List HopE) (k : Nat) : (s.setHopQ l q).byte k = s.byte k := rfl

/-! ### `State.setBank` -/

@[simp] theorem State.setBank_toClockSt (s : State) (o : Nat) (b : NvBank) : (s.setBank o b).toClockSt = s.toClockSt := rfl
@[simp] theorem State.setBank_toFurrowSt (s : State) (o : Nat) (b : NvBank) : (s.setBank o b).toFurrowSt = s.toFurrowSt := rfl
@[simp] theorem State.setBank_toAlarmSt (s : State) (o : Nat) (b : NvBank) : (s.setBank o b).toAlarmSt = s.toAlarmSt := rfl
@[simp] theorem State.setBank_toChanSt (s : State) (o : Nat) (b : NvBank) : (s.setBank o b).toChanSt = s.toChanSt := rfl
@[simp] theorem State.setBank_toTallySt (s : State) (o : Nat) (b : NvBank) : (s.setBank o b).toTallySt = s.toTallySt := rfl
@[simp] theorem State.setBank_toEngineSt (s : State) (o : Nat) (b : NvBank) : (s.setBank o b).toEngineSt = s.toEngineSt := rfl
@[simp] theorem State.setBank_nvBuf (s : State) (o : Nat) (b : NvBank) : (s.setBank o b).nvBuf = s.nvBuf := rfl
@[simp] theorem State.setBank_nvC (s : State) (o : Nat) (b : NvBank) : (s.setBank o b).nvC = s.nvC := rfl
@[simp] theorem State.setBank_nvHeld (s : State) (o : Nat) (b : NvBank) : (s.setBank o b).nvHeld = s.nvHeld := rfl
@[simp] theorem State.setBank_nvNum (s : State) (o : Nat) (b : NvBank) : (s.setBank o b).nvNum = s.nvNum := rfl
@[simp] theorem State.setBank_nvT0 (s : State) (o : Nat) (b : NvBank) : (s.setBank o b).nvT0 = s.nvT0 := rfl
@[simp] theorem State.setBank_cribQ (s : State) (o : Nat) (b : NvBank) : (s.setBank o b).cribQ = s.cribQ := rfl
@[simp] theorem State.setBank_cribAt (s : State) (o : Nat) (b : NvBank) : (s.setBank o b).cribAt = s.cribAt := rfl
@[simp] theorem State.setBank_cribCopy (s : State) (o : Nat) (b : NvBank) : (s.setBank o b).cribCopy = s.cribCopy := rfl
@[simp] theorem State.setBank_cribNext (s : State) (o : Nat) (b : NvBank) : (s.setBank o b).cribNext = s.cribNext := rfl
@[simp] theorem State.setBank_revDirty (s : State) (o : Nat) (b : NvBank) : (s.setBank o b).revDirty = s.revDirty := rfl
@[simp] theorem State.setBank_engRun (s : State) (o : Nat) (b : NvBank) : (s.setBank o b).engRun = s.engRun := rfl
@[simp] theorem State.setBank_noPf (s : State) (o : Nat) (b : NvBank) : (s.setBank o b).noPf = s.noPf := rfl
@[simp] theorem State.setBank_pfBall (s : State) (o : Nat) (b : NvBank) : (s.setBank o b).pfBall = s.pfBall := rfl
@[simp] theorem State.setBank_pfTaken (s : State) (o : Nat) (b : NvBank) : (s.setBank o b).pfTaken = s.pfTaken := rfl
@[simp] theorem State.setBank_pfClk (s : State) (o : Nat) (b : NvBank) : (s.setBank o b).pfClk = s.pfClk := rfl
@[simp] theorem State.setBank_pfRel (s : State) (o : Nat) (b : NvBank) : (s.setBank o b).pfRel = s.pfRel := rfl
@[simp] theorem State.setBank_nvTaken (s : State) (o : Nat) (b : NvBank) : (s.setBank o b).nvTaken = s.nvTaken := rfl
@[simp] theorem State.setBank_nvFailed (s : State) (o : Nat) (b : NvBank) : (s.setBank o b).nvFailed = s.nvFailed := rfl
@[simp] theorem State.setBank_nvScrubs (s : State) (o : Nat) (b : NvBank) : (s.setBank o b).nvScrubs = s.nvScrubs := rfl
@[simp] theorem State.setBank_scrubReq (s : State) (o : Nat) (b : NvBank) : (s.setBank o b).scrubReq = s.scrubReq := rfl
@[simp] theorem State.setBank_scrubClk (s : State) (o : Nat) (b : NvBank) : (s.setBank o b).scrubClk = s.scrubClk := rfl
@[simp] theorem State.setBank_toCalSt (s : State) (o : Nat) (b : NvBank) : (s.setBank o b).toCalSt = s.toCalSt := rfl
@[simp] theorem State.setBank_toHealthSt (s : State) (o : Nat) (b : NvBank) : (s.setBank o b).toHealthSt = s.toHealthSt := rfl
@[simp] theorem State.setBank_toModemSt (s : State) (o : Nat) (b : NvBank) : (s.setBank o b).toModemSt = s.toModemSt := rfl
@[simp] theorem State.setBank_toRingSt (s : State) (o : Nat) (b : NvBank) : (s.setBank o b).toRingSt = s.toRingSt := rfl
@[simp] theorem State.setBank_toDealSt (s : State) (o : Nat) (b : NvBank) : (s.setBank o b).toDealSt = s.toDealSt := rfl
@[simp] theorem State.setBank_toUpdSt (s : State) (o : Nat) (b : NvBank) : (s.setBank o b).toUpdSt = s.toUpdSt := rfl
@[simp] theorem State.setBank_pending (s : State) (o : Nat) (b : NvBank) : (s.setBank o b).pending = s.pending := rfl
@[simp] theorem State.setBank_clk (s : State) (o : Nat) (b : NvBank) : (s.setBank o b).clk = s.clk := rfl
@[simp] theorem State.setBank_fresh (s : State) (o : Nat) (b : NvBank) : (s.setBank o b).fresh = s.fresh := rfl
@[simp] theorem State.setBank_regs (s : State) (o : Nat) (b : NvBank) : (s.setBank o b).regs = s.regs := rfl
@[simp] theorem State.setBank_mem (s : State) (o : Nat) (b : NvBank) : (s.setBank o b).mem = s.mem := rfl
@[simp] theorem State.setBank_rdata (s : State) (o : Nat) (b : NvBank) : (s.setBank o b).rdata = s.rdata := rfl
@[simp] theorem State.setBank_clrNow (s : State) (o : Nat) (b : NvBank) : (s.setBank o b).clrNow = s.clrNow := rfl
@[simp] theorem State.setBank_setNow (s : State) (o : Nat) (b : NvBank) : (s.setBank o b).setNow = s.setNow := rfl
@[simp] theorem State.setBank_taken (s : State) (o : Nat) (b : NvBank) : (s.setBank o b).taken = s.taken := rfl
@[simp] theorem State.setBank_regsWas (s : State) (o : Nat) (b : NvBank) : (s.setBank o b).regsWas = s.regsWas := rfl
@[simp] theorem State.setBank_inReset (s : State) (o : Nat) (b : NvBank) : (s.setBank o b).inReset = s.inReset := rfl
@[simp] theorem State.setBank_rdW (s : State) (o : Nat) (b : NvBank) (k : Nat) : (s.setBank o b).rdW k = s.rdW k := rfl
@[simp] theorem State.setBank_rd (s : State) (o : Nat) (b : NvBank) (g : Fld) : (s.setBank o b).rd g = s.rd g := rfl
@[simp] theorem State.setBank_byte (s : State) (o : Nat) (b : NvBank) (k : Nat) : (s.setBank o b).byte k = s.byte k := rfl

/-! ### `State.setSilo` -/

@[simp] theorem State.setSilo_toClockSt (s : State) (b : Nat) (x : Silo) : (s.setSilo b x).toClockSt = s.toClockSt := rfl
@[simp] theorem State.setSilo_toFurrowSt (s : State) (b : Nat) (x : Silo) : (s.setSilo b x).toFurrowSt = s.toFurrowSt := rfl
@[simp] theorem State.setSilo_toAlarmSt (s : State) (b : Nat) (x : Silo) : (s.setSilo b x).toAlarmSt = s.toAlarmSt := rfl
@[simp] theorem State.setSilo_toChanSt (s : State) (b : Nat) (x : Silo) : (s.setSilo b x).toChanSt = s.toChanSt := rfl
@[simp] theorem State.setSilo_toTallySt (s : State) (b : Nat) (x : Silo) : (s.setSilo b x).toTallySt = s.toTallySt := rfl
@[simp] theorem State.setSilo_thrQ (s : State) (b : Nat) (x : Silo) : (s.setSilo b x).thrQ = s.thrQ := rfl
@[simp] theorem State.setSilo_thrId (s : State) (b : Nat) (x : Silo) : (s.setSilo b x).thrId = s.thrId := rfl
@[simp] theorem State.setSilo_lanes (s : State) (b : Nat) (x : Silo) : (s.setSilo b x).lanes = s.lanes := rfl
@[simp] theorem State.setSilo_thrRun (s : State) (b : Nat) (x : Silo) : (s.setSilo b x).thrRun = s.thrRun := rfl
@[simp] theorem State.setSilo_thrRes (s : State) (b : Nat) (x : Silo) : (s.setSilo b x).thrRes = s.thrRes := rfl
@[simp] theorem State.setSilo_thrBusy (s : State) (b : Nat) (x : Silo) : (s.setSilo b x).thrBusy = s.thrBusy := rfl
@[simp] theorem State.setSilo_thrIrq (s : State) (b : Nat) (x : Silo) : (s.setSilo b x).thrIrq = s.thrIrq := rfl
@[simp] theorem State.setSilo_rsPos (s : State) (b : Nat) (x : Silo) : (s.setSilo b x).rsPos = s.rsPos := rfl
@[simp] theorem State.setSilo_hop (s : State) (b : Nat) (x : Silo) : (s.setSilo b x).hop = s.hop := rfl
@[simp] theorem State.setSilo_hopGap (s : State) (b : Nat) (x : Silo) : (s.setSilo b x).hopGap = s.hopGap := rfl
@[simp] theorem State.setSilo_hopNow (s : State) (b : Nat) (x : Silo) : (s.setSilo b x).hopNow = s.hopNow := rfl
@[simp] theorem State.setSilo_hopWas (s : State) (b : Nat) (x : Silo) : (s.setSilo b x).hopWas = s.hopWas := rfl
@[simp] theorem State.setSilo_hopGapWas (s : State) (b : Nat) (x : Silo) : (s.setSilo b x).hopGapWas = s.hopGapWas := rfl
@[simp] theorem State.setSilo_hopShut (s : State) (b : Nat) (x : Silo) : (s.setSilo b x).hopShut = s.hopShut := rfl
@[simp] theorem State.setSilo_gln (s : State) (b : Nat) (x : Silo) : (s.setSilo b x).gln = s.gln := rfl
@[simp] theorem State.setSilo_hand (s : State) (b : Nat) (x : Silo) : (s.setSilo b x).hand = s.hand := rfl
@[simp] theorem State.setSilo_plough (s : State) (b : Nat) (x : Silo) : (s.setSilo b x).plough = s.plough := rfl
@[simp] theorem State.setSilo_logi (s : State) (b : Nat) (x : Silo) : (s.setSilo b x).logi = s.logi := rfl
@[simp] theorem State.setSilo_startRes (s : State) (b : Nat) (x : Silo) : (s.setSilo b x).startRes = s.startRes := rfl
@[simp] theorem State.setSilo_ovEv (s : State) (b : Nat) (x : Silo) : (s.setSilo b x).ovEv = s.ovEv := rfl
@[simp] theorem State.setSilo_ovSec (s : State) (b : Nat) (x : Silo) : (s.setSilo b x).ovSec = s.ovSec := rfl
@[simp] theorem State.setSilo_ramScrub (s : State) (b : Nat) (x : Silo) : (s.setSilo b x).ramScrub = s.ramScrub := rfl
@[simp] theorem State.setSilo_toNvmSt (s : State) (b : Nat) (x : Silo) : (s.setSilo b x).toNvmSt = s.toNvmSt := rfl
@[simp] theorem State.setSilo_toCalSt (s : State) (b : Nat) (x : Silo) : (s.setSilo b x).toCalSt = s.toCalSt := rfl
@[simp] theorem State.setSilo_toHealthSt (s : State) (b : Nat) (x : Silo) : (s.setSilo b x).toHealthSt = s.toHealthSt := rfl
@[simp] theorem State.setSilo_toModemSt (s : State) (b : Nat) (x : Silo) : (s.setSilo b x).toModemSt = s.toModemSt := rfl
@[simp] theorem State.setSilo_toRingSt (s : State) (b : Nat) (x : Silo) : (s.setSilo b x).toRingSt = s.toRingSt := rfl
@[simp] theorem State.setSilo_toDealSt (s : State) (b : Nat) (x : Silo) : (s.setSilo b x).toDealSt = s.toDealSt := rfl
@[simp] theorem State.setSilo_toUpdSt (s : State) (b : Nat) (x : Silo) : (s.setSilo b x).toUpdSt = s.toUpdSt := rfl
@[simp] theorem State.setSilo_pending (s : State) (b : Nat) (x : Silo) : (s.setSilo b x).pending = s.pending := rfl
@[simp] theorem State.setSilo_clk (s : State) (b : Nat) (x : Silo) : (s.setSilo b x).clk = s.clk := rfl
@[simp] theorem State.setSilo_fresh (s : State) (b : Nat) (x : Silo) : (s.setSilo b x).fresh = s.fresh := rfl
@[simp] theorem State.setSilo_regs (s : State) (b : Nat) (x : Silo) : (s.setSilo b x).regs = s.regs := rfl
@[simp] theorem State.setSilo_mem (s : State) (b : Nat) (x : Silo) : (s.setSilo b x).mem = s.mem := rfl
@[simp] theorem State.setSilo_rdata (s : State) (b : Nat) (x : Silo) : (s.setSilo b x).rdata = s.rdata := rfl
@[simp] theorem State.setSilo_clrNow (s : State) (b : Nat) (x : Silo) : (s.setSilo b x).clrNow = s.clrNow := rfl
@[simp] theorem State.setSilo_setNow (s : State) (b : Nat) (x : Silo) : (s.setSilo b x).setNow = s.setNow := rfl
@[simp] theorem State.setSilo_taken (s : State) (b : Nat) (x : Silo) : (s.setSilo b x).taken = s.taken := rfl
@[simp] theorem State.setSilo_regsWas (s : State) (b : Nat) (x : Silo) : (s.setSilo b x).regsWas = s.regsWas := rfl
@[simp] theorem State.setSilo_inReset (s : State) (b : Nat) (x : Silo) : (s.setSilo b x).inReset = s.inReset := rfl
@[simp] theorem State.setSilo_rdW (s : State) (b : Nat) (x : Silo) (k : Nat) : (s.setSilo b x).rdW k = s.rdW k := rfl
@[simp] theorem State.setSilo_rd (s : State) (b : Nat) (x : Silo) (g : Fld) : (s.setSilo b x).rd g = s.rd g := rfl
@[simp] theorem State.setSilo_byte (s : State) (b : Nat) (x : Silo) (k : Nat) : (s.setSilo b x).byte k = s.byte k := rfl

/-! ### `State.setLane` -/

@[simp] theorem State.setLane_toClockSt (s : State) (k : Nat) (x : Option Lane) : (s.setLane k x).toClockSt = s.toClockSt := rfl
@[simp] theorem State.setLane_toFurrowSt (s : State) (k : Nat) (x : Option Lane) : (s.setLane k x).toFurrowSt = s.toFurrowSt := rfl
@[simp] theorem State.setLane_toAlarmSt (s : State) (k : Nat) (x : Option Lane) : (s.setLane k x).toAlarmSt = s.toAlarmSt := rfl
@[simp] theorem State.setLane_toChanSt (s : State) (k : Nat) (x : Option Lane) : (s.setLane k x).toChanSt = s.toChanSt := rfl
@[simp] theorem State.setLane_toTallySt (s : State) (k : Nat) (x : Option Lane) : (s.setLane k x).toTallySt = s.toTallySt := rfl
@[simp] theorem State.setLane_thrQ (s : State) (k : Nat) (x : Option Lane) : (s.setLane k x).thrQ = s.thrQ := rfl
@[simp] theorem State.setLane_thrId (s : State) (k : Nat) (x : Option Lane) : (s.setLane k x).thrId = s.thrId := rfl
@[simp] theorem State.setLane_thrRun (s : State) (k : Nat) (x : Option Lane) : (s.setLane k x).thrRun = s.thrRun := rfl
@[simp] theorem State.setLane_thrRes (s : State) (k : Nat) (x : Option Lane) : (s.setLane k x).thrRes = s.thrRes := rfl
@[simp] theorem State.setLane_thrBusy (s : State) (k : Nat) (x : Option Lane) : (s.setLane k x).thrBusy = s.thrBusy := rfl
@[simp] theorem State.setLane_thrIrq (s : State) (k : Nat) (x : Option Lane) : (s.setLane k x).thrIrq = s.thrIrq := rfl
@[simp] theorem State.setLane_rsPos (s : State) (k : Nat) (x : Option Lane) : (s.setLane k x).rsPos = s.rsPos := rfl
@[simp] theorem State.setLane_silo (s : State) (k : Nat) (x : Option Lane) : (s.setLane k x).silo = s.silo := rfl
@[simp] theorem State.setLane_hop (s : State) (k : Nat) (x : Option Lane) : (s.setLane k x).hop = s.hop := rfl
@[simp] theorem State.setLane_hopGap (s : State) (k : Nat) (x : Option Lane) : (s.setLane k x).hopGap = s.hopGap := rfl
@[simp] theorem State.setLane_hopNow (s : State) (k : Nat) (x : Option Lane) : (s.setLane k x).hopNow = s.hopNow := rfl
@[simp] theorem State.setLane_hopWas (s : State) (k : Nat) (x : Option Lane) : (s.setLane k x).hopWas = s.hopWas := rfl
@[simp] theorem State.setLane_hopGapWas (s : State) (k : Nat) (x : Option Lane) : (s.setLane k x).hopGapWas = s.hopGapWas := rfl
@[simp] theorem State.setLane_hopShut (s : State) (k : Nat) (x : Option Lane) : (s.setLane k x).hopShut = s.hopShut := rfl
@[simp] theorem State.setLane_gln (s : State) (k : Nat) (x : Option Lane) : (s.setLane k x).gln = s.gln := rfl
@[simp] theorem State.setLane_hand (s : State) (k : Nat) (x : Option Lane) : (s.setLane k x).hand = s.hand := rfl
@[simp] theorem State.setLane_plough (s : State) (k : Nat) (x : Option Lane) : (s.setLane k x).plough = s.plough := rfl
@[simp] theorem State.setLane_logi (s : State) (k : Nat) (x : Option Lane) : (s.setLane k x).logi = s.logi := rfl
@[simp] theorem State.setLane_startRes (s : State) (k : Nat) (x : Option Lane) : (s.setLane k x).startRes = s.startRes := rfl
@[simp] theorem State.setLane_ovEv (s : State) (k : Nat) (x : Option Lane) : (s.setLane k x).ovEv = s.ovEv := rfl
@[simp] theorem State.setLane_ovSec (s : State) (k : Nat) (x : Option Lane) : (s.setLane k x).ovSec = s.ovSec := rfl
@[simp] theorem State.setLane_ramScrub (s : State) (k : Nat) (x : Option Lane) : (s.setLane k x).ramScrub = s.ramScrub := rfl
@[simp] theorem State.setLane_toNvmSt (s : State) (k : Nat) (x : Option Lane) : (s.setLane k x).toNvmSt = s.toNvmSt := rfl
@[simp] theorem State.setLane_toCalSt (s : State) (k : Nat) (x : Option Lane) : (s.setLane k x).toCalSt = s.toCalSt := rfl
@[simp] theorem State.setLane_toHealthSt (s : State) (k : Nat) (x : Option Lane) : (s.setLane k x).toHealthSt = s.toHealthSt := rfl
@[simp] theorem State.setLane_toModemSt (s : State) (k : Nat) (x : Option Lane) : (s.setLane k x).toModemSt = s.toModemSt := rfl
@[simp] theorem State.setLane_toRingSt (s : State) (k : Nat) (x : Option Lane) : (s.setLane k x).toRingSt = s.toRingSt := rfl
@[simp] theorem State.setLane_toDealSt (s : State) (k : Nat) (x : Option Lane) : (s.setLane k x).toDealSt = s.toDealSt := rfl
@[simp] theorem State.setLane_toUpdSt (s : State) (k : Nat) (x : Option Lane) : (s.setLane k x).toUpdSt = s.toUpdSt := rfl
@[simp] theorem State.setLane_pending (s : State) (k : Nat) (x : Option Lane) : (s.setLane k x).pending = s.pending := rfl
@[simp] theorem State.setLane_clk (s : State) (k : Nat) (x : Option Lane) : (s.setLane k x).clk = s.clk := rfl
@[simp] theorem State.setLane_fresh (s : State) (k : Nat) (x : Option Lane) : (s.setLane k x).fresh = s.fresh := rfl
@[simp] theorem State.setLane_regs (s : State) (k : Nat) (x : Option Lane) : (s.setLane k x).regs = s.regs := rfl
@[simp] theorem State.setLane_mem (s : State) (k : Nat) (x : Option Lane) : (s.setLane k x).mem = s.mem := rfl
@[simp] theorem State.setLane_rdata (s : State) (k : Nat) (x : Option Lane) : (s.setLane k x).rdata = s.rdata := rfl
@[simp] theorem State.setLane_clrNow (s : State) (k : Nat) (x : Option Lane) : (s.setLane k x).clrNow = s.clrNow := rfl
@[simp] theorem State.setLane_setNow (s : State) (k : Nat) (x : Option Lane) : (s.setLane k x).setNow = s.setNow := rfl
@[simp] theorem State.setLane_taken (s : State) (k : Nat) (x : Option Lane) : (s.setLane k x).taken = s.taken := rfl
@[simp] theorem State.setLane_regsWas (s : State) (k : Nat) (x : Option Lane) : (s.setLane k x).regsWas = s.regsWas := rfl
@[simp] theorem State.setLane_inReset (s : State) (k : Nat) (x : Option Lane) : (s.setLane k x).inReset = s.inReset := rfl
@[simp] theorem State.setLane_rdW (s : State) (k : Nat) (x : Option Lane) (k : Nat) : (s.setLane k x).rdW k = s.rdW k := rfl
@[simp] theorem State.setLane_rd (s : State) (k : Nat) (x : Option Lane) (g : Fld) : (s.setLane k x).rd g = s.rd g := rfl
@[simp] theorem State.setLane_byte (s : State) (k : Nat) (x : Option Lane) (k : Nat) : (s.setLane k x).byte k = s.byte k := rfl

/-! ### `State.setPulse` -/

@[simp] theorem State.setPulse_toClockSt (s : State) (n : Nat) (p : Pulse) : (s.setPulse n p).toClockSt = s.toClockSt := rfl
@[simp] theorem State.setPulse_toFurrowSt (s : State) (n : Nat) (p : Pulse) : (s.setPulse n p).toFurrowSt = s.toFurrowSt := rfl
@[simp] theorem State.setPulse_toAlarmSt (s : State) (n : Nat) (p : Pulse) : (s.setPulse n p).toAlarmSt = s.toAlarmSt := rfl
@[simp] theorem State.setPulse_toChanSt (s : State) (n : Nat) (p : Pulse) : (s.setPulse n p).toChanSt = s.toChanSt := rfl
@[simp] theorem State.setPulse_bins (s : State) (n : Nat) (p : Pulse) : (s.setPulse n p).bins = s.bins := rfl
@[simp] theorem State.setPulse_binMeta (s : State) (n : Nat) (p : Pulse) : (s.setPulse n p).binMeta = s.binMeta := rfl
@[simp] theorem State.setPulse_field (s : State) (n : Nat) (p : Pulse) : (s.setPulse n p).field = s.field := rfl
@[simp] theorem State.setPulse_rounds (s : State) (n : Nat) (p : Pulse) : (s.setPulse n p).rounds = s.rounds := rfl
@[simp] theorem State.setPulse_roundClk (s : State) (n : Nat) (p : Pulse) : (s.setPulse n p).roundClk = s.roundClk := rfl
@[simp] theorem State.setPulse_snaps (s : State) (n : Nat) (p : Pulse) : (s.setPulse n p).snaps = s.snaps := rfl
@[simp] theorem State.setPulse_snapBank (s : State) (n : Nat) (p : Pulse) : (s.setPulse n p).snapBank = s.snapBank := rfl
@[simp] theorem State.setPulse_snapSel (s : State) (n : Nat) (p : Pulse) : (s.setPulse n p).snapSel = s.snapSel := rfl
@[simp] theorem State.setPulse_shBin (s : State) (n : Nat) (p : Pulse) : (s.setPulse n p).shBin = s.shBin := rfl
@[simp] theorem State.setPulse_shSnap (s : State) (n : Nat) (p : Pulse) : (s.setPulse n p).shSnap = s.shSnap := rfl
@[simp] theorem State.setPulse_shScnt (s : State) (n : Nat) (p : Pulse) : (s.setPulse n p).shScnt = s.shScnt := rfl
@[simp] theorem State.setPulse_hcLast (s : State) (n : Nat) (p : Pulse) : (s.setPulse n p).hcLast = s.hcLast := rfl
@[simp] theorem State.setPulse_plsSpare (s : State) (n : Nat) (p : Pulse) : (s.setPulse n p).plsSpare = s.plsSpare := rfl
@[simp] theorem State.setPulse_plsAt (s : State) (n : Nat) (p : Pulse) : (s.setPulse n p).plsAt = s.plsAt := rfl
@[simp] theorem State.setPulse_plsBack (s : State) (n : Nat) (p : Pulse) : (s.setPulse n p).plsBack = s.plsBack := rfl
@[simp] theorem State.setPulse_toEngineSt (s : State) (n : Nat) (p : Pulse) : (s.setPulse n p).toEngineSt = s.toEngineSt := rfl
@[simp] theorem State.setPulse_toNvmSt (s : State) (n : Nat) (p : Pulse) : (s.setPulse n p).toNvmSt = s.toNvmSt := rfl
@[simp] theorem State.setPulse_toCalSt (s : State) (n : Nat) (p : Pulse) : (s.setPulse n p).toCalSt = s.toCalSt := rfl
@[simp] theorem State.setPulse_toHealthSt (s : State) (n : Nat) (p : Pulse) : (s.setPulse n p).toHealthSt = s.toHealthSt := rfl
@[simp] theorem State.setPulse_toModemSt (s : State) (n : Nat) (p : Pulse) : (s.setPulse n p).toModemSt = s.toModemSt := rfl
@[simp] theorem State.setPulse_toRingSt (s : State) (n : Nat) (p : Pulse) : (s.setPulse n p).toRingSt = s.toRingSt := rfl
@[simp] theorem State.setPulse_toDealSt (s : State) (n : Nat) (p : Pulse) : (s.setPulse n p).toDealSt = s.toDealSt := rfl
@[simp] theorem State.setPulse_toUpdSt (s : State) (n : Nat) (p : Pulse) : (s.setPulse n p).toUpdSt = s.toUpdSt := rfl
@[simp] theorem State.setPulse_pending (s : State) (n : Nat) (p : Pulse) : (s.setPulse n p).pending = s.pending := rfl
@[simp] theorem State.setPulse_clk (s : State) (n : Nat) (p : Pulse) : (s.setPulse n p).clk = s.clk := rfl
@[simp] theorem State.setPulse_fresh (s : State) (n : Nat) (p : Pulse) : (s.setPulse n p).fresh = s.fresh := rfl
@[simp] theorem State.setPulse_regs (s : State) (n : Nat) (p : Pulse) : (s.setPulse n p).regs = s.regs := rfl
@[simp] theorem State.setPulse_mem (s : State) (n : Nat) (p : Pulse) : (s.setPulse n p).mem = s.mem := rfl
@[simp] theorem State.setPulse_rdata (s : State) (n : Nat) (p : Pulse) : (s.setPulse n p).rdata = s.rdata := rfl
@[simp] theorem State.setPulse_clrNow (s : State) (n : Nat) (p : Pulse) : (s.setPulse n p).clrNow = s.clrNow := rfl
@[simp] theorem State.setPulse_setNow (s : State) (n : Nat) (p : Pulse) : (s.setPulse n p).setNow = s.setNow := rfl
@[simp] theorem State.setPulse_taken (s : State) (n : Nat) (p : Pulse) : (s.setPulse n p).taken = s.taken := rfl
@[simp] theorem State.setPulse_regsWas (s : State) (n : Nat) (p : Pulse) : (s.setPulse n p).regsWas = s.regsWas := rfl
@[simp] theorem State.setPulse_inReset (s : State) (n : Nat) (p : Pulse) : (s.setPulse n p).inReset = s.inReset := rfl
@[simp] theorem State.setPulse_rdW (s : State) (n : Nat) (p : Pulse) (k : Nat) : (s.setPulse n p).rdW k = s.rdW k := rfl
@[simp] theorem State.setPulse_rd (s : State) (n : Nat) (p : Pulse) (g : Fld) : (s.setPulse n p).rd g = s.rd g := rfl
@[simp] theorem State.setPulse_byte (s : State) (n : Nat) (p : Pulse) (k : Nat) : (s.setPulse n p).byte k = s.byte k := rfl

/-! ### `State.logEv` -/

@[simp] theorem State.logEv_toClockSt (s : State) (code a0 a1 a2 : Nat) : (s.logEv code a0 a1 a2).toClockSt = s.toClockSt := rfl
@[simp] theorem State.logEv_toFurrowSt (s : State) (code a0 a1 a2 : Nat) : (s.logEv code a0 a1 a2).toFurrowSt = s.toFurrowSt := rfl
@[simp] theorem State.logEv_lvl (s : State) (code a0 a1 a2 : Nat) : (s.logEv code a0 a1 a2).lvl = s.lvl := rfl
@[simp] theorem State.logEv_claims (s : State) (code a0 a1 a2 : Nat) : (s.logEv code a0 a1 a2).claims = s.claims := rfl
@[simp] theorem State.logEv_alert0 (s : State) (code a0 a1 a2 : Nat) : (s.logEv code a0 a1 a2).alert0 = s.alert0 := rfl
@[simp] theorem State.logEv_alert1 (s : State) (code a0 a1 a2 : Nat) : (s.logEv code a0 a1 a2).alert1 = s.alert1 := rfl
@[simp] theorem State.logEv_alq (s : State) (code a0 a1 a2 : Nat) : (s.logEv code a0 a1 a2).alq = s.alq := rfl
@[simp] theorem State.logEv_evWait (s : State) (code a0 a1 a2 : Nat) : (s.logEv code a0 a1 a2).evWait = s.evWait := rfl
@[simp] theorem State.logEv_safeQ (s : State) (code a0 a1 a2 : Nat) : (s.logEv code a0 a1 a2).safeQ = s.safeQ := rfl
@[simp] theorem State.logEv_safeClk (s : State) (code a0 a1 a2 : Nat) : (s.logEv code a0 a1 a2).safeClk = s.safeClk := rfl
@[simp] theorem State.logEv_bicT (s : State) (code a0 a1 a2 : Nat) : (s.logEv code a0 a1 a2).bicT = s.bicT := rfl
@[simp] theorem State.logEv_otpDue (s : State) (code a0 a1 a2 : Nat) : (s.logEv code a0 a1 a2).otpDue = s.otpDue := rfl
@[simp] theorem State.logEv_burnCat (s : State) (code a0 a1 a2 : Nat) : (s.logEv code a0 a1 a2).burnCat = s.burnCat := rfl
@[simp] theorem State.logEv_burnTry (s : State) (code a0 a1 a2 : Nat) : (s.logEv code a0 a1 a2).burnTry = s.burnTry := rfl
@[simp] theorem State.logEv_burnFail (s : State) (code a0 a1 a2 : Nat) : (s.logEv code a0 a1 a2).burnFail = s.burnFail := rfl
@[simp] theorem State.logEv_loops (s : State) (code a0 a1 a2 : Nat) : (s.logEv code a0 a1 a2).loops = s.loops := rfl
@[simp] theorem State.logEv_magN (s : State) (code a0 a1 a2 : Nat) : (s.logEv code a0 a1 a2).magN = s.magN := rfl
@[simp] theorem State.logEv_tempN (s : State) (code a0 a1 a2 : Nat) : (s.logEv code a0 a1 a2).tempN = s.tempN := rfl
@[simp] theorem State.logEv_magDue (s : State) (code a0 a1 a2 : Nat) : (s.logEv code a0 a1 a2).magDue = s.magDue := rfl
@[simp] theorem State.logEv_tempDue (s : State) (code a0 a1 a2 : Nat) : (s.logEv code a0 a1 a2).tempDue = s.tempDue := rfl
@[simp] theorem State.logEv_ffDrop (s : State) (code a0 a1 a2 : Nat) : (s.logEv code a0 a1 a2).ffDrop = s.ffDrop := rfl
@[simp] theorem State.logEv_burnAt (s : State) (code a0 a1 a2 : Nat) : (s.logEv code a0 a1 a2).burnAt = s.burnAt := rfl
@[simp] theorem State.logEv_tap (s : State) (code a0 a1 a2 : Nat) : (s.logEv code a0 a1 a2).tap = s.tap := rfl
@[simp] theorem State.logEv_toChanSt (s : State) (code a0 a1 a2 : Nat) : (s.logEv code a0 a1 a2).toChanSt = s.toChanSt := rfl
@[simp] theorem State.logEv_toTallySt (s : State) (code a0 a1 a2 : Nat) : (s.logEv code a0 a1 a2).toTallySt = s.toTallySt := rfl
@[simp] theorem State.logEv_toEngineSt (s : State) (code a0 a1 a2 : Nat) : (s.logEv code a0 a1 a2).toEngineSt = s.toEngineSt := rfl
@[simp] theorem State.logEv_toNvmSt (s : State) (code a0 a1 a2 : Nat) : (s.logEv code a0 a1 a2).toNvmSt = s.toNvmSt := rfl
@[simp] theorem State.logEv_toCalSt (s : State) (code a0 a1 a2 : Nat) : (s.logEv code a0 a1 a2).toCalSt = s.toCalSt := rfl
@[simp] theorem State.logEv_toHealthSt (s : State) (code a0 a1 a2 : Nat) : (s.logEv code a0 a1 a2).toHealthSt = s.toHealthSt := rfl
@[simp] theorem State.logEv_toModemSt (s : State) (code a0 a1 a2 : Nat) : (s.logEv code a0 a1 a2).toModemSt = s.toModemSt := rfl
@[simp] theorem State.logEv_toRingSt (s : State) (code a0 a1 a2 : Nat) : (s.logEv code a0 a1 a2).toRingSt = s.toRingSt := rfl
@[simp] theorem State.logEv_toDealSt (s : State) (code a0 a1 a2 : Nat) : (s.logEv code a0 a1 a2).toDealSt = s.toDealSt := rfl
@[simp] theorem State.logEv_toUpdSt (s : State) (code a0 a1 a2 : Nat) : (s.logEv code a0 a1 a2).toUpdSt = s.toUpdSt := rfl
@[simp] theorem State.logEv_pending (s : State) (code a0 a1 a2 : Nat) : (s.logEv code a0 a1 a2).pending = s.pending := rfl
@[simp] theorem State.logEv_clk (s : State) (code a0 a1 a2 : Nat) : (s.logEv code a0 a1 a2).clk = s.clk := rfl
@[simp] theorem State.logEv_fresh (s : State) (code a0 a1 a2 : Nat) : (s.logEv code a0 a1 a2).fresh = s.fresh := rfl
@[simp] theorem State.logEv_regs (s : State) (code a0 a1 a2 : Nat) : (s.logEv code a0 a1 a2).regs = s.regs := rfl
@[simp] theorem State.logEv_mem (s : State) (code a0 a1 a2 : Nat) : (s.logEv code a0 a1 a2).mem = s.mem := rfl
@[simp] theorem State.logEv_rdata (s : State) (code a0 a1 a2 : Nat) : (s.logEv code a0 a1 a2).rdata = s.rdata := rfl
@[simp] theorem State.logEv_clrNow (s : State) (code a0 a1 a2 : Nat) : (s.logEv code a0 a1 a2).clrNow = s.clrNow := rfl
@[simp] theorem State.logEv_setNow (s : State) (code a0 a1 a2 : Nat) : (s.logEv code a0 a1 a2).setNow = s.setNow := rfl
@[simp] theorem State.logEv_taken (s : State) (code a0 a1 a2 : Nat) : (s.logEv code a0 a1 a2).taken = s.taken := rfl
@[simp] theorem State.logEv_regsWas (s : State) (code a0 a1 a2 : Nat) : (s.logEv code a0 a1 a2).regsWas = s.regsWas := rfl
@[simp] theorem State.logEv_inReset (s : State) (code a0 a1 a2 : Nat) : (s.logEv code a0 a1 a2).inReset = s.inReset := rfl
@[simp] theorem State.logEv_rdW (s : State) (code a0 a1 a2 : Nat) (k : Nat) : (s.logEv code a0 a1 a2).rdW k = s.rdW k := rfl
@[simp] theorem State.logEv_rd (s : State) (code a0 a1 a2 : Nat) (g : Fld) : (s.logEv code a0 a1 a2).rd g = s.rd g := rfl
@[simp] theorem State.logEv_byte (s : State) (code a0 a1 a2 : Nat) (k : Nat) : (s.logEv code a0 a1 a2).byte k = s.byte k := rfl

/-! ### Reads after writes -/

@[simp] theorem State.setFurrow_furrow_self (s : State) (n : Nat) (f : Furrow) : (s.setFurrow n f).furrow n = f := Sparse.get_set_self _ _ _ _
theorem State.setFurrow_furrow_ne (s : State) (n : Nat) (f : Furrow) {j : Nat} (hj : j ≠ n) : (s.setFurrow n f).furrow j = s.furrow j := Sparse.get_set_ne _ hj _ _
@[simp] theorem State.setChan_chan1_self (s : State) (c : Nat) (h : Chan) : (s.setChan c h).chan1 c = h := Sparse.get_set_self _ _ _ _
theorem State.setChan_chan1_ne (s : State) (c : Nat) (h : Chan) {j : Nat} (hj : j ≠ c) : (s.setChan c h).chan1 j = s.chan1 j := Sparse.get_set_ne _ hj _ _
@[simp] theorem State.setPlough_ploughOf_self (s : State) (p : Nat) (x : Plough) : (s.setPlough p x).ploughOf p = x := Sparse.get_set_self _ _ _ _
theorem State.setPlough_ploughOf_ne (s : State) (p : Nat) (x : Plough) {j : Nat} (hj : j ≠ p) : (s.setPlough p x).ploughOf j = s.ploughOf j := Sparse.get_set_ne _ hj _ _
@[simp] theorem State.setLogi_logiOf_self (s : State) (l : Nat) (x : Logi) : (s.setLogi l x).logiOf l = x := Sparse.get_set_self _ _ _ _
theorem State.setLogi_logiOf_ne (s : State) (l : Nat) (x : Logi) {j : Nat} (hj : j ≠ l) : (s.setLogi l x).logiOf j = s.logiOf j := Sparse.get_set_ne _ hj _ _
@[simp] theorem State.setField_fieldOf_self (s : State) (f : Nat) (x : Field) : (s.setField f x).fieldOf f = x := Sparse.get_set_self _ _ _ _
theorem State.setField_fieldOf_ne (s : State) (f : Nat) (x : Field) {j : Nat} (hj : j ≠ f) : (s.setField f x).fieldOf j = s.fieldOf j := Sparse.get_set_ne _ hj _ _
@[simp] theorem State.setSilo_siloOf_self (s : State) (b : Nat) (x : Silo) : (s.setSilo b x).siloOf b = x := Sparse.get_set_self _ _ _ _
theorem State.setSilo_siloOf_ne (s : State) (b : Nat) (x : Silo) {j : Nat} (hj : j ≠ b) : (s.setSilo b x).siloOf j = s.siloOf j := Sparse.get_set_ne _ hj _ _
@[simp] theorem State.setLane_lane_self (s : State) (k : Nat) (x : Option Lane) : (s.setLane k x).lane k = x := Sparse.get_set_self _ _ _ _
theorem State.setLane_lane_ne (s : State) (k : Nat) (x : Option Lane) {j : Nat} (hj : j ≠ k) : (s.setLane k x).lane j = s.lane j := Sparse.get_set_ne _ hj _ _
@[simp] theorem State.setPulse_pulseOf_self (s : State) (n : Nat) (p : Pulse) : (s.setPulse n p).pulseOf n = p := Sparse.get_set_self _ _ _ _
theorem State.setPulse_pulseOf_ne (s : State) (n : Nat) (p : Pulse) {j : Nat} (hj : j ≠ n) : (s.setPulse n p).pulseOf j = s.pulseOf j := Sparse.get_set_ne _ hj _ _
@[simp] theorem State.setHopQ_hopQ_self (s : State) (l : Nat) (q : List HopE) : (s.setHopQ l q).hopQ l = q := Sparse.get_set_self _ _ _ _
theorem State.setHopQ_hopQ_ne (s : State) (l : Nat) (q : List HopE) {j : Nat} (hj : j ≠ l) : (s.setHopQ l q).hopQ j = s.hopQ j := Sparse.get_set_ne _ hj _ _
@[simp] theorem State.setHand_handOf_self (s : State) (p h : Nat) (x : Hand) : (s.setHand p h x).handOf p h = x :=
  Sparse.get_set_self _ _ _ _
theorem State.setHand_handOf_ne (s : State) {p h q k : Nat} (x : Hand) (hk : 16 * q + k ≠ 16 * p + h) :
    (s.setHand p h x).handOf q k = s.handOf q k := Sparse.get_set_ne _ hk _ _

/-- A field written leaves the fields of every other register alone. -/
theorem State.rd_wr_ne (s : State) {f g : Fld} (v : Nat) (h : g.addr ≠ f.addr) : (s.wr f v).rd g = s.rd g := by
  simp [State.rd, State.wr, State.rdW_wrW_ne _ _ h]

/-- A register written reads as written, field by field. -/
@[simp] theorem State.rd_wrW_self (s : State) (g : Fld) (w : Word) :
    (s.wrW g.addr w).rd g = bits w.toNat g.hi g.lo := by simp [State.rd]

/-- A register written leaves the fields of every other register alone. -/
theorem State.rd_wrW_ne (s : State) {g : Fld} {a : Nat} (w : Word) (h : g.addr ≠ a) : (s.wrW a w).rd g = s.rd g := by
  simp [State.rd, State.rdW_wrW_ne _ _ h]

/-- The state after a value is drawn differs in the count of drawn values only. -/
theorem State.draw_snd (s : State) : s.draw.2 = { s with fresh := s.fresh + 1 } := rfl
@[simp] theorem State.draw_rdW (s : State) (k : Nat) : s.draw.2.rdW k = s.rdW k := rfl
@[simp] theorem State.draw_rd (s : State) (g : Fld) : s.draw.2.rd g = s.rd g := rfl
@[simp] theorem State.draw_byte (s : State) (k : Nat) : s.draw.2.byte k = s.byte k := rfl

end Sys2Proof.Machine
end

