-- ==== Sys2Proof/Laws/Fields.lean ====
section
/-!
SUPPORT. Fields read after they are written, flags and counters: what each leaves alone and what it reads as.
-/
namespace Sys2Proof.Machine

theorem bits_lt (x hi lo : Nat) : bits x hi lo < 2 ^ (hi + 1 - lo) := Nat.mod_lt _ (Nat.two_pow_pos _)

theorem testBit_bits (x hi lo i : Nat) : (bits x hi lo).testBit i = (decide (i < hi + 1 - lo) && x.testBit (lo + i)) := by
  simp [bits, Nat.testBit_mod_two_pow, Nat.testBit_shiftRight]

theorem testBit_putBits (w : Word) (hi lo v i : Nat) :
    (putBits w hi lo v).toNat.testBit i =
      (decide (i < 32) && if lo ≤ i ∧ i < lo + (hi + 1 - lo) then v.testBit (i - lo) else w.toNat.testBit i) := by
  have hm : ∀ j, ((2 ^ (hi + 1 - lo) - 1) <<< lo).testBit j = decide (lo ≤ j ∧ j < lo + (hi + 1 - lo)) := by
    intro j
    rw [Nat.testBit_shiftLeft, Nat.testBit_two_pow_sub_one]
    by_cases h : lo ≤ j <;> simp [h]
    omega
  by_cases hi32 : i < 32
  · simp only [putBits, BitVec.toNat_or, BitVec.toNat_and, BitVec.toNat_not, BitVec.toNat_ofNat, Nat.testBit_or,
      Nat.testBit_and, Nat.testBit_mod_two_pow, hi32, decide_true, Bool.true_and, hm, Nat.testBit_shiftLeft]
    have hn : (2 ^ 32 - 1 - (2 ^ (hi + 1 - lo) - 1) <<< lo % 2 ^ 32).testBit i
        = !decide (lo ≤ i ∧ i < lo + (hi + 1 - lo)) := by
      rw [show 2 ^ 32 - 1 - (2 ^ (hi + 1 - lo) - 1) <<< lo % 2 ^ 32
        = 2 ^ 32 - ((2 ^ (hi + 1 - lo) - 1) <<< lo % 2 ^ 32 + 1) by omega,
        Nat.testBit_two_pow_sub_succ (Nat.mod_lt _ (Nat.two_pow_pos _)), Nat.testBit_mod_two_pow, hm]
      simp [hi32]
    rw [hn]
    by_cases h : lo ≤ i ∧ i < lo + (hi + 1 - lo)
    · simp [h]
    · simp [h]
  · simp only [hi32, decide_false, Bool.false_and]
    exact Nat.testBit_lt_two_pow (Nat.lt_of_lt_of_le (putBits w hi lo v).isLt (Nat.pow_le_pow_right (by omega) (by omega)))

theorem bits_putBits_self (w : Word) {hi lo : Nat} (v : Nat) (h : lo ≤ hi) (h32 : hi < 32) :
    bits (putBits w hi lo v).toNat hi lo = v % 2 ^ (hi + 1 - lo) := by
  apply Nat.eq_of_testBit_eq
  intro i
  rw [testBit_bits, testBit_putBits, Nat.testBit_mod_two_pow]
  by_cases hi' : i < hi + 1 - lo
  · have h1 : lo + i < 32 := by omega
    have h2 : lo ≤ lo + i ∧ lo + i < lo + (hi + 1 - lo) := by omega
    simp [hi', h1, h2]
  · simp [hi']

theorem bits_putBits_disj (w : Word) {hi lo h2 l2 : Nat} (v : Nat) (h : h2 < lo ∨ hi < l2) :
    bits (putBits w hi lo v).toNat h2 l2 = bits w.toNat h2 l2 := by
  apply Nat.eq_of_testBit_eq
  intro i
  rw [testBit_bits, testBit_bits, testBit_putBits]
  by_cases hi' : i < h2 + 1 - l2
  · have h3 : ¬ (lo ≤ l2 + i ∧ l2 + i < lo + (hi + 1 - lo)) := by omega
    by_cases h32 : l2 + i < 32
    · simp [hi', h32, h3]
    · have : w.toNat.testBit (l2 + i) = false := Nat.testBit_lt_two_pow
        (Nat.lt_of_lt_of_le w.isLt (Nat.pow_le_pow_right (by omega) (by omega)))
      rw [this]
      simp [h32]
  · simp [hi']

/-- A field written reads as the value's low bits. -/
theorem State.rd_wr_self (s : State) (f : Fld) (v : Nat) (h : f.lo ≤ f.hi) (h32 : f.hi < 32) :
    (s.wr f v).rd f = v % 2 ^ (f.hi + 1 - f.lo) := by
  simp [State.rd, State.wr, bits_putBits_self _ v h h32]

/-- A field written leaves every field that shares no bit with it alone. -/
theorem State.rd_wr_disj (s : State) {f g : Fld} (v : Nat) (h : g.hi < f.lo ∨ f.hi < g.lo) :
    (s.wr f v).rd g = s.rd g := by
  by_cases ha : g.addr = f.addr
  · simp [State.rd, State.wr, ha, bits_putBits_disj _ v h]
  · exact State.rd_wr_ne s v ha

/-- A field written leaves every other register alone. -/
theorem State.rdW_wr_ne (s : State) {f : Fld} {a : Nat} (v : Nat) (h : a ≠ f.addr) : (s.wr f v).rdW a = s.rdW a := by
  simp [State.wr, State.rdW_wrW_ne _ _ h]

theorem State.rd_lt (s : State) (f : Fld) : s.rd f < 2 ^ (f.hi + 1 - f.lo) := bits_lt _ _ _

theorem State.on_iff (s : State) (f : Fld) : s.on f = true ↔ s.rd f ≠ 0 := by simp [State.on]

/-- The words that `wrWords` stores stand where it puts them. -/
theorem State.wrWords_rdW_ne (s : State) (ws : List Word) {a k : Nat} (h : k < a ∨ a + 4 * ws.length ≤ k) :
    (s.wrWords a ws).rdW k = s.rdW k := by
  induction ws generalizing s a with
  | nil => rfl
  | cons w ws ih =>
    simp only [List.length_cons] at h
    rw [State.wrWords, ih _ (by omega), State.rdW_wrW_ne _ _ (by omega)]

theorem State.wrWords_rdW (s : State) (ws : List Word) (a i : Nat) (h : i < ws.length) :
    (s.wrWords a ws).rdW (a + 4 * i) = ws[i] := by
  induction ws generalizing s a i with
  | nil => simp at h
  | cons w ws ih =>
    cases i with
    | zero => rw [State.wrWords, State.wrWords_rdW_ne _ _ (by omega)]; simp
    | succ j =>
      rw [State.wrWords, show a + 4 * (j + 1) = (a + 4) + 4 * j by omega, ih _ _ _ (by simpa using h)]
      simp

/-- No source number above 114. -/
def SrcLt (o : Option Nat) : Prop := ∀ n, o = some n → n < 115

theorem SrcLt.ite {c : Prop} [Decidable c] {a b : Option Nat} (ha : c → SrcLt a) (hb : SrcLt b) :
    SrcLt (if c then a else b) := by
  split
  · exact ha ‹_›
  · exact hb

theorem ite_lt {c : Prop} [Decidable c] {a b n : Nat} (ha : c → a < n) (hb : ¬ c → b < n) : (if c then a else b) < n := by
  split
  · exact ha ‹_›
  · exact hb ‹_›

theorem SrcLt.some {n : Nat} (h : n < 115) : SrcLt (some n) := by
  intro m hm
  cases hm
  exact h

theorem flagSource_lt (a i : Nat) : SrcLt (flagSource a i) := by
  unfold flagSource
  simp only [SIL_STAT_FRZ, SIL_STAT_WF, FLT_CMPSTAT, Nat.reduceMul, Nat.reduceAdd, Nat.reduceSub]
  repeat' first | refine SrcLt.ite (fun h => ?_) ?_
  all_goals first
    | (intro n h; cases h; done)
    | (refine SrcLt.some ?_
       repeat' first | refine ite_lt (fun h => ?_) (fun _ => ?_)
       all_goals omega)

theorem State.repeatFlag_rdW_ne (s : State) (a i : Nat) {k : Nat} (h : ¬ RepReg k) : (s.repeatFlag a i).rdW k = s.rdW k := by
  unfold State.repeatFlag
  split
  · rename_i n hn
    have := flagSource_lt a i n hn
    refine State.rdW_wr_ne _ _ ?_
    simp only [INT_REP_of, INT_REP]
    simp only [RepReg, INT_REP] at h
    omega
  · rfl

theorem State.setBit_rdW_ne (s : State) {a i k : Nat} (h : k ≠ a) (hr : ¬ RepReg k) : (s.setBit a i).rdW k = s.rdW k := by
  unfold State.setBit
  simp only
  split
  · rw [State.repeatFlag_rdW_ne _ _ _ hr]
    exact State.rdW_wr_ne s (f := bitFld a i) 1 h
  · exact State.rdW_wr_ne s (f := bitFld a i) 1 h

theorem State.flag_rdW_ne (s : State) {f : Fld} {k : Nat} (h : k ≠ f.addr) (hr : ¬ RepReg k) : (s.flag f).rdW k = s.rdW k :=
  State.setBit_rdW_ne s h hr

theorem State.setBit_rd_ne (s : State) {a i : Nat} {g : Fld} (h : g.addr ≠ a) (hr : ¬ RepReg g.addr) :
    (s.setBit a i).rd g = s.rd g := by
  simp [State.rd, State.setBit_rdW_ne s h hr]

theorem State.flag_rd_ne (s : State) {f g : Fld} (h : g.addr ≠ f.addr) (hr : ¬ RepReg g.addr) :
    (s.flag f).rd g = s.rd g := State.setBit_rd_ne s h hr

/-- A flag that hardware sets reads 1. -/
theorem State.setBit_rd_self (s : State) {a i : Nat} (hr : ¬ RepReg a) (hi : i < 32) :
    (s.setBit a i).rd (bitFld a i) = 1 := by
  unfold State.setBit
  simp only
  have h1 : ({ s.wr (bitFld a i) 1 with setNow := (a, i) :: s.setNow } : State).rd (bitFld a i) = 1 := by
    have h := State.rd_wr_self s (bitFld a i) 1 (by simp [bitFld]) (by simpa [bitFld] using hi)
    rw [show 1 % 2 ^ ((bitFld a i).hi + 1 - (bitFld a i).lo) = 1 by simp [bitFld]] at h
    exact h
  split
  · rw [State.rd, State.repeatFlag_rdW_ne _ _ _ (by simpa [bitFld] using hr)]
    exact h1
  · exact h1

theorem State.flag_rd_self (s : State) {f : Fld} (hr : ¬ RepReg f.addr) (hf : f.hi = f.lo) (hi : f.lo < 32) :
    (s.flag f).rd f = 1 := by
  have := State.setBit_rd_self s hr hi
  simp only [State.rd, bitFld] at this
  simpa [State.rd, State.flag, hf] using this

/-- Setting a flag leaves the register's fields that do not hold it alone. -/
theorem State.setBit_rd_disj (s : State) {a i : Nat} {g : Fld} (hr : ¬ RepReg g.addr) (h : g.hi < i ∨ i < g.lo) :
    (s.setBit a i).rd g = s.rd g := by
  unfold State.setBit
  simp only
  have h1 : ({ s.wr (bitFld a i) 1 with setNow := (a, i) :: s.setNow } : State).rd g = s.rd g :=
    State.rd_wr_disj s (f := bitFld a i) 1 (by simpa [bitFld] using h)
  split
  · rw [State.rd, State.repeatFlag_rdW_ne _ _ _ hr]
    exact h1
  · exact h1

theorem State.flag_rd_disj (s : State) {f g : Fld} (hr : ¬ RepReg g.addr) (h : g.hi < f.lo ∨ f.lo < g.lo) :
    (s.flag f).rd g = s.rd g := State.setBit_rd_disj s hr h

end Sys2Proof.Machine
end

