-- ==== Sys2Proof/Laws/Flags.lean ====
section
/-!
SUPPORT. What counters, signed fields and flags leave alone, part by part of the state.
-/
namespace Sys2Proof.Machine

/-! ### `State.inc` -/

@[simp] theorem State.inc_toClockSt (s : State) (f : Fld) : (s.inc f).toClockSt = s.toClockSt := rfl
@[simp] theorem State.inc_toFurrowSt (s : State) (f : Fld) : (s.inc f).toFurrowSt = s.toFurrowSt := rfl
@[simp] theorem State.inc_toAlarmSt (s : State) (f : Fld) : (s.inc f).toAlarmSt = s.toAlarmSt := rfl
@[simp] theorem State.inc_toChanSt (s : State) (f : Fld) : (s.inc f).toChanSt = s.toChanSt := rfl
@[simp] theorem State.inc_toTallySt (s : State) (f : Fld) : (s.inc f).toTallySt = s.toTallySt := rfl
@[simp] theorem State.inc_toEngineSt (s : State) (f : Fld) : (s.inc f).toEngineSt = s.toEngineSt := rfl
@[simp] theorem State.inc_toNvmSt (s : State) (f : Fld) : (s.inc f).toNvmSt = s.toNvmSt := rfl
@[simp] theorem State.inc_toCalSt (s : State) (f : Fld) : (s.inc f).toCalSt = s.toCalSt := rfl
@[simp] theorem State.inc_toHealthSt (s : State) (f : Fld) : (s.inc f).toHealthSt = s.toHealthSt := rfl
@[simp] theorem State.inc_toModemSt (s : State) (f : Fld) : (s.inc f).toModemSt = s.toModemSt := rfl
@[simp] theorem State.inc_toRingSt (s : State) (f : Fld) : (s.inc f).toRingSt = s.toRingSt := rfl
@[simp] theorem State.inc_toDealSt (s : State) (f : Fld) : (s.inc f).toDealSt = s.toDealSt := rfl
@[simp] theorem State.inc_toUpdSt (s : State) (f : Fld) : (s.inc f).toUpdSt = s.toUpdSt := rfl
@[simp] theorem State.inc_pending (s : State) (f : Fld) : (s.inc f).pending = s.pending := rfl
@[simp] theorem State.inc_clk (s : State) (f : Fld) : (s.inc f).clk = s.clk := rfl
@[simp] theorem State.inc_fresh (s : State) (f : Fld) : (s.inc f).fresh = s.fresh := rfl
@[simp] theorem State.inc_mem (s : State) (f : Fld) : (s.inc f).mem = s.mem := rfl
@[simp] theorem State.inc_rdata (s : State) (f : Fld) : (s.inc f).rdata = s.rdata := rfl
@[simp] theorem State.inc_taken (s : State) (f : Fld) : (s.inc f).taken = s.taken := rfl
@[simp] theorem State.inc_regsWas (s : State) (f : Fld) : (s.inc f).regsWas = s.regsWas := rfl
@[simp] theorem State.inc_inReset (s : State) (f : Fld) : (s.inc f).inReset = s.inReset := rfl
@[simp] theorem State.inc_clrNow (s : State) (f : Fld) : (s.inc f).clrNow = s.clrNow := rfl
@[simp] theorem State.inc_byte (s : State) (f : Fld) (k : Nat) : (s.inc f).byte k = s.byte k := by
  simp [State.byte]
@[simp] theorem State.inc_furrow (s : State) (f : Fld) (k : Nat) : (s.inc f).furrow k = s.furrow k := by
  simp [State.furrow]

/-! ### `State.add` -/

@[simp] theorem State.add_toClockSt (s : State) (f : Fld) (n : Nat) : (s.add f n).toClockSt = s.toClockSt := rfl
@[simp] theorem State.add_toFurrowSt (s : State) (f : Fld) (n : Nat) : (s.add f n).toFurrowSt = s.toFurrowSt := rfl
@[simp] theorem State.add_toAlarmSt (s : State) (f : Fld) (n : Nat) : (s.add f n).toAlarmSt = s.toAlarmSt := rfl
@[simp] theorem State.add_toChanSt (s : State) (f : Fld) (n : Nat) : (s.add f n).toChanSt = s.toChanSt := rfl
@[simp] theorem State.add_toTallySt (s : State) (f : Fld) (n : Nat) : (s.add f n).toTallySt = s.toTallySt := rfl
@[simp] theorem State.add_toEngineSt (s : State) (f : Fld) (n : Nat) : (s.add f n).toEngineSt = s.toEngineSt := rfl
@[simp] theorem State.add_toNvmSt (s : State) (f : Fld) (n : Nat) : (s.add f n).toNvmSt = s.toNvmSt := rfl
@[simp] theorem State.add_toCalSt (s : State) (f : Fld) (n : Nat) : (s.add f n).toCalSt = s.toCalSt := rfl
@[simp] theorem State.add_toHealthSt (s : State) (f : Fld) (n : Nat) : (s.add f n).toHealthSt = s.toHealthSt := rfl
@[simp] theorem State.add_toModemSt (s : State) (f : Fld) (n : Nat) : (s.add f n).toModemSt = s.toModemSt := rfl
@[simp] theorem State.add_toRingSt (s : State) (f : Fld) (n : Nat) : (s.add f n).toRingSt = s.toRingSt := rfl
@[simp] theorem State.add_toDealSt (s : State) (f : Fld) (n : Nat) : (s.add f n).toDealSt = s.toDealSt := rfl
@[simp] theorem State.add_toUpdSt (s : State) (f : Fld) (n : Nat) : (s.add f n).toUpdSt = s.toUpdSt := rfl
@[simp] theorem State.add_pending (s : State) (f : Fld) (n : Nat) : (s.add f n).pending = s.pending := rfl
@[simp] theorem State.add_clk (s : State) (f : Fld) (n : Nat) : (s.add f n).clk = s.clk := rfl
@[simp] theorem State.add_fresh (s : State) (f : Fld) (n : Nat) : (s.add f n).fresh = s.fresh := rfl
@[simp] theorem State.add_mem (s : State) (f : Fld) (n : Nat) : (s.add f n).mem = s.mem := rfl
@[simp] theorem State.add_rdata (s : State) (f : Fld) (n : Nat) : (s.add f n).rdata = s.rdata := rfl
@[simp] theorem State.add_taken (s : State) (f : Fld) (n : Nat) : (s.add f n).taken = s.taken := rfl
@[simp] theorem State.add_regsWas (s : State) (f : Fld) (n : Nat) : (s.add f n).regsWas = s.regsWas := rfl
@[simp] theorem State.add_inReset (s : State) (f : Fld) (n : Nat) : (s.add f n).inReset = s.inReset := rfl
@[simp] theorem State.add_clrNow (s : State) (f : Fld) (n : Nat) : (s.add f n).clrNow = s.clrNow := rfl
@[simp] theorem State.add_byte (s : State) (f : Fld) (n : Nat) (k : Nat) : (s.add f n).byte k = s.byte k := by
  simp [State.byte]
@[simp] theorem State.add_furrow (s : State) (f : Fld) (n : Nat) (k : Nat) : (s.add f n).furrow k = s.furrow k := by
  simp [State.furrow]

/-! ### `State.wrS` -/

@[simp] theorem State.wrS_toClockSt (s : State) (f : Fld) (z : Int) : (s.wrS f z).toClockSt = s.toClockSt := rfl
@[simp] theorem State.wrS_toFurrowSt (s : State) (f : Fld) (z : Int) : (s.wrS f z).toFurrowSt = s.toFurrowSt := rfl
@[simp] theorem State.wrS_toAlarmSt (s : State) (f : Fld) (z : Int) : (s.wrS f z).toAlarmSt = s.toAlarmSt := rfl
@[simp] theorem State.wrS_toChanSt (s : State) (f : Fld) (z : Int) : (s.wrS f z).toChanSt = s.toChanSt := rfl
@[simp] theorem State.wrS_toTallySt (s : State) (f : Fld) (z : Int) : (s.wrS f z).toTallySt = s.toTallySt := rfl
@[simp] theorem State.wrS_toEngineSt (s : State) (f : Fld) (z : Int) : (s.wrS f z).toEngineSt = s.toEngineSt := rfl
@[simp] theorem State.wrS_toNvmSt (s : State) (f : Fld) (z : Int) : (s.wrS f z).toNvmSt = s.toNvmSt := rfl
@[simp] theorem State.wrS_toCalSt (s : State) (f : Fld) (z : Int) : (s.wrS f z).toCalSt = s.toCalSt := rfl
@[simp] theorem State.wrS_toHealthSt (s : State) (f : Fld) (z : Int) : (s.wrS f z).toHealthSt = s.toHealthSt := rfl
@[simp] theorem State.wrS_toModemSt (s : State) (f : Fld) (z : Int) : (s.wrS f z).toModemSt = s.toModemSt := rfl
@[simp] theorem State.wrS_toRingSt (s : State) (f : Fld) (z : Int) : (s.wrS f z).toRingSt = s.toRingSt := rfl
@[simp] theorem State.wrS_toDealSt (s : State) (f : Fld) (z : Int) : (s.wrS f z).toDealSt = s.toDealSt := rfl
@[simp] theorem State.wrS_toUpdSt (s : State) (f : Fld) (z : Int) : (s.wrS f z).toUpdSt = s.toUpdSt := rfl
@[simp] theorem State.wrS_pending (s : State) (f : Fld) (z : Int) : (s.wrS f z).pending = s.pending := rfl
@[simp] theorem State.wrS_clk (s : State) (f : Fld) (z : Int) : (s.wrS f z).clk = s.clk := rfl
@[simp] theorem State.wrS_fresh (s : State) (f : Fld) (z : Int) : (s.wrS f z).fresh = s.fresh := rfl
@[simp] theorem State.wrS_mem (s : State) (f : Fld) (z : Int) : (s.wrS f z).mem = s.mem := rfl
@[simp] theorem State.wrS_rdata (s : State) (f : Fld) (z : Int) : (s.wrS f z).rdata = s.rdata := rfl
@[simp] theorem State.wrS_taken (s : State) (f : Fld) (z : Int) : (s.wrS f z).taken = s.taken := rfl
@[simp] theorem State.wrS_regsWas (s : State) (f : Fld) (z : Int) : (s.wrS f z).regsWas = s.regsWas := rfl
@[simp] theorem State.wrS_inReset (s : State) (f : Fld) (z : Int) : (s.wrS f z).inReset = s.inReset := rfl
@[simp] theorem State.wrS_setNow (s : State) (f : Fld) (z : Int) : (s.wrS f z).setNow = s.setNow := rfl
@[simp] theorem State.wrS_clrNow (s : State) (f : Fld) (z : Int) : (s.wrS f z).clrNow = s.clrNow := rfl
@[simp] theorem State.wrS_byte (s : State) (f : Fld) (z : Int) (k : Nat) : (s.wrS f z).byte k = s.byte k := by
  simp [State.byte]
@[simp] theorem State.wrS_furrow (s : State) (f : Fld) (z : Int) (k : Nat) : (s.wrS f z).furrow k = s.furrow k := by
  simp [State.furrow]

/-! ### `State.repeatFlag` -/

@[simp] theorem State.repeatFlag_toClockSt (s : State) (a i : Nat) : (s.repeatFlag a i).toClockSt = s.toClockSt := by
  unfold State.repeatFlag; split <;> rfl
@[simp] theorem State.repeatFlag_toFurrowSt (s : State) (a i : Nat) : (s.repeatFlag a i).toFurrowSt = s.toFurrowSt := by
  unfold State.repeatFlag; split <;> rfl
@[simp] theorem State.repeatFlag_toAlarmSt (s : State) (a i : Nat) : (s.repeatFlag a i).toAlarmSt = s.toAlarmSt := by
  unfold State.repeatFlag; split <;> rfl
@[simp] theorem State.repeatFlag_toChanSt (s : State) (a i : Nat) : (s.repeatFlag a i).toChanSt = s.toChanSt := by
  unfold State.repeatFlag; split <;> rfl
@[simp] theorem State.repeatFlag_toTallySt (s : State) (a i : Nat) : (s.repeatFlag a i).toTallySt = s.toTallySt := by
  unfold State.repeatFlag; split <;> rfl
@[simp] theorem State.repeatFlag_toEngineSt (s : State) (a i : Nat) : (s.repeatFlag a i).toEngineSt = s.toEngineSt := by
  unfold State.repeatFlag; split <;> rfl
@[simp] theorem State.repeatFlag_toNvmSt (s : State) (a i : Nat) : (s.repeatFlag a i).toNvmSt = s.toNvmSt := by
  unfold State.repeatFlag; split <;> rfl
@[simp] theorem State.repeatFlag_toCalSt (s : State) (a i : Nat) : (s.repeatFlag a i).toCalSt = s.toCalSt := by
  unfold State.repeatFlag; split <;> rfl
@[simp] theorem State.repeatFlag_toHealthSt (s : State) (a i : Nat) : (s.repeatFlag a i).toHealthSt = s.toHealthSt := by
  unfold State.repeatFlag; split <;> rfl
@[simp] theorem State.repeatFlag_toModemSt (s : State) (a i : Nat) : (s.repeatFlag a i).toModemSt = s.toModemSt := by
  unfold State.repeatFlag; split <;> rfl
@[simp] theorem State.repeatFlag_toRingSt (s : State) (a i : Nat) : (s.repeatFlag a i).toRingSt = s.toRingSt := by
  unfold State.repeatFlag; split <;> rfl
@[simp] theorem State.repeatFlag_toDealSt (s : State) (a i : Nat) : (s.repeatFlag a i).toDealSt = s.toDealSt := by
  unfold State.repeatFlag; split <;> rfl
@[simp] theorem State.repeatFlag_toUpdSt (s : State) (a i : Nat) : (s.repeatFlag a i).toUpdSt = s.toUpdSt := by
  unfold State.repeatFlag; split <;> rfl
@[simp] theorem State.repeatFlag_pending (s : State) (a i : Nat) : (s.repeatFlag a i).pending = s.pending := by
  unfold State.repeatFlag; split <;> rfl
@[simp] theorem State.repeatFlag_clk (s : State) (a i : Nat) : (s.repeatFlag a i).clk = s.clk := by
  unfold State.repeatFlag; split <;> rfl
@[simp] theorem State.repeatFlag_fresh (s : State) (a i : Nat) : (s.repeatFlag a i).fresh = s.fresh := by
  unfold State.repeatFlag; split <;> rfl
@[simp] theorem State.repeatFlag_mem (s : State) (a i : Nat) : (s.repeatFlag a i).mem = s.mem := by
  unfold State.repeatFlag; split <;> rfl
@[simp] theorem State.repeatFlag_rdata (s : State) (a i : Nat) : (s.repeatFlag a i).rdata = s.rdata := by
  unfold State.repeatFlag; split <;> rfl
@[simp] theorem State.repeatFlag_taken (s : State) (a i : Nat) : (s.repeatFlag a i).taken = s.taken := by
  unfold State.repeatFlag; split <;> rfl
@[simp] theorem State.repeatFlag_regsWas (s : State) (a i : Nat) : (s.repeatFlag a i).regsWas = s.regsWas := by
  unfold State.repeatFlag; split <;> rfl
@[simp] theorem State.repeatFlag_inReset (s : State) (a i : Nat) : (s.repeatFlag a i).inReset = s.inReset := by
  unfold State.repeatFlag; split <;> rfl
@[simp] theorem State.repeatFlag_clrNow (s : State) (a i : Nat) : (s.repeatFlag a i).clrNow = s.clrNow := by
  unfold State.repeatFlag; split <;> rfl
@[simp] theorem State.repeatFlag_byte (s : State) (a i : Nat) (k : Nat) : (s.repeatFlag a i).byte k = s.byte k := by
  simp [State.byte]
@[simp] theorem State.repeatFlag_furrow (s : State) (a i : Nat) (k : Nat) : (s.repeatFlag a i).furrow k = s.furrow k := by
  simp [State.furrow]

/-! ### `State.setBit` -/

@[simp] theorem State.setBit_toClockSt (s : State) (a i : Nat) : (s.setBit a i).toClockSt = s.toClockSt := by
  unfold State.setBit; simp only; split <;> simp
@[simp] theorem State.setBit_toFurrowSt (s : State) (a i : Nat) : (s.setBit a i).toFurrowSt = s.toFurrowSt := by
  unfold State.setBit; simp only; split <;> simp
@[simp] theorem State.setBit_toAlarmSt (s : State) (a i : Nat) : (s.setBit a i).toAlarmSt = s.toAlarmSt := by
  unfold State.setBit; simp only; split <;> simp
@[simp] theorem State.setBit_toChanSt (s : State) (a i : Nat) : (s.setBit a i).toChanSt = s.toChanSt := by
  unfold State.setBit; simp only; split <;> simp
@[simp] theorem State.setBit_toTallySt (s : State) (a i : Nat) : (s.setBit a i).toTallySt = s.toTallySt := by
  unfold State.setBit; simp only; split <;> simp
@[simp] theorem State.setBit_toEngineSt (s : State) (a i : Nat) : (s.setBit a i).toEngineSt = s.toEngineSt := by
  unfold State.setBit; simp only; split <;> simp
@[simp] theorem State.setBit_toNvmSt (s : State) (a i : Nat) : (s.setBit a i).toNvmSt = s.toNvmSt := by
  unfold State.setBit; simp only; split <;> simp
@[simp] theorem State.setBit_toCalSt (s : State) (a i : Nat) : (s.setBit a i).toCalSt = s.toCalSt := by
  unfold State.setBit; simp only; split <;> simp
@[simp] theorem State.setBit_toHealthSt (s : State) (a i : Nat) : (s.setBit a i).toHealthSt = s.toHealthSt := by
  unfold State.setBit; simp only; split <;> simp
@[simp] theorem State.setBit_toModemSt (s : State) (a i : Nat) : (s.setBit a i).toModemSt = s.toModemSt := by
  unfold State.setBit; simp only; split <;> simp
@[simp] theorem State.setBit_toRingSt (s : State) (a i : Nat) : (s.setBit a i).toRingSt = s.toRingSt := by
  unfold State.setBit; simp only; split <;> simp
@[simp] theorem State.setBit_toDealSt (s : State) (a i : Nat) : (s.setBit a i).toDealSt = s.toDealSt := by
  unfold State.setBit; simp only; split <;> simp
@[simp] theorem State.setBit_toUpdSt (s : State) (a i : Nat) : (s.setBit a i).toUpdSt = s.toUpdSt := by
  unfold State.setBit; simp only; split <;> simp
@[simp] theorem State.setBit_pending (s : State) (a i : Nat) : (s.setBit a i).pending = s.pending := by
  unfold State.setBit; simp only; split <;> simp
@[simp] theorem State.setBit_clk (s : State) (a i : Nat) : (s.setBit a i).clk = s.clk := by
  unfold State.setBit; simp only; split <;> simp
@[simp] theorem State.setBit_fresh (s : State) (a i : Nat) : (s.setBit a i).fresh = s.fresh := by
  unfold State.setBit; simp only; split <;> simp
@[simp] theorem State.setBit_mem (s : State) (a i : Nat) : (s.setBit a i).mem = s.mem := by
  unfold State.setBit; simp only; split <;> simp
@[simp] theorem State.setBit_rdata (s : State) (a i : Nat) : (s.setBit a i).rdata = s.rdata := by
  unfold State.setBit; simp only; split <;> simp
@[simp] theorem State.setBit_taken (s : State) (a i : Nat) : (s.setBit a i).taken = s.taken := by
  unfold State.setBit; simp only; split <;> simp
@[simp] theorem State.setBit_regsWas (s : State) (a i : Nat) : (s.setBit a i).regsWas = s.regsWas := by
  unfold State.setBit; simp only; split <;> simp
@[simp] theorem State.setBit_inReset (s : State) (a i : Nat) : (s.setBit a i).inReset = s.inReset := by
  unfold State.setBit; simp only; split <;> simp
@[simp] theorem State.setBit_clrNow (s : State) (a i : Nat) : (s.setBit a i).clrNow = s.clrNow := by
  unfold State.setBit; simp only; split <;> simp
@[simp] theorem State.setBit_byte (s : State) (a i : Nat) (k : Nat) : (s.setBit a i).byte k = s.byte k := by
  simp [State.byte]
@[simp] theorem State.setBit_furrow (s : State) (a i : Nat) (k : Nat) : (s.setBit a i).furrow k = s.furrow k := by
  simp [State.furrow]

/-! ### `State.flag` -/

@[simp] theorem State.flag_toClockSt (s : State) (f : Fld) : (s.flag f).toClockSt = s.toClockSt := State.setBit_toClockSt _ _ _
@[simp] theorem State.flag_toFurrowSt (s : State) (f : Fld) : (s.flag f).toFurrowSt = s.toFurrowSt := State.setBit_toFurrowSt _ _ _
@[simp] theorem State.flag_toAlarmSt (s : State) (f : Fld) : (s.flag f).toAlarmSt = s.toAlarmSt := State.setBit_toAlarmSt _ _ _
@[simp] theorem State.flag_toChanSt (s : State) (f : Fld) : (s.flag f).toChanSt = s.toChanSt := State.setBit_toChanSt _ _ _
@[simp] theorem State.flag_toTallySt (s : State) (f : Fld) : (s.flag f).toTallySt = s.toTallySt := State.setBit_toTallySt _ _ _
@[simp] theorem State.flag_toEngineSt (s : State) (f : Fld) : (s.flag f).toEngineSt = s.toEngineSt := State.setBit_toEngineSt _ _ _
@[simp] theorem State.flag_toNvmSt (s : State) (f : Fld) : (s.flag f).toNvmSt = s.toNvmSt := State.setBit_toNvmSt _ _ _
@[simp] theorem State.flag_toCalSt (s : State) (f : Fld) : (s.flag f).toCalSt = s.toCalSt := State.setBit_toCalSt _ _ _
@[simp] theorem State.flag_toHealthSt (s : State) (f : Fld) : (s.flag f).toHealthSt = s.toHealthSt := State.setBit_toHealthSt _ _ _
@[simp] theorem State.flag_toModemSt (s : State) (f : Fld) : (s.flag f).toModemSt = s.toModemSt := State.setBit_toModemSt _ _ _
@[simp] theorem State.flag_toRingSt (s : State) (f : Fld) : (s.flag f).toRingSt = s.toRingSt := State.setBit_toRingSt _ _ _
@[simp] theorem State.flag_toDealSt (s : State) (f : Fld) : (s.flag f).toDealSt = s.toDealSt := State.setBit_toDealSt _ _ _
@[simp] theorem State.flag_toUpdSt (s : State) (f : Fld) : (s.flag f).toUpdSt = s.toUpdSt := State.setBit_toUpdSt _ _ _
@[simp] theorem State.flag_pending (s : State) (f : Fld) : (s.flag f).pending = s.pending := State.setBit_pending _ _ _
@[simp] theorem State.flag_clk (s : State) (f : Fld) : (s.flag f).clk = s.clk := State.setBit_clk _ _ _
@[simp] theorem State.flag_fresh (s : State) (f : Fld) : (s.flag f).fresh = s.fresh := State.setBit_fresh _ _ _
@[simp] theorem State.flag_mem (s : State) (f : Fld) : (s.flag f).mem = s.mem := State.setBit_mem _ _ _
@[simp] theorem State.flag_rdata (s : State) (f : Fld) : (s.flag f).rdata = s.rdata := State.setBit_rdata _ _ _
@[simp] theorem State.flag_taken (s : State) (f : Fld) : (s.flag f).taken = s.taken := State.setBit_taken _ _ _
@[simp] theorem State.flag_regsWas (s : State) (f : Fld) : (s.flag f).regsWas = s.regsWas := State.setBit_regsWas _ _ _
@[simp] theorem State.flag_inReset (s : State) (f : Fld) : (s.flag f).inReset = s.inReset := State.setBit_inReset _ _ _
@[simp] theorem State.flag_clrNow (s : State) (f : Fld) : (s.flag f).clrNow = s.clrNow := State.setBit_clrNow _ _ _
@[simp] theorem State.flag_byte (s : State) (f : Fld) (k : Nat) : (s.flag f).byte k = s.byte k := by
  simp [State.byte]
@[simp] theorem State.flag_furrow (s : State) (f : Fld) (k : Nat) : (s.flag f).furrow k = s.furrow k := by
  simp [State.furrow]

/-! ### `State.clrBit` -/

@[simp] theorem State.clrBit_toClockSt (s : State) (a i : Nat) : (s.clrBit a i).toClockSt = s.toClockSt := by
  unfold State.clrBit; split <;> simp
@[simp] theorem State.clrBit_toFurrowSt (s : State) (a i : Nat) : (s.clrBit a i).toFurrowSt = s.toFurrowSt := by
  unfold State.clrBit; split <;> simp
@[simp] theorem State.clrBit_toAlarmSt (s : State) (a i : Nat) : (s.clrBit a i).toAlarmSt = s.toAlarmSt := by
  unfold State.clrBit; split <;> simp
@[simp] theorem State.clrBit_toChanSt (s : State) (a i : Nat) : (s.clrBit a i).toChanSt = s.toChanSt := by
  unfold State.clrBit; split <;> simp
@[simp] theorem State.clrBit_toTallySt (s : State) (a i : Nat) : (s.clrBit a i).toTallySt = s.toTallySt := by
  unfold State.clrBit; split <;> simp
@[simp] theorem State.clrBit_toEngineSt (s : State) (a i : Nat) : (s.clrBit a i).toEngineSt = s.toEngineSt := by
  unfold State.clrBit; split <;> simp
@[simp] theorem State.clrBit_toNvmSt (s : State) (a i : Nat) : (s.clrBit a i).toNvmSt = s.toNvmSt := by
  unfold State.clrBit; split <;> simp
@[simp] theorem State.clrBit_toCalSt (s : State) (a i : Nat) : (s.clrBit a i).toCalSt = s.toCalSt := by
  unfold State.clrBit; split <;> simp
@[simp] theorem State.clrBit_toHealthSt (s : State) (a i : Nat) : (s.clrBit a i).toHealthSt = s.toHealthSt := by
  unfold State.clrBit; split <;> simp
@[simp] theorem State.clrBit_toModemSt (s : State) (a i : Nat) : (s.clrBit a i).toModemSt = s.toModemSt := by
  unfold State.clrBit; split <;> simp
@[simp] theorem State.clrBit_toRingSt (s : State) (a i : Nat) : (s.clrBit a i).toRingSt = s.toRingSt := by
  unfold State.clrBit; split <;> simp
@[simp] theorem State.clrBit_toDealSt (s : State) (a i : Nat) : (s.clrBit a i).toDealSt = s.toDealSt := by
  unfold State.clrBit; split <;> simp
@[simp] theorem State.clrBit_toUpdSt (s : State) (a i : Nat) : (s.clrBit a i).toUpdSt = s.toUpdSt := by
  unfold State.clrBit; split <;> simp
@[simp] theorem State.clrBit_pending (s : State) (a i : Nat) : (s.clrBit a i).pending = s.pending := by
  unfold State.clrBit; split <;> simp
@[simp] theorem State.clrBit_clk (s : State) (a i : Nat) : (s.clrBit a i).clk = s.clk := by
  unfold State.clrBit; split <;> simp
@[simp] theorem State.clrBit_fresh (s : State) (a i : Nat) : (s.clrBit a i).fresh = s.fresh := by
  unfold State.clrBit; split <;> simp
@[simp] theorem State.clrBit_mem (s : State) (a i : Nat) : (s.clrBit a i).mem = s.mem := by
  unfold State.clrBit; split <;> simp
@[simp] theorem State.clrBit_rdata (s : State) (a i : Nat) : (s.clrBit a i).rdata = s.rdata := by
  unfold State.clrBit; split <;> simp
@[simp] theorem State.clrBit_taken (s : State) (a i : Nat) : (s.clrBit a i).taken = s.taken := by
  unfold State.clrBit; split <;> simp
@[simp] theorem State.clrBit_regsWas (s : State) (a i : Nat) : (s.clrBit a i).regsWas = s.regsWas := by
  unfold State.clrBit; split <;> simp
@[simp] theorem State.clrBit_inReset (s : State) (a i : Nat) : (s.clrBit a i).inReset = s.inReset := by
  unfold State.clrBit; split <;> simp
@[simp] theorem State.clrBit_byte (s : State) (a i : Nat) (k : Nat) : (s.clrBit a i).byte k = s.byte k := by
  simp [State.byte]
@[simp] theorem State.clrBit_furrow (s : State) (a i : Nat) (k : Nat) : (s.clrBit a i).furrow k = s.furrow k := by
  simp [State.furrow]

theorem State.rdW_add_ne (s : State) {f : Fld} {a : Nat} (n : Nat) (h : a ≠ f.addr) : (s.add f n).rdW a = s.rdW a :=
  State.rdW_wr_ne s _ h
theorem State.rdW_inc_ne (s : State) {f : Fld} {a : Nat} (h : a ≠ f.addr) : (s.inc f).rdW a = s.rdW a := State.rdW_wr_ne s _ h
theorem State.rdW_wrS_ne (s : State) {f : Fld} {a : Nat} (z : Int) (h : a ≠ f.addr) : (s.wrS f z).rdW a = s.rdW a :=
  State.rdW_wr_ne s _ h
theorem State.rd_add_ne (s : State) {f g : Fld} (n : Nat) (h : g.addr ≠ f.addr) : (s.add f n).rd g = s.rd g :=
  State.rd_wr_ne s _ h
theorem State.rd_inc_ne (s : State) {f g : Fld} (h : g.addr ≠ f.addr) : (s.inc f).rd g = s.rd g := State.rd_wr_ne s _ h
theorem State.rd_wrS_ne (s : State) {f g : Fld} (z : Int) (h : g.addr ≠ f.addr) : (s.wrS f z).rd g = s.rd g :=
  State.rd_wr_ne s _ h
theorem State.rd_inc_disj (s : State) {f g : Fld} (h : g.hi < f.lo ∨ f.hi < g.lo) : (s.inc f).rd g = s.rd g :=
  State.rd_wr_disj s _ h

/-- A counter advanced reads one more, or stays at its largest value. -/
theorem State.rd_inc_self (s : State) (f : Fld) (h : f.lo ≤ f.hi) (h32 : f.hi < 32) :
    (s.inc f).rd f = satU (f.hi + 1 - f.lo) (s.rd f + 1) := by
  rw [show (s.inc f).rd f = (s.wr f (satU (f.hi + 1 - f.lo) (s.rd f + 1))).rd f from rfl, State.rd_wr_self _ _ _ h h32]
  refine Nat.mod_eq_of_lt ?_
  have := Nat.two_pow_pos (f.hi + 1 - f.lo)
  unfold satU
  split <;> omega

end Sys2Proof.Machine
end

