-- ==== Sys2Proof/Laws/Frame.lean ====
section
/-!
SUPPORT. The frame relation, and what each basic update leaves unchanged in its terms.
-/
namespace Sys2Proof.Machine

theorem mainCmd_awake {s u : State} {dt : Nat} (h : s.Awake dt u) (f : State → State) : mainCmd dt f s = .next (f u) := by
  simp [mainCmd, h.1, h.2]

theorem mainCmd_held {s : State} {dt : Nat} (h : (s.advance dt).inReset = true) (f : State → State) :
    mainCmd dt f s = .next (s.advance dt) := by
  simp [mainCmd, h]

theorem ordCmd_awake {s u : State} {dt : Nat} {ks : State → List (Nat × Nat)} (h : s.AwakeFor dt ks u) (f : State → State) :
    ordCmd dt ks f s = .next (f u) := by
  obtain ⟨h, rfl⟩ := h
  simp [ordCmd, h]

theorem ordCmd_held {s : State} {dt : Nat} {ks : State → List (Nat × Nat)} (h : (s.turn dt ks).inReset = true)
    (f : State → State) : ordCmd dt ks f s = .next (s.turn dt ks) := by
  simp [ordCmd, h]

theorem State.SameParts.refl (u : State) (B : List Part) : u.SameParts u B := by simp [State.SameParts]

theorem State.SameParts.trans {u t v : State} {B : List Part} (h : u.SameParts t B) (k : t.SameParts v B) : u.SameParts v B := by
  obtain ⟨a1, a2, a3, a4, a5, a6, a7, a8, a9, a10, a11, a12, a13, a14, a15, a16, a17, a18⟩ := h
  obtain ⟨b1, b2, b3, b4, b5, b6, b7, b8, b9, b10, b11, b12, b13, b14, b15, b16, b17, b18⟩ := k
  have tr : ∀ {α : Type} {P : Prop} {x y z : α}, (P ∨ y = x) → (P ∨ z = y) → (P ∨ z = x) := by
    intro α P x y z h k
    rcases h with h | h
    · exact .inl h
    · rcases k with k | k
      · exact .inl k
      · exact .inr (k.trans h)
  exact ⟨tr a1 b1, tr a2 b2, tr a3 b3, tr a4 b4, tr a5 b5, tr a6 b6, tr a7 b7, tr a8 b8, tr a9 b9, tr a10 b10, tr a11 b11,
    tr a12 b12, tr a13 b13, tr a14 b14, tr a15 b15, b16.trans a16, b17.trans a17, b18.trans a18⟩

theorem State.SameParts.mono {u t : State} {B C : List Part} (h : u.SameParts t B) (hBC : ∀ x ∈ B, x ∈ C) : u.SameParts t C := by
  obtain ⟨a1, a2, a3, a4, a5, a6, a7, a8, a9, a10, a11, a12, a13, a14, a15, a16⟩ := h
  exact ⟨a1.imp_left (hBC _), a2.imp_left (hBC _), a3.imp_left (hBC _), a4.imp_left (hBC _), a5.imp_left (hBC _),
    a6.imp_left (hBC _), a7.imp_left (hBC _), a8.imp_left (hBC _), a9.imp_left (hBC _), a10.imp_left (hBC _),
    a11.imp_left (hBC _), a12.imp_left (hBC _), a13.imp_left (hBC _), a14.imp_left (hBC _), a15.imp_left (hBC _), a16⟩

theorem State.Only.refl (u : State) (B : List Part) (A : Nat → Prop) : u.Only u B A :=
  ⟨.refl u B, fun _ _ => rfl, fun _ => rfl⟩

theorem State.Only.trans {u t v : State} {B : List Part} {A : Nat → Prop} (h : u.Only t B A) (k : t.Only v B A) :
    u.Only v B A :=
  ⟨h.1.trans k.1, fun a ha => (k.2.1 a ha).trans (h.2.1 a ha), fun a => (k.2.2 a).trans (h.2.2 a)⟩

theorem State.Only.mono {u t : State} {B C : List Part} {A D : Nat → Prop} (h : u.Only t B A)
    (hBC : ∀ x ∈ B, x ∈ C) (hAD : ∀ a, A a → D a) : u.Only t C D :=
  ⟨h.1.mono hBC, fun a ha => h.2.1 a fun h => ha (hAD a h), h.2.2⟩

theorem State.Only.ite {u s t : State} {B : List Part} {A : Nat → Prop} {c : Prop} [Decidable c]
    (hs : c → u.Only s B A) (ht : ¬ c → u.Only t B A) : u.Only (if c then s else t) B A := by
  split
  · exact hs ‹_›
  · exact ht ‹_›

theorem State.Only.foldl {α : Type} {u s : State} {B : List Part} {A : Nat → Prop} {l : List α} {f : State → α → State}
    (hs : u.Only s B A) (hf : ∀ (v : State) x, x ∈ l → v.Only (f v x) B A) : u.Only (l.foldl f s) B A := by
  induction l generalizing s with
  | nil => exact hs
  | cons a l ih =>
    exact ih (hs.trans (hf s a (List.mem_cons_self ..))) fun v x hx => hf v x (List.mem_cons_of_mem _ hx)

/-! ### Basic updates, after any state -/

theorem State.Only.wrW {u s : State} {B : List Part} {A : Nat → Prop} (h : u.Only s B A) {a : Nat} (w : Word) (ha : A a) :
    u.Only (s.wrW a w) B A :=
  h.trans ⟨.refl s B, fun k hk => State.rdW_wrW_ne _ _ fun e => hk (e ▸ ha), fun _ => rfl⟩

theorem State.Only.wr {u s : State} {B : List Part} {A : Nat → Prop} (h : u.Only s B A) {f : Fld} (v : Nat) (ha : A f.addr) :
    u.Only (s.wr f v) B A := h.wrW _ ha

theorem State.Only.wrS {u s : State} {B : List Part} {A : Nat → Prop} (h : u.Only s B A) {f : Fld} (z : Int) (ha : A f.addr) :
    u.Only (s.wrS f z) B A := h.wrW _ ha

theorem State.Only.add {u s : State} {B : List Part} {A : Nat → Prop} (h : u.Only s B A) {f : Fld} (n : Nat) (ha : A f.addr) :
    u.Only (s.add f n) B A := h.wrW _ ha

theorem State.Only.inc {u s : State} {B : List Part} {A : Nat → Prop} (h : u.Only s B A) {f : Fld} (ha : A f.addr) :
    u.Only (s.inc f) B A := h.wrW _ ha

theorem State.Only.setBit {u s : State} {B : List Part} {A : Nat → Prop} (h : u.Only s B A) {a : Nat} (i : Nat) (ha : A a)
    (hr : ∀ a, RepReg a → A a) : u.Only (s.setBit a i) B A :=
  h.trans ⟨by simp [State.SameParts], fun k hk => State.setBit_rdW_ne _ (fun e => hk (e ▸ ha)) fun e => hk (hr k e),
    fun k => by simp⟩

theorem State.Only.flag {u s : State} {B : List Part} {A : Nat → Prop} (h : u.Only s B A) {f : Fld} (ha : A f.addr)
    (hr : ∀ a, RepReg a → A a) : u.Only (s.flag f) B A := h.setBit _ ha hr

theorem State.Only.setFurrow {u s : State} {B : List Part} {A : Nat → Prop} (h : u.Only s B A) (n : Nat) (f : Furrow)
    (hB : Part.furrow ∈ B) : u.Only (s.setFurrow n f) B A :=
  h.trans ⟨by simp [State.SameParts, hB], fun _ _ => rfl, fun _ => rfl⟩

theorem State.Only.segNow {u s : State} {B : List Part} {A : Nat → Prop} (h : u.Only s B A) (n : Nat)
    (hB : Part.furrow ∈ B) : u.Only (s.segNow n) B A := h.setFurrow _ _ hB

theorem State.Only.loadAngle {u s : State} {B : List Part} {A : Nat → Prop} (h : u.Only s B A) (n a prev : Nat)
    (hB : Part.furrow ∈ B) : u.Only (s.loadAngle n a prev) B A := (h.setFurrow _ _ hB).setFurrow _ _ hB

theorem State.Only.wrWords {u s : State} {B : List Part} {A : Nat → Prop} (h : u.Only s B A) (a : Nat) (ws : List Word)
    (ha : ∀ i, i < ws.length → A (a + 4 * i)) : u.Only (s.wrWords a ws) B A := by
  induction ws generalizing s a with
  | nil => exact h
  | cons w ws ih =>
    refine ih (h.wrW w (by simpa using ha 0 (by simp))) _ fun i hi => ?_
    have := ha (i + 1) (by simpa using hi)
    rwa [show a + 4 * (i + 1) = a + 4 + 4 * i by omega] at this

theorem State.Only.setRdata {u s : State} {B : List Part} {A : Nat → Prop} (h : u.Only s B A) (o : Nat) (w : Word)
    (hB : Part.rdata ∈ B) : u.Only (s.setRdata o w) B A :=
  h.trans ⟨by simp [State.SameParts, hB], fun _ _ => rfl, fun _ => rfl⟩

/-- A change of parts other than registers and memory. -/
theorem State.Only.parts {u s t : State} {B : List Part} {A : Nat → Prop} (h : u.Only s B A) (hp : s.SameParts t B)
    (hr : t.regs = s.regs) (hm : t.mem = s.mem) : u.Only t B A :=
  h.trans ⟨hp, fun a _ => by simp [State.rdW, hr], fun a => by simp [State.byte, hm]⟩

end Sys2Proof.Machine
end

