-- ==== Sys2Proof/Tests/Slice0.lean ====
section
/-!
SUPPORT. Tests: ill-formed commands, the front of the queue, and for every statement a concrete state and operands that
meet its hypotheses, clause by clause, many with one effect that the manual gives there. Every state is the state after
reset with a few fields set; expected values come from the rules named.
-/
set_option Elab.async false

namespace Sys2Proof.Tests
open Machine

/-- The fields of `l` set in turn. -/
def with_ (s : State) (l : List (Fld × Nat)) : State := l.foldl (fun s p => s.wr p.1 p.2) s

/-- The state after reset with the fields of `l` set. -/
def st (l : List (Fld × Nat)) : State := with_ State.reset l

/-- The next state of an outcome. -/
def out : Host.Outcome State Fault Refusal → State
  | .next t => t
  | _ => State.reset

/-- The machine stopped with a fault. -/
def stops : Host.Outcome State Fault Refusal → Bool
  | .fault _ => true
  | _ => false

/-- `s` with the places `ks` noted as taken: it differs from `s` in nothing that a statement's hypotheses read. -/
def due (s : State) (ks : State → List (Nat × Nat)) : State := { s with taken := s.taken ++ ks s }

/-- Commands that come at once act in `s`: no reset is held, and no place of an order of the cycle is taken. -/
def Acts (s : State) : Prop := s.Awake 0 s ∧ ∀ ks, s.AwakeFor 0 ks (due s ks)

theorem acts (s : State) (h : s.inReset = false) (ht : s.taken = []) : Acts s := by
  refine ⟨⟨rfl, h⟩, fun ks => ?_⟩
  have hl : s.late (ks s) = false := by simp [State.late, ht]
  have e : s.turn 0 ks = s := by simp [State.turn, State.advance, hl]
  exact ⟨by rw [e]; exact h, by rw [e]; rfl⟩
/-! ### Furrows and the sowing engine -/

theorem witness_FurrowLock :
    let f : Furrow := { run := true, present := true, rate := 500000, okClk := some 0 }
    let s := { st [(FUR_CTL_EN 0, 1)] with clk := twoCycles 500000, fur := [(0, f)] }
    let v := { st [(FUR_STAT_LOCK 3, 1)] with fur := [(3, { sAng := 16385 })] }
    let r := fun k => { st [(FUR_CTL_EN 0, 1)] with fur := [(0, { sRate := k })] }
    (Acts s ∧ Acts v ∧ ∀ k, Acts (r k)) ∧
    (s.rd (FUR_CTL_EN 0) = 1 ∧ (s.furrow 0).run = true ∧ (s.furrow 0).present = true ∧ s.rd (FUR_STAT_RANGE 0) = 0 ∧
      s.rd (FUR_STAT_HOLD 0) = 0 ∧ s.rd (FUR_STAT_LOCK 0) = 0 ∧ (s.phaseErr 0).natAbs < 4096 ∧
      (s.furrow 0).okClk = some 0 ∧ (out (exec (.lockSet 0 0) s)).rd (FUR_STAT_LOCK 0) = 1) ∧
    (v.rd (FUR_STAT_LOCK 3) = 1 ∧ v.phaseErr 3 = 16385 ∧ (out (exec (.lockClear 0 3) v)).rd (FUR_STAT_LOCK 3) = 0) ∧
    ((r 9999).rd (FUR_STAT_RANGE 0) = 0 ∧ (r 9999).rd (FUR_STAT_HOLD 0) = 0 ∧
      ((out (exec (.freqOutOfRange 0 0) (r 4000001))).furrow 0).rate = 4000000 ∧
      ((out (exec (.freqOutOfRange 0 0) (r 9999))).furrow 0).rate = 10000 ∧
      (out (exec (.freqOutOfRange 0 0) (r 9999))).rd (FUR_STAT_RANGE 0) = 1) :=
  ⟨⟨acts _ rfl rfl, acts _ rfl rfl, fun _ => acts _ rfl rfl⟩, by decide +kernel⟩

theorem witness_HoldoverEntry :
    let s := { st [(FUR_CTL_EN 1, 1), (FUR_SRC_SRC 1, 2), (FUR_STAT_RANGE 1, 1)] with clk := 2000000000 }
    Acts s ∧ (s.rd (FUR_CTL_EN 1) = 1 ∧ s.srcLost 1 = true ∧ (out (exec (.sourceLost 0 1) s)).rd (FUR_STAT_HOLD 1) = 1) ∧
    (s.rd (FUR_STAT_RANGE 1) = 1 ∧ (s.furrow 1).rangeClk + twoCycles (inRange (s.furrow 1).sRate) ≤ s.clk ∧
      (out (exec (.rangeHoldoverExpiry 0 1) s)).rd (FUR_HOLDCNT_COUNT 1) = 1) ∧
    (out (exec (.forcehSet 0 1) s)).rd (FUR_STAT_LOSS 1) = 1 ∧
    (out (exec (.sourceChange 0 1 0x2F2F2F36#32) s)).rd (FUR_SRC_SRC 1) = 6 ∧
    (out (exec (.sourceChange 0 1 7#32) s)).rd (FUR_STAT_CFGERR 1) = 1 ∧
    (out (exec (.sourceChange 0 1 0x30000000#32) s)).rd (FUR_STAT_CFGERR 1) = 1 :=
  ⟨acts _ rfl rfl, by decide +kernel⟩

theorem witness_HoldoverExit :
    let s := fun e => { st [(FUR_CTL_EN 2, 1), (FUR_STAT_HOLD 2, 1), (FUR_SRC_SRC 2, 6)] with
      fur := [(2, { run := true, present := true, bSeen := true, sRate := 500000, sAng := e })] }
    let v := with_ (s 0) [(FUR_STAT_SLEW 2, 1)]
    (Acts v ∧ ∀ e, Acts (s e)) ∧
    ((s 256).rd (FUR_CTL_EN 2) = 1 ∧ (s 256).srcPresent 2 = true ∧ ((s 256).furrow 2).run = true ∧
      (s 256).rd (FUR_STAT_HOLD 2) = 1 ∧ (s 256).rd (FUR_CTL_FORCEH 2) = 0 ∧ (s 256).rd (FUR_STAT_SLEW 2) = 0) ∧
    (s 256).phaseErr 2 = 256 ∧ (out (exec (.sourceReturn 0 2) (s 0))).rd (FUR_STAT_HOLD 2) = 0 ∧
    (out (exec (.sourceReturn 0 2) (s 257))).rd (FUR_STAT_SLEW 2) = 1 ∧
    (out (exec (.forcehClear 0 2) (s 8388608))).rdS (FUR_HOLDERR_ERR 2) = -8388608 ∧
    v.rd (FUR_STAT_SLEW 2) = 1 ∧ v.phaseErr 2 = 0 ∧ (out (exec (.slewEnd 0 2) v)).rd (FUR_STAT_HOLD 2) = 0 :=
  ⟨⟨acts _ rfl rfl, fun _ => acts _ rfl rfl⟩, by decide +kernel⟩

theorem witness_FurrowStart :
    let s := st [(FUR_CYCSETL_CYCLO 3, 1)]
    let v := { with_ s [(FUR_CTL_EN 3, 1), (FUR_SRC_SRC 3, 6)] with
      fur := [(3, { bSeen := true, sRate := 500000, sAng := 77 })] }
    let e := { with_ s [(FUR_CTL_EN 3, 1), (FUR_SRC_SRC 3, 2)] with fur := [(3, { idx := true, sRate := 500000 })] }
    (Acts s ∧ Acts v ∧ Acts e) ∧
    (s.rd (FUR_CTL_EN 3) = 0 ∧ (out (exec (.furEnable 0 3) s)).angle 3 = 2 ^ 24 - 1) ∧
    (v.rd (FUR_CTL_EN 3) = 1 ∧ (v.furrow 3).run = false ∧ v.srcPresent 3 = true ∧ v.rd (FUR_CTL_FORCEH 3) = 0 ∧
      v.rd (FUR_SRC_SRC 3) = 6 ∧ v.srcAngle 3 v.clk = 77) ∧
    (e.srcPresent 3 = true ∧ e.srcPass 3 = true ∧ e.rd (FUR_SRC_SRC 3) = 2) :=
  ⟨⟨acts _ rfl rfl, acts _ rfl rfl, acts _ rfl rfl⟩, by decide +kernel⟩

theorem witness_FurrowInputs :
    let s := { st [(FUR_CTL_EN 0, 1), (FUR_SRC_SRC 0, 2), (FUR_ENC_LINES 0, 100)] with
      fur := [(0, { run := true, idx := true, pos := 397, zcCyc := 9 })] }
    let v := { st [(FUR_CTL_EN 0, 1), (FUR_SRC_SRC 0, 5)] with clk := 140, fur := [(0, { edges := 3, edgePer := 100, edgeClk := 100 })] }
    let z := { st [(FUR_CTL_EN 1, 1)] with
      clk := 1, fur := [(1, { run := true, segs := [{ t0 := 0, ang := 2 ^ 24 - 1, rem := 0, rate := 4000000, hold := false, slew := false, unlk := false }] })] }
    (Acts s ∧ Acts v ∧ Acts z) ∧
    (s.rd (FUR_CTL_EN 0) = 1 ∧ s.rd (FUR_SRC_SRC 0) = 2 ∧ (s.furrow 0).idx = true ∧
      2 < ((s.furrow 0).pos - 4 * (s.rd (FUR_ENC_LINES 0) : Int)).natAbs ∧
      (out (exec (.encoderIndex 0 0) s)).rd (FUR_STAT_ENCERR 0) = 1) ∧
    ((out (exec (.encoderCountEdge 0 0 true) s)).furrow 0).pos = 398 ∧
    (v.rd (FUR_SRC_SRC 0) = 5 ∧ 2 * (v.clk - (v.furrow 0).edgeClk) < (v.furrow 0).edgePer ∧
      (out (exec (.anginEdge 0 1) v)).rd (FUR_STAT_GLITCH 0) = 1) ∧
    ((z.furrow 1).run = true ∧ (segAt z.clk (z.furrow 1).segs).isSome = true ∧ z.angle 1 / 2 ^ 24 = 1 ∧
      (z.furrow 1).before z.clk / 2 ^ 24 = 0 ∧ ((out (exec (.zeroCrossing 0 1) z)).furrow 1).zcCyc = 1) ∧
    ((s.stamp 0)[4]?).isSome = true :=
  ⟨⟨acts _ rfl rfl, acts _ rfl rfl, acts _ rfl rfl⟩, by decide +kernel⟩

theorem witness_FurrowStop :
    let s := st [(FUR_CTL_EN 0, 1)]
    Acts s ∧ s.rd (FUR_CTL_EN 0) = 1 ∧
      (out (exec (.furDisable 0 0) s)).rd (FUR_CTL_EN 0) = 0 :=
  ⟨acts _ rfl rfl, by decide +kernel⟩

theorem witness_SeedWrites :
    let s := State.reset
    let a := (State.reset.wrW (seedWord 1023 0) 5).wrW (seedWord 1023 3) 0x94000000#32
    let ahead := State.reset.wrW (seedWord 0 0) 1
    let late := { State.reset.wrW (seedWord 0 2) 65536 with clk := 1 }
    (Acts s ∧ Acts a) ∧
    (s.seedArmed 0 = false ∧ seedOk 0xFC000000 0 = false ∧
      (out (exec (.seedArm 0 0 0xFC000000#32) s)).rd SOWC_STAT_BADSEED = 1) ∧
    ((out (exec (.seedArm 0 0 0x14000000#32) ahead)).seedArmed 0 = true) ∧
    ((out (exec (.seedArm 0 0 0x14000000#32) { s with clk := 1 })).rd SOWC_STAT_PAST = 1) ∧
    ((out (exec (.seedArm 0 0 0x14000000#32) late)).seedTarget 0 = 65536) ∧
    (a.seedArmed 1023 = true ∧ (out (exec (.seedDisarm 0 1023 0xFFFFFFFF#32) a)).seedArmed 1023 = false ∧
      (out (exec (.seedBusyWrite 0 1023 0 0#32) a)).rd SOWC_STAT_SEED = 1023 ∧
      Sparse.get (fun _ => 0) (readerOf (.host 0)) (out (exec (.seedWord0Read 0 (.host 0) 1023) a)).rdata = 5) ∧
    s.rd SOWC_CTL_EN = 0 ∧
    (out (exec (.sowcDisable 0) s)).rd SOWC_CTL_EN = 0 :=
  ⟨⟨acts _ rfl rfl, acts _ rfl rfl⟩, by decide +kernel⟩

theorem witness_Sowing :
    let s := { (with_ (State.reset.wrW (seedWord 7 3) 0x94000000#32) [(SOWC_CTL_EN, 1), (FUR_CTL_EN 0, 1)]) with
      fur := [(0, { run := true })] }
    let q := { State.reset with clk := 1, seedQ := [{ seed := 7, w3 := 0x94000002, due := 0, late := false }] }
    let d := { State.reset with clk := 5, seedD := [{ seed := 7, w3 := 0x94000082, at_ := 5 }] }
    (Acts s ∧ Acts q ∧ Acts d) ∧
    (s.rd SOWC_CTL_EN = 1 ∧ s.seedArmed 7 = true ∧ s.rd (FUR_CTL_EN 0) = 1 ∧ (s.furrow 0).run = true ∧
      0 ≤ angDiff (s.angle 0) (s.seedTarget 7) ∧ (out (exec (.seedDue 0 7) s)).seedQ.length = 1 ∧
      (out (exec (.seedDue 0 7) s)).seedArmed 7 = false) ∧
    (q.dispClk < q.clk ∧ bits 0x94000002 28 26 = 5 ∧ (out (exec (.seedDispatch 0) q)).seedQ = [] ∧
      (out (exec (.seedDispatch 0) q)).sync0 = true) ∧
    (bits 0x94000082 28 26 = 5 ∧ (out (exec (.seedDelayExpiry 0 7) d)).seedD = [] ∧
      (out (exec (.seedDelayExpiry 0 7) d)).sync0 = true) :=
  ⟨⟨acts _ rfl rfl, acts _ rfl rfl, acts _ rfl rfl⟩, by decide +kernel⟩

/-! ### Channels, slices, references -/

theorem witness_ChannelConfig :
    let s := with_ State.reset [(ANA_CHCFG_EN 0, 0)]
    let p := { State.reset with clk := 24576, chan := [(47, { power := .up, upAt := 24576, held := false })] }
    let q := { p with cal := some { all := true, ch := 0, start := 0, enable := false } }
    let z := st [(TAL_FCFG_EN 0, 1)]
    let own := { p with cal := some { all := false, ch := 3, start := 0, enable := true } }
    (Acts s ∧ Acts p ∧ Acts q ∧ Acts z ∧ Acts own) ∧
    (z.isSealed 0 = true ∧ z.isSealed 1 = false ∧ (out (exec (.channelCfgWrite 0 0 0#32) z)).rd TAL_STAT_SEALWR = 1 ∧
      (out (exec (.channelEnable 0 0) z)).rd TAL_STAT_SEALWR = 1 ∧ (out (exec (.channelDisable 0 0) z)).rd (ANA_CHCFG_EN 0) = 1) ∧
    ((own.cal.any fun k => k.enable && k.ch == 3) = true ∧ own.calWait = [] ∧
      (out (exec (.channelDisable 0 3) own)).cal = none ∧ (out (exec (.channelDisable 0 3) own)).rd ANA_STAT_DONE = 1) ∧
    ((out (exec (.channelCfgWrite 0 47 0x0000000D#32) s)).rd ANA_STAT_CFGERR = 1 ∧ bits 0x0D 3 1 = 6) ∧
    (bits 0x0B 3 1 = 5 ∧ s.rd (ANA_CHCFG_EN 0) = 0 ∧
      ((out (exec (.channelCfgWrite 0 0 0x0000000B#32) s)).chan1 0).power = .up) ∧
    (out (exec (.channelEnable 0 0) s)).rd (ANA_CHCFG_EN 0) = 1 ∧
    ((p.chan1 47).power = .up ∧ (p.chan1 47).upAt = p.clk ∧ p.cal = none ∧ p.calWait = [] ∧
      (out (exec (.channelPowerupDone 0 47) q)).calWait = [47]) ∧
    ((out (exec (.channelPowerupDone 0 47) p)).cal).isSome = true ∧
    (p.rd (ANA_CHCFG_EN 3) = 1 ∧ (p.chan1 3).power = .on ∧
      (out (exec (.channelDisable 0 3) p)).rd (ANA_CHCFG_EN 3) = 0 ∧
      ((out (exec (.channelCfgTakeEffect 0 3) (out (exec (.channelDisable 0 3) p)))).chan1 3).power = .off) :=
  ⟨⟨acts _ rfl rfl, acts _ rfl rfl, acts _ rfl rfl, acts _ rfl rfl, acts _ rfl rfl⟩, by decide +kernel⟩

/-- Channel 5 with its default map 0, 1, 2, 3, fallow slice 4, at a step. -/
def rot (step : Nat) (h : Chan) : State :=
  { st [(SLC_CTL_ROTEN, 1), (SLC_CHSTAT_STEP 5, step)] with
    clk := 50 * cyMs, rotT0 := some 0, chan := [(5, { h with held := false })] }

theorem witness_Rotation :
    let good : Residual := { ofs := 256, gain := -268, skew := 2, flat := false }
    let bad : Residual := { ofs := 257, gain := 0, skew := 0, flat := true }
    let co : Coefs := { ofs := 8388608, gain := 0, skew := -2000 }
    let s := rot 2 { rotNow := true }
    let near := fun (step c : Nat) => { rot step {} with clk := c, chan := [(5, { held := false, per := 0 })] }
    let r := near 0 (usNear (53 * 5120000) - 60 * cyMs)
    let n := near 2 (usNear (53 * 5120000))
    let e := rot 3 { ext := 9 }
    let e2 := rot 3 { ext := 10 }
    (Acts s ∧ Acts r ∧ Acts n ∧ Acts e ∧ Acts e2) ∧
    (s.rd (SLC_CHSTAT_FAL 5) = 4 ∧ s.inCal 5 = false ∧ (s.chan1 5).shadowClk + 50 * cyMs = s.clk ∧
      (out (exec (.handoverSlot 0 5 good co) s)).rd (SLC_PHMAP_PH0 5) = 4 ∧
      (out (exec (.handoverSlot 0 5 bad co) s)).rd (SLC_CHSTAT_STEP 5) = 3) ∧
    (r.stepNow 5 = 0 ∧ r.inCal 5 = false ∧ r.rd (SLC_CHSTAT_NOSPARE 5) = 0 ∧ r.toSlot 5 = some (60 * cyMs) ∧
      (out (exec (.fallowStepChange 0 5 co) r)).rd (SLC_CHSTAT_STEP 5) = 1) ∧
    ((n.chan1 5).rotNow = false ∧ n.lastSlot 5 = some n.clk ∧ (out (exec (.handoverSlot 0 5 good co) n)).rd (SLC_PHMAP_PH0 5) = 4) ∧
    (let z := rot 1 { stepClk := 40 * cyMs }
     (z.chan1 5).stepClk + 10 * cyMs = z.clk ∧ (out (exec (.fallowStepChange 0 5 co) z)).rd (SLC_CHSTAT_STEP 5) = 2) ∧
    ((e.chan1 5).stepClk + 50 * cyMs = e.clk ∧ ((out (exec (.shadowExtension 0 5 bad co) e)).chan1 5).ext = 10 ∧
      (out (exec (.shadowExtension 0 5 bad co) e2)).rd SLC_STAT_DEFER = 1 ∧
      (out (exec (.shadowExtension 0 5 good co) e2)).rd (SLC_PHMAP_PH3 5) = 2) ∧
    ((out (exec (.slcRotateNow 0 (Fin.ofNat 64 5)) r)).rd (SLC_CHSTAT_STEP 5) = 2 ∧
      (out (exec (.slcRotateNow 0 (Fin.ofNat 64 48)) r)).rd SLC_STAT_CMDERR = 1) ∧
    (hardOf co ≠ 0 ∧ get3 (s.chan1 5).hardMask 2 = 0 ∧
      s.active_ 5 2 = true ∧ s.active_ 5 4 = false ∧ s.outOf (s.coefs 5 2) 90 = 0 ∧
      (out (exec (.coefficientReturn 0 5 2 { ofs := 1, gain := 0, skew := 0 }) s)).rdS (SLC_OFS_OFS 27) = 0) :=
  ⟨⟨acts _ rfl rfl, acts _ rfl rfl, acts _ rfl rfl, acts _ rfl rfl, acts _ rfl rfl⟩, by decide +kernel⟩

theorem witness_Retirement :
    let good : Residual := { ofs := 0, gain := 0, skew := 9, flat := true }
    let co : Coefs := { ofs := 0, gain := 0, skew := 0 }
    let s := rot 0 { exc := [(4, 1), (1, 3), (1, 2), (1, 1)] }
    let v := { rot 5 { retiring := some 0, ext := 10, stepClk := 0 } with clk := 4916 + 550 * cyMs }
    (Acts s ∧ Acts v) ∧
    (s.rd (SLC_CHSTAT_NOSPARE 5) = 0 ∧ (s.chan1 5).retiring = none ∧ s.rd (SLC_CHSTAT_FAIL 5) = 0 ∧ s.inCal 5 = false ∧ excCount s.clk 1 (s.chan1 5).exc = 3 ∧
      (out (exec (.sliceRetirement 0 5 1) s)).rd (SLC_CHSTAT_STEP 5) = 5) ∧
    ((v.chan1 5).retiring = some 0 ∧ (v.chan1 5).stepClk + 4916 + 50 * cyMs * (1 + (v.chan1 5).ext) = v.clk ∧
      resMet good = true ∧ (out (exec (.retirementHandover 0 5 good co) v)).rd (SLC_PHMAP_PH0 5) = 4) ∧
    (s.rd (SLC_CHSTAT_RET 5) ≠ 4 ∧ (out (exec (.slcRetire 0 (Fin.ofNat 64 5) 4) s)).rd (SLC_CHSTAT_RET 5) = 4) ∧
    (out (exec (.slcRetire 0 (Fin.ofNat 64 48) 0) s)).rd SLC_STAT_CMDERR = 1 ∧
    (out (exec (.slcRetire 0 (Fin.ofNat 64 0) 5) s)).rd SLC_STAT_CMDERR = 1 :=
  ⟨⟨acts _ rfl rfl, acts _ rfl rfl⟩, by decide +kernel⟩

theorem witness_Calibration :
    let s := State.reset
    let v := { State.reset with clk := 180 * cyMs, cal := some { all := true, ch := 0, start := 0, enable := false } }
    let w := { v with clk := 180 * cyMs - 1 }
    (Acts s ∧ Acts v ∧ Acts w) ∧
    (s.cal = none ∧ (out (exec (.calibrationStart 0 true (Fin.ofNat 64 47)) s)).rd (SLC_CHSTAT_STEP 47) = 6) ∧
    (out (exec (.calibrationStart 0 false (Fin.ofNat 64 0)) v)).rd ANA_STAT_CMDERR = 1 ∧
    (wfCal [] = true ∧ v.calWait = [] ∧ (out (exec (.calibrationEnd 0 []) v)).rotT0 = some (180 * cyMs)) ∧
    (out (exec (.calibrationEnd 0 []) w)).cal.isSome = true ∧
    stops (exec (.calibrationEnd 0 [{ ch := 0, co := [], pga := [0] }]) v) = true :=
  ⟨⟨acts _ rfl rfl, acts _ rfl rfl, acts _ rfl rfl⟩, by decide +kernel⟩

theorem witness_References :
    let s := { st [(ANA_REFCTL_EXTEN, 1)] with clk := cySec, refs := { chk := some 0, dis := 2 } }
    let v := { State.reset with clk := 20 * cySec, refs := { run := true, retReq := some 1, cUp := 0 } }
    let w := { State.reset with refs := { swapDue := some 0 } }
    (Acts s ∧ Acts v ∧ Acts w) ∧
    ((out (exec (.referenceCheck 0) s)).refs.chk = some cySec ∧
      (out (exec (.referenceCheck 0) v)).rd ANA_STAT_CMDERR = 1) ∧
    (out (exec (.referenceCheckDone 0 (-40000)) s)).rdW ANA_REFDXA = 0x80008001#32 ∧
    (s.rd ANA_REFSTAT_ARB = 0 ∧ s.rd ANA_REFSTAT_NOMAJ = 0 ∧ s.refCIn = false ∧
      (out (exec (.refRatioAverage 0 (-2001) 0 0) s)).rd YLD_REFDIS_DIS = 1 ∧
      (out (exec (.refRatioAverage 0 2000 0 0) s)).rd YLD_REFDIS_DIS = 0) ∧
    (v.refs.cUp + 20 * cySec = v.clk ∧ (out (exec (.referenceArbitration 0 2000 2000) v)).rd ANA_REFSTAT_ARB = 1 ∧
      (out (exec (.referenceArbitration 0 2000 (-2001)) v)).refs.swapDue = some 1 ∧
      (out (exec (.referenceArbitration 0 2001 2000) v)).refs.swapDue = some 0 ∧
      (out (exec (.referenceArbitration 0 2001 2001) v)).rd ANA_REFSTAT_NOMAJ = 1) ∧
    (w.cal = none ∧ w.refCIn = false ∧ (out (exec (.referenceSwap 0) w)).rd ANA_REFSTAT_LO = 2) ∧
    (out (exec (.refRetireSettleExpiry 0) v)).refs.swapDue = some 1 ∧
    (out (exec (.gangModeChange 0 23) (with_ w [(ANA_GANG_MODE 23, 2)]))).gangMode 23 = 2 :=
  ⟨⟨acts _ rfl rfl, acts _ rfl rfl, acts _ rfl rfl⟩, by decide +kernel⟩

/-! ### Filter chain, streams, gleaner -/

theorem witness_Comparators :
    let s := { st [(FLT_SHIFT_SH1 47, 0), (FLT_CMPCTL_EN 95, 1), (FLT_CMPSTAT_TRIP 95, 1)] with
      tripQ := List.replicate 16 (3, [1, 2, 3, 4, 5]), clk := 10 ^ 8, chan := [(47, { held := false, hist := [0x80#32], lastW := 1, fineQ := [{ at_ := 0, word := 0, gain := 0, ef := 0 }] })] }
    let s := s.wr (FLT_CMPSTAT_CNT 95) (s.rd (FLT_CMPCTL_N 95))
    let e := with_ State.reset [(FLT_CMPCTL_EN 0, 1), (FLT_CMPSTAT_STATE 0, 1), (FLT_CMPSTAT_CNT 0, 0xFFFF)]
    (Acts s ∧ Acts e) ∧
    (bits (s.rdW (FLT_SHIFT 47)).toNat 27 0 = (s.rdW (FLT_SHIFT 47)).toNat ∧
      (out (exec (.shiftChange 0 47 0xF000000F#32) s)).rdS (FLT_CTL_EC 47) = -3 ∧
      ((out (exec (.shiftChange 0 47 0xF000000F#32) s)).chan1 47).shNew = 127 ∧
      (let z := st [(TAL_FCFG_EN 0, 1)]; z.isSealed 0 = true ∧ (out (exec (.shiftChange 0 0 1#32) z)).rd TAL_STAT_SEALWR = 1)) ∧
    (cmpOk 1 0 0 0 = true ∧ cmpOk 0x60000001 0 0 0 = false ∧ cmpOk 1 1 0 0 = false ∧
      (out (exec (.comparatorWrite 0 0 2 0x00800000#32) (with_ e [(FLT_CMPLO_LO 0, 0)]))).rd FLT_STAT_CFGERR = 1) ∧
    (s.cmpDue 95 = true ∧ s.rd (FLT_CMPSTAT_STATE 95) = 0 ∧
      (out (exec (.comparatorTrip 0 95) s)).rd (FLT_CMPSTAT_OVR 95) = 1 ∧
      (out (exec (.comparatorTrip 0 95) s)).rd FLT_TRQSTAT_OVF = 1) ∧
    (e.cmpDue 0 = true ∧ e.rd (FLT_CMPSTAT_STATE 0) = 1 ∧
      (out (exec (.comparatorReturn 0 0) e)).rd (FLT_CMPSTAT_STATE 0) = 0) ∧
    ((out (exec (.tripQueueRead 0 (.host 1) 0) s)).tripQ.length = 15 ∧ e.tripQ = []) ∧
    (s.tapInv 47 spanC 0 = false ∧ s.tapInv 47 spanW 0 = false ∧ s.tapInv 47 spanF 0 = false ∧ (s.chan1 47).lastW ≠ 0 ∧
      (∀ j ∈ s.taken, j.1 ≠ objTrips) ∧ (s.chan1 47).hist ≠ [] ∧ (s.chan1 47).fineQ ≠ [] ∧
      (s.chan1 47).setC = 0 ∧ (s.chan1 47).setW = 0 ∧ (s.chan1 47).setF = 0 ∧
      (out (exec (.settlingClose 0 47 .f) s)).rd (FLT_CHSTAT_VALF 47) = 1) :=
  ⟨⟨acts _ rfl rfl, acts _ rfl rfl⟩, by decide +kernel⟩

theorem witness_Streams :
    let s := { st [(FUR_CTL_EN 3, 1), (FUR_SRC_CHA 3, 0), (FUR_RSCTL_EN 3, 1), (FUR_RSML_MASK 3, 1)] with
      fur := [(3, { run := true })], gang := [(23, 1)], field := [(15, { cfg := { fcfg := 2 ^ 31 } })],
      chan := [(0, { held := false, setC := 1 })] }
    let a := { s with clk := 10 ^ 8, chan := [(0, { held := false, lastF := 1 })] }
    let p : Phasor := { fw := 3, amp := 5, ang := 2 ^ 24 + 7, rate := 500000 }
    let v := { s with hcLast := [(120, (s.hcWindow 15).1)] }
    (Acts s ∧ Acts v ∧ Acts a) ∧
    (s.oddGanged 0 = false ∧ s.oddGanged 47 = true ∧
      (out (exec (.streamSample 0 0 .c (List.replicate 9 8388607) []) s)).rd (FLT_CHSTAT_VALC 0) = 0 ∧
      ((out (exec (.streamSample 0 0 .c (List.replicate 9 8388607) []) s)).chan1 0).adc.length = 8 ∧
      ((out (exec (.streamSample 0 0 .w (List.replicate 5 0) []) a)).chan1 0).lastW = 10 ^ 8 ∧
      ((out (exec (.streamSample 0 0 .f [2 ^ 40] [p]) a)).chan1 0).fineQ.map (·.word) = [0x7FFFFF10#32] ∧
      a.rd (FUR_SRC_SRC 3) = 0 ∧ a.rd (FUR_SRC_CHA 3) = 0 ∧
      ((out (exec (.streamSample 0 47 .f [2 ^ 40] []) s)).chan1 47).fineQ.map (·.word) = [0x90#32]) ∧
    (((out (exec (.streamSample 0 46 .raw [] []) s)).chan1 46).rawN = 1 ∧ stops (exec (.streamSample 0 0 .f [] []) s) = true) ∧
    (s.gangMode 23 ≠ 0 ∧ s.gangMode 0 = 0) ∧
    ((s.rsChans 3).contains 0 = true ∧ s.rd (FUR_RSCTL_HOPEN 3) = 0 ∧ s.rd (FUR_RSBASE_BASE 3) = 0 ∧ 0 ≤ angDiff (s.angle 3) (rsAngle (s.rsN 3) (s.rsNext 3 0)) ∧
      (out (exec (.resampledSample 0 3 0 (-2) false) s)).load32 0 = 0xFFFFFE00) ∧
    ((s.fieldOf 15).cfg.en = true ∧ (s.fieldOf 15).cfg.hcCh 0 = some 0 ∧ s.rd (TAL_HCCTL_HOPEN 15) = 0 ∧
      Sparse.get (fun _ => 0) 120 v.hcLast = (v.hcWindow 15).1) :=
  ⟨⟨acts _ rfl rfl, acts _ rfl rfl, acts _ rfl rfl⟩, by decide +kernel⟩

theorem witness_Gleaner :
    let s := { st [(GLN_CTL_EN, 1), (GLN_CTL_RPER, 1)] with clk := cyUs 10, gln := { reg := true } }
    let p := { s with gln := { inj := true, injClk := 0, pwr := some 0 } }
    let c := { with_ s [(GLN_CTL_NINJ, 3), (GLN_IRES_CNT 3, 65535)] with
      clk := cyUs 1, gln := { inj := true, injRun := true, injSeq := [0, 1, 2, 3], pwr := some 0, conv := some { inj := true, entry := 3, start := 0 } } }
    let r := { with_ s [(GLN_CTL_NREG, 15)] with
      clk := cyUs 1, gln := { reg := true, regIdx := 14, regSeq := List.range 16, pwr := some 0, conv := some { inj := false, entry := 14, start := 0 } } }
    let e := { s with gln := { reg := true, regIdx := 16, regSeq := List.range 16, pwr := some 0 } }
    let w := { s with gln := { inj := true, injRun := true, regWait := true, pwr := some 0 } }
    (Acts s ∧ Acts p ∧ Acts c ∧ Acts r ∧ Acts e ∧ Acts w) ∧
    (s.rd GLN_CTL_EN = 1 ∧ s.rd GLN_CTL_RPER = 1 ∧ s.gln.perTick + 10 = usTick s.clk ∧
      (out (exec (.glnRegularStart 0) s)).rd GLN_STAT_RSKIP = 1 ∧ (out (exec (.glnCmdRegular 0) s)).rd GLN_STAT_RSKIP = 1 ∧
      ((out (exec (.glnCmdRegular 0) { s with gln := {} })).gln).conv.isSome = true) ∧
    ((out (exec (.glnInjectTrigger 0) s)).gln.inj = true ∧
      p.gln.injClk ≠ p.clk ∧ (out (exec (.glnInjectTrigger 0) p)).rd GLN_INJLOST_V = 1) ∧
    (p.glnInjAt ≤ usTick p.clk ∧ p.glnFree = true ∧ p.gln.injRun = false ∧ (out (exec (.glnInjectDelayExpiry 0) p)).gln.injRun = true) ∧
    ((out (exec (.glnConversionDone 0 4095) c)).rd (GLN_IRES_RES 3) = 4095 ∧
      (out (exec (.glnConversionDone 0 4095) c)).rd (GLN_IRES_CNT 3) = 0 ∧
      (out (exec (.glnConversionDone 0 4095) c)).gln.conv = none) ∧
    ((out (exec (.glnConversionDone 0 7) r)).gln.conv = some { inj := false, entry := 15, start := 1 } ∧ usTick r.clk = 1) ∧
    (e.gln.conv = none ∧ e.gln.regSeq.length ≤ e.gln.regIdx ∧ (out (exec (.glnSequenceEnd 0) e)).gln.pwr = none ∧
      (out (exec (.glnSequenceEnd 0) w)).gln.conv = some { inj := false, entry := 0, start := tickFrom w.clk + 8 }) :=
  ⟨⟨acts _ rfl rfl, acts _ rfl rfl, acts _ rfl rfl, acts _ rfl rfl, acts _ rfl rfl, acts _ rfl rfl⟩, by decide +kernel⟩

/-! ### Tally, pulses -/

theorem witness_TallyReads :
    let s := { st [] with snaps := [{ fields := 2 ^ 15, aligned := true, bnd := 1, at_ := 0, stamps := [] }], rounds := 1, clk := 9
                          bins := [(970, 7)] }
    let q (k : Nat) : SnapReq := { fields := 1, aligned := true, bnd := k, at_ := k, stamps := [] }
    let f := { s with clk := 90 * cyFine, snaps := (List.range 8).map q }
    let g := { s with snaps := [q 0] }
    let c := { s with snaps := [], roundClk := 2093 * cyFine, bins := [(970, 7)], field := [(15, { cfgQ := [{ clear := true }] })] }
    (Acts s ∧ Acts f ∧ Acts g ∧ Acts c) ∧
    (Sparse.get (fun _ => 0) 5 (out (exec (.granaryWord0Read 0 (.host 0) false 970) s)).rdata = 7 ∧
      Sparse.get (fun _ => 0) 5 (out (exec (.granaryWord0Read 0 (.host 0) true 970) s)).rdata = 0 ∧
      Sparse.get (fun _ => 0) 5 (out (exec (.talScntlRead 0 (.host 0)) s)).rdata = 0) ∧
    (((f.snaps.filter (·.aligned)).map (·.bnd)).eraseDups.length = 8 ∧ f.sampleAt f.clk = 2184 ∧
      f.snaps.filter (fun q => q.bnd = 2184) = [] ∧ (out (exec (.snapshotRequest 0 1 true) f)).rd TAL_STAT_SNAPLOST = 1 ∧
      (out (exec (.snapshotRequest 0 1 true) f)).snaps = f.snaps ∧
      (out (exec (.snapshotRequest 0 1 false) f)).snaps.length = 9) ∧
    (g.sampleAt 9 = 2095 ∧ (out (exec (.snapshotRequest 0 2 true) { g with snaps := [q 2095] })).snaps.map (·.fields) = [1, 2] ∧
      (out (exec (.snapshotRequest 0 3 true) { g with snaps := [q 2095] })).snaps.map (·.fields) = [3]) ∧
    ((s.fieldOf 15).cfg.en = false ∧ (out (exec (.snapshotBoundary 0) s)).snapWord 15 10 0 = 7 ∧
      (out (exec (.snapshotBoundary 0) s)).bin 970 = 7) ∧
    ((c.fieldOf 15).cfgQ = [{ clear := true }] ∧ (out (exec (.configBoundary 0 15) c)).bin 970 = 0 ∧
      (out (exec (.configBoundary 0 15) { c with roundClk := 2092 * cyFine })).bin 970 = 7) :=
  ⟨⟨acts _ rfl rfl, acts _ rfl rfl, acts _ rfl rfl, acts _ rfl rfl⟩, by decide +kernel⟩

theorem witness_Pulses :
    let s := { st [(PLS_CFG_EN 15, 1), (PLS_OSTAT_PENDING 15, 1), (PLS_SPARE_EN 3, 1), (PLS_SPARE_SRC 3, 11)] with clk := 39322 }
    let p := { s with pulse := [(0, { on := true, endAt := 39322 }), (1, { on := true, endAt := 39323 })] }
    let e := with_ State.reset [(HDG_STAT_SAFE, 1), (bitFld PLS_STAT 2, 1), (PLS_OSTAT_PENDING 2, 65535)]
    let m := { State.reset with plsSpare := [(0, some 5)] }
    (Acts s ∧ Acts p ∧ Acts e ∧ Acts m) ∧
    (s.pulseOwn 15 = true ∧ (s.pulseOf 15).on = false ∧ s.rd (bitFld PLS_STAT 15) = 0 ∧ s.rd HDG_STAT_SAFE = 0 ∧ s.spareOf 15 = none ∧
      Sparse.get (fun _ => 0) 15 s.plsAt + s.pulseW 15 = s.clk ∧ (s.pulseOf 15).startAt = none ∧ s.rd HDG_PLS_MAXHZ ≠ 0 ∧
      (out (exec (.pulseStart 0 15) s)).rdW (PLS_COUNT 15) = 1 ∧
      (out (exec (.pulseStart 0 15) { s with plsAt := [(15, 1)] })).rdW (PLS_COUNT 15) = 0) ∧
    ((out (exec (.pulseEnd 0 0) p)).pulseOf 0).on = false ∧ ((out (exec (.pulseEnd 0 1) p)).pulseOf 1).on = true ∧
    (out (exec (.pulseReadbackFault 0 15) s)).rd (bitFld PLS_STAT 31) = 1 ∧
    (e.setNow.contains (PLS_STAT, 2) = false ∧ (out (exec (.pulseHedgeClear 0 2) e)).rd (PLS_OSTAT_PENDING 2) = 0) ∧
    ((s.pulseOf 11).on = false ∧ Sparse.get (fun _ => none) 3 s.plsSpare = none ∧
      (out (exec (.pulseSpareHandover 0 3) s)).rd YLD_STAT_SWAP = 1) ∧
    (m.rd (PLS_SPARE_EN 0) = 0 ∧ (m.pulseOf 5).on = false ∧ Sparse.get (fun _ => none) 0 m.plsSpare = some 5 ∧
      (out (exec (.pulseSpareHandover 0 0) m)).plsSpare = []) ∧
    (m.nvC = none ∧ (∀ f < 16, (m.fieldOf f).cfg.en = false ∧ (m.fieldOf f).cfgQ = []) ∧ m.snaps = [] ∧
      (∀ n < 16, m.rd (PLS_CFG_EN n) = 0) ∧ (out (exec (.tallyRound 0) m)).rounds = 1) :=
  ⟨⟨acts _ rfl rfl, acts _ rfl rfl, acts _ rfl rfl, acts _ rfl rfl⟩, by decide +kernel⟩
/-! ### Thresher, silo -/

theorem witness_Thresher :
    let j : Job := { id := 3, addr := 64, suit := 2, poster := some 1 }
    let run : ThrRun := { lane := none, job := 3, endAt := 10, data := [] }
    let s := { State.reset with thrQ := [j], thrRun := some run }
    let full := { State.reset with thrQ := List.replicate 32 { j with suit := 3, state := 3 }, lanes := [(15, some { addr := 96, suit := 0, poster := none, words := [], ch := 1, fill := List.replicate 5120 0 })] }
    let win := { st [(FUR_RSCTL_N 0, 0)] with thrQ := [{ j with state := 2, words := [0, 0, 0, 1, 0] }], thrRun := some run, rsPos := [(0, 2560)] }
    let fin := { s with clk := 10, thrQ := [{ j with state := 3, words := [0x20100040, 0, 0, 0, 0, 1024, 0] }] }
    (Acts s ∧ Acts full ∧ Acts win ∧ Acts fin) ∧
    ((out (exec (.jobPost 0 (.plough 1 2) 0x1FFFE0#32) s)).thrQ.length = 2 ∧
      (out (exec (.jobPost 0 (.plough 1 2) 0x1FFFE0#32) s)).load32 0x1FFFFC = 2 ^ 28 ∧
      (out (exec (.jobPost 0 (.host 0) 0x200000#32) s)).rd THR_STAT_POSTERR = 1) ∧
    (32 ≤ full.thrQ.length ∧ (∀ j ∈ full.thrQ, j.state = 3 ∨ 3 ≤ j.suit) ∧
      (out (exec (.jobPost 0 (.host 0) 0#32) full)).rd THR_REFUSED_V = 1) ∧
    (s.thrQ.find? (fun j => j.addr = 64) = some j ∧ (out (exec (.jobCancel 0 64#32) s)).load32 92 = 7 * 2 ^ 28) ∧
    ((full.lane 15).isSome = true ∧ (out (exec (.jobCancel 0 96#32) { full with thrQ := [] })).lane 15 = none) ∧
    (win.windowReady [0, 0, 0, 1, 0] = true ∧ win.rsN 0 = 256 ∧
      ((out (exec (.windowReady 0 0) win)).thrQ.map (·.state)) = [1]) ∧
    ((fin.thrRun.map (·.endAt)) = some fin.clk ∧ dscKind [0x20100040, 0, 0, 0, 0, 1024, 0] = 2 ∧
      (out (exec (.transformBoundary 0) fin)).thrQ = [] ∧
      (out (exec (.fixedFunctionRetry 0 5 0 0 2) fin)).rd THR_STAT_ERR = 1 ∧
      (out (exec (.fixedFunctionRetry 0 5 0 0 1) fin)).rd PLG_ECC_SGL = 1 ∧
      (out (exec (.fixedFunctionRetry 0 5 0 0 2) fin)).load32 92 = 0x53000000) ∧
    ((full.lane 15).map (·.fill.length) = some 5120 ∧
      ((out (exec (.laneBlockDue 0 15) { full with thrRun := some run })).lane 15).map (·.due.isSome) = some true) :=
  ⟨⟨acts _ rfl rfl, acts _ rfl rfl, acts _ rfl rfl, acts _ rfl rfl⟩, by decide +kernel⟩

theorem witness_SiloBuffers :
    let c := with_ State.reset [(SIL_SRCL_V 7, 1), (SIL_LEN_V 7, 520), (SIL_POST_V 7, 64)]
    let z := fun k => { with_ c [(SIL_BSTAT_STATE 7, k), (SIL_CFG_KIND 7, 2)] with
      clk := 9, silo := [(7, { start := some 0, src := [(0, { cnt := 128, begun := 0 })], saved := [1, 2, 3], wf := some 9 })] }
    (Acts c ∧ ∀ k, (z k).inReset = false → (z k).taken = [] → Acts (z k)) ∧ (∀ k < 4, (z k).inReset = false ∧ (z k).taken = []) ∧
    (c.siloLive 7 = false ∧ c.siloArmOk 7 = true ∧ (out (exec (.siloArm 0 7) c)).rd (SIL_BSTAT_STATE 7) = 1 ∧
      (out (exec (.siloArm 0 6) c)).rd SIL_STAT_ARMERR = 1) ∧
    ((out (exec (.siloTrigger 0 7) (z 3))).rd (SIL_BSTAT_TRIGMISS 7) = 1 ∧
      (out (exec (.siloTrigger 0 7) (z 2))).rd (SIL_BSTAT_RETRIG 7) = 1 ∧ ((z 2).siloOf 7).hit ≠ (z 2).clk ∧
      (out (exec (.siloTrigger 0 7) (z 1))).rd (SIL_TRGSRC_CAUSE 7) = 2) ∧
    ((out (exec (.siloStop 0 7) (z 2))).rdW (SIL_TRGSRC 7) = 3 ∧ (out (exec (.siloStop 0 7) (z 1))).rdW (SIL_TRGSRC 7) = 0) ∧
    ((out (exec (.siloWavefrontRerun 0 7) (z 3))).rd (SIL_BSTAT_STATE 7) = 3) ∧
    (((z 2).siloOf 7).start.isSome = true ∧ (z 2).siloNeed 7 ≤ (z 2).siloCnt 7 ∧
      (out (exec (.siloFreeze 0 7) (z 2))).rd (SIL_BSTAT_STATE 7) = 3) ∧
    (((z 3).siloOf 7).wf.isSome = true ∧ ((z 3).siloSrcs 7).length = 1 ∧
      (let e := with_ (z 3) [(SIL_WFADDR_V 7, 0x10000)]
       (out (exec (.wavefrontDone 0 7) e)).rdW SYS_MAPERR = 0x200000#32)) :=
  ⟨⟨acts _ rfl rfl, fun _ h h' => acts _ h h'⟩, by decide +kernel⟩

/-! ### Ploughs: starts and scarecrows -/

theorem witness_Starts :
    let r : StartReq := { vec := 13, word := 0x10000005, at_ := 0 }
    let s := { State.reset with logi := [(3, { q := List.replicate 7 r })] }
    let full := { State.reset with logi := [(3, { q := List.replicate 8 r, v15 := false })], clk := cyUs 25600 }
    (Acts s ∧ Acts full) ∧
    ((out (exec (.startRequest 0 (.host 0) 0x0003000D#32) s)).logi = s.logi ∧
      (out (exec (.startRequest 0 (.host 0) 0x0003000D#32) s)).startRes = []) ∧
    ((out (exec (.startRequest 0 (.host 0) 0x8003000E#32) s)).startRes = [(5, 3)] ∧
      (out (exec (.startRequest 0 (.host 1) 0x8003000D#32) full)).startRes = [(6, 2)] ∧ full.startFull 3 = true ∧
      (out (exec (.startRequest 0 (.plough 2 9) 0x8003000D#32) s)).startRes = [(2, 1)] ∧ s.startFull 3 = false) ∧
    (s.physOf 3 = some 3 ∧ s.nextStart 3 = some r ∧ s.ploughActive 3 = true ∧ (s.ploughOf 3).disp ≠ some s.clk ∧
      s.rd UPD_STAT_RECOV = 0 ∧ (s.handOf 3 0).st = .idle ∧
      ((out (exec (.startDispatch 0 3) s)).handOf 3 0).xr 1 = 0x10000005#32 ∧
      ((out (exec (.startDispatch 0 3) s)).handOf 3 0).st = .ready 1) ∧
    (r.at_ + full.ageLimit (full.vecSuit 3 13) ≤ full.clk ∧
      (out (exec (.startAgeExpiry 0 3) full)).rd PLG_SHED_V = 8 ∧ (out (exec (.startAgeExpiry 0 3) s)).rd PLG_SHED_V = 0) ∧
    (s.reqLine 3 = false ∧ s.v15Live 3 = false) ∧
    ((out (exec (.icacheInvalidate 0 (.plough 0 0) 4) s)).rd PLG_STAT_CFGERR = 1 ∧ s.physOf 0 = some 0) :=
  ⟨⟨acts _ rfl rfl, acts _ rfl rfl⟩, by decide +kernel⟩

/-- A restart of plough 3 finds eight requests queued: its request waits, and takes the slot that a dispatch frees, after
a waiting vector-15 request. -/
theorem witness_Starts_wait :
    let r : StartReq := { vec := 13, word := 0x10000005, at_ := 0 }
    let z : StartReq := { vec := 0, word := 0x50000000, at_ := 0 }
    let i : StartReq := { vec := 15, word := 0x30000000, at_ := 0 }
    let s (v15 : Bool) := { State.reset with logi := [(3, { q := List.replicate 8 r, v15 := v15, wait := [z] })] }
    let full := { State.reset with logi := [(3, { q := List.replicate 8 r })] }
    (Acts (s true) ∧ Acts (s false)) ∧
    ((out (exec (.ploughRestartCmd 0 0 3) full)).logiOf 3).wait = [z] ∧
    ((out (exec (.startDispatch 0 3) (s false))).logiOf 3).q = List.replicate 7 r ++ [z] ∧
    ((out (exec (.startDispatch 0 3) (s true))).logiOf 3).q = List.replicate 7 r ++ [i] ∧
    ((out (exec (.startDispatch 0 3) (s true))).logiOf 3).wait = [z] :=
  ⟨⟨acts _ rfl rfl, acts _ rfl rfl⟩, by decide +kernel⟩

/-- A source of priority 1 that is enabled for target 2 raises its request line (R395). -/
theorem witness_Starts_line :
    let s := st [(SYS_CLKSTAT_REFLOSS, 1), (bitFld (INT_EN 2 0) 1, 1), (INT_PRI_of 1, 1)]
    s.reqLine 2 = true ∧ s.v15Live 2 = false ∧ s.physOf 2 = some 2 ∧
      ((out (exec (.vector15Request 0 2) s)).logiOf 2).q.map (·.vec) = [15] := by decide +kernel

theorem witness_Scarecrow :
    let s := { State.reset with clk := 1000 * cyMs }
    let e := { s with logi := [(0, { exps := [900 * cyMs, 800 * cyMs] })] }
    let n := e.wrW PLG_MAP 0xF3210#32
    let r := { with_ s [(PLG_PSTAT_STATE 3, 4), (PLG_PSTAT_STATE 4, 2)] with plough := [(3, { until_ := 1000 * cyMs })], ovSec := 9, ovEv := 16 }
    (Acts s ∧ Acts e ∧ Acts n ∧ Acts r) ∧
    (s.logOf 0 = 0 ∧ ((out (exec (.scarecrowKick 0 (.plough 0 1) 0 0xFFFF5A5A#32) s)).logiOf 0).kick = s.clk ∧
      s.logOf 4 ≠ 3 ∧ bit ((out (exec (.scarecrowKick 0 (.plough 4 0) 3 0x5A5A#32) s)).rdW HDG_STAT).toNat 6 = 1 ∧
      (out (exec (.scarecrowKick 0 (.host 1) 3 0x5A5A#32) s)).rd SYS_MAPSRC_ORIG = 6) ∧
    (s.ploughActive 0 = true ∧ s.rd UPD_STAT_RECOV = 0 ∧ (s.logiOf 0).kick + s.rd (PLG_SCTO_TMO 0) * cyMs = s.clk ∧
      (out (exec (.scarecrowExpiry 0 0) s)).rd (PLG_PSTAT_STATE 0) = 4) ∧
    ((inWindow e.clk (e.logiOf 0).exps).length = 2 ∧ e.physOf 4 = some 4 ∧
      (out (exec (.scarecrowExpiry 0 0) e)).physOf 0 = some 4 ∧ n.physOf 4 = none ∧
      (out (exec (.scarecrowExpiry 0 0) n)).rd PLG_STAT_NOSWAP = 1) ∧
    (r.rd (PLG_PSTAT_STATE 3) = 4 ∧ (r.ploughOf 3).until_ = r.clk ∧ (r.ploughOf 3).sb = [] ∧
      (out (exec (.ploughRestartEnd 0 3) r)).rd (PLG_PSTAT_STATE 3) = 0) ∧
    ((out (exec (.ploughRestartCmd 0 0 3) s)).rd (PLG_PSTAT_STATE 3) = 4 ∧
      (out (exec (.ploughSwapCmd 0 1 3) s)).physOf 3 = some 4 ∧ (out (exec (.ploughSwapCmd 0 1 0) n)).rd PLG_STAT_CFGERR = 1 ∧
      (out (exec (.ploughRestartCmd 0 0 4) s)).rd PLG_STAT_CFGERR = 1) ∧
    ((r.ploughOf 4).until_ ≤ r.clk ∧ (out (exec (.selfTestEnd 0 4 true) r)).rd (PLG_PSTAT_PASS 4) = 1 ∧
      (out (exec (.selfTestEnd 0 4 false) r)).rd (PLG_PSTAT_STATE 4) = 3) ∧
    (r.ovSec ≠ usTick r.clk / 1000000 ∧ bit ((out (exec (.overloadMonitor 0) r)).rdW PLG_OVSTAT).toNat 4 = 1) :=
  ⟨⟨acts _ rfl rfl, acts _ rfl rfl, acts _ rfl rfl, acts _ rfl rfl⟩, by decide +kernel⟩


/-- A restart with a posted store: the plough stops, and its claims end only when the store has drained (R223). -/
theorem witness_Scarecrow_drain :
    let s := { State.reset with plough := [(3, { sb := [.mem 1 0 [9]] })], claims := [(7, 3)] }
    let t := out (exec (.ploughRestartCmd 0 0 3) s)
    let w := out (exec (.storeComplete 0 3 0) { t with taken := [] })
    Acts s ∧ (s.ploughOf 3).drain = none ∧ (s.ploughOf 3).sb ≠ [] ∧ s.physOf 3 = some 3 ∧
      t.rd (PLG_PSTAT_STATE 3) = 4 ∧ (t.ploughOf 3).drain = some (3, 0) ∧ t.claims = [(7, 3)] ∧
      (w.ploughOf 3).drain = none ∧ w.claims = [] ∧ w.byte 0 = 9 ∧ ((w.logiOf 3).q.map (·.vec)) = [0] :=
  ⟨acts _ rfl rfl, by decide +kernel⟩
/-! ### Tchiez hands and instructions -/

/-- Hand 2 of plough 1, of suit 3 at pc 0, is the one to issue, and its cache line holds `w`. -/
def tz (w : Word) (d : Hand) : State :=
  { State.reset with
    hand := [(18, { d with st := .ready 0, pc := 0, suit := 3 })], plough := [(1, { cache := [(0, [w.toNat])] })] }

/-- In `tz` the hand has its turn with the word, whatever it holds: the hypothesis of every instruction's statement. -/
theorem tz_turn (w : Word) (d : Hand) : Acts (tz w d) ∧ (tz w d).Turn 1 2 w :=
  ⟨acts _ rfl rfl, by with_unfolding_all rfl, by with_unfolding_all rfl, by
    have h : (tz w d).cached 1 ((tz w d).handOf 1 2).pc = some w.toNat := by with_unfolding_all rfl
    simp [State.fetches, h]⟩

/-- The hand after instruction `i`, whose word is `w`. -/
def run (w : Word) (i : Instr) (d : Hand) : Hand := (out (exec i (tz w d))).handOf 1 2

/-- A hand with x1 = `a`, x2 = `b`, x3 = `c`. -/
def xs (a b c : Word) : Hand := (((({} : Hand).setX 1 a).setX 2 b).setX 3 c)

/-- Words written out from Tables 08-3 to 08-21: ADD x3, x1, x2; ADDK x3, x1, -1; BRNE x1, x2, -2; CALL -1;
VADD v3, v1, v2; HPOP x3, x2. -/
theorem test_words :
    encA 3 1 2 0 0 0x01 = 0b00011_00001_00010_00000_000000_000001#32 ∧
    encI 3 1 2 0xFFFF#16 = 0b00011_00001_1111111111111111_000010#32 ∧
    encB 1 2 0x21 0xFFFE#16 = 0b00001_00010_1111111111111110_100001#32 ∧
    encJ 0x26 0x3FFFFFF#26 = 0b11111111111111111111111111_100110#32 ∧
    encA 3 1 2 0 0 0x0D = 0b00011_00001_00010_00000_000000_001101#32 ∧
    encA 3 0 2 0 0 0x30 = 0b00011_00000_00010_00000_000000_110000#32 := by decide +kernel

theorem witness_HandIssue :
    let s := tz 0 {}
    let e := { State.reset with hand := [(18, { st := .ready 0 })] }
    let f := { State.reset with hand := [(18, { st := .ready 0, pc := 0x200000 })] }
    (Acts s ∧ Acts e) ∧
    (s.pick 1 = some 2 ∧ s.issues 1 2 = true ∧ s.issues 1 3 = false ∧ f.issues 1 2 = true ∧ execOk (f.handOf 1 2).pc = false) ∧
    (tzLegal 0 = false ∧ (out (exec (.illegalInstruction 0 1 2 0 0) s)).rd (PLG_EXCC_CAUSE 1) = 1) ∧
    (e.issues 1 2 = true ∧ e.fetches 1 0 0 = true ∧ e.cached 1 0 = none ∧
      (out (exec (.illegalInstruction 0 1 2 0 2) e)).rd (PLG_EXCC_CAUSE 1) = 6) ∧
    (out (exec (.brk 0 1 2 31) (tz (encA 0 0 0 31 14 0x31) {}))).rd (PLG_EXCC_CAUSE 1) = 7 :=
  ⟨⟨acts _ rfl rfl, acts _ rfl rfl⟩, by decide +kernel⟩

/-- Turn and effect of the integer instructions (R257): the hypotheses hold by `tz_turn`. -/
theorem witness_TzInteger :
    let d := xs 0x80000001#32 0x00000021#32 0
    let a := fun fn => encA 3 1 2 0 fn 1
    (run (a 0) (.add 0 1 2 3 1 2) d).xr 3 = 0x80000022#32 ∧ (run (a 1) (.sub 0 1 2 3 1 2) d).xr 3 = 0x7FFFFFE0#32 ∧
    (run (a 2) (.and 0 1 2 3 1 2) d).xr 3 = 1#32 ∧ (run (a 3) (.ior 0 1 2 3 1 2) d).xr 3 = 0x80000021#32 ∧
    (run (a 4) (.eor 0 1 2 3 1 2) d).xr 3 = 0x80000020#32 ∧ (run (a 5) (.shl 0 1 2 3 1 2) d).xr 3 = 2#32 ∧
    (run (a 6) (.shru 0 1 2 3 1 2) d).xr 3 = 0x40000000#32 ∧ (run (a 7) (.shrs 0 1 2 3 1 2) d).xr 3 = 0xC0000000#32 ∧
    (run (a 8) (.lts 0 1 2 3 1 2) d).xr 3 = 1#32 ∧ (run (a 9) (.ltu 0 1 2 3 1 2) d).xr 3 = 0#32 ∧
    (run (a 10) (.mins 0 1 2 3 1 2) d).xr 3 = 0x80000001#32 ∧ (run (a 12) (.minu 0 1 2 3 1 2) d).xr 3 = 33#32 ∧
    (run (a 15) (.subq 0 1 2 3 1 2) d).xr 3 = 0x80000000#32 ∧ (run (a 15) (.subq 0 1 2 3 1 2) d).hs = 2 ^ 16 ∧
    (run (encA 3 1 0 0 16 1) (.absq 0 1 2 3 1) (xs 0x80000000#32 0 0)).xr 3 = 0x7FFFFFFF#32 ∧
    (run (encA 3 2 0 0 17 1) (.lzc 0 1 2 3 2) d).xr 3 = 26#32 ∧
    (run (encI 3 1 4 0xFFFF#16) (.ltuk 0 1 2 3 1 0xFFFF#16) d).xr 3 = 1#32 ∧
    (run (encI 3 1 5 0xFFFF#16) (.andk 0 1 2 3 1 0xFFFF#16) d).xr 3 = 1#32 ∧
    (run (encI 3 0 9 0x8000#16) (.hik 0 1 2 3 0x8000#16) d).xr 3 = 0x80000000#32 ∧
    (run (encI 0 1 2 1#16) (.addk 0 1 2 0 1 1#16) d).xr 0 = 0 ∧
    (run (encI 3 1 8 0x801F#16) (.shrsk 0 1 2 3 1 31) d) = { d.setX 3 0xFFFFFFFF#32 with st := .ready 1, pc := 4, suit := 3 } := by
  decide +kernel

theorem witness_TzMultiply :
    let d := xs 0x80000000#32 0xFFFFFFFF#32 0
    let m := fun fn => encA 3 1 2 0 fn 10
    let k := fun fn => encA 1 1 2 0 fn 11
    (run (m 1) (.mulhs 0 1 2 3 1 2) d).xr 3 = 0#32 ∧ (run (m 2) (.mulhu 0 1 2 3 1 2) d).xr 3 = 0x7FFFFFFF#32 ∧
    (run (m 3) (.mulq 0 1 2 3 1 1) (xs 0x80000000#32 0 0)).xr 3 = 0#32 ∧
    (run (encA 3 1 1 0 3 10) (.mulq 0 1 2 3 1 1) d).xr 3 = 0x7FFFFFFF#32 ∧
    (run (m 4) (.divs 0 1 2 3 1 2) d).xr 3 = 0x7FFFFFFF#32 ∧ (run (m 6) (.mods 0 1 2 3 1 2) d).xr 3 = 0#32 ∧
    (run (m 4) (.divs 0 1 2 3 1 2) (xs 0xFFFFFFF9#32 2#32 0)).xr 3 = 0xFFFFFFFD#32 ∧
    (run (m 6) (.mods 0 1 2 3 1 2) (xs 0xFFFFFFF9#32 2#32 0)).xr 3 = 0xFFFFFFFF#32 ∧
    (run (m 5) (.divu 0 1 2 3 1 2) (xs 7#32 0 0)).xr 3 = 0xFFFFFFFF#32 ∧
    (run (m 5) (.divu 0 1 2 3 1 2) (xs 7#32 0 0)).st = .ready 18 ∧
    (run (k 0) (.kmac 0 1 2 1 1 2) d).kr 1 = 2 ^ 31 ∧ (run (k 2) (.kmacu 0 1 2 1 1 2) d).kr 1 = 2 ^ 31 * (2 ^ 32 - 1) ∧
    (run (encA 2 1 2 0 3 11) (.cmac 0 1 2 2 1 2) (xs 0x00020003#32 0x00040005#32 0)).kr 2 = -7 ∧
    (out (exec (.cmac 0 1 2 1 1 2) (tz (k 3) d))).rd (PLG_EXCC_CAUSE 1) = 1 ∧
    (run (encA 3 1 2 0 6 11) (.kext 0 1 2 3 2 1) ((xs 63#32 0 0).setK 2 (2 ^ 78))).xr 3 = 0x40000000#32 ∧
    (run (encA 3 0 2 2 7 11) (.krd 0 1 2 3 2 2) (d.setK 2 (-1))).xr 3 = 0xFFFFFFFF#32 ∧
    (run (encA 2 1 0 2 8 11) (.kwr 0 1 2 2 1 2) (xs 0x1234FFFF#32 0 0)).kr 2 = -(2 ^ 64) ∧
    (run (encA 0 0 1 0 9 11) (.kadd 0 1 2 0 1) ((d.setK 0 (2 ^ 79 - 1)).setK 1 1)).hs = 2 ^ 16 := by
  decide +kernel

theorem witness_TzFloat :
    let one := 0x3F800000#32
    let f := fun fn => encA 3 1 2 0 fn 12
    (run (f 0) (.fladd 0 1 2 3 1 2) (xs one one 0)).xr 3 = 0x40000000#32 ∧
    (run (f 1) (.flsub 0 1 2 3 1 2) (xs one one 0)).xr 3 = 0#32 ∧
    (run (f 2) (.flmul 0 1 2 3 1 2) (xs 0x00000001#32 0x3F000000#32 0)).xr 3 = 0#32 ∧
    (run (f 3) (.fldiv 0 1 2 3 1 2) (xs one 0x80000000#32 0)).xr 3 = 0xFF800000#32 ∧
    (run (f 3) (.fldiv 0 1 2 3 1 2) (xs one 0x40400000#32 0)).xr 3 = 0x3EAAAAAB#32 ∧
    (run (encA 3 1 0 0 4 12) (.flsqrt 0 1 2 3 1) (xs 0x40000000#32 0 0)).xr 3 = 0x3FB504F3#32 ∧
    (run (f 5) (.flmac 0 1 2 3 1 2) (xs 0x40000000#32 0x40400000#32 one)).xr 3 = 0x40E00000#32 ∧
    (run (f 6) (.flmin 0 1 2 3 1 2) (xs 0x80000000#32 0 0)).xr 3 = 0x80000000#32 ∧
    (run (f 11) (.flclt 0 1 2 3 1 2) (xs one 0x7FC00000#32 0)).hs = 2 ^ 8 ∧
    (run (encA 3 1 0 0 13 12) (.fltoi 0 1 2 3 1) (xs 0x4F000000#32 0 0)).xr 3 = 0x7FFFFFFF#32 ∧
    (run (encA 3 1 0 0 13 12) (.fltoi 0 1 2 3 1) (xs 0x40200000#32 0 0)).xr 3 = 2#32 ∧
    (run (encA 3 1 0 0 15 12) (.qtofl 0 1 2 3 1) (xs 0x80000000#32 0 0)).xr 3 = 0xBF800000#32 ∧
    (bits 0x7FA00001 30 23 = 255 ∧ bit 0x7FA00001 22 = 0 ∧ (fpAdd 0 0x7FA00001#32 one) = (0x7FE00001#32, 2 ^ 8)) ∧
    (fpDiv 1 0#32 0x80000000#32 = (0x7FFFFFFF#32, 2 ^ 8)) := by decide +kernel

theorem witness_TzVector :
    let d := (xs 5#32 6#32 7#32).setV 1 fun l => BitVec.ofNat 32 (0x7FFFFFF9 + l)
    let d := d.setV 2 fun l => BitVec.ofNat 32 l
    let v := fun fn => encA 3 1 2 0 fn 13
    (run (v 0) (.vadd 0 1 2 3 1 2) d).lane 3 7 = 0x80000007#32 ∧ (run (v 2) (.vaddq 0 1 2 3 1 2) d).lane 3 6 = 0x7FFFFFFF#32 ∧
    (run (v 2) (.vaddq 0 1 2 3 1 2) d).hs = 2 ^ 16 ∧ (run (v 1) (.vsub 0 1 2 3 1 2) d).lane 3 5 = 0x7FFFFFF9#32 ∧
    (run (encA 3 1 0 31 15 13) (.vshrs 0 1 2 3 1 31) d).lane 3 7 = 0xFFFFFFFF#32 ∧
    (run (encA 3 1 0 7 11 13) (.vins 0 1 2 3 1 7) d).lane 3 7 = 5#32 ∧
    (run (encA 3 2 0 7 12 13) (.vext 0 1 2 3 2 7) d).xr 3 = 7#32 ∧
    (out (exec (.vext 0 1 2 3 2 8) (tz (encA 3 2 0 8 12 13) d))).rd (PLG_EXCC_CAUSE 1) = 1 ∧
    (run (encA 3 2 2 0 13 13) (.vkdot 0 1 2 3 2 2) d).kr 3 = 140 ∧
    (run (encA 3 1 0 0 14 13) (.vflsum 0 1 2 3 1) (d.setV 1 fun _ => 0x3F800000#32)).xr 3 = 0x41000000#32 := by
  decide +kernel

theorem witness_TzLoads :
    let d := xs 0x1FFFFC#32 0 0
    let s := { tz (encI 3 1 0x14 0#16) d with mem := [(0x1FFFFC, 0xFE), (0x1FFFFF, 0x80)] }
    let w := fun (k a : Nat) => { s with clk := 6, hand := [(18, { d with st := .wait (.load k 3 a 0) })] }
    let g := { s with clk := 8, hand := [(18, { d with st := .wait (.load 6 3 4095 0) })] }
    (Acts s ∧ (∀ k a, Acts (w k a)) ∧ Acts g) ∧
    (ploughReads 0x1FFFFC 4 = true ∧ isReg 0x1FFFFC = false ∧
      (out (exec (.ldw 0 1 2 3 1 0#16) s)).handOf 1 2 = { s.handOf 1 2 with st := .wait (.load 4 3 0x1FFFFC 0) }) ∧
    (ploughReads 0x210000 1 = false ∧ ploughReads 0xD00000 4 = false ∧ ploughReads 0x101B7E0 32 = true ∧ ploughReads 0x101B7E4 32 = false ∧ ploughReads 0x101B800 4 = false ∧ isReg 0x1000000 = true ∧
      (out (exec (.ldb 0 1 2 3 1 4#16) (tz (encI 3 1 0x10 4#16) (xs 0x20FFFC#32 0 0)))).rdW SYS_MAPERR = 0x210000#32 ∧
      (out (exec (.ldh 0 1 2 3 1 1#16) (tz (encI 3 1 0x12 1#16) d))).rd (PLG_EXCC_CAUSE 1) = 5) ∧
    ((out (exec (.grd 0 1 2 3 1) (tz (encA 3 1 0 0 5 0x30) (xs 4096#32 0 0)))).rdW SYS_MAPERR = 0x210000#32 ∧
      (out (exec (.grd 0 1 2 3 1) (tz (encA 3 1 0 0 5 0x30) (xs 4095#32 0 0)))).rdW SYS_MAPERR = 0#32) ∧
    ((w 0 0x1FFFFC).clk = 0 + loadLat 0x1FFFFC ∧ (w 0 0x1FFFFC).overlaps 1 2 0x1FFFFC 1 = false ∧ s.nvC = none ∧ s.cribCopy = none ∧
      (((out (exec (.loadReturn 0 1 2 0) (w 0 0x1FFFFC)))).handOf 1 2).xr 3 = 0xFFFFFFFE#32 ∧
      (((out (exec (.loadReturn 0 1 2 0) (w 4 0x1FFFFC)))).handOf 1 2).xr 3 = 0x800000FE#32 ∧
      (((out (exec (.loadReturn 0 1 2 0) { w 4 0x1FFFFC with clk := 5 }))).handOf 1 2).xr 3 = 0#32) ∧
    (0 + loadLat (0x200000 + 16 * 4095) ≤ g.clk ∧ (((out (exec (.loadReturn 0 1 2 0) g))).handOf 1 2).st = .ready 9) ∧
    (s.logOf 1 < 4 ∧ (out (exec (.loadReturn 0 1 2 2) (w 4 0x1FFFFC))).rd (PLG_EXCC_CAUSE 1) = 6) :=
  ⟨⟨acts _ rfl rfl, fun _ _ => acts _ rfl rfl, acts _ rfl rfl⟩, by decide +kernel⟩

theorem witness_TzStores :
    let d := xs 0x1FFFFC#32 0x11223344#32 0
    let s := tz (encI 2 1 0x1A 0#16) d
    let q := fun x => { State.reset with plough := [(1, { sb := [x] })], hand := [(17, { st := .wait .room })], claims := [(7, 1)] }
    let full := { s with plough := [(1, { sb := List.replicate 4 (.mem 0 0 []), cache := [(0, [(encI 2 1 0x1A 0#16).toNat])] })] }
    (Acts s ∧ ∀ x, Acts (q x)) ∧
    (ploughWrites 0x1FFFFC 4 = true ∧ isReg 0x1FFFFC = false ∧
      ((out (exec (.stw 0 1 2 2 1 0#16) s)).ploughOf 1).sb = [.mem 2 0x1FFFFC [0x44, 0x33, 0x22, 0x11]] ∧
      ((out (exec (.stw 0 1 2 2 1 0#16) full)).handOf 1 2).st = .wait .room) ∧
    ((out (exec (.sth 0 1 2 2 1 1#16) (tz (encI 2 1 0x19 1#16) d))).rd (PLG_EXCC_CAUSE 1) = 5 ∧
      ploughWrites 0x200000 1 = false ∧
      (out (exec (.stb 0 1 2 2 1 4#16) (tz (encI 2 1 0x18 4#16) d))).rdW SYS_MAPERR = 0x200000#32) ∧
    (isReg SYS_RSTCMD = true ∧ s.regClass 1 SYS_RSTCMD 0 = true ∧ s.regClass 1 (PLG_KICK 1) 0 = false ∧
      bit ((out (exec (.stw 0 1 2 2 1 0#16) (tz (encI 2 1 0x1A 0#16) (xs (BitVec.ofNat 32 SYS_RSTCMD) 0 0)))).rdW HDG_STAT).toNat 6 = 1) ∧
    (((out (exec (.gadd 0 1 2 1 2 31) (tz (encA 0 1 2 31 2 0x30) (xs 1024#32 (-1) 0)))).ploughOf 1).sb = [.bin 2 1024 false (-(2 ^ 31))] ∧
      (out (exec (.gset 0 1 2 1 2 0) (tz (encA 0 1 2 0 3 0x30) (xs 1023#32 0 0)))).rdW SYS_MAPERR = 0x203FF0#32 ∧
      ((out (exec (.idone 0 1 2 1) (tz (encA 0 1 0 0 3 0x31) (xs 7#32 0 0)))).ploughOf 1).sb = [.idone 2 7]) ∧
    (((out (exec (.storeComplete 0 1 0) (q (.mem 1 0xF00000 [9])))).byte (tileBase 1)) = 9 ∧
      ((out (exec (.storeComplete 0 1 0) (q (.mem 1 0xF00000 [9])))).handOf 1 1).st = .ready 0 ∧
      (out (exec (.storeComplete 0 1 0) (q (.bin 1 4095 true (2 ^ 95))))).bin 4095 = 2 ^ 95 - 1 ∧
      (out (exec (.storeComplete 0 1 0) (q (.idone 1 0x107)))).claims = [] ∧
      (out (exec (.storeComplete 0 1 3) (q (.mem 1 0 [9])))).rd TMP_BIC_COUNT = 1) ∧
    (s.nvC.bind (·.todo.head?) = none ∧ ((out (exec (.fixedFunctionRetry 0 0 15 0 16) s)).fieldOf 15).skip = true) :=
  ⟨⟨acts _ rfl rfl, fun _ => acts _ rfl rfl⟩, by decide +kernel⟩

theorem witness_TzAtomics :
    let d := xs 0xF0FFFC#32 5#32 0
    let s := { tz (encA 3 1 2 0 0 0x1C) d with mem := [(tileBase 2 - 4, 7)] }
    let sb := fun w => { tz w d with plough := [(1, { sb := [.mem 2 0 [1]], cache := [(0, [w.toNat])] })] }
    (Acts s ∧ ∀ w, Acts (sb w)) ∧
    (s.storing 1 2 = false ∧ ((out (exec (.aadd 0 1 2 3 1 2 0) s)).handOf 1 2).xr 3 = 7#32 ∧
      (out (exec (.aadd 0 1 2 3 1 2 0) s)).load32 (tileBase 2 - 4) = 12 ∧ ((out (exec (.aadd 0 1 2 3 1 2 0) s)).handOf 1 2).st = .ready 5) ∧
    ((sb (encA 3 1 2 0 1 0x1C)).storing 1 2 = true ∧
      ((out (exec (.aswap 0 1 2 3 1 2 0) (sb (encA 3 1 2 0 1 0x1C)))).handOf 1 2).st = .wait .drain) ∧
    ((out (exec (.acas 0 1 2 3 1 2 0) (tz (encA 3 1 2 0 2 0x1C) (xs 0x1FFFFC#32 9#32 0)))).load32 0x1FFFFC = 9 ∧
      (out (exec (.acas 0 1 2 3 1 2 0) (tz (encA 3 1 2 0 2 0x1C) (xs 0x200000#32 9#32 0)))).rd (PLG_EXCC_CAUSE 1) = 4 ∧
      (out (exec (.acas 0 1 2 3 1 2 0) (tz (encA 3 1 2 0 2 0x1C) (xs 2#32 9#32 0)))).rd (PLG_EXCC_CAUSE 1) = 5 ∧
      (out (exec (.acas 0 1 2 3 1 2 2) (tz (encA 3 1 2 0 2 0x1C) (xs 4#32 9#32 0)))).rd (PLG_EXCC_CAUSE 1) = 6) ∧
    ((run (encB 1 2 0x22 0xFFFF#16) (.brlt 0 1 2 1 2 0xFFFF#16) (xs (-1) 0 0)).pc = 0xFFFFFFFC ∧
      (run (encB 1 2 0x24 0xFFFF#16) (.brltu 0 1 2 1 2 0xFFFF#16) (xs (-1) 0 0)).pc = 4) ∧
    ((run (encJ 0x26 0x1FFFFFF#26) (.call 0 1 2 0x1FFFFFF#26) d).pc = 0x7FFFFFC ∧
      (run (encJ 0x26 0x1FFFFFF#26) (.call 0 1 2 0x1FFFFFF#26) d).xr 31 = 4#32) ∧
    ((run (encI 1 1 0x28 4#16) (.jreg 0 1 2 1 1 4#16) d).pc = 0xF10000 ∧ (run (encI 1 1 0x28 4#16) (.jreg 0 1 2 1 1 4#16) d).xr 1 = 4#32 ∧
      (out (exec (.jreg 0 1 2 1 1 1#16) (tz (encI 1 1 0x28 1#16) d))).rd (PLG_EXCC_CAUSE 1) = 3) :=
  ⟨⟨acts _ rfl rfl, fun _ => acts _ rfl rfl⟩, by decide +kernel⟩

theorem witness_TzQueues :
    let d := xs 0x5#32 0x7#32 0
    let e : HopE := { val := 11, tag := 22, suit := 3, src := 0 }
    let s := fun w => { tz w d with hop := [(1, [e])], logi := [(1, { mail := [(33, 44)] }), (3, { mail := List.replicate 16 (0, 0) })] }
    let waits := fun w => { s 0 with hand := [(18, { d with st := .wait w })], clk := 1, fur := [] }
    let r := tz (encA 2 0 0 3 9 0x30) d
    (∀ w, Acts (s w)) ∧ (∀ w, Acts (waits w)) ∧
    ((s 0).hopQ ((s 0).logOf 1) = [e] ∧ (s 0).hopWaiters 1 = [] ∧ (s 0).mailWaiters 1 = [] ∧
      ((out (exec (.hpop 0 1 2 3 4) (s (encA 3 0 4 0 0 0x30)))).handOf 1 2).xr 4 = 22#32 ∧
      (run (encA 3 0 4 0 0 0x30) (.hpop 0 1 2 3 4) d).st = .wait (.hpop 3 4 0) ∧
      ((out (exec (.hpeek 0 1 2 3 4) (s (encA 3 0 4 0 1 0x30)))).handOf 1 2).xr 3 = 11#32 ∧
      (run (encA 3 0 4 0 1 0x30) (.hpeek 0 1 2 3 4) d).xr 4 = 0xFFFFFFFF#32) ∧
    (((out (exec (.mrcv 0 1 2 3 4 true) (s (encA 3 0 4 1 1 0x31)))).handOf 1 2).xr 4 = 44#32 ∧
      (run (encA 3 0 4 1 1 0x31) (.mrcv 0 1 2 3 4 true) d).xr 4 = 0xFFFFFFFF#32 ∧
      (run (encA 3 0 4 0 1 0x31) (.mrcv 0 1 2 3 4 false) d).st = .wait (.mrcv 3 4 0)) ∧
    ((run (encA 3 1 2 0 0 0x31) (.msnd 0 1 2 3 1 2) d).xr 3 = 3#32 ∧
      (run (encA 3 1 2 0 0 0x31) (.msnd 0 1 2 3 1 2) (xs 4#32 0 0)).xr 3 = 3#32 ∧
      ((out (exec (.msnd 0 1 2 3 1 2) { s (encA 3 1 2 0 0 0x31) with hand := [(18, { xs 3#32 7#32 0 with st := .ready 0 })] })).handOf 1 2).xr 3 = 1#32 ∧
      ((out (exec (.msnd 0 1 2 3 1 2) (tz (encA 3 1 2 0 0 0x31) (xs 0 7#32 0)))).logiOf 0).mail = [(7, 0x10000002)]) ∧
    ((out (exec (.await 0 1 2 3 1 4 0) (tz (encA 3 1 4 0 8 0x30) d))).rd (PLG_EXCC_CAUSE 1) = 1 ∧
      (run (encA 3 2 4 3 8 0x30) (.await 0 1 2 3 2 4 3) d).xr 3 = 1#32 ∧
      ((out (exec (.await 0 1 2 3 2 4 0) (with_ (tz (encA 3 2 4 0 8 0x30) d) [(FUR_CTL_EN 0, 1)]))).handOf 1 2).st = .wait (.await 3 0 7 none) ∧
      ((out (exec (.await 0 1 2 3 4 4 0) (with_ (tz (encA 3 4 4 0 8 0x30) d) [(FUR_CTL_EN 0, 1)]))).handOf 1 2).xr 3 = 0#32) ∧
    ((out (exec (.ard 0 1 2 2 3) r)).handOf 1 2).xr 2 = 0#32 ∧
    (out (exec (.ard 0 1 2 1 3) (tz (encA 1 0 0 3 9 0x30) d))).rd (PLG_EXCC_CAUSE 1) = 1 ∧
    (((out (exec (.awaitEnd 0 1 2) (waits (.await 3 0 7 none)))).handOf 1 2).xr 3 = 1#32 ∧
      ((out (exec (.awaitEnd 0 1 2) (with_ (waits (.await 3 0 0 none)) [(FUR_CTL_EN 0, 1)]))).handOf 1 2).xr 3 = 0#32 ∧
      ((out (exec (.awaitEnd 0 1 2) (with_ (waits (.await 3 0 7 (some 0))) [(FUR_CTL_EN 0, 1)]))).handOf 1 2).xr 3 = 2#32 ∧
      ((out (exec (.awaitEnd 0 1 2) (with_ (waits (.await 3 0 7 none)) [(FUR_CTL_EN 0, 1)]))).handOf 1 2).st = .wait (.await 3 0 7 none)) ∧
    (((out (exec (.hpopWaitEnd 0 1) (waits (.hpop 3 4 0)))).handOf 1 2).xr 4 = 22#32 ∧
      ((out (exec (.mrcvWaitEnd 0 1) (waits (.mrcv 3 4 0)))).handOf 1 2).xr 4 = 44#32) :=
  ⟨fun _ => acts _ rfl rfl, fun _ => acts _ rfl rfl, by decide +kernel⟩

theorem witness_TzRequests :
    let sd := fun (t w3 : Word) => ({} : Hand).setV 4 fun l => if l = 0 then t else if l = 3 then w3 else 0
    let arm := encA 3 1 4 0 12 0x30
    let s := tz arm (sd 5#32 0x14000000#32)
    let q := { st [] with snaps := (List.range 8).map (fun k => { fields := 1, aligned := true, bnd := k, at_ := 10 * k * cyFine, stamps := [] }), clk := 90 * cyFine, rounds := 1 }
    let q := { q with hand := [(18, { xs 0x18000#32 0 0 with st := .ready 0 })], plough := [(1, { cache := [(0, [(encA 3 1 0 0 6 0x30).toNat])] })] }
    let i := { with_ (tz (encA 3 0 0 1 2 0x31) {}) [(SYS_CLKSTAT_REFLOSS, 1), (bitFld (INT_EN 1 0) 1, 1), (INT_PRI_of 1, 2)] with clk := 0 }
    let w := { i with hand := [(18, { st := .wait (.iclm 3) })] }
    (Acts s ∧ Acts q ∧ Acts w) ∧
    (s.storing 1 2 = false ∧ s.seedArmed 0 = false ∧ seedOk 0x94000000 0 = true ∧ angDiff ((s.furrow 0).angle s.clk) 5 < 0 ∧
      ((out (exec (.sarm 0 1 2 3 1 4) s)).handOf 1 2).xr 3 = 0#32 ∧ (out (exec (.sarm 0 1 2 3 1 4) s)).seedArmed 0 = true ∧
      ((out (exec (.sarm 0 1 2 3 1 4) (s.wrW (seedWord 0 3) 0x80000000#32))).handOf 1 2).xr 3 = 3#32 ∧
      (run arm (.sarm 0 1 2 3 1 4) (sd 0 0xFC000000#32)).xr 3 = 1#32 ∧
      (run arm (.sarm 0 1 2 3 1 4) (sd 0 0x14000000#32)).xr 3 = 2#32) ∧
    ((run (encA 3 1 0 0 13 0x30) (.sdis 0 1 2 3 1) (xs 1023#32 0 0)).xr 3 = 1#32 ∧
      ((out (exec (.sdis 0 1 2 3 1) ((tz (encA 3 1 0 0 13 0x30) (xs 1023#32 0 0)).wrW (seedWord 1023 3) 0x80000000#32))).handOf 1 2).xr 3 = 0#32) ∧
    ((run (encA 3 1 0 0 14 0x30) (.tpost 0 1 2 3 1) (xs 0x200000#32 0 0)).xr 3 = 3#32 ∧
      ((out (exec (.tpost 0 1 2 3 1) { tz (encA 3 1 0 0 14 0x30) (xs 0x1FFFE0#32 0 0) with
        thrRun := some { lane := none, job := 9, endAt := 1, data := [] } })).handOf 1 2).xr 3 = 1#32) ∧
    ((run (encA 3 1 2 0 4 0x31) (.spawn 0 1 2 3 1 2) (xs 0x10#32 0 0)).xr 3 = 3#32 ∧
      (run (encA 3 1 2 0 4 0x31) (.spawn 0 1 2 3 1 2) (xs 0xE#32 0 0)).xr 3 = 2#32 ∧
      (run (encA 3 1 2 0 4 0x31) (.spawn 0 1 2 3 1 2) (xs 0x4000D#32 0 0)).xr 3 = 1#32 ∧
      ((out (exec (.spawn 0 1 2 3 1 2) (tz (encA 3 1 2 0 4 0x31) (xs 0x3000D#32 0xFFF#32 0)))).logiOf 3).q = [{ vec := 13, word := 0x200203FF, at_ := 0 }]) ∧
    ((run (encA 3 1 0 0 6 0x30) (.gsnap 0 1 2 3 1) (xs 0x10000#32 0 0)).xr 3 = 2#32 ∧
      ((out (exec (.gsnap 0 1 2 3 1) q)).handOf 1 2).xr 3 = 1#32 ∧
      (∀ r ∈ q.snaps, r.bnd ≠ q.sampleAt q.clk) ∧ ((q.snaps.filter (·.aligned)).map (·.bnd)).eraseDups.length = 8 ∧
      (run (encA 3 1 0 0 6 0x30) (.gsnap 0 1 2 3 1) (xs 0x8000#32 0 0)).xr 3 = 0#32) ∧
    (i.offered 1 = some 1 ∧ ((out (exec (.iclm 0 1 2 3 true) i)).handOf 1 2).xr 3 = 0x20001#32 ∧
      (run (encA 3 0 0 1 2 0x31) (.iclm 0 1 2 3 true) {}).st = .wait (.iclm 3) ∧
      ((out (exec (.iclmWaitEnd 0 1 2) w)).handOf 1 2).xr 3 = 0x20001#32 ∧ (out (exec (.iclmWaitEnd 0 1 2) w)).claims = [(1, 1)]) :=
  ⟨⟨acts _ rfl rfl, acts _ rfl rfl, acts _ rfl rfl⟩, by decide +kernel⟩

theorem witness_TzControl :
    let d := xs 0xFFFFFFFF#32 0 0
    let z := { State.reset with hand := [(18, { d with st := .wait .drain })], plough := [(1, { sb := [.mem 3 0 [1]] })] }
    let y := fun c => { State.reset with hand := [(18, { d with st := .ready c })] }
    let b := { tz (encA 0 0 0 0 9 0x31) d with plough := [(1, { sb := [.mem 2 0 [1]], cache := [(0, [(encA 0 0 0 0 9 0x31).toNat])] })] }
    (Acts z ∧ Acts (y 0) ∧ Acts b) ∧
    ((run (encA 0 1 0 0 5 0x31) (.yield 0 1 2 1) d).st = .ready 65536 ∧
      (run (encA 3 1 0 1 7 0x31) (.suit 0 1 2 3 1 true) (xs 1#32 0 0)).suit = 1 ∧
      (run (encA 3 1 0 1 7 0x31) (.suit 0 1 2 3 1 true) (xs 1#32 0 0)).xr 3 = 3#32 ∧
      (run (encA 0 1 0 0 11 0x31) (.hswr 0 1 2 1) d).hs = 0x11F03 ∧
      (run (encA 3 0 0 0 10 0x31) (.hsrd 0 1 2 3) { d with hs := 0x100 }).xr 3 = 0x100#32 ∧
      (run (encA 3 0 0 0 12 0x31) (.who 0 1 2 3) d).xr 3 = 0x112#32 ∧
      (run (encA 0 0 0 0 6 0x31) (.halt 0 1 2) d).st = .idle ∧
      (out (exec (.cycrd 0 1 2 3) (tz (encA 3 0 0 0 13 0x31) d))).rd (PLG_EXCC_CAUSE 1) = 1 ∧
      (run (encA 2 0 0 0 13 0x31) (.cycrd 0 1 2 2) d).st = .ready 2 ∧
      (run (encA 0 0 0 0 9 0x31) (.drain 0 1 2) d).pc = 4) ∧
    (b.storing 1 2 = true ∧ ((out (exec (.drain 0 1 2) b)).handOf 1 2).st = .wait .drain) ∧
    (z.storing 1 2 = false ∧ ((out (exec (.dWaitEnd 0 1 2) z)).handOf 1 2).st = .ready 0) ∧
    ((out (exec (.yieldEnd 0 1 2) (y 0))).handOf 1 2).st = .ready 0 ∧
    ((out (exec (.yieldEnd 0 1 2) (y 1))).handOf 1 2).st = .ready 1 :=
  ⟨⟨acts _ rfl rfl, acts _ rfl rfl, acts _ rfl rfl⟩, by decide +kernel⟩

/-! ### Commit buffer, barn, crib -/

theorem witness_CommitPushes :
    let s := fun (o : Nat) (a ctl : Nat) => { State.reset with nvBank := [(o, { addr := a, ctl := ctl, dl := 0x55667788 })] }
    let e : NvEntry := { crib := true, addr := 0x1FFF8, mask := 1, data := 0x99, seal_ := false }
    let m := { s 5 0x1FFF8 0x80000080 with nvBuf := [e] }
    let f := { s 5 0x2FFFF8 0xFF with nvBuf := List.replicate 1024 { e with seal_ := true } }
    (∀ o a c, Acts (s o a c)) ∧ Acts m ∧
    (((out (exec (.nvmPush 0 (.host 0) 1) (s 5 0x400000 0xFF))).bank 5).res = 4 ∧
      ((out (exec (.nvmPush 0 (.host 0) 1) (s 5 0x40000 0x800000FF))).bank 5).res = 4) ∧
    ((s 5 0 0).pushGrant 5 false 0x22FFF8 = false ∧ ((out (exec (.nvmPush 0 (.host 0) 1) (s 5 0x22FFF8 0))).bank 5).res = 5 ∧
      (s 0 0 0).pushGrant 0 true 0x20000 = false ∧
      bit ((out (exec (.nvmPush 0 (.plough 0 0) 1) (s 0 0x20000 0x80000000))).rdW HDG_STAT).toNat 2 = 1) ∧
    (let p := with_ (s 5 0x2FFFF8 0) [(NVM_PROT_BPB, 3)]
     p.pushGrant 5 false 0x2FFFF8 = true ∧ ((out (exec (.nvmPush 0 (.host 0) 1) p)).bank 5).res = 6) ∧
    (let p := { s 5 0x230000 0 with nvC := some { num := 1, kind := 2, start := 0, t0 := 0, done := 0 } }
     p.pfRuns = true ∧ ((out (exec (.nvmPush 0 (.host 0) 1) p)).bank 5).res = 7) ∧
    (m.pushGrant 5 true 0x1FFF8 = true ∧ m.protected true 0x1FFF8 = false ∧ m.pfRuns = false ∧
      (out (exec (.nvmPush 0 (.host 0) 0x11223344#32) m)).nvBuf = [{ e with mask := 0x81, data := 0x1100000000000099 }] ∧
      (out (exec (.nvmPush 0 (.host 0) 0x11223344#32) m)).bank 5 = { addr := 0x20000, ctl := 0x80000080, dl := 0x55667788, res := 2 }) ∧
    (f.nvBuf.length = 1024 ∧ ((out (exec (.nvmPush 0 (.host 0) 1) f)).bank 5).res = 3) ∧
    (out (exec (.nvmPush 0 (.host 0) 0x11223344#32) (s 5 0x230000 0))).nvBuf =
      [{ crib := false, addr := 0x230000, mask := 255, data := 0x1122334455667788, seal_ := false }] :=
  ⟨fun _ _ _ => acts _ rfl rfl, acts _ rfl rfl, by decide +kernel⟩

theorem witness_Commits :
    let s := { st [(NVM_CTL_PER, 1)] with rounds := 4000, roundClk := 1, scrubReq := true, pfRel := some 0, pfBall := true, clk := 10 * cyMs }
    let run := fun (k : Nat) (todo : List NvWord) => { s with nvC := some { num := 7, kind := k, start := 0, bnd := some 0, todo := todo, t0 := 0, done := 0 } }
    let held := { s with pfTaken := true, pfBall := false }
    let crib := { s with cribQ := [{ page := 2047, bytes := [(127, 9)], entries := 1 }], cribAt := 6 * cyMs, cribNext := 1 }
    let copy := { s with cribCopy := some { t0 := 10 * cyMs, todo := [] } }
    (Acts s ∧ (∀ k t, Acts (run k t)) ∧ Acts held ∧ Acts crib ∧ Acts copy) ∧
    (s.nvT0 + 4000 = s.rounds ∧ s.nvC = none ∧ s.pfTaken = false ∧ s.roundClk ≠ s.clk ∧ s.updQ = [] ∧ s.dealCeilNew = none ∧
      ((out (exec (.commitTimerExpiry 0) s)).nvC.map (·.kind)) = some 0 ∧
      ((out (exec (.commitNow 0) s)).nvC.map (·.num)) = some 1 ∧
      bit (out (exec (.commitTimerExpiry 0) held)).nvHeld 0 = 1 ∧ bit (out (exec (.commitNow 0) (run 0 []))).nvHeld 1 = 1) ∧
    ((out (exec (.scrubNow 0) held)).scrubReq = true ∧ (out (exec (.cribCopyNow 0) s)).cribCopy.isSome = true) ∧
    ((out (exec (.commitClose 0 []) (run 1 []))).rdW NVM_CNUM = 7#32 ∧
      (out (exec (.commitClose 0 []) (run 3 []))).inReset = true ∧
      (out (exec (.commitClose 0 []) (run 1 [{ addr := 0, data := 0, entry := false, last := true }]))).nvC.isSome = true) ∧
    (crib.clk = crib.cribAt + 4 * cyMs ∧ (out (exec (.cribPageProgramEnd 0) crib)).byte 0xC3FFFF = 9 ∧
      (out (exec (.cribCopyTimer 0) crib)).cribCopy.isSome = true ∧ (out (exec (.cribCopyEnd 0) copy)).cribCopy = none) ∧
    ((out (exec (.scrubTimer 0 ⟨[8191], 0⟩ ⟨[], 0⟩) s)).rd NVM_ECC_SGL = 1 ∧ Sparse.get (fun _ => 0) 8191 s.nvTaken = 0 ∧
      s.rd (NVM_SPARE_USED (barnRegion (512 * 8191))) < spareRows (barnRegion (512 * 8191)) ∧
      (out (exec (.scrubTimer 0 ⟨[], 0⟩ ⟨[8191], 0⟩) s)).rd NVM_STAT_REMAP = 1 ∧ s.nvFailed = [] ∧
      (out (exec (.scrubTimer 0 ⟨[], 2⟩ ⟨[], 1⟩) { s with clk := cyDay })).rd PLG_ECC_SGL = 2) ∧
    ((out (exec (.pfwarnAssert 0) s)).rd NVM_STAT_PFHOLD = 1 ∧
      (out (exec (.powerFailCommitClose 0) (run 2 []))).rd NVM_STAT_PFC = 1 ∧
      (out (exec (.pfwarnRelease 0) s)).pfRel = some (10 * cyMs) ∧
      held.pfRuns = false ∧ held.nvHeld = 0 ∧ (out (exec (.pfwarnReleaseExpiry 0) held)).pfTaken = false) :=
  ⟨⟨acts _ rfl rfl, fun _ _ => acts _ rfl rfl, acts _ rfl rfl, acts _ rfl rfl, acts _ rfl rfl⟩, by decide +kernel⟩

/-! ### Timebases, calendars, backup domain -/

theorem witness_Timebase :
    let s := { State.reset with clk := cySec, ppsClk := some (cySec / 2), ppsDue := cySec }
    let load := { s with tbLoad := some { orig := 5, sec := 9, ns := 999999999 } }
    let poor := { s with tbLoad := some { orig := 0, sec := 9, ns := 0 } }
    let d := fun (k : Nat) (ns : Int) => { with_ s [(RTC_TBCTL_DISC, 1), (RTC_TBSTAT_STATE, k)] with
      tb0 := { t0 := cySec, ticks := (tickSec + ns * 768 / 3125).toNat }, ppsBad := 3, ppsGood := 7 }
    (Acts s ∧ Acts load ∧ ∀ k n, Acts (d k n)) ∧
    (s.rd RTC_TBCTL_EDGE = 0 ∧ s.rd RTC_TBCTL_DISC = 0 ∧ (out (exec (.ppsEdge 0 true 0) s)).ppsClk = some (cySec / 2) ∧
      (out (exec (.ppsEdge 0 false 0) s)).ppsClk = some cySec ∧
      (out (exec (.ppsEdge 0 false 0) { s with ppsClk := some (cySec / 2 + 1) })).rd RTC_TBSTAT_OUTCNT = 1) ∧
    ((out (exec (.ppsEdge 0 false 0) load)).rd RTC_TBSTAT_TIMEVALID = 1 ∧
      (out (exec (.ppsEdge 0 false 0) poor)).rd RTC_STAT_HEDGE = 1) ∧
    (10000 < (d 1 20000).ppsErr.natAbs ∧ bit ((out (exec (.ppsEdge 0 false 0) (d 1 20000))).rdW RTC_TBSTAT).toNat 17 = 1 ∧
      (d 1 0).ppsErr = 0 ∧ (out (exec (.ppsEdge 0 false 100000) (d 1 0))).rd RTC_TBSTAT_STATE = 2 ∧
      (out (exec (.ppsEdge 0 false (-100001)) (d 1 0))).rd RTC_TBSTAT_RANGE = 1 ∧
      1000 < (d 2 (-2000)).ppsErr.natAbs ∧ (out (exec (.ppsEdge 0 false 0) (d 2 (-2000)))).rd RTC_TBSTAT_STATE = 3 ∧
      (out (exec (.ppsEdge 0 false 0) (d 2 0))).ppsBad = 0 ∧ (out (exec (.ppsEdge 0 false 0) (d 3 0))).rd RTC_TBSTAT_STATE = 1) ∧
    ((out (exec (.ppsEdgeMissing 0) { d 2 0 with ppsDue := cySec - 1 })).rd RTC_TBSTAT_STATE = 3 ∧
      (out (exec (.ppsEdgeMissing 0) (d 2 0))).ppsBad = 3) ∧
    (bit ((out (exec (.tb0LoadNow 0 (.host 0)) load)).rdW RTC_TBSTAT).toNat 19 = 1 ∧
      bit ((out (exec (.tb0LoadAtPps 0 (.host 0)) (with_ s [(RTC_TB0SETN_V, 1000000000)]))).rdW RTC_TBSTAT).toNat 19 = 1 ∧
      (out (exec (.tb0LoadAtPps 0 (.host 0)) s)).tbLoad.isSome = true ∧
      (out (exec (.tb0LoadNow 0 (.host 0)) s)).rd RTC_TBSTAT_TIMEVALID = 1 ∧
      (out (exec (.tb0LoadNow 0 (.plough 0 0)) (with_ s [(RTC_TB0SETL_V, 9)]))).rd RTC_STAT_HEDGE = 1) :=
  ⟨⟨acts _ rfl rfl, acts _ rfl rfl, fun _ _ => acts _ rfl rfl⟩, by decide +kernel⟩

/-- 2000-12-31 23:59:59, the last second of a leap year's December: second 366 × 86400 − 1. -/
theorem witness_CalendarClock :
    let b := with_ State.reset [(RTC_TBCTL_FOLLOW, 0)]
    let s := { b with utc := 366 * 86400 - 1 }
    let go := fun u : State => out (exec (.calendarSecond 0) u)
    let al := { (with_ b [(RTC_ALMT_S 0, 1), (RTC_ALMD_D 0, 1), (RTC_ALMD_MON 0, 1), (RTC_ALMD_WD 0, 6), (RTC_ALMD_Y 0, 2000)]).wrW (RTC_ALMCTL 0) 0x89000000#32 with inReset := true }
    let fo := fun (n : Nat) (ns : Nat) => { with_ b [(RTC_TBCTL_FOLLOW, 1), (RTC_TBSTAT_TIMEVALID, 1), (RTC_TBSTAT_STATE, 2)] with
      utc := n, tb0 := { t0 := 0, ticks := ns } }
    (s.advance 0 = s ∧ al.advance 0 = al) ∧
    (s.xtlRun = true ∧ s.holdLeft = 0 ∧ s.rd RTC_STAT_RANGE = 0 ∧ s.cal60 = false ∧ s.rd RTC_LEAP_PEND = 0 ∧
      (go s).calWords.getD 2 0 = BitVec.ofNat 32 (1 * 4096 + 1 * 256 + 1) ∧ (go { s with xtlRun := false }) = { s with xtlRun := false }) ∧
    (s.monthEnd 0 = true ∧ (go (with_ s [(RTC_LEAP_PEND, 1)])).calWords.getD 1 0 = 0x173B3C#32 ∧
      (go { s with cal60 := true }).rdS RTC_LEAP_LS = 1 ∧
      { s with utc := s.utc - 1 }.monthEnd 1 = true ∧ (go (with_ { s with utc := s.utc - 1 } [(RTC_LEAP_PEND, 2)])).rdS RTC_LEAP_LS = -1) ∧
    ((go { s with utc := calSpan - 1 }).rd RTC_STAT_RANGE = 1) ∧
    ((go { s with dstReq := 1 }).rd RTC_LOCAL_DST = 1 ∧ (go (with_ { s with dstReq := 2 } [(RTC_LOCAL_DST, 1)])).foldNow = true) ∧
    (bit (al.rdW (RTC_ALMCTL 1)).toNat 31 = 0 ∧ al.rd RTC_STAT_ALM0 = 0 ∧ (go al).rd RTC_STAT_ALM0 = 1 ∧
      (go al).rd RTC_LOCAL_DST = 1 ∧ (go al).wake = true ∧ bit ((go al).rdW BKP_MISSED).toNat 3 = 1 ∧
      (go { al with utc := 1 }).rd RTC_STAT_ALM0 = 0) ∧
    ((go (fo 8 (9 * tickSec + 7500))).subN = 0 ∧ (go (fo 8 (9 * tickSec - 7500 * 100))).holdN = 100 ∧
      (go (fo 8 (9 * tickSec + 7500 * 100))).subN = 100 ∧ (go (fo 8 (1000 * tickSec))).utc = 1000) ∧
    ((out (exec (.foldEnd 0) { s with fold := true, foldN := 3600 })).fold = false ∧
      (out (exec (.foldEnd 0) { s with fold := true, foldN := 3599 })).fold = true) ∧
    ((out (exec (.shiftHoldEnd 0) (with_ s [(RTC_STAT_SHIFTBUSY, 1)]))).rd RTC_STAT_SHIFTBUSY = 0 ∧
      (out (exec (.shiftHoldEnd 0) (with_ { s with holdN := 1 } [(RTC_STAT_SHIFTBUSY, 1)]))).rd RTC_STAT_SHIFTBUSY = 1) ∧
    (s.bkQ = [] ∧ Sparse.get (fun _ => 0) 5 (out (exec (.calendarYearRead 0 (.host 0)) (out (exec (.calendarFreezeRead 0 (.host 0)) s)))).rdata
      = BitVec.ofNat 32 (2000 * 65536 + 2000)) :=
  ⟨⟨rfl, rfl⟩, by decide +kernel⟩

theorem witness_BackupWrites :
    let q := fun (o a : Nat) (w : Word) => { State.reset with clk := 15000, bkQ := [{ orig := o, addr := a, word := w }] }
    let go := fun u : State => out (exec (.backupWriteApply 0) u)
    let wc := fun (l : List (Fld × Nat)) (w : Word) => go (with_ (q 5 RTC_WCMD w) ([(RTC_WDATE_Y, 2001), (RTC_WDATE_MON, 2), (RTC_WDATE_D, 28)] ++ l))
    State.reset.advance 0 = State.reset ∧ ((out (exec (.calendarShift 0 (.host 1) 5) State.reset)).bkQ.length = 1 ∧
      (out (exec (.dstSetCmd 0 (.host 1)) { State.reset with iso := true })).bkQ = []) ∧
    ((go (q 5 RTC_SHIFT 0x3FFFF#32)).holdN = 1 ∧ (go (q 5 RTC_SHIFT 0x8001#32)).rd RTC_BADWR_CNT_V = 1 ∧
      (go (q 5 RTC_SHIFT 0x7FFE#32)).subN = 32767 ∧ (go { q 0 RTC_SHIFT 0x8000#32 with adj := [(0, 65536000000000)] }).rd RTC_STAT_HEDGE = 1) ∧
    ((wc [] 0x80000000#32).utc = (366 + 31 + 27) * 86400 ∧ (wc [(RTC_WDATE_D, 29)] 0x80000000#32).rd RTC_STAT_BADWR = 1 ∧
      (wc [] 0#32).utc = 0 ∧ (wc [] 0x80000001#32).rd RTC_STAT_BADWR = 1 ∧
      (wc [(RTC_LOCAL_DST, 1)] 0x80000002#32).utc = (366 + 31 + 27) * 86400 - 3600 ∧
      (wc [(RTC_WDATE_Y, 2400)] 0x80000000#32).rd RTC_STAT_BADWR = 1) ∧
    (let h := fun (d f : Nat) => go { with_ (q 5 RTC_WCMD (BitVec.ofNat 32 (0x80000002 + f))) [(RTC_WDATE_Y, 2001), (RTC_WDATE_MON, 2), (RTC_WDATE_D, 28), (RTC_LOCAL_DST, d)] with dstAt := some (424 * 86400 - 3599) }
     (h 1 0).rd RTC_STAT_BADWR = 1 ∧ (h 0 0).utc = 424 * 86400 - 3600 ∧ (h 0 1).utc = 424 * 86400) ∧
    ((go (q 5 RTC_DSTCMD 2#32)).rd RTC_STAT_BADWR = 1 ∧ (go (q 5 RTC_DSTCMD 1#32)).dstReq = 1 ∧ (go (q 0 RTC_DSTCMD 1#32)).rd RTC_STAT_HEDGE = 1) ∧
    ((go (q 5 RTC_LOCAL 56#32)).rdS RTC_LOCAL_OFS = 56 ∧ (go (q 5 RTC_LOCAL 57#32)).rd RTC_STAT_BADWR = 1) ∧
    ((go (q 5 RTC_LEAP 0x300#32)).rd RTC_STAT_BADWR = 1 ∧ (go (q 5 RTC_CTL 0xFF#32)).rdW RTC_CTL = 0x3F#32) ∧
    ((go (q 5 (RTC_ALMT 1) 59#32)).rd (RTC_ALMT_S 1) = 59 ∧ (go (q 5 (RTC_ALMT 1) 60#32)).rd RTC_STAT_BADWR = 1 ∧
      (go (q 5 (RTC_ALMD 0) 0xD00#32)).rd RTC_STAT_BADWR = 1 ∧ (go (q 5 (RTC_ALMCTL 0) 0x3000000#32)).rd RTC_STAT_BADWR = 1) ∧
    ((go (q 5 (BKP_RAM 15) 7#32)).rdW (BKP_RAM 15) = 7#32 ∧ (go (with_ (q 5 RTC_STAT 1#32) [(RTC_STAT_BADWR, 1)])).setNow = []) :=
  ⟨rfl, by decide +kernel⟩

theorem witness_BackupDomain :
    let s := { State.reset with isoEnd := some 5, iso := true, clk := 5 }
    let r := { s with inReset := true }
    let o := { s with xtlRun := false }
    s.advance 0 = s ∧
    ((out (exec (.xtal32Stop 0) s)).rd (TMP_EVCNT_V 3) = 1 ∧ (out (exec (.xtal32Stop 0) r)).rd TMP_BKCNT_CAT3 = 1 ∧
      (out (exec (.xtal32Restart 0) o)).xtlAt = 5) ∧
    ((out (exec (.xtal32Measurement 0 (-40000) false) s)).rdS RTC_XMEAS_ERR = -32768 ∧
      (out (exec (.xtal32Measurement 0 0 true) s)).rd (TMP_EVCNT_V 3) = 1) ∧
    (out (exec (.supplyChangeover 0) s)).onVbat = true ∧ (out (exec (.cellCheck 0 true) s)).rd BKP_STAT_CELL_LOW = 1 ∧
    (out (exec (.backupDomainReset 0) { s with utc := 7 })).utc = 0 ∧
    (out (exec (.backupIsolationEnd 0) s)).iso = false ∧
    (out (exec (.backupIsolationEnd 0) { s with clk := 4 })).iso = true :=
  ⟨rfl, by decide +kernel⟩

/-! ### Interrupts, alarms, hedges, tamper evidence -/

theorem witness_Interrupts :
    let s := { st [(SYS_CLKSTAT_REFLOSS, 1), (ANA_STAT_DONE, 1), (bitFld (INT_EN 5 0) 1, 1), (bitFld (INT_EN 5 0) 2, 1),
        (INT_PRI_of 1, 15), (INT_PRI_of 2, 15), (INT_THR_V 5, 14)] with claims := [(191, 5)] }
    let a := { with_ State.reset [(HDG_ALERT_MINAS, 10), (HDG_ALERT_GAP, 5)] with
      clk := 50 * cyMs, alert1 := { since := 40 * cyMs, released := some 0, deferred := true }, alert0 := { since := 45 * cyMs, deferred := true } }
    let l := fun a e => { State.reset with alq := a, evl := e }
    (Acts s ∧ Acts a ∧ ∀ x y, Acts (l x y)) ∧
    (s.level 1 = true ∧ s.level 2 = true ∧
      (out (exec (.interruptClaim 0 (.host 0) 5) s)).claims = [(191, 5), (1, 5)] ∧
      Sparse.get (fun _ => 0) 5 (out (exec (.interruptClaim 0 (.host 0) 5) s)).rdata = 0xF0001#32 ∧
      (out (exec (.interruptClaim 0 (.host 0) 4) s)).claims = s.claims) ∧
    ((out (exec (.interruptComplete 0 5 0xFFFFFFBF#32) s)).claims = [] ∧
      (out (exec (.interruptComplete 0 4 191#32) s)).rd INT_BADDONE_ID = 191) ∧
    ((out (exec (.intSwset 0 1 0x80000000#32) s)).level 191 = true ∧
      (out (exec (.intSwclr 0 1 0x80000000#32) (out (exec (.intSwset 0 1 0x80000000#32) s)))).level 191 = false) ∧
    (s.setNow = [] ∧ (out (exec (.alertLatchClear 0 (.host 0) 8#32) (with_ s [(bitFld INT_ALSTAT 3, 1)]))).rdW INT_ALSTAT = s.rdW INT_ALSTAT) ∧
    (a.alertHeld 1 a.levels = false ∧ (out (exec (.alertReleaseDeferred 0 1) a)).alert1.low = false ∧
      (out (exec (.alertReleaseDeferred 0 0) a)).alert0.low = true) ∧
    (s.pfRuns = false ∧ s.nvFailed = [] ∧ s.nvTaken = [] ∧
      (out (exec (.alarmRecordWrite 0) (l [{ type := 0x100, payload := [1] }] []))).rd YLD_LOGSEQ_V = 1 ∧
      (out (exec (.logRecordWrite 0) (l [] [{ type := 1, payload := [] }]))).evl = [] ∧ (l [] []).alq = []) :=
  ⟨⟨acts _ rfl rfl, acts _ rfl rfl, fun _ _ => acts _ rfl rfl⟩, by decide +kernel⟩

theorem witness_AlarmGroups :
    let r := 0xC1000000#32
    let s := (with_ State.reset [(SYS_CLKSTAT_REFLOSS, 1), (bitFld (INT_EN 5 0) 1, 1), (INT_PRI_of 1, 1), (BAL_CTL_EVEN, 1)])
    let y := State.reset
    (s.pending = [] ∧ s.inReset = false ∧ s.nvC = none ∧ s.cribCopy = none ∧ s.engRun.todo = [] ∧ r ≠ 0) ∧
    (∀ p < 5, s.rd (PLG_PSTAT_STATE p) ≠ 3) ∧
    (y.level 1 = false ∧ bit y.lvl 1 = 0 ∧ (out (step y)).alq = [] ∧ (out (step y)).clk = 1) ∧
    (s.level 1 = true ∧ bit s.lvl 1 = 0 ∧ bit (out (step s)).lvl 1 = 1 ∧ (out (step s)).evWait.length = 1 ∧
      ((out (step s)).evWait.map (·.arg1)) = [257]) ∧
    (let v := with_ s [(INT_RSP_LOG 1, 1), (INT_RSP_SAFE 1, 1), (INT_RSP_AL0 1, 2)]
     (out (step v)).alq.length = 1 ∧ (out (step v)).rd HDG_STAT_SAFE = 1 ∧ bit ((out (step v)).rdW INT_ALSTAT).toNat 2 = 1 ∧
      (out (step { v with alq := List.replicate 32 { type := 0, payload := [] } })).rd INT_LOGLOST_V = 1 ∧
      (out (step { v with evWait := List.replicate 5 { arg1 := 0, words := [] } })).rd INT_EVLOST_V = 1) := by decide +kernel

theorem witness_AlarmGroups_use : ∀ i, i < 77 → State.reset.yldUse i = State.reset.rd (YLD_USE_V i) := by decide +kernel

theorem witness_Hedges :
    let s := with_ State.reset [(HDG_STAT_SAFE, 1)]
    let s := { s with clk := 1 }
    let q := { s with safeQ := [2] }
    let k := with_ s [(HDG_CTL_LOCK, 1)]
    (Acts s ∧ Acts q ∧ Acts k) ∧
    ((out (exec (.hedgeWrite 0 (.host 0) 0 25001#32) s)).rd HDG_STAT_CFGERR = 1 ∧
      (out (exec (.hedgeWrite 0 (.host 0) 0 1#32) s)).rd HDG_PLS_MAXHZ = 1 ∧
      (out (exec (.hedgeWrite 0 (.host 0) 6 0#32) s)).rd HDG_MSD_PERMIT = 0 ∧
      (out (exec (.hedgeWrite 0 (.host 0) 0 1#32) k)).rd HDG_PLS_MAXHZ = 25000) ∧
    ((out (exec (.safeStateForce 0 (.host 1)) s)).safeQ = [2] ∧ (out (exec (.safeStateForce 0 (.host 1)) q)).safeQ = [2] ∧
      (out (exec (.safeStateClear 0 (.host 1)) s)).rd HDG_STAT_SAFE = 0 ∧
      (out (exec (.safeStateClear 0 (.host 1)) { s with safeClk := 1 })).rd HDG_STAT_SAFE = 1) ∧
    ((out (exec (.hedgeWrite 0 (.plough 4 15) 6 0#32) s)).rd HDG_VCNT_V = 1 ∧
      (out (exec (.safeStateForce 0 (.plough 0 0)) s)).rdW SYS_MAPERR = BitVec.ofNat 32 HDG_CMD) :=
  ⟨⟨acts _ rfl rfl, acts _ rfl rfl, acts _ rfl rfl⟩, by decide +kernel⟩

theorem witness_Tamper :
    let s := { with_ (State.reset.wrW TMP_CTL 0x80#32) [(TMP_MCTL_MAGEN, 1), (TMP_MCTL_TEMPEN, 1), (TMP_MAGTHR_V, 100), (TMP_TLIM_LO, 24), (TMP_TLIM_HI, 149)] with
      magN := 2, tempN := 2, loops := [(3, { bad := 1 })] }
    let b := { with_ s [(bitFld TMP_BURNPEND 7, 1), (TMP_OTP_V 7, 63)] with clk := cyUs 200, burnCat := some 7 }
    let go := fun i => out (exec i s)
    s.advance 0 = s ∧
    ((s.loopOf 3).armed = true ∧ (go (.tamperLoopEvent 0 3 [false])).rd (TMP_EVCNT_V 0) = 1 ∧
      (go (.tamperLoopEvent 0 3 [true])).rd (TMP_EVCNT_V 0) = 0 ∧ (go (.tamperLoopEvent 0 2 [false, false])).rd (TMP_EVCNT_V 0) = 0 ∧
      (out (exec (.tamperLoopEvent 0 3 [false]) { s with inReset := true })).rd TMP_BKCNT_CAT0 = 1) ∧
    ((go (.magneticCheck 0 2149)).rd (TMP_EVCNT_V 1) = 1 ∧ (go (.magneticCheck 0 2148)).magN = 0 ∧
      (go (.magneticCheck 0 2149)).magDue = 10 * cyMs ∧
      (go (.temperatureCheck 0 24 149 24 150)).rd (TMP_EVCNT_V 4) = 1 ∧ (go (.temperatureCheck 0 24 149 24 24)).tempN = 0) ∧
    ((go (.supplyExcursion 0)).rd (TMP_EVCNT_V 2) = 1 ∧ s.rd TMP_TAP_UNLOCKED = 0 ∧
      (go (.tapInstructionLoad 0 4)).tap = 0 ∧ (go (.tapInstructionLoad 0 3)).tap = 3 ∧
      (go (.testEnHigh 0)).rd (TMP_EVCNT_V 5) = 1 ∧ (go (.refinPeriodDeviation 0)).rd (TMP_EVCNT_V 3) = 1) ∧
    (bit (b.rd TMP_BURNPEND_V) 7 = 1 ∧ b.burnAt + cyUs 200 = b.clk ∧
      bit ((out (exec (.otpBurnDone 0 true) b)).rdW TMP_STAT).toNat 23 = 1 ∧
      (out (exec (.otpBurnDone 0 false) b)).burnTry = 1 ∧ bit (out (exec (.otpBurnDone 0 false) { b with burnTry := 3 })).burnFail 7 = 1) ∧
    ((go (.refinLoss 0)).rd SYS_CLKSTAT_REFLOSS = 1 ∧ (go (.refinLoss 0)).pllHold = true ∧ (out (exec (.refinReturn 0) { s with refin := false })).refin = true ∧
      (out (exec (.pllLockRegained 0) { s with pllHold := true, pllLock := false })).pllLock = true) :=
  ⟨rfl, by decide +kernel⟩

/-! ### Resets, start-up, register writes, the update engine -/

theorem witness_Resets :
    let s := { with_ State.reset [(RTC_STAT_OSF, 1), (INT_PRI_of 1, 7)] with
      mem := [(0, 1), (0x400000, 2), (0x800000, 3)], clk := 9, pending := [.powerOnReset 0] }
    let r := { s with rstReq := some 9, clk := 9 + cyUs 10 }
    (s.advance 0 = s ∧ r.advance 0 = r) ∧ (s.Inv ∧ r.Inv ∧ s.inReset = false ∧ s.nvC = none ∧ s.cribQ = [] ∧ s.cribCopy = none) ∧
    (let t := out (exec (.powerOnReset 0) s)
     t.inReset = true ∧ t.rd (INT_PRI_of 1) = State.reset.rd (INT_PRI_of 1) ∧ t.rd RTC_STAT_OSF = 1 ∧
      t.mem = [(0x800000, 3)] ∧ t.clk = 9 ∧ t.rstCause = 0) ∧
    ((out (exec (.rstNLow 0) s)).mem = [(0x400000, 2), (0x800000, 3)] ∧ (out (exec (.rstNLow 0) s)).rstCause = 1) ∧
    ((0xA55A : Word).toNat % 65536 = 0xA55A ∧ s.rstReq = none ∧ (out (exec (.sysRstcmdWrite 0 (.host 0) 0xA55A#32) s)).rstReq = some 9 ∧
      (out (exec (.sysRstcmdWrite 0 (.host 0) 0xA55B#32) s)).rstReq = none ∧
      (out (exec (.sysRstcmdWrite 0 (.plough 1 2) 0xA55A#32) s)).rdW SYS_MAPERR = BitVec.ofNat 32 SYS_RSTCMD) ∧
    ((out (exec (.softwareResetDelayExpiry 0) { r with clk := 8 + cyUs 10 })).nvC = none ∧
      ((out (exec (.softwareResetDelayExpiry 0) r)).nvC.map (·.kind)) = some 3 ∧
      (out (exec (.softwareResetDelayExpiry 0) s)).nvC = none) :=
  ⟨⟨rfl, rfl⟩, by decide +kernel⟩

theorem witness_Release :
    let i := fun g ram pass => Instr.resetRelease 0 18816000 g true ram pass [] []
    let s := { State.reset with inReset := true, clk := 5 }
    let v := { with_ s [(RTC_STAT_OSF, 0), (RTC_LEAP_LS, 2)] with utc := 3 }
    let t := out (exec (i true true 29) v)
    (s.advance 0 = s ∧ s.refin = true ∧ s.pfBall = false ∧ s.pfRel = none ∧ s.mem = [] ∧ s.nvTaken = [] ∧
      s.rd RTC_STAT_OSF = 1 ∧ v.rd RTC_STAT_OSF = 0 ∧ v.advance 0 = v) ∧
    (t.inReset = false ∧ t.boot = 2 ∧ t.rd SYS_CLKSTAT_REFSEL = 1 ∧ t.isoEnd = some (5 + cyMs) ∧
      t.rd RTC_TBSTAT_TIMEVALID = 1 ∧ t.tb0.ticks = 5 * tickSec) ∧
    (s.rstCause = 0 ∧ t.rd (PLG_PSTAT_STATE 1) = 3 ∧ t.rd (PLG_PSTAT_LOG 2) = 1 ∧ t.rd (PLG_PSTAT_LOG 4) = 3) ∧
    ((out (exec (.resetRelease 0 18815999 true true true 29 [] []) s)).inReset = true ∧
      (out (exec (i true true 31) { s with refin := false, rstCause := 1 })).inReset = false ∧
      (out (exec (i true true 31) { s with refin := false })).inReset = true ∧
      (out (exec (i true true 31) { s with pfRel := some 0 })).inReset = true) := by decide +kernel

/-- A -FX part (R406, R424): its ceilings and its variant outlast a power failure, its misdeal unit takes no write, and its
port is not unlocked. -/
theorem witness_fx :
    let s := st [(SYS_ID_VARIANT, 1), (⟨HDG_PLS + 256, 14, 0⟩, 8000), (MSD_STAT_ACT, 1)]
    let t := out (exec (.powerOnReset 0) s)
    s.fx = true ∧ t.fx = true ∧ t.rd HDG_PLS_MAXHZ = 8000 ∧ t.rd HDG_ALERT_GAP = 5 ∧ t.rd MSD_STAT_ACT = 0 ∧
      (out (exec (.misdealStop 0 (.host 0)) s)).regs = s.regs ∧ s.level 114 = false ∧ s.dealCheck [(TMP_TAP, 0x100#32)] = some 0 ∧
      State.reset.dealCheck [(TMP_TAP, 0x100#32)] = none ∧ s.dealCheck [(MSD_RING 0, 0#32)] = some 0 := by decide +kernel

theorem witness_Startup :
    let g := { State.reset with boot := 1, bootAt := 3, clk := 3 + 2 * cySec }
    let n := { State.reset with boot := 2, clk := 3 }
    let p := { n with updSel := mkSel 0 1 1 0 1 0 5 0 6 }
    let l := { n with boot := 3, bootSlot := some 1, mem := [(4, 1), (0x400000, 2)] }
    let w := { (with_ State.reset [(FUR_CTL_EN 1, 1)]) with boot := 4, rotT0 := some 1, clk := 1 + 403 * cyMs, field := [(0, { cfg := { fcfg := 0x81000000 } })] }
    (g.advance 0 = g ∧ n.advance 0 = n ∧ p.advance 0 = p ∧ l.advance 0 = l ∧ w.advance 0 = w) ∧
    ((out (exec (.gpio00WaitExpiry 0) g)).boot = 2 ∧ (out (exec (.gpio00WaitExpiry 0) { g with clk := 2 + 2 * cySec })).boot = 1) ∧
    (n.updSel = [] ∧ mkState (n.marker 0) ≠ 3 ∧ mkState (n.marker 1) ≠ 3 ∧ (out (exec (.slotSelection 0) n)).boot = 5 ∧
      (out (exec (.slotSelection 0) g)).boot = 1) ∧
    (p.updSel ≠ [] ∧ selState p.updSel ≠ 1 ∧ selSlot p.updSel = 1 ∧ p.imgOk 1 = false ∧ mkState (p.marker 0) ≠ 3 ∧
      (out (exec (.slotSelection 0) p)).boot = 5 ∧ bit ((out (exec (.slotSelection 0) p)).rdW TMP_STAT).toNat 7 = 1) ∧
    (l.updQ = [] ∧ l.cal = none ∧ l.imgSegs 1 = [] ∧ l.startFull 0 = false ∧ (out (exec (.imageLoadDone 0) l)).boot = 4 ∧
      (out (exec (.imageLoadDone 0) l)).byte 4 = 0 ∧ (out (exec (.imageLoadDone 0) l)).byte 0x400000 = 2 ∧
      ((out (exec (.imageLoadDone 0) l)).logiOf 3).q.length = 1 ∧ n.updLoad = false ∧
      (out (exec (.imageLoadDone 0) { l with updQ := [{}] })).boot = 3) ∧
    (w.rd (FUR_CTL_EN 1) = 1 ∧ w.rd (FUR_STAT_LOCK 1) = 0 ∧ (w.fieldOf 0).cfg.fw = 1 ∧ (w.fieldOf 0).cfg.en = true ∧
      (out (exec (.furrowLockWaitEnd 0) { w with clk := 402 * cyMs })).boot = 4 ∧
      (out (exec (.furrowLockWaitEnd 0) w)).boot = 6 ∧
      bit ((out (exec (.furrowLockWaitEnd 0) w)).rdW UPD_BOOT).toNat 2 = 1 ∧
      (out (exec (.furrowLockWaitEnd 0) { w with field := [], clk := 1 + 3 * cyMs })).healthy = true ∧
      (out (exec (.furrowLockWaitEnd 0) g)).boot = 1) := by decide +kernel

theorem witness_RegisterWrites :
    let s := { st [] with clk := 1 }
    let d := { with_ s [(NVM_STAT_DONE, 1)] with setNow := [(NVM_STAT, NVM_STAT_DONE.lo)] }
    let z := with_ s [(TAL_FCFG_EN 0, 1)]
    let go := fun o a w => out (exec (.registerWrite 0 o a w) s)
    let word := fun n : Nat => BitVec.ofNat 32 n
    (Acts s ∧ Acts d ∧ Acts z) ∧
    ((go (.host 0) 0x101C000 1).regs = s.regs ∧ (go (.host 0) (word (INT_PRI 1 + 1)) 1).regs = s.regs) ∧
    ((go (.host 1) 0x101B800 1).rdW SYS_MAPERR = 0x101B800 ∧ (go (.host 1) 0x101BFFC 1).rd SYS_MAPSRC_COUNT = 1) ∧
    (0x1016000 / 4096 = 0x1000 + 0x16 ∧ 0x101B7FC / 4096 = 0x1000 + 0x1B ∧ s.logOf 1 ≠ 3 ∧ (go (.plough 1 2) (word (PLG_KICK 3)) 1).rdW HDG_VADDR = word (PLG_KICK 3) ∧
      bit ((go (.plough 1 2) (word (INT_RSP 127)) 1).rdW HDG_STAT).toNat 6 = 1 ∧ (INT_RSP 127) % 4 = 0) ∧
    ((go (.host 0) (word (INT_PRI 31)) 9).rdW (INT_PRI 31) = 9 ∧ (go (.host 0) (word (INT_EN 5 7)) 9).rdW (INT_EN 5 7) = 9) ∧
    ((go (.host 0) (word (TAL_FCFG 15)) 9).rd DEAL_DWR_COUNT = 1 ∧ (go (.host 0) (word RTC_TB1TRIM) 9).rdW DEAL_DWRADDR = word RTC_TB1TRIM) ∧
    (z.isSealed 0 = true ∧ (out (exec (.registerWrite 0 (.host 0) (word (FLT_SHIFT 0)) 9) z)).rd TAL_STAT_SEALWR = 1) ∧
    (bit (1 <<< NVM_STAT_DONE.lo) NVM_STAT_DONE.lo = 1 ∧
      (out (exec (.registerWrite 0 (.host 0) (word NVM_STAT) (word (1 <<< NVM_STAT_DONE.lo))) d)).rd NVM_STAT_DONE = 1 ∧
      (out (exec (.registerWrite 0 (.host 0) (word NVM_STAT) (word (1 <<< NVM_STAT_DONE.lo))) { d with setNow := [] })).rd NVM_STAT_DONE = 0 ∧
      (out (exec (.registerWrite 0 (.host 0) (word NVM_STAT) (word (1 <<< NVM_STAT_DONE.lo))) d)).rd (INT_REP_of 93) = 1) :=
  ⟨⟨acts _ rfl rfl, acts _ rfl rfl, acts _ rfl rfl⟩, by decide +kernel⟩

theorem witness_Updates :
    let s := State.reset
    let mk := fun (st : Nat) (h : List Nat) => { s with updMark := [(0, mkMark st 0 3 256 0 0 0 h [])] }
    let one := { s with bootSlot := some 1, updMark := [(1, mkMark 3 0 0 0 0 0 0 [] [])] }
    let busy := with_ s [(UPD_STAT_BUSY, 1)]
    let v := { mk 2 [] with updVer := some 3, clk := 4 }
    let act : UpdAct := { when_ := 0, fw := 0, t0 := 0, t1 := 0, win := 1 }
    let a := { mk 3 [5] with updAct := some act }
    let t := { s with updSel := mkSel 1 0 1 0 0 1 0x55 60 0x66, boot := 6, clk := 60 * cySec }
    let g := fun l => with_ (mk 3 [5]) ([(UPD_ACTID_V, 5), (UPD_TRIALWIN_V, 1440)] ++ l)
    let goes := fun i s => (out (exec i s)).updQ.length
    let bad := fun i s => (out (exec i s)).rd UPD_STAT_CMDERR
    (Acts s ∧ (∀ n h, Acts (mk n h)) ∧ Acts one ∧ Acts busy ∧ Acts v ∧ Acts a ∧
      Acts t) ∧
    (busy.rd UPD_STAT_BUSY = 1 ∧ bad (.updBeginFull 0) busy = 1 ∧ bad (.updErase 0) t = 1) ∧
    (s.rd UPD_STAT_BUSY = 0 ∧ selState s.updSel ≠ 1 ∧ s.rd UPD_STAT_ACTPEND = 0 ∧ goes (.updBeginFull 0) s = 1 ∧
      goes (.updErase 0) s = 1 ∧ s.running = none ∧ bad (.updBeginDelta 0) s = 1 ∧ one.rd UPD_STAT_RECOV = 0 ∧
      one.running = some 1 ∧ mkState (one.marker 1) = 3 ∧ goes (.updBeginDelta 0) one = 1) ∧
    (mkState ((mk 1 []).marker 0) = 1 ∧ (out (exec (.updResume 0) (mk 1 []))).rd UPD_DLBLK_V = 3 ∧ bad (.updResume 0) s = 1 ∧
      (out (exec (.updVerify 0) (mk 2 []))).updVer = some 0 ∧ bad (.updVerify 0) (mk 1 []) = 1) ∧
    (v.imgOk 0 = false ∧ goes (.updVerifyDone 0) v = 1 ∧ (out (exec (.updVerifyDone 0) v)).rd (TMP_EVCNT_V 7) = 1 ∧
      goes (.updVerifyDone 0) { v with clk := 3 } = 0 ∧ goes (.updVerifyDone 0) s = 0) ∧
    (bad (.updCancel 0) s = 1 ∧ a.updAct.isSome = true ∧ (out (exec (.updCancel 0) a)).updAct = none) ∧
    (t.trialEnds = false ∧ t.updLoad = false ∧ selWin t.updSel ≤ t.trialSecs ∧ goes (.updRevert 0) t = 1 ∧
      goes (.trialWindowExpiry 0) t = 1 ∧ goes (.trialWindowExpiry 0) { t with clk := 59 * cySec } = 0 ∧ bad (.updRevert 0) s = 1) ∧
    ((out (exec (.activationSchedule 0) (g []))).updAct = some { act with win := 1440 } ∧
      ((out (exec (.activationSchedule 0) (g [(UPD_ACTWHEN_WHEN, 2), (UPD_ACTT1_V, 1)]))).updAct.map (·.t1)) = some 1 ∧
      bad (.activationSchedule 0) (g [(UPD_ACTWHEN_WHEN, 2), (UPD_ACTT0_V, 20000)]) = 1 ∧ bad (.activationSchedule 0) s = 1) ∧
    (a.actDue act = true ∧ a.running = none ∧ goes (.activation 0) a = 1 ∧
      goes (.activation 0) { a with updAct := some { act with when_ := 2, t1 := 1 } } = 0 ∧ goes (.activation 0) s = 0) ∧
    (t.trialN < t.trialSecs / 10 ∧ t.nvBuf = [] ∧ t.pfRuns = false ∧ t.rd NVM_PROT_BPB = 0 ∧
      (out (exec (.trialProgress 0) t)).trialN = 6 ∧ (out (exec (.trialProgress 0) t)).nvBuf.length = 3 ∧
      (out (exec (.trialProgress 0) { t with trialN := 6 })).nvBuf = []) ∧
    (goes (.trialConfirm 0 0x55#32) t = 1 ∧ bad (.trialConfirm 0 0x56#32) t = 1) := by
  refine ⟨⟨acts _ rfl rfl, fun _ _ => acts _ rfl rfl, acts _ rfl rfl, acts _ rfl rfl, acts _ rfl rfl, acts _ rfl rfl, acts _ rfl rfl⟩, by decide +kernel⟩

theorem witness_Updates_close :
    let c : Commit := { num := 7, kind := 1, start := 0, bnd := some 0, todo := [], t0 := 0, done := 0 }
    let q := mkSel 1 0 1 0 0 1 5 60 6
    let s := { State.reset with nvC := some c, updQ := [{ fin := .activate q, live := true }], thrQ := [], updMark := [(0, mkMark 3 0 3 256 0 0 0 [5] [])] }
    let t := out (exec (.commitClose 0 []) s)
    Acts s ∧ (s.nvHeld = 0 ∧ s.dealCeilNew = none ∧ t.updQ = [] ∧ t.updSel = q ∧ t.updLoad = true ∧
      t.rd UPD_STAT_ACTDONE = 1 ∧ s.physOf 0 = some 0 ∧ (t.handOf 0 3).st = .idle) :=
  ⟨acts _ rfl rfl, by decide +kernel⟩
/-! ### Rings and requests -/

/-- Both receivers are UP, the position is 5 and the chain 9. -/
def ringUp : State :=
  { st [(BAL_LSTAT_STATE 0, 2), (BAL_LSTAT_STATE 1, 2), (BAL_PLOT_POSVALID, 1), (BAL_PLOT_POS, 5), (BAL_PLOT_CHAIN, 9)] with
    clk := cySec + 2 }

/-- A frame's words: class, position, tag, OP, attempt, header bits besides, ARG1, chain, ARG2, payload. -/
def fr (cls pos tag op att more a1 chain a2 : Nat) (pay : List Word) : Frame :=
  ⟨hdr0 cls pos tag op att pay.length + more, a1, chain * 2 ^ 24 + a2, pay⟩

/-- A request slot of ring 1. -/
def rq (f : Frame) : Request := { id := 4, ring := 1, frame := f }

/-- The machine with a request waiting. -/
def asked (f : Frame) : State := { ringUp with reqs := [rq f] }

/-- The payloads of the frames sent now. -/
def pays (o : Host.Outcome State Fault Refusal) : List (List Word) := (out o).txNow.map fun x => x.frame.pay

theorem witness_Links :
    let s := ringUp
    let d := State.reset
    let tr := { with_ d [(BAL_LSTAT_STATE 1, 1)] with trainAt := [(1, 7)], clk := 7 + cyMs }
    let ev : EventFrame := { arg1 := 257, words := [1, 2] }
    let w := { with_ s [(BAL_CTL_EVEN, 1), (BAL_CTL_EVRING, 1)] with evWait := [ev] }
    let o := fun att => { s with evOut := some { tag := 3, ev := ev, att := att, at_ := 2, ring := 1 } }
    let h := { s with txHeld := [⟨⟨1, fr 1 5 0 1 0 0 0 9 0 [], 0⟩, 5, false⟩] }
    let y := with_ s [(BAL_SYNCCTL_BCST, 1), (BAL_SYNCCTL_RATE, 1)]
    (Acts s ∧ Acts d ∧ Acts tr ∧ Acts w ∧ (∀ n, Acts (o n)) ∧ Acts h ∧ Acts y) ∧
    (d.rd (BAL_LSTAT_STATE 0) = 0 ∧ (out (exec (.linkSignalDetect 0 0) d)).rd (BAL_LSTAT_STATE 0) = 1 ∧
      (out (exec (.linkTrainComplete 0 1 true 63) tr)).rd (BAL_LSTAT_NB 1) = 63 ∧
      (out (exec (.linkTrainComplete 0 1 true 63) { tr with clk := 6 + cyMs })).rd (BAL_LSTAT_STATE 1) = 1) ∧
    ((out (exec (.linkDown 0 1 16) s)).rd (BAL_LSTAT_WENTDOWN 1) = 1 ∧ (out (exec (.linkDown 0 1 16) s)).evl.length = 1 ∧
      (out (exec (.linkDown 0 1 0) d)).evl = []) ∧
    ((out (exec (.hopDelayMeasure 0 0 65535) s)).rd (BAL_HOPDLY_V 0) = 65535 ∧
      (out (exec (.hopDelayMeasure 0 0 65535) { s with hopAt := [(0, 4)] })).rd (BAL_HOPDLY_V 0) = 0 ∧
      (out (exec (.hopDelayMeasure 0 0 65535) { s with hopAt := [(0, 3)] })).rd (BAL_HOPDLY_V 0) = 65535) ∧
    ((out (exec (.misdealFrameRelease 0 1) h)).txNow.length = 1 ∧ (out (exec (.misdealFrameRelease 0 1) { h with clk := 4 })).txNow = [] ∧
      (out (exec (.responseKeepExpiry 0) { s with kept := [⟨0, 1, 2, []⟩] })).kept = []) ∧
    (s.rd MSD_STAT_ACT = 0 ∧ s.txHeld = [] ∧ y.syncTx = none ∧ (out (exec (.syncSend 0) y)).txNow.length = 2 ∧
      (out (exec (.syncSend 0) { y with syncTx := some 3 })).txNow = [] ∧ (out (exec (.syncSend 0) s)).txNow = []) ∧
    ((out (exec (.eventSend 0) w)).evWait = [] ∧ ((out (exec (.eventSend 0) w)).txNow.map (·.ring)) = [1] ∧
      (out (exec (.eventSend 0) s)).txNow = [] ∧ (out (exec (.eventAck 0 3) (o 0))).evOut = none ∧
      (out (exec (.eventAck 0 4) (o 0))).evOut.isSome = true) ∧
    (((out (exec (.eventRetryTimeout 0) (o 1))).txNow.map (·.ring)) = [0] ∧
      (out (exec (.eventRetryTimeout 0) (o 2))).rd BAL_RETRYCNT_EVFAIL = 1 ∧
      (out (exec (.eventRetryTimeout 0) { o 0 with clk := 1 + cyUs 100 })).txNow = [] ∧ s.evOut = none) :=
  ⟨⟨acts _ rfl rfl, acts _ rfl rfl, acts _ rfl rfl, acts _ rfl rfl, fun _ => acts _ rfl rfl, acts _ rfl rfl, acts _ rfl rfl⟩, by decide +kernel⟩

theorem witness_Enum_Sync :
    let s := ringUp
    let d := with_ s [(BAL_PLOT_POSVALID, 0)]
    let pay : List Word := [0, 2, 0, 5, 0, 0, 0, 0, 0, 0, 0, 0, 0, 0, 0, 0, 9, 0]
    let y := with_ s [(BAL_SYNCCTL_RPOS, 3), (BAL_SYNCCTL_ADOPT, 1), (FUR_CTL_EN 2, 1), (FUR_SRC_SRC 2, 6), (BAL_HOPDLY_V 0, 7)]
    let e := fun s w1 => out (exec (.enum 0 0 (BitVec.ofNat 32 (hdr0 0 0 0 0 0 0)) w1 0x33000000#32) s)
    (Acts s ∧ Acts d ∧ Acts y) ∧
    ((e d 63).rd BAL_PLOT_POS = 63 ∧ (e d 63).rd BAL_PLOT_CHAIN = 0x33 ∧ (e d 63).txNow.map (·.frame.w1) = [64] ∧
      (e d 64).rd BAL_PLOT_OVER = 1 ∧ (e s 6).rd BAL_PLOT_POSCONF = 1 ∧ (e s 6).rd BAL_PLOT_POS = 5 ∧
      (e s 0x200).rd BAL_PLOT_POS = 0 ∧ (e s 0x105).txNow.map (·.frame.w1) = [0x104] ∧
      (e (with_ s [(BAL_LSTAT_STATE 0, 1)]) 6).txNow = []) ∧
    (wfSync pay = true ∧ y.rd RTC_TBSTAT_STATE = 0 ∧ (out (exec (.sync 0 0 false 3 pay) y)).rd BAL_SYNCSTAT_CNT = 1 ∧
      (out (exec (.sync 0 0 false 3 pay) y)).rd BAL_SYNCSTAT_STEP = 1 ∧
      ((out (exec (.sync 0 0 false 3 pay) y)).txNow.map fun x => x.frame.pay.getD 3 0) = [2572#32] ∧
      (out (exec (.sync 0 0 false 3 (pay.set 16 0x900#32)) y)).tb0.t0 = y.clk ∧
      (out (exec (.sync 0 0 false 4 pay) y)).rd BAL_SYNCSTAT_CNT = 0 ∧
      (out (exec (.sync 0 0 true 4 pay) (with_ y [(BAL_SYNCCTL_HOST, 1)]))).rd BAL_SYNCSTAT_CNT = 1) :=
  ⟨⟨acts _ rfl rfl, acts _ rfl rfl, acts _ rfl rfl⟩, by decide +kernel⟩

theorem witness_FrameReceive :
    let s := ringUp
    let go := fun s ok abort (f : Frame) => out (exec (.frameReceive 0 0 ok abort (BitVec.ofNat 32 f.w0) (BitVec.ofNat 32 f.w1) (BitVec.ofNat 32 f.w2) f.pay 63 0) s)
    let mine := fr 0 5 7 1 0 0 0 9 1 []
    let bc := 2 ^ 29
    let runs := { s with reqs := [{ id := 1, ring := 0, frame := mine }] }
    let kept := { s with kept := [⟨0, 7, 3, [mine, mine]⟩], clk := 4 }
    let retry := fr 0 5 7 1 1 0 0 9 1 []
    let full := { s with reqs := List.replicate 64 (rq mine) }
    let bulk := { s with reqs := [{ id := 1, ring := 0, frame := fr 0 5 7 10 0 0 0 9 0x8000 [1], data := [fr 0 5 7 10 0 0 0 9 0x8000 [1]], last := false }] }
    let msd := fun act => with_ s [(MSD_STAT_ACT, 1), (MSD_RING_EN 0, 1), (MSD_RING_P 0, 0xFFFF), (MSD_RING_ACT 0, act)]
    (Acts s ∧ Acts kept ∧ Acts full ∧ Acts bulk ∧ (∀ n, Acts (msd n)) ∧ Acts runs) ∧
    (wfFrame true false (BitVec.ofNat 32 mine.w0) [] = true ∧ (go (with_ s [(BAL_LSTAT_STATE 0, 0)]) true false mine).reqs = [] ∧
      (go s true true mine).txNow.map (·.bad) = [2] ∧ (go s false false mine).rd (BAL_ERR_CRC 0) = 1) ∧
    ((go s true false (fr 0 0 0 0 0 0 63 9 0 [])).rd BAL_PLOT_POSCONF = 1 ∧
      (go s true false (fr 2 0 0 9 0 0 0 9 0 [1, 1, 1, 5])).txNow.map (·.frame.pay) = [[1, 1, 1, 2565]] ∧
      (go (with_ s [(BAL_SYNCCTL_HOST, 1)]) true false (fr 0 5 0 9 0 bc 0 9 5 (List.replicate 18 1))).rd BAL_SYNCSTAT_CNT = 1) ∧
    ((go s true false (fr 1 0 0 2 0 bc 0 9 5 [])).txNow.length = 1 ∧ (go s true false (fr 0 5 0 2 0 bc 0 8 5 [1])).rd (BAL_DROP_V 0) = 1 ∧
      (go s true false (fr 0 5 0 2 0 bc 8 9 63 [1])).load32 8 = 1 ∧ (go s true false (fr 0 5 0 2 0 bc 8 9 4 [1])).load32 8 = 0) ∧
    ((go s true false (fr 0 6 0 2 0 0 8 9 0 [])).txNow.length = 1 ∧ (go s true false (fr 0 5 0 2 0 0 8 8 0 [])).rd (BAL_DROP_V 0) = 1 ∧
      (go { s with evOut := some { tag := 3, ev := { arg1 := 0, words := [] }, att := 0, at_ := 2, ring := 1 } } true false (fr 3 5 3 8 0 0 0 9 0 [])).evOut = none ∧
      (go (with_ s [(BAL_SYNCCTL_HOST, 1)]) true false (fr 0 5 0 9 0 0 0 9 5 (List.replicate 18 1))).txNow = []) ∧
    ((s.bulkMore 0 mine) = none ∧ (bulk.bulkMore 0 (fr 0 5 7 10 0 0 256 9 0xC000 [2])).isSome = true ∧
      (go kept true false retry).txNow.length = 2 ∧ (go kept true false retry).rd BAL_RETRYCNT_RETRY = 1 ∧
      (kept.keptOf 0 7).isSome = true ∧ runs.keptOf 0 7 = none ∧ (go runs true false retry).reqs.length = 1 ∧
      (go s true false (fr 0 5 7 12 0 0 0 9 1 [])).txNow.length = 1 ∧ (go full true false mine).rd BAL_NAKCNT_V = 1 ∧
      (go s true false mine).reqs.map (·.frame) = [mine] ∧ (go s true false mine).rd BAL_SLOT_USED = 1) ∧
    ((msd 3).rd MSD_STAT_ACT = 1 ∧ (msd 3).rd (MSD_RING_EN 0) = 1 ∧ (msd 3).rd (MSD_RING_OWN 0) = 0 ∧ (msd 3).rd (MSD_RING_P 0) = 0xFFFF ∧
      (msd 0).rd (MSD_RING_ACT 0) = 0 ∧ (msd 1).rd (MSD_RING_ACT 0) = 1 ∧ (msd 2).rd (MSD_RING_ACT 0) = 2 ∧ (msd 3).rd (MSD_RING_ACT 0) = 3 ∧
      s.txHeld = []) :=
  ⟨⟨acts _ rfl rfl, acts _ rfl rfl, acts _ rfl rfl, acts _ rfl rfl, fun _ => acts _ rfl rfl, acts _ rfl rfl⟩, by decide +kernel⟩

theorem witness_Requests :
    let read := fun a1 n => fr 0 5 7 1 0 0 a1 9 n []
    let write := fun a1 pay => fr 0 5 7 2 0 0 a1 9 0 pay
    let led := fun a1 pay => fr 0 5 7 2 0 512 a1 9 0 pay
    let m := fun f => { asked f with mem := [(0x100, 7)] }
    let rd := fun f => exec (.read 0 0 0) (m f)
    let wr := fun f => out (exec (.write 0 63 0) (m f))
    let d : Deal := { owner := 8, entries := [], seed := false, openAt := 0, tmo := 0 }
    let opened := fun f => { m f with deal := some d }
    (∀ f, Acts (m f)) ∧ (∀ f, Acts (opened f)) ∧
    ((m (read 0 1)).nvC = none ∧ (m (read 0 1)).cribCopy = none ∧ (m (read 0 1)).rd MSD_STAT_ACT = 0 ∧ (m (read 0 1)).txHeld = [] ∧
      ringUp.reqs = []) ∧
    (pays (rd (read 0x100 2)) = [[7, 0]] ∧ pays (rd (read 0 64)) = [List.replicate 64 0] ∧ (out (rd (read 0 65))).reqs = [] ∧
      (out (rd (read 1 1))).reqs = [] ∧ hostReads 0x210000 = false ∧ (out (rd (read 0x210000 1))).rd SYS_MAPSRC_COUNT = 1 ∧
      (out (exec (.read 0 0 2) (m (read 0x100 1)))).rd PLG_ECC_DBL = 1 ∧ pays (exec (.read 0 0 2) (m (read 0x100 1))) = [[]] ∧
      hostReads BAL_PLOT = true ∧ pays (rd (read BAL_PLOT 1)) = [[ringUp.rdW BAL_PLOT]] ∧ (out (rd (write 0 []))).reqs.length = 1) ∧
    ((wr (write 0x1000 [3, 4])).load32 0x1004 = 4 ∧ (wr (write 0 [])).reqs = [] ∧ hostWrites 0x400000 = false ∧
      (wr (write 0x400000 [1])).rdW SYS_MAPERR = 0x400000 ∧ (out (exec (.write 0 0 3) (m (write 0x1000 [3])))).rd TMP_STAT_BIC = 1 ∧
      (wr (write (INT_PRI 31) [5])).rdW (INT_PRI 31) = 5 ∧ (wr (write (TAL_FCFG 15) [5])).rd DEAL_DWR_COUNT = 1 ∧
      (out (exec (.write 0 63 0) (with_ (m (write (FLT_SHIFT 0) [5])) [(TAL_FCFG_EN 0, 1)]))).rd TAL_STAT_SEALWR = 1) ∧
    ((m (led 0 [1])).openDeal 8 = none ∧ ((opened (led 0 [1])).openDeal 8).isSome = true ∧ dealable 0 = false ∧
      dealable (TAL_FCFG 0) = true ∧ (out (exec (.write 0 0 0) (opened (led (TAL_FCFG 0) [1])))).rd DEAL_STAT_ENTRIES = 1 ∧
      (out (exec (.write 0 0 0) { opened (led (TAL_FCFG 0) [1]) with deal := some { d with entries := List.replicate 512 (0, 0) } })).reqs = []) ∧
    (let rmw := fun a p => exec (.rmw 0 0) (m (fr 0 5 7 3 0 0 a 9 0 p))
     (out (rmw 0x100 [0xF, 0x21])).load32 0x100 = 1 ∧ pays (rmw 0x100 [0xF, 0x21]) = [[7]] ∧ (out (rmw 0 [1])).reqs = [] ∧
      (out (rmw 0x400000 [1, 1])).rd SYS_MAPSRC_COUNT = 1) ∧
    (let mail := fun l p => exec (.mailbox 0) (m (fr 0 5 7 7 0 0 l 9 0 p))
     ((m (read 0 1)).physOf 3).isSome = true ∧ ((out (mail 3 [9])).logiOf 3).mail = [(9, 0x90000000)] ∧ (out (mail 4 [9])).reqs = [] ∧
      (out (mail 3 [])).reqs = []) := by
  refine ⟨fun _ => acts _ rfl rfl, fun _ => acts _ rfl rfl, ?_⟩
  decide +kernel

theorem witness_Bulk_Boot :
    let f := fun op a1 a2 pay => fr 0 5 7 op 0 0 a1 9 a2 pay
    let m := fun f => { asked f with mem := [(0x100, 7)] }
    let bulk := fun f data => { ringUp with reqs := [{ rq f with data := data }] }
    let w := fun a (n : Nat) last => f 10 a (if last then 0xC000 else 0x8000) (List.replicate n 3)
    let dl := fun b => { with_ (bulk (w 0x101B800 1 true) [w 0x101B800 1 true]) [(UPD_DLBLK_V, 0)] with updMark := [(0, mkMark 1 0 0 b 0 0 0 [] [])] }
    let rcv := fun boot a1 => { m (f 11 a1 0 (List.replicate 8 0)) with boot := boot }
    (∀ f, Acts (m f)) ∧ (∀ f d, Acts (bulk f d)) ∧ (∀ b, Acts (dl b)) ∧
    (pays (exec (.bulkRead 0 0 0) (m (f 10 0x100 0 [260]))) = [7 :: List.replicate 63 0, [0]] ∧
      pays (exec (.bulkRead 0 0 0) (m (f 10 0x100 0 [2]))) = [[]] ∧ pays (exec (.bulkRead 0 0 0) (m (f 10 0x100 0 []))) = [[]] ∧
      (out (exec (.bulkRead 0 0 0) (m (f 10 0x210000 0 [4])))).rd SYS_MAPSRC_COUNT = 1 ∧
      (m (f 10 0x100 0 [260])).nvC = none) ∧
    ((out (exec (.bulkWrite 0 1023 0) (bulk (w 0x200 2 true) [w 0x200 2 true]))).load32 0x204 = 3 ∧
      (out (exec (.bulkWrite 0 1023 0) (bulk (w 0x201 2 true) [w 0x201 2 true]))).load32 0x204 = 0 ∧
      (out (exec (.bulkWrite 0 1023 0) (bulk (w 0x400000 2 true) [w 0x400000 2 true]))).rd SYS_MAPSRC_COUNT = 1) ∧
    ((rq (w 0x101B800 1 true)).toPort = true ∧ (out (exec (.downloadBlock 0) (dl 5000))).rd UPD_STAT_DLERR = 1 ∧
      ((out (exec (.downloadBlock 0) (dl 128))).updQ.length) = 1) ∧
    ((out (exec (.bootcmdRecover 0) (rcv 1 3))).reqs = [] ∧ (out (exec (.bootcmdRecover 0) (rcv 1 2))).reqs.length = 1 ∧
      (out (exec (.bootcmdRecover 0) (rcv 2 1))).reqs = [] ∧
      (rcv 1 1).dealCeilNew = none ∧ (rcv 1 1).dealCeil ≤ ((rcv 1 1).rdW DEAL_ANONCE).toNat + 1 ∧
      (out (exec (.bootcmdRecover 0) { rcv 1 1 with dealCeilNew := some 5 })).reqs.length = 1 ∧
      (out (exec (.bootcmdRecover 0) { rcv 1 1 with pfTaken := true })).reqs = [] ∧
      ((rcv 1 1).rdW DEAL_ANONCE).toNat + 1 < ({ rcv 1 1 with dealCeil := 5 } : State).dealCeil) ∧
    (let l := fun pay => { m (f 11 2 0 pay) with clk := 8 }
     (out (exec (.bootcmdLeave 0) (l [1]))).reqs = [] ∧ (out (exec (.bootcmdLeave 0) (l []))).rstReq = none ∧
      (out (exec (.bootcmdLeave 0) (with_ (l []) [(UPD_STAT_RECOV, 1)]))).rstReq = some 8 ∧
      (out (exec (.bootcmdLeave 0) (rcv 1 1))).reqs.length = 1) := by
  refine ⟨fun _ => acts _ rfl rfl, fun _ _ => acts _ rfl rfl, fun _ => acts _ rfl rfl, ?_⟩
  decide +kernel
/-! ### Deals -/

theorem witness_DealRequests :
    let f := fun op a1 pay => fr 0 5 7 op 0 0 a1 9 0 pay
    let d : Deal := { owner := 8, openAt := 3, tmo := 1 }
    let m := fun op a1 pay => asked (f op a1 pay)
    let o := fun op a1 pay => { m op a1 pay with deal := some d }
    let left := fun i (s : State) => (out (exec i s)).reqs.length
    let p : Play := { word := 0, nsec := 0, sec := 0, mac := none, at_ := 2, ok := some true, req := some 4 }
    let c := fun (w : Nat) ok es => { m 5 0 [] with deal := some { d with entries := es, checking := some { p with word := w, ok := ok } } }
    let h := fun es seed (w : Nat) => { ringUp with deal := some { d with entries := es, seed := seed, play := some { p with word := w }, chkEnd := 5, trig := some 9 } }
    (∀ n a l, Acts (m n a l) ∧ Acts (o n a l)) ∧ (∀ w k e, Acts (c w k e)) ∧
    (∀ e n w, Acts (h e n w)) ∧
    (left (.dealOpen 0) (m 4 0x100 []) = 0 ∧ (out (exec (.dealOpen 0) (m 4 0x1FF []))).rd DEAL_STAT_SEED = 1 ∧
      (m 4 0 []).deal = none ∧ left (.dealOpen 0) (o 4 1 []) = 0 ∧ left (.dealOpen 0) (m 5 1 []) = 1 ∧
      ((out (exec (.dealOpen 0) (m 4 255 []))).deal.map (·.tmo)) = some 255) ∧
    (left (.dealFold 0) (m 6 1 []) = 0 ∧ left (.dealFold 0) (m 6 0 []) = 0 ∧ (out (exec (.dealFold 0) (o 6 0 []))).deal = none ∧
      (out (exec (.dealFold 0) (o 6 0 []))).rd DEAL_RES_OUT = 2) ∧
    ((o 5 0 [0, 0]).openDeal 8 = some d ∧ left (.dealPlay 0) (m 5 3 [0, 0]) = 0 ∧ left (.dealPlay 0) (m 5 0 [0, 0]) = 0 ∧
      (o 5 0 [0, 0]).rd (FUR_CTL_EN 3) = 0 ∧ left (.dealPlay 0) (o 5 0x31 [0, 0]) = 0 ∧ left (.dealPlay 0) (o 5 2 [0, 0]) = 0 ∧
      (o 5 0 [0, 0]).dealNeeds d.entries = false ∧
      ((out (exec (.dealPlay 0) (o 5 0 [0, 0]))).deal.bind (·.checking)).map (·.ok) = some (some true) ∧
      ((out (exec (.dealPlay 0) { o 5 0 (List.replicate 10 0) with dealCeilNew := some 4096 })).deal.bind (·.checking)).map (·.ok) = some none ∧
      (o 5 0 []).dealCeil ≤ ((o 5 0 []).rdW DEAL_ANONCE).toNat + 1 ∧
      left (.dealPlay 0) { o 5 0 (List.replicate 10 0) with pfTaken := true } = 0 ∧
      (o 5 0 []).pfRuns = false ∧ (o 5 0 []).nvBuf = [] ∧ (o 5 0 []).rd NVM_PROT_BPB = 0 ∧
      (out (exec (.dealPlay 0) (o 5 0 (List.replicate 10 0)))).dealCeilNew = some 4096 ∧
      (out (exec (.dealPlay 0) { o 5 0 (List.replicate 10 0) with dealCeil := 2 })).rdW DEAL_ANONCE = 1) ∧
    ((out (exec (.dealCheckEnd 0) (c 0 none []))).reqs.length = 1 ∧ (out (exec (.dealCheckEnd 0) (c 0 (some false) []))).rd DEAL_STAT_AUTHFAIL = 1 ∧
      (c 0 (some true) [(MSD_CTL, 0)]).dealCheck [(MSD_CTL, 0)] = some 0 ∧
      (out (exec (.dealCheckEnd 0) (c 0 (some true) [(MSD_CTL, 0)]))).rd DEAL_RES_OUT = 5 ∧
      (c 0 (some true) []).dealCheck [] = none ∧ (out (exec (.dealCheckEnd 0) (c 0 (some true) []))).rd DEAL_STAT_STATE = 2 ∧
      (c 0 (some true) []).reqOf 4 = some (rq (f 5 0 [])) ∧ (out (exec (.dealCheckEnd 0) (c 1 (some true) []))).rd DEAL_RES_OUT = 7) ∧
    ((out (exec (.dealTimeout 0) { o 0 0 [] with clk := 3 + cySec })).rd DEAL_RES_OUT = 3 ∧
      (out (exec (.dealTimeout 0) { o 0 0 [] with clk := 2 + cySec })).deal = some d) ∧
    ((out (exec (.dealApplication 0) (h [] false 0))).rd DEAL_RES_OUT = 1 ∧ (out (exec (.dealApplication 0) (h [] true 1))).rdW DEAL_APPCNT = 1 ∧
      (out (exec (.dealApplication 0) { h [] false 0 with clk := 5 })).rdW DEAL_APPCNT = 0 ∧
      (out (exec (.dealApplication 0) (h [(MSD_CTL, 0)] false 0))).rd DEAL_RES_OUT = 6 ∧
      (out (exec (.dealApplication 0) (h [(MSD_RING 1, 0x88000005)] false 2))).rdW (MSD_RING 1) = 0x88000005) := by
  refine ⟨fun _ _ _ => ⟨acts _ rfl rfl, acts _ rfl rfl⟩, fun _ _ _ => acts _ rfl rfl, fun _ _ _ => acts _ rfl rfl, ?_⟩
  decide +kernel

theorem witness_DealHands :
    let d : Deal := { owner := 1, openAt := 0, tmo := 5 }
    let s := fun w x es => { tz w x with deal := some { d with entries := es } }
    let st := fun i s => ((out (exec i s)).handOf 1 2).xr 3
    let opn := encA 3 1 0 0 8 0x31
    let wr := encA 3 1 2 1 8 0x31
    let fold := encA 3 0 0 3 8 0x31
    let play := encA 3 1 2 2 8 0x31
    let g := fun a => with_ (s wr (xs (BitVec.ofNat 32 a) 0 0) []) [(HDG_DGRANT_V, 0xFFFFFFFF)]
    (∀ w x e, Acts (s w x e)) ∧
    ((tz opn {}).storing 1 2 = false ∧ (tz opn {}).rd HDG_STAT_SAFE = 0 ∧ (tz opn {}).logOf 1 = 1 ∧
      st (.dreqOpen 0 1 2 3 1) (tz opn (xs 256 0 0)) = 4 ∧ st (.dreqOpen 0 1 2 3 1) (s opn (xs 1 0 0) []) = 1 ∧
      ((out (exec (.dreqOpen 0 1 2 3 1) (tz opn (xs 255 0 0)))).deal.map (·.owner)) = some 1 ∧
      st (.dreqOpen 0 1 2 3 1) (with_ (tz opn (xs 1 0 0)) [(HDG_STAT_SAFE, 1)]) = 3) ∧
    (st (.dreqWrite 0 1 2 3 1 2) (tz wr (xs 1 0 0)) = 1 ∧ st (.dreqWrite 0 1 2 3 1 2) (s wr (xs 1 0 0) []) = 3 ∧
      (g 0x1000001).dealGrant 0x1000001 = true ∧ dealable 0x1000001 = false ∧ st (.dreqWrite 0 1 2 3 1 2) (g 0x1000001) = 4 ∧
      (g (PLS_CFG 0)).dealGrant (PLS_CFG 0) = true ∧ (g (PLS_CFG 0)).needsAuth (PLS_CFG 0) 0 = true ∧
      (g (HOP_ROUTE 0)).needsAuth (HOP_ROUTE 0) 0 = false ∧ dealable (HOP_ROUTE 0) = true ∧
      (out (exec (.dreqWrite 0 1 2 3 1 2) (g (HOP_ROUTE 0)))).rd DEAL_STAT_ENTRIES = 1 ∧
      st (.dreqWrite 0 1 2 3 1 2) { g (HOP_ROUTE 0) with deal := some { d with entries := List.replicate 512 (0, 0) } } = 2) ∧
    (st (.dreqFold 0 1 2 3) (tz fold (xs 0 0 9)) = 1 ∧ st (.dreqFold 0 1 2 3) (s fold (xs 0 0 9) []) = 0 ∧
      (out (exec (.dreqFold 0 1 2 3) (s fold {} []))).rd DEAL_RES_OUT = 2) ∧
    (st (.dreqPlay 0 1 2 3 1 2) (tz play (xs 3 0 0)) = 4 ∧ st (.dreqPlay 0 1 2 3 1 2) (tz play (xs 0 0 0)) = 1 ∧
      st (.dreqPlay 0 1 2 3 1 2) (s play (xs 1 0 0) []) = 5 ∧ (s play (xs 0 0 0) []).dealNeeds [] = false ∧
      ((out (exec (.dreqPlay 0 1 2 3 1 2) (s play (xs 0 0 0) []))).handOf 1 2).st = .wait (.deal 3)) := by
  refine ⟨fun _ _ _ => acts _ rfl rfl, ?_⟩
  decide +kernel
/-! ### The modem -/

/-- A node of number 7 with a beacon heard at cycle 0 that granted it slots 1 and 2, at symbol 110 of the period. -/
def node7 : State :=
  { st [(DUO_CTL_EN, 1), (DUO_STAT_NODE, 7), (DUO_STAT_LINK, 2), (HDG_DUO_DUTY, 100)] with
    bcnOk := true, grants := [0, 7, 7] ++ List.replicate 61 0, clk := cySym 110 }

/-- A coordinator at the first symbol of a period. -/
def coord : State := st [(DUO_CTL_EN, 1), (DUO_CTL_ROLE, 1), (DUO_STAT_LINK, 3), (HDG_DUO_DUTY, 100)]

theorem witness_ModemSends :
    let n := node7
    let c := with_ coord [(DUO_STAT_NODE, 0), (DUO_JOINC_VALID 2, 1)]
    let d : TxDesc := { id := 3, addr := 0x100, w0 := 4, pay := 0x200 }
    let q := fun d => { n with duoQ := [d] }
    let off := fun s => with_ s [(HDG_DUO_DUTY, 0)]
    let post := fun s w => out (exec (.duoTxpost 0 (.host 1) w) s)
    let j := { with_ n [(DUO_STAT_NODE, 255)] with grants := List.replicate 64 255, clk := cySym 80 }
    let tx := fun d => { q d with duoTx := some { start := 0, syms := 110, bytes := [], desc := some 3 } }
    let word := fun s => (post s 0x100).load32 0x108
    let withw := fun s (w : Nat) => { s with mem := if w = 0 then [] else [(0x103, BitVec.ofNat 8 w)] }
    (Acts n ∧ Acts c ∧ (∀ d, Acts (q d)) ∧ Acts j ∧ (∀ d, Acts (tx d))) ∧
    (n.rd HDG_STAT_SAFE = 0 ∧ n.rd DUO_STAT_HEDGE = 0 ∧ n.node = 7 ∧ c.node = 0 ∧ j.node = 255) ∧
    (Sparse.get (fun _ => 0) 6 (post n 0x1FFFF0).duoRes = 1 ∧ Sparse.get (fun _ => 0) 6 (post n 0x1FFFF8).duoRes = 3 ∧ Sparse.get (fun _ => 0) 6 (post n 0x200000).duoRes = 3 ∧
      Sparse.get (fun _ => 0) 6 (post { n with duoQ := List.replicate 8 d } 0x100).duoRes = 2 ∧ word j = 0x60000000 ∧
      word (withw n 5) = 0x50000000 ∧ word (withw c 0) = 0x50000000 ∧ word n = 0x10000000 ∧ (post n 0x100).duoQ.length = 1) ∧
    ((out (exec (.beaconSend 0) c)).rd DUO_BCNSEQ_V = 1 ∧ ((out (exec (.beaconSend 0) c)).duoTx.map (·.syms)) = some 78 ∧
      (out (exec (.beaconSend 0) (off c))).rd DUO_HOLDCNT_V = 1 ∧ (out (exec (.beaconSend 0) (with_ c [(DUO_STAT_HEDGE, 1)]))).bcnRun = true ∧
      (out (exec (.beaconSend 0) { c with bcnRun := true })).rd DUO_BCNSEQ_V = 0 ∧ c.dutyCount = 0) ∧
    (((out (exec (.joinSend 0 0) j)).duoTx.map (·.syms)) = some 41 ∧ (out (exec (.joinSend 0 0) (off j))).rd DUO_HOLDCNT_V = 1 ∧
      (out (exec (.joinSend 0 1) j)).duoTx = none ∧ (out (exec (.joinSend 0 0) { j with clk := cySym 81 })).duoTx = none ∧
      (out (exec (.joinSend 0 0) { j with joinAt := some 0 })).duoTx = none ∧ (out (exec (.joinBackoffExpiry 0) { j with joinWait := some 1 })).joinWait = none ∧
      (out (exec (.joinBackoffExpiry 0) { j with joinWait := some 0 })).joinWait = some 0) ∧
    (n.runAt 1 = 2 ∧ n.runAt 2 = 0 ∧ (out (exec (.modemRunStart 0 2) (q d))).duoTx = none ∧
      (out (exec (.modemRunStart 0 1) { q d with clk := cySym 111 })).duoTx = none ∧
      (out (exec (.modemRunStart 0 1) { n with duoOwe := some 5 })).duoOwe = none ∧ n.duoOwe = none ∧
      (out (exec (.modemRunStart 0 1) { off n with duoOwe := some 5 })).rd DUO_HOLDCNT_V = 1 ∧ d.syms + 1 ≤ 60 ∧
      (out (exec (.modemRunStart 0 1) (off (q d)))).rd DUO_HOLDCNT_V = 1 ∧
      (out (exec (.modemRunStart 0 1) (q { d with pay := 0x1FFFFD }))).duoQ = [] ∧
      (out (exec (.modemRunStart 0 1) (q d))).load32 0x108 = 0x20000001 ∧
      (out (exec (.modemRunStart 0 1) (q { d with sent := true, retry := true, att := 3, seq := 9 }))).rd DUO_RETRY_V = 1) ∧
    ((out (exec (.modemTransmitEnd 0) (tx d))).duoQ = [d] ∧ (out (exec (.modemTransmitEnd 0) n)).duoBlank = 0 ∧
      (out (exec (.modemTransmitEnd 0) (tx { d with w0 := 0xFF000004 }))).load32 0x108 = 0x30000000 ∧
      (out (exec (.modemTransmitEnd 0) { tx d with clk := cySym 110 - 1 })).duoTx.isSome = true) ∧
    ((out (exec (.modemAckTimeout 0) (q d))).duoQ = [d] ∧
      (out (exec (.modemAckTimeout 0) (q { d with sent := true, att := 3, lim := cySym 110 }))).duoQ.map (·.retry) = [true] ∧
      (out (exec (.modemAckTimeout 0) (q { d with sent := true, att := 4, due := some (cySym 110 - 1), lim := cySym 200 }))).rd DUO_TXLOST_V = 1) ∧
    ((out (exec (.duoLevelWrite 0 (.host 0) 5) (with_ n [(HDG_DUO_LVLMAX, 5)]))).rd DUO_TXCTL_V = 5 ∧
      (out (exec (.duoLevelWrite 0 (.host 0) 6) (with_ n [(HDG_DUO_LVLMAX, 5)]))).rd DUO_STAT_HEDGE = 1 ∧
      (out (exec (.txenReadbackFault 0) (tx d))).duoTx = none ∧
      (out (exec (.modemHedgeClear 0 (.host 0)) { with_ n [(DUO_STAT_HEDGE, 1)] with clk := cySym 110 })).rd DUO_STAT_HEDGE = 0) ∧
    ((out (exec (.duoDisable 0 (.host 0) 0x40000000) n)).rdW SYS_MAPERR = BitVec.ofNat 32 DUO_CTL ∧
      (out (exec (.duoDisable 0 (.host 0) 0) (q d))).load32 0x108 = 0x70000000 ∧
      (out (exec (.duoDisable 0 (.host 0) 9) (with_ n [(DUO_CTL_EN, 0)]))).rd DUO_CTL_DOMAIN = 9) :=
  ⟨⟨acts _ rfl rfl, acts _ rfl rfl, fun _ => acts _ rfl rfl, acts _ rfl rfl, fun _ => acts _ rfl rfl⟩, by decide +kernel⟩

theorem witness_ModemReceives :
    let n := { node7 with duoDom := 9 }
    let j := { with_ n [(DUO_STAT_NODE, 255), (DUO_CTL_DOMAIN, 65535)] with joinN := some 2 }
    let d : TxDesc := { id := 3, addr := 0x100, w0 := 4, pay := 0x200, sent := true, seq := 6, att := 1 }
    let q := { n with duoQ := [d] }
    let bcn := fun (id : Byte) => [9#8, 0#8, 4#8, 1#8] ++ List.replicate 4 (0#8) ++ List.replicate 64 (7#8) ++ [id, 6#8] ++ List.replicate 126 (255#8)
      ++ List.replicate 8 (0#8) ++ [id] ++ List.replicate 59 (0#8)
    let hear := fun s b => out (exec (.beaconReceive 0 b 3 20 6) s)
    let m := { with_ node7 [(DUO_STAT_NODE, 7)] with clk := cySym 2078, duoMiss := 7, duoQ := [d] }
    let ring := with_ n [(DUO_RXLEN_V, 4), (DUO_RXBASE_V, 8)]
    let get := fun s er fc crc (bs : List Byte) => out (exec (.modemFrameReceive 0 0 40 er fc crc bs 20 6) s)
    let data := fun (dst seq ack fl : Byte) => [0#8, 0#8, dst, seq, ack, fl, 1#8, 0#8, 0xAA#8]
    (Acts n ∧ Acts j ∧ Acts q ∧ Acts m ∧ Acts ring) ∧
    (wfBeacon (bcn 7) = true ∧ (hear n (bcn 7)).rd DUO_BCNSEQ_V = 260 ∧ (hear n (bcn 7)).rd DUO_AGC_GAIN = 6 ∧
      (hear (with_ n [(DUO_CTL_EN, 0)]) (bcn 7)).rd DUO_BCNSEQ_V = 0 ∧ (hear { n with duoDom := 8 } (bcn 7)).rd DUO_BCNSEQ_V = 0 ∧
      (hear q (bcn 7)).duoQ = [] ∧ j.joinAnswer (bcn 7) = some 7 ∧ (hear j (bcn 7)).node = 7 ∧ j.joinAnswer (bcn 255) = none ∧
      (hear j (bcn 255)).joinN = some 3 ∧ (hear { j with joinN := some 3 } (bcn 255)).joinWait = some 0 ∧
      n.rd DUO_CTL_BCNREC = 0 ∧ n.duoQ = []) ∧
    ((out (exec (.beaconMiss 0) m)).load32 0x108 = 0x60000001 ∧ (out (exec (.beaconMiss 0) { m with duoMiss := 6 })).duoMiss = 7 ∧
      (out (exec (.beaconMiss 0) { m with clk := cySym 2078 - 1 })).duoMiss = 7) ∧
    (wfMac (data 7 0 0 0) = true ∧ n.rd MSD_STAT_ACT = 0 ∧ (get { n with duoBlank := cySym 111 } 11 true true []).rd DUO_CRCFAIL_V = 0 ∧
      (get n 11 false true (data 7 0 0 0)).rd DUO_AGC_GAIN = 6 ∧ (get n 11 true true (data 7 0 0 0)).rd DUO_ERFAIL_V = 1 ∧
      (get n 10 true false (data 7 0 0 0)).rd DUO_CRCFAIL_V = 1 ∧
      (get n 0 true true [0, 3, 7, 0, 0, 0, 0, 0]).duoOwe = none ∧ (get q 0 true true (data 7 0 6 1)).duoQ = [] ∧
      (get n 0 true true (data 8 0 0 0)).duoOwe = none ∧ (get { ring with duoLast := [(0, 5)] } 0 true true (data 7 4 0 0)).rd DUO_RXWPTR_V = 0 ∧
      (get ring 10 true true (data 7 4 0 0)).rd DUO_RXWPTR_V = 2 ∧ (get ring 10 true true (data 7 4 0 0)).byte 0x120 = 0xAA#8 ∧
      (get ring 10 true true (data 7 4 0 0)).load32 0x104 = 0x07040A28 ∧ (get ring 10 true true (data 7 4 0 0)).duoOwe = some 4 ∧
      (get (with_ ring [(DUO_RXRPTR_V, 2)]) 0 true true (data 7 4 0 0)).rd DUO_RXDROPCNT_V = 1) ∧
    (let s := { with_ n [(DUO_IMPCTL_V, 10)] with duoE := [5, 6] }
     (out (exec (.modemSymbol 0 61 6) s)).rd DUO_IMPCNT_V = 1 ∧ (out (exec (.modemSymbol 0 50 6) s)).duoE = [50, 5, 6] ∧
      (∀ x ∈ s.duoE, x ^ 10 * 10 ^ 10 < 61 ^ 10) ∧ (∀ x ∈ s.duoE, ¬ x ^ 10 * 10 ^ 10 < 50 ^ 10)) :=
  ⟨⟨acts _ rfl rfl, acts _ rfl rfl, acts _ rfl rfl, acts _ rfl rfl, acts _ rfl rfl⟩, by decide +kernel⟩
/-! ### The yield forecast, the misdeal unit's end, shadows -/

theorem witness_Yield :
    let s := { State.reset with clk := cyDay }
    let m := { with_ s [(MSD_STAT_ACT, 1)] with msdEnd := cyDay, txHeld := [⟨⟨1, fr 1 5 0 1 0 0 0 9 0 [], 0⟩, 5, true⟩] }
    let h := { s with shSeed := [(1, some { key := 0, words := [], at_ := cyDay - 4916 }), (2, some { key := 0, words := [], at_ := cyDay - 4915 }), (3, none)] }
    (Acts s ∧ Acts m ∧ Acts h ∧ Acts { s with clk := 1 }) ∧
    (s.dayClk + cyDay ≤ s.clk ∧ s.nvTaken = [] ∧ s.nvFailed = [] ∧ s.dayClk = 0 ∧ (1 : Nat) < s.dayClk + cyDay ∧
      (out (exec (.yieldDay 0 1 2 3 4 5 6 7) { s with clk := cyDay - 1 })).rd YLD_DAY_V = 0) ∧
    (m.rd MSD_STAT_ACT = 1 ∧ (out (exec (.misdealStop 0 (.host 1)) m)).rd MSD_STAT_CAUSE = 1 ∧
      (out (exec (.misdealDurationExpiry 0) m)).rd MSD_STAT_ACT = 0 ∧ ((out (exec (.misdealDurationExpiry 0) m)).txNow.map (·.ring)) = [1] ∧
      (out (exec (.misdealDurationExpiry 0) { m with msdEnd := cyDay + 1 })).rd MSD_STAT_ACT = 1 ∧
      (out (exec (.misdealStop 0 (.host 1)) s)).rd MSD_STAT_DONE = 0) ∧
    (out (exec (.shadowExpiry 0) h)).shSeed = [(2, some { key := 0, words := [], at_ := cyDay - 4915 })] :=
  ⟨⟨acts _ rfl rfl, acts _ rfl rfl, acts _ rfl rfl, acts _ rfl rfl⟩, by decide +kernel⟩
/-! ### The queue, ill-formed commands, what holds of every step -/

/-- A command whose lists have lengths that no such event has: one for each check, and a well-formed one. -/
theorem test_wf :
    (Instr.frameReceive 0 0 true false 1 0 0 [] 0 0).wf = false ∧ (Instr.sync 0 0 false 0 []).wf = false ∧
    (Instr.calibrationEnd 0 [{ ch := 0, co := [], pga := [0] }]).wf = false ∧ (Instr.beaconReceive 0 [] 0 0 0).wf = false ∧
    (Instr.modemFrameReceive 0 0 0 0 true true [] 0 0).wf = false ∧ (Instr.frameReceive 0 0 true false 1 0 0 [7] 0 0).wf = true := by
  decide +kernel

/-- The commands that `test_wf` finds ill-formed stop. -/
theorem test_stops :
    stops (exec (.frameReceive 0 0 true false 1 0 0 [] 0 0) State.reset) = true ∧
    stops (exec (.sync 0 0 false 0 []) State.reset) = true ∧
    stops (exec (.calibrationEnd 0 [{ ch := 0, co := [], pga := [0] }]) State.reset) = true ∧
    stops (exec (.beaconReceive 0 [] 0 0 0) State.reset) = true ∧
    stops (exec (.modemFrameReceive 0 0 0 0 true true [] 0 0) State.reset) = true := by decide +kernel

/-- The front command runs, the rest waits; an empty queue passes one cycle; no word of the table spells a command. -/
theorem witness_Steps :
    let s := { State.reset with pending := [.commitNow 0, .scrubNow 0] }
    s.pending = .commitNow 0 :: [.scrubNow 0] ∧ (out (step s)).pending = [.scrubNow 0] ∧ (out (step s)).nvC.isSome = true ∧
      State.reset.pending = [] ∧ (out (step State.reset)).clk = 1 ∧ decodeTableWord 32 0 = none ∧
      ∀ s : State, s.withFetchWord 32 0 = s :=
  ⟨rfl, by with_unfolding_all rfl, by decide +kernel, rfl, by decide +kernel, rfl, fun _ => rfl⟩

theorem witness_StepKeeps :
    let s := { State.reset with pending := [.commitNow 0] }
    (∀ c, s.pending.head? = some c → c.wf = true) ∧ s.Inv ∧ s.Fits := by
  refine ⟨?_, by decide +kernel, ?_⟩
  · intro c h; cases h; rfl
  · exact ⟨by decide, by decide, by decide, by decide, by decide, by decide, by decide, fun _ h => nomatch h⟩

theorem witness_Completions :
    let s := { with_ State.reset [(SYS_CLKSTAT_REFLOSS, 1), (bitFld (INT_EN 1 0) 1, 1), (INT_PRI_of 1, 2)] with claims := [(1, 1), (93, 5)] }
    let w := encA 0 4 0 0 3 0x31
    let h := tz w (({} : Hand).setX 4 93#32)
    let p := { s with plough := [(1, { sb := [.idone 2 1#32] })] }
    (Acts s ∧ Acts p) ∧
    ((∀ a ∈ s.claims, ∀ b ∈ s.claims, a.1 = b.1 → a = b) ∧ s.level 1 = true ∧ (1, 1) ∈ s.claims ∧ (1, 2) ∉ s.claims ∧
      (out (exec (.interruptComplete 0 1 1) s)).claims = [(93, 5)] ∧ (out (exec (.interruptComplete 0 1 1) s)).qualifies 1 1 = true ∧
      (out (exec (.interruptComplete 0 2 1) s)).rd INT_BADDONE_TGT = 2 ∧ (out (exec (.interruptComplete 0 2 0) s)).rd INT_BADDONE_COUNT = 1 ∧
      (out (exec (.registerWrite 0 (.host 0) (BitVec.ofNat 32 (INT_DONE 5)) 93) s)).claims = [(1, 1)]) ∧
    ((h.ploughOf 1).sb = [] ∧ ((out (exec (.idone 0 1 2 4) h)).ploughOf 1).sb = [.idone 2 93#32] ∧ p.logOf 1 = 1 ∧
      (out (exec (.storeComplete 0 1 0) p)).claims = [(93, 5)]) :=
  ⟨⟨acts _ rfl rfl, acts _ rfl rfl⟩, by decide +kernel⟩

theorem witness_MailboxFrames :
    let m := fun l => asked (fr 0 5 7 7 0 0 l 9 0 [9])
    (∀ l, Acts (m l)) ∧
    ((m 3).reqs.find? (fun x => !x.busy && decide (x.frame.op ≠ 10)) = some (rq (fr 0 5 7 7 0 0 3 9 0 [9])) ∧
      (m 3).physOf 3 = some 3 ∧ ((out (exec (.mailbox 0) (m 3))).logiOf 3).mail = [(9, 0x90000000)] ∧
      ((out (exec (.mailbox 0) (m 3))).kept.map (·.tag)) = [7] ∧
      ((out (exec (.mailbox 0) { m 3 with logi := [(3, { mail := List.replicate 16 (0, 0) })] })).logiOf 3).mail.length = 16 ∧
      ((out (exec (.mailbox 0) (m 4))).logi) = []) :=
  ⟨fun _ => acts _ rfl rfl, by decide +kernel⟩
end Sys2Proof.Tests
end

section
/-!
SUPPORT. What every shared operation leaves alone: the queue of commands and the clock. Each law is stated against a
state `u` of the same cycle, so that `simp` walks from the result of a chain of operations back to its start.
-/
namespace Sys2Proof.Machine

/-- From `u` to `t` no time passes and no command is taken from the queue or put into it. -/
def State.InCycle (u t : State) : Prop := t.pending = u.pending ∧ t.clk = u.clk

/-- `p` where `c` holds, `q` where it does not: an `if` of which a proof looks at the branches alone. -/
def OnBranch (c p q : Prop) : Prop := (c → p) ∧ (¬ c → q)

@[congr] theorem OnBranch.congr {c p p' q q' : Prop} (hp : p = p') (hq : q = q') : OnBranch c p q = OnBranch c p' q' := by
  rw [hp, hq]

@[simp] theorem OnBranch.self (c p : Prop) : OnBranch c p p ↔ p :=
  ⟨fun h => (Classical.em c).elim h.1 h.2, fun h => ⟨fun _ => h, fun _ => h⟩⟩

section
variable {u : State}

theorem State.InCycle.refl (u : State) : u.InCycle u := ⟨rfl, rfl⟩

/-- An update of other fields than the queue and the clock. -/
@[simp ↓] theorem State.InCycle.mk_iff (a1 a2 a3 a4 a5 a6 a7 a8 a9 a10 a11 a12 a13 f r m x y z v w i) (s : State) :
    u.InCycle (State.mk a1 a2 a3 a4 a5 a6 a7 a8 a9 a10 a11 a12 a13 s.pending s.clk f r m x y z v w i) ↔ u.InCycle s := Iff.rfl

@[simp ↓] theorem State.InCycle.ite_iff {c : Prop} [Decidable c] {s t : State} :
    u.InCycle (if c then s else t) ↔ OnBranch c (u.InCycle s) (u.InCycle t) := by
  split <;> simp [OnBranch, *]

@[simp ↓] theorem State.InCycle.ite_snd_iff {α : Type} {c : Prop} [Decidable c] {s t : α × State} :
    u.InCycle (if c then s else t).2 ↔ OnBranch c (u.InCycle s.2) (u.InCycle t.2) := by
  split <;> simp [OnBranch, *]

@[simp ↓] theorem State.InCycle.ite_snd_snd_iff {α β : Type} {c : Prop} [Decidable c] {s t : α × β × State} :
    u.InCycle (if c then s else t).2.2 ↔ OnBranch c (u.InCycle s.2.2) (u.InCycle t.2.2) := by
  split <;> simp [OnBranch, *]

@[simp ↓] theorem State.InCycle.foldl_iff {α : Type} {l : List α} {f : State → α → State} {s : State}
    (hf : ∀ s x, u.InCycle (f s x) ↔ u.InCycle s) : u.InCycle (l.foldl f s) ↔ u.InCycle s := by
  induction l generalizing s with
  | nil => rfl
  | cons a l ih => exact ih.trans (hf s a)

@[simp ↓] theorem State.InCycle.foldl_snd_iff {α β : Type} {l : List α} {f : β × State → α → β × State} {s : β × State}
    (hf : ∀ s x, u.InCycle (f s x).2 ↔ u.InCycle s.2) : u.InCycle (l.foldl f s).2 ↔ u.InCycle s.2 := by
  induction l generalizing s with
  | nil => rfl
  | cons a l ih => exact ih.trans (hf s a)

@[simp ↓] theorem State.InCycle.getD_iff {o : Option State} {s : State}
    (ho : ∀ t, o = some t → (u.InCycle t ↔ u.InCycle s)) : u.InCycle (o.getD s) ↔ u.InCycle s := by
  cases o with
  | none => rfl
  | some t => exact ho t rfl

@[simp ↓] theorem State.wrW_inCycle (s : State) (a : Nat) (w : Word) : u.InCycle (s.wrW a w) ↔ u.InCycle s := by
  simp [State.wrW]

@[simp ↓] theorem State.wr_inCycle (s : State) (f : Fld) (v : Nat) : u.InCycle (s.wr f v) ↔ u.InCycle s := by
  simp [State.wr]

@[simp ↓] theorem State.wrS_inCycle (s : State) (f : Fld) (z : Int) : u.InCycle (s.wrS f z) ↔ u.InCycle s := by
  simp [State.wrS]

@[simp ↓] theorem State.add_inCycle (s : State) (f : Fld) (n : Nat) : u.InCycle (s.add f n) ↔ u.InCycle s := by
  simp [State.add]

@[simp ↓] theorem State.inc_inCycle (s : State) (f : Fld) : u.InCycle (s.inc f) ↔ u.InCycle s := by
  simp [State.inc]

@[simp ↓] theorem State.repeatFlag_inCycle (s : State) (a i : Nat) : u.InCycle (s.repeatFlag a i) ↔ u.InCycle s := by
  unfold State.repeatFlag
  split <;> simp

@[simp ↓] theorem State.setBit_inCycle (s : State) (a i : Nat) : u.InCycle (s.setBit a i) ↔ u.InCycle s := by
  simp [State.setBit]

@[simp ↓] theorem State.flag_inCycle (s : State) (f : Fld) : u.InCycle (s.flag f) ↔ u.InCycle s := by
  simp [State.flag]

@[simp ↓] theorem State.clrBit_inCycle (s : State) (a i : Nat) : u.InCycle (s.clrBit a i) ↔ u.InCycle s := by
  simp [State.clrBit]

@[simp ↓] theorem State.draw_inCycle (s : State) : u.InCycle (s.draw).2 ↔ u.InCycle s := by
  simp [State.draw]

@[simp ↓] theorem State.setRdata_inCycle (s : State) (o : Nat) (w : Word) :
    u.InCycle (s.setRdata o w) ↔ u.InCycle s := by
  simp [State.setRdata]

@[simp ↓] theorem State.setByte_inCycle (s : State) (a : Nat) (b : Byte) : u.InCycle (s.setByte a b) ↔ u.InCycle s := by
  simp [State.setByte]

@[simp ↓] theorem State.setBytes_inCycle (s : State) (a : Nat) (bs : List Byte) :
    u.InCycle (s.setBytes a bs) ↔ u.InCycle s := by
  simp [State.setBytes]

@[simp ↓] theorem State.store_inCycle (s : State) (a n v : Nat) : u.InCycle (s.store a n v) ↔ u.InCycle s := by
  simp [State.store]

@[simp ↓] theorem State.ffStore_inCycle (s : State) (a n v : Nat) : u.InCycle (s.ffStore a n v) ↔ u.InCycle s := by
  simp [State.ffStore]

@[simp ↓] theorem State.store32_inCycle (s : State) (a v : Nat) : u.InCycle (s.store32 a v) ↔ u.InCycle s := by
  simp [State.store32]

@[simp ↓] theorem State.setFurrow_inCycle (s : State) (n : Nat) (f : Furrow) :
    u.InCycle (s.setFurrow n f) ↔ u.InCycle s := by
  simp [State.setFurrow]

@[simp ↓] theorem State.segPut_inCycle (s : State) (n a r : Nat) : u.InCycle (s.segPut n a r) ↔ u.InCycle s := by
  simp [State.segPut]

@[simp ↓] theorem State.segNow_inCycle (s : State) (n : Nat) : u.InCycle (s.segNow n) ↔ u.InCycle s := by
  simp [State.segNow]

@[simp ↓] theorem State.loadAngle_inCycle (s : State) (n a prev : Nat) :
    u.InCycle (s.loadAngle n a prev) ↔ u.InCycle s := by
  simp [State.loadAngle]

@[simp ↓] theorem State.tbKeep_inCycle (s : State) : u.InCycle (s.tbKeep) ↔ u.InCycle s := by
  simp [State.tbKeep]

@[simp ↓] theorem State.wrWords_inCycle (s : State) (a : Nat) (ws : List Word) :
    u.InCycle (s.wrWords a ws) ↔ u.InCycle s := by
  induction ws generalizing s a with
  | nil => rfl
  | cons w ws ih => exact (ih _ _).trans (State.wrW_inCycle ..)

@[simp ↓] theorem State.logEv_inCycle (s : State) (code a0 a1 a2 : Nat) :
    u.InCycle (s.logEv code a0 a1 a2) ↔ u.InCycle s := by
  simp [State.logEv]

@[simp ↓] theorem State.swapIn_inCycle (s : State) : u.InCycle (s.swapIn) ↔ u.InCycle s := by
  simp [State.swapIn]

@[simp ↓] theorem State.violate_inCycle (s : State) (cls orig num addr : Nat) :
    u.InCycle (s.violate cls orig num addr) ↔ u.InCycle s := by
  simp [State.violate]

@[simp ↓] theorem State.safeCause_inCycle (s : State) (cause : Nat) : u.InCycle (s.safeCause cause) ↔ u.InCycle s := by
  simp [State.safeCause]

@[simp ↓] theorem State.burnNext_inCycle (s : State) : u.InCycle (s.burnNext) ↔ u.InCycle s := by
  simp [State.burnNext]

@[simp ↓] theorem State.otpBitDue_inCycle (s : State) (c : Nat) : u.InCycle (s.otpBitDue c) ↔ u.InCycle s := by
  simp [State.otpBitDue]

@[simp ↓] theorem State.tamperN_inCycle (s : State) (c n : Nat) : u.InCycle (s.tamperN c n) ↔ u.InCycle s := by
  simp [State.tamperN]

@[simp ↓] theorem State.tamper_inCycle (s : State) (c : Nat) : u.InCycle (s.tamper c) ↔ u.InCycle s := by
  simp [State.tamper]

@[simp ↓] theorem State.bicMismatch_inCycle (s : State) (orig addr : Nat) (inj : Bool) :
    u.InCycle (s.bicMismatch orig addr inj) ↔ u.InCycle s := by
  simp [State.bicMismatch]

@[simp ↓] theorem State.refuse_inCycle (s : State) (orig addr : Nat) (isWrite : Bool) :
    u.InCycle (s.refuse orig addr isWrite) ↔ u.InCycle s := by
  simp [State.refuse]

@[simp ↓] theorem State.took_inCycle (s : State) (o p : Nat) : u.InCycle (s.took o p) ↔ u.InCycle s := by
  simp [State.took]

@[simp ↓] theorem State.revMark_inCycle (s : State) (a : Nat) (was : Word) :
    u.InCycle (s.revMark a was) ↔ u.InCycle s := by
  simp [State.revMark]

@[simp ↓] theorem State.setSeedTarget_inCycle (s : State) (i a : Nat) :
    u.InCycle (s.setSeedTarget i a) ↔ u.InCycle s := by
  simp [State.setSeedTarget]

@[simp ↓] theorem State.seedSpent_inCycle (s : State) (i : Nat) : u.InCycle (s.seedSpent i) ↔ u.InCycle s := by
  simp [State.seedSpent]

@[simp ↓] theorem State.sowFlag_inCycle (s : State) (f : Fld) (i : Nat) : u.InCycle (s.sowFlag f i) ↔ u.InCycle s := by
  simp [State.sowFlag]

@[simp ↓] theorem State.seedEval_inCycle (s : State) (i : Nat) : u.InCycle (s.seedEval i) ↔ u.InCycle s := by
  simp [State.seedEval]

@[simp ↓] theorem State.seedsReeval_inCycle (s : State) (sel : Nat → Bool) :
    u.InCycle (s.seedsReeval sel) ↔ u.InCycle s := by
  simp [State.seedsReeval]

@[simp ↓] theorem State.seedArm_inCycle (s : State) (i : Nat) (w : Word) : u.InCycle (s.seedArm i w) ↔ u.InCycle s := by
  simp [State.seedArm]

@[simp ↓] theorem State.seedDisarm_inCycle (s : State) (i : Nat) (w : Word) :
    u.InCycle (s.seedDisarm i w) ↔ u.InCycle s := by
  simp [State.seedDisarm]

@[simp ↓] theorem State.seedWrite_inCycle (s : State) (i k : Nat) (w : Word) :
    u.InCycle (s.seedWrite i k w) ↔ u.InCycle s := by
  simp [State.seedWrite]

@[simp ↓] theorem State.setSeedShadow_inCycle (s : State) (o : Nat) (h : Option Shadow) :
    u.InCycle (s.setSeedShadow o h) ↔ u.InCycle s := by
  simp [State.setSeedShadow]

@[simp ↓] theorem State.seedRead_inCycle (s : State) (o i k : Nat) : u.InCycle (s.seedRead o i k).2 ↔ u.InCycle s := by
  unfold State.seedRead
  (repeat' split) <;> simp

@[simp ↓] theorem State.furCfgErr_inCycle (s : State) (n : Nat) : u.InCycle (s.furCfgErr n) ↔ u.InCycle s := by
  simp [State.furCfgErr]

@[simp ↓] theorem State.furRestart_inCycle (s : State) (n : Nat) : u.InCycle (s.furRestart n) ↔ u.InCycle s := by
  simp [State.furRestart]

@[simp ↓] theorem State.rsMark_inCycle (s : State) (n : Nat) : u.InCycle (s.rsMark n) ↔ u.InCycle s := by
  simp [State.rsMark]

@[simp ↓] theorem State.loopSet_inCycle (s : State) (n : Nat) (e : Int) : u.InCycle (s.loopSet n e) ↔ u.InCycle s := by
  simp [State.loopSet]

@[simp ↓] theorem State.loopOff_inCycle (s : State) (n : Nat) : u.InCycle (s.loopOff n) ↔ u.InCycle s := by
  simp [State.loopOff]

@[simp ↓] theorem State.lockWatch_inCycle (s : State) (n : Nat) : u.InCycle (s.lockWatch n) ↔ u.InCycle s := by
  simp [State.lockWatch]

@[simp ↓] theorem State.furFollow_inCycle (s : State) (n : Nat) : u.InCycle (s.furFollow n) ↔ u.InCycle s := by
  simp [State.furFollow]

@[simp ↓] theorem State.srcFix_inCycle (s : State) (n ang rate : Nat) :
    u.InCycle (s.srcFix n ang rate) ↔ u.InCycle s := by
  simp [State.srcFix]

@[simp ↓] theorem State.srcPhasor_inCycle (s : State) (n amp ang rate : Nat) :
    u.InCycle (s.srcPhasor n amp ang rate) ↔ u.InCycle s := by
  simp [State.srcPhasor]

@[simp ↓] theorem State.holdEnter_inCycle (s : State) (n : Nat) : u.InCycle (s.holdEnter n) ↔ u.InCycle s := by
  simp [State.holdEnter]

@[simp ↓] theorem State.furEnable_inCycle (s : State) (n : Nat) : u.InCycle (s.furEnable n) ↔ u.InCycle s := by
  unfold State.furEnable
  simp

@[simp ↓] theorem State.furStop_inCycle (s : State) (n : Nat) : u.InCycle (s.furStop n) ↔ u.InCycle s := by
  simp [State.furStop]

@[simp ↓] theorem State.cycCheck_inCycle (s : State) (n : Nat) : u.InCycle (s.cycCheck n) ↔ u.InCycle s := by
  simp [State.cycCheck]

@[simp ↓] theorem State.holdEnd_inCycle (s : State) (n : Nat) : u.InCycle (s.holdEnd n) ↔ u.InCycle s := by
  simp [State.holdEnd]

@[simp ↓] theorem State.holdExit_inCycle (s : State) (n : Nat) : u.InCycle (s.holdExit n) ↔ u.InCycle s := by
  simp [State.holdExit]

@[simp ↓] theorem State.holdDone_inCycle (s : State) (n : Nat) : u.InCycle (s.holdDone n) ↔ u.InCycle s := by
  simp [State.holdDone]

@[simp ↓] theorem State.furSrcWrite_inCycle (s : State) (n : Nat) (w : Word) :
    u.InCycle (s.furSrcWrite n w) ↔ u.InCycle s := by
  simp [State.furSrcWrite]

@[simp ↓] theorem State.pulseEdge_inCycle (s : State) (n : Nat) : u.InCycle (s.pulseEdge n) ↔ u.InCycle s := by
  simp [State.pulseEdge]

@[simp ↓] theorem State.indexPulse_inCycle (s : State) (n : Nat) : u.InCycle (s.indexPulse n) ↔ u.InCycle s := by
  simp [State.indexPulse]

@[simp ↓] theorem State.countEdge_inCycle (s : State) (n : Nat) (up : Bool) :
    u.InCycle (s.countEdge n up) ↔ u.InCycle s := by
  simp [State.countEdge]

@[simp ↓] theorem State.furWithSrc_inCycle (s : State) (src : Nat) (f : State → Nat → State) (hf : ∀ t n, u.InCycle (f
    t n) ↔ u.InCycle t) : u.InCycle (s.furWithSrc src f) ↔ u.InCycle s := by
  unfold State.furWithSrc
  simp [*]

@[simp ↓] theorem State.forcehSet_inCycle (s : State) (n : Nat) : u.InCycle (s.forcehSet n) ↔ u.InCycle s := by
  simp [State.forcehSet]

@[simp ↓] theorem State.forcehClear_inCycle (s : State) (n : Nat) : u.InCycle (s.forcehClear n) ↔ u.InCycle s := by
  simp [State.forcehClear]

@[simp ↓] theorem State.claim_inCycle (s : State) (t : Nat) : u.InCycle (s.claim t).2 ↔ u.InCycle s := by
  unfold State.claim
  split <;> simp

@[simp ↓] theorem State.complete_inCycle (s : State) (t i : Nat) : u.InCycle (s.complete t i) ↔ u.InCycle s := by
  simp [State.complete]

@[simp ↓] theorem State.completeAll_inCycle (s : State) (t : Nat) : u.InCycle (s.completeAll t) ↔ u.InCycle s := by
  simp [State.completeAll]

@[simp ↓] theorem State.setChan_inCycle (s : State) (c : Nat) (h : Chan) : u.InCycle (s.setChan c h) ↔ u.InCycle s := by
  simp [State.setChan]

@[simp ↓] theorem State.putExponents_inCycle (s : State) (c : Nat) : u.InCycle (s.putExponents c) ↔ u.InCycle s := by
  simp [State.putExponents]

@[simp ↓] theorem State.shiftWrite_inCycle (s : State) (c : Nat) (w : Word) :
    u.InCycle (s.shiftWrite c w) ↔ u.InCycle s := by
  simp [State.shiftWrite]

@[simp ↓] theorem State.cmpWrite_inCycle (s : State) (k r : Nat) (w : Word) :
    u.InCycle (s.cmpWrite k r w) ↔ u.InCycle s := by
  unfold State.cmpWrite
  split <;> simp

@[simp ↓] theorem State.cmpSample_inCycle (s : State) (k : Nat) (h : List Word) :
    u.InCycle (s.cmpSample k h) ↔ u.InCycle s := by
  simp [State.cmpSample]

@[simp ↓] theorem State.cmpReturn_inCycle (s : State) (k : Nat) : u.InCycle (s.cmpReturn k) ↔ u.InCycle s := by
  simp [State.cmpReturn]

@[simp ↓] theorem State.tripPush_inCycle (s : State) (k : Nat) (ts : List Word) :
    u.InCycle (s.tripPush k ts) ↔ u.InCycle s := by
  simp [State.tripPush]

@[simp ↓] theorem State.tripRead_inCycle (s : State) (o k : Nat) : u.InCycle (s.tripRead o k).2 ↔ u.InCycle s := by
  unfold State.tripRead
  (repeat' split) <;> simp

@[simp ↓] theorem State.setField_inCycle (s : State) (f : Nat) (x : Field) :
    u.InCycle (s.setField f x) ↔ u.InCycle s := by
  simp [State.setField]

@[simp ↓] theorem State.setBin_inCycle (s : State) (b : Nat) (z : Int) : u.InCycle (s.setBin b z) ↔ u.InCycle s := by
  simp [State.setBin]

@[simp ↓] theorem State.granaryRead_inCycle (s : State) (o b w : Nat) :
    u.InCycle (s.granaryRead o b w).2 ↔ u.InCycle s := by
  simp [State.granaryRead]

@[simp ↓] theorem State.snapRead_inCycle (s : State) (c o k w : Nat) :
    u.InCycle (s.snapRead c o k w).2 ↔ u.InCycle s := by
  simp [State.snapRead]

@[simp ↓] theorem State.scntRead_inCycle (s : State) (o k : Nat) : u.InCycle (s.scntRead o k).2 ↔ u.InCycle s := by
  unfold State.scntRead
  (repeat' split) <;> simp

@[simp ↓] theorem State.progWrite_inCycle (s : State) (b orig : Nat) (set thr : Bool) (z : Int) :
    u.InCycle (s.progWrite b orig set thr z) ↔ u.InCycle s := by
  simp [State.progWrite]

@[simp ↓] theorem State.snapRequest_inCycle (s : State) (fields : Nat) (aligned : Bool) :
    u.InCycle (s.snapRequest fields aligned).2 ↔ u.InCycle s := by
  unfold State.snapRequest
  simp
  split <;> simp

@[simp ↓] theorem State.ovInc_inCycle (s : State) (f : Fld) (bit : Nat) : u.InCycle (s.ovInc f bit) ↔ u.InCycle s := by
  simp [State.ovInc]

@[simp ↓] theorem State.setHopQ_inCycle (s : State) (l : Nat) (q : List HopE) :
    u.InCycle (s.setHopQ l q) ↔ u.InCycle s := by
  simp [State.setHopQ]

@[simp ↓] theorem State.hopPush_inCycle (s : State) (rank l : Nat) (e : HopE) (gapped : Bool) :
    u.InCycle (s.hopPush rank l e gapped) ↔ u.InCycle s := by
  simp [State.hopPush]

@[simp ↓] theorem State.hopPop_inCycle (s : State) (l : Nat) (q : List HopE) :
    u.InCycle (s.hopPop l q) ↔ u.InCycle s := by
  simp [State.hopPop]

@[simp ↓] theorem State.hopRouted_inCycle (s : State) (route kind key tag : Nat) (v : Word) :
    u.InCycle (s.hopRouted route kind key tag v) ↔ u.InCycle s := by
  simp [State.hopRouted]

@[simp ↓] theorem State.hopStream_inCycle (s : State) (kind ch c : Nat) (v : Word) :
    u.InCycle (s.hopStream kind ch c v) ↔ u.InCycle s := by
  simp [State.hopStream]

@[simp ↓] theorem State.hopResampled_inCycle (s : State) (n ch k cyc : Nat) (v : Word) :
    u.InCycle (s.hopResampled n ch k cyc v) ↔ u.InCycle s := by
  simp [State.hopResampled]

@[simp ↓] theorem State.hopGleaner_inCycle (s : State) (inj : Bool) (e code c r : Nat) :
    u.InCycle (s.hopGleaner inj e code c r) ↔ u.InCycle s := by
  simp [State.hopGleaner]

@[simp ↓] theorem State.hopRms_inCycle (s : State) (m fw : Nat) (half : Bool) (cyc : Nat) (v : Word) :
    u.InCycle (s.hopRms m fw half cyc v) ↔ u.InCycle s := by
  simp [State.hopRms]

@[simp ↓] theorem State.hopThresher_inCycle (s : State) (poster : Option Nat) (suit state err cnt addr : Nat) :
    u.InCycle (s.hopThresher poster suit state err cnt addr) ↔ u.InCycle s := by
  simp [State.hopThresher]

@[simp ↓] theorem State.quotaWrite_inCycle (s : State) (l : Nat) (w : Word) :
    u.InCycle (s.quotaWrite l w) ↔ u.InCycle s := by
  simp [State.quotaWrite]

@[simp ↓] theorem State.glnRegNext_inCycle (s : State) : u.InCycle (s.glnRegNext) ↔ u.InCycle s := by
  simp [State.glnRegNext]

@[simp ↓] theorem State.glnRegBegin_inCycle (s : State) : u.InCycle (s.glnRegBegin) ↔ u.InCycle s := by
  simp [State.glnRegBegin]

@[simp ↓] theorem State.glnRegStart_inCycle (s : State) : u.InCycle (s.glnRegStart) ↔ u.InCycle s := by
  simp [State.glnRegStart]

@[simp ↓] theorem State.glnInject_inCycle (s : State) : u.InCycle (s.glnInject) ↔ u.InCycle s := by
  simp [State.glnInject]

@[simp ↓] theorem State.glnCompare_inCycle (s : State) (w code x : Nat) :
    u.InCycle (s.glnCompare w code x) ↔ u.InCycle s := by
  simp [State.glnCompare]

@[simp ↓] theorem State.glnSeqWrite_inCycle (s : State) (a : Nat) (w : Word) :
    u.InCycle (s.glnSeqWrite a w) ↔ u.InCycle s := by
  simp [State.glnSeqWrite]

@[simp ↓] theorem State.glnCmpWrite_inCycle (s : State) (w r : Nat) (v : Word) :
    u.InCycle (s.glnCmpWrite w r v) ↔ u.InCycle s := by
  unfold State.glnCmpWrite
  (repeat' split) <;> simp

@[simp ↓] theorem State.glnCtlWrite_inCycle (s : State) (w : Word) : u.InCycle (s.glnCtlWrite w) ↔ u.InCycle s := by
  simp [State.glnCtlWrite]

@[simp ↓] theorem State.setSilo_inCycle (s : State) (b : Nat) (x : Silo) : u.InCycle (s.setSilo b x) ↔ u.InCycle s := by
  simp [State.setSilo]

@[simp ↓] theorem State.siloRecord_inCycle (s : State) (b : Nat) : u.InCycle (s.siloRecord b) ↔ u.InCycle s := by
  simp [State.siloRecord]

@[simp ↓] theorem State.siloTrigger_inCycle (s : State) (fuel_ : Nat) (b_ : Nat) (cause_ : Nat) (num_ : Nat) (inst_ :
    Nat) (back_ : Bool) : u.InCycle (s.siloTrigger fuel_ b_ cause_ num_ inst_ back_) ↔ u.InCycle s := by
  induction fuel_ generalizing s b_ cause_ num_ inst_ back_ with
  | zero => rfl
  | succ n ih => simp [State.siloTrigger, ih]

@[simp ↓] theorem State.siloArm_inCycle (s : State) (b : Nat) : u.InCycle (s.siloArm b) ↔ u.InCycle s := by
  simp [State.siloArm]

@[simp ↓] theorem State.siloStop_inCycle (s : State) (b : Nat) : u.InCycle (s.siloStop b) ↔ u.InCycle s := by
  simp [State.siloStop]

@[simp ↓] theorem State.siloPut_inCycle (s : State) (b j k n v fl : Nat) :
    u.InCycle (s.siloPut b j k n v fl) ↔ u.InCycle s := by
  simp [State.siloPut]

@[simp ↓] theorem State.siloNext_inCycle (s : State) (b j k v fl : Nat) :
    u.InCycle (s.siloNext b j k v fl) ↔ u.InCycle s := by
  unfold State.siloNext
  simp

@[simp ↓] theorem State.siloSample_inCycle (s : State) (kind k v fl : Nat) (group : Bool) :
    u.InCycle (s.siloSample kind k v fl group) ↔ u.InCycle s := by
  simp [State.siloSample]

@[simp ↓] theorem State.siloCfgWrite_inCycle (s : State) (b a : Nat) (w m : Word) :
    u.InCycle (s.siloCfgWrite b a w m) ↔ u.InCycle s := by
  simp [State.siloCfgWrite]

@[simp ↓] theorem State.wfRecord_inCycle (s : State) (b j k : Nat) : u.InCycle (s.wfRecord b j k).2 ↔ u.InCycle s := by
  unfold State.wfRecord
  simp
  split <;> simp

@[simp ↓] theorem State.wfWrite_inCycle (s : State) (b : Nat) (y0 : List (Nat × Nat)) (y1 : Nat) :
    u.InCycle (s.wfWrite b y0 y1) ↔ u.InCycle s := by
  induction y0 generalizing s y1 with
  | nil => simp [State.wfWrite]
  | cons e ws ih => simp [State.wfWrite, ih]

@[simp ↓] theorem State.setLane_inCycle (s : State) (k : Nat) (x : Option Lane) :
    u.InCycle (s.setLane k x) ↔ u.InCycle s := by
  simp [State.setLane]

@[simp ↓] theorem State.thrWord7_inCycle (s : State) (addr state err cnt : Nat) :
    u.InCycle (s.thrWord7 addr state err cnt) ↔ u.InCycle s := by
  simp [State.thrWord7]

@[simp ↓] theorem State.thrDone_inCycle (s : State) (addr suit : Nat) (poster : Option Nat) (w0 state err cnt : Nat) :
    u.InCycle (s.thrDone addr suit poster w0 state err cnt) ↔ u.InCycle s := by
  simp [State.thrDone]

@[simp ↓] theorem State.jobEnd_inCycle (s : State) (j : Job) (state err : Nat) :
    u.InCycle (s.jobEnd j state err) ↔ u.InCycle s := by
  simp [State.jobEnd]

@[simp ↓] theorem State.thrStart_inCycle (s : State) (lane : Option Nat) (job cost : Nat) (data : List Nat) :
    u.InCycle (s.thrStart lane job cost data) ↔ u.InCycle s := by
  simp [State.thrStart]

@[simp ↓] theorem State.jobSet_inCycle (s : State) (j k : Job) : u.InCycle (s.jobSet j k) ↔ u.InCycle s := by
  simp [State.jobSet]

@[simp ↓] theorem State.freeWords_inCycle (s : State) (n : Nat) : u.InCycle (s.freeWords n).2 ↔ u.InCycle s := by
  simp [State.freeWords]

@[simp ↓] theorem State.cycWords_inCycle (s : State) (n cyc : Nat) : u.InCycle (s.cycWords n cyc).2 ↔ u.InCycle s := by
  unfold State.cycWords
  split <;> simp

@[simp ↓] theorem State.storeWords_inCycle (s : State) (a : Nat) (ws : List Word) :
    u.InCycle (s.storeWords a ws) ↔ u.InCycle s := by
  simp [State.storeWords]

@[simp ↓] theorem State.harmHeader_inCycle (s : State) (ws : List Nat) : u.InCycle (s.harmHeader ws) ↔ u.InCycle s := by
  simp [State.harmHeader]

@[simp ↓] theorem State.harmNext_inCycle (s : State) (j : Job) : u.InCycle (s.harmNext j) ↔ u.InCycle s := by
  unfold State.harmNext
  (repeat' split) <;> simp

@[simp ↓] theorem State.foob_inCycle (s : State) (ws : List Nat) : u.InCycle (s.foob ws).2 ↔ u.InCycle s := by
  unfold State.foob
  simp
  split <;> simp

@[simp ↓] theorem State.binResult_inCycle (s : State) (dest b gsc : Nat) (v : Word) :
    u.InCycle (s.binResult dest b gsc v) ↔ u.InCycle s := by
  unfold State.binResult
  split <;> simp

@[simp ↓] theorem State.binResults_inCycle (s : State) (dest b gsc : Nat) (vs : List Word) :
    u.InCycle (s.binResults dest b gsc vs) ↔ u.InCycle s := by
  simp [State.binResults]

@[simp ↓] theorem State.harmWrite_inCycle (s : State) (j : Job) (c : Nat) (data : List Nat) :
    u.InCycle (s.harmWrite j c data) ↔ u.InCycle s := by
  simp [State.harmWrite]

@[simp ↓] theorem State.jobTake_inCycle (s : State) (j : Job) : u.InCycle (s.jobTake j) ↔ u.InCycle s := by
  unfold State.jobTake
  simp
  split <;> simp

@[simp ↓] theorem State.jobWakes_inCycle (s : State) : u.InCycle (s.jobWakes) ↔ u.InCycle s := by
  simp [State.jobWakes]

@[simp ↓] theorem State.thrChoose_inCycle (s : State) (fuel_ : Nat) : u.InCycle (s.thrChoose fuel_) ↔ u.InCycle s := by
  induction fuel_ generalizing s with
  | zero => rfl
  | succ n ih =>
    unfold State.thrChoose
    (repeat' split) <;> simp [ih]

@[simp ↓] theorem State.thrNext_inCycle (s : State) : u.InCycle (s.thrNext) ↔ u.InCycle s := by
  simp [State.thrNext]

@[simp ↓] theorem State.laneRecord_inCycle (s : State) (k : Nat) (l : Lane) :
    u.InCycle (s.laneRecord k l) ↔ u.InCycle s := by
  simp [State.laneRecord]

@[simp ↓] theorem State.thrFinish_inCycle (s : State) (r : ThrRun) : u.InCycle (s.thrFinish r) ↔ u.InCycle s := by
  unfold State.thrFinish
  simp
  (repeat' split) <;> simp

@[simp ↓] theorem State.harmLast_inCycle (s : State) : u.InCycle (s.harmLast) ↔ u.InCycle s := by
  unfold State.harmLast
  split <;> simp

@[simp ↓] theorem State.thrFurrowOff_inCycle (s : State) (n : Nat) : u.InCycle (s.thrFurrowOff n) ↔ u.InCycle s := by
  simp [State.thrFurrowOff]

@[simp ↓] theorem State.setThrRes_inCycle (s : State) (o r : Nat) : u.InCycle (s.setThrRes o r) ↔ u.InCycle s := by
  simp [State.setThrRes]

@[simp ↓] theorem State.thrPost_inCycle (s : State) (o suit : Nat) (poster : Option Nat) (a : Nat) :
    u.InCycle (s.thrPost o suit poster a).2 ↔ u.InCycle s := by
  unfold State.thrPost
  (repeat' split) <;> simp

@[simp ↓] theorem State.thrCancel_inCycle (s : State) (a : Nat) : u.InCycle (s.thrCancel a) ↔ u.InCycle s := by
  unfold State.thrCancel
  (repeat' split) <;> simp

@[simp ↓] theorem State.laneSample_inCycle (s : State) (c : Nat) (w : Word) :
    u.InCycle (s.laneSample c w) ↔ u.InCycle s := by
  unfold State.laneSample
  (repeat' split) <;> simp

@[simp ↓] theorem State.setHand_inCycle (s : State) (p h : Nat) (x : Hand) :
    u.InCycle (s.setHand p h x) ↔ u.InCycle s := by
  simp [State.setHand]

@[simp ↓] theorem State.setPlough_inCycle (s : State) (p : Nat) (x : Plough) :
    u.InCycle (s.setPlough p x) ↔ u.InCycle s := by
  simp [State.setPlough]

@[simp ↓] theorem State.setLogi_inCycle (s : State) (l : Nat) (x : Logi) : u.InCycle (s.setLogi l x) ↔ u.InCycle s := by
  simp [State.setLogi]

@[simp ↓] theorem State.handIdle_inCycle (s : State) (p h : Nat) : u.InCycle (s.handIdle p h) ↔ u.InCycle s := by
  simp [State.handIdle]

@[simp ↓] theorem State.handsIdle_inCycle (s : State) (p : Nat) : u.InCycle (s.handsIdle p) ↔ u.InCycle s := by
  simp [State.handsIdle]

@[simp ↓] theorem State.startReq_inCycle (s : State) (l vec word : Nat) :
    u.InCycle (s.startReq l vec word).2 ↔ u.InCycle s := by
  simp [State.startReq]

@[simp ↓] theorem State.startOwn_inCycle (s : State) (l vec word : Nat) :
    u.InCycle (s.startOwn l vec word) ↔ u.InCycle s := by
  simp [State.startOwn]

@[simp ↓] theorem State.v15Place_inCycle (s : State) (l : Nat) : u.InCycle (s.v15Place l) ↔ u.InCycle s := by
  simp [State.v15Place]

@[simp ↓] theorem State.startTaken_inCycle (s : State) (l : Nat) (r : StartReq) :
    u.InCycle (s.startTaken l r) ↔ u.InCycle s := by
  simp [State.startTaken]

@[simp ↓] theorem State.raise_inCycle (s : State) (p h pc cause : Nat) :
    u.InCycle (s.raise p h pc cause) ↔ u.InCycle s := by
  simp [State.raise]

@[simp ↓] theorem State.clearTile_inCycle (s : State) (f : Nat) : u.InCycle (s.clearTile f) ↔ u.InCycle s := by
  simp [State.clearTile]

@[simp ↓] theorem State.swapGo_inCycle (s : State) (l p f : Nat) : u.InCycle (s.swapGo l p f) ↔ u.InCycle s := by
  simp [State.swapGo]

@[simp ↓] theorem State.drained_inCycle (s : State) (p : Nat) : u.InCycle (s.drained p) ↔ u.InCycle s := by
  unfold State.drained
  (repeat' split) <;> simp

@[simp ↓] theorem State.drainFor_inCycle (s : State) (l p k st t : Nat) :
    u.InCycle (s.drainFor l p k st t) ↔ u.InCycle s := by
  simp [State.drainFor]

@[simp ↓] theorem State.restart_inCycle (s : State) (l : Nat) : u.InCycle (s.restart l) ↔ u.InCycle s := by
  unfold State.restart
  split <;> simp

@[simp ↓] theorem State.swapPlough_inCycle (s : State) (l p f : Nat) : u.InCycle (s.swapPlough l p f) ↔ u.InCycle s :=
    by
  simp [State.swapPlough]

@[simp ↓] theorem State.expire_inCycle (s : State) (l : Nat) : u.InCycle (s.expire l) ↔ u.InCycle s := by
  unfold State.expire
  simp
  (repeat' split) <;> simp

@[simp ↓] theorem State.regRefuse_inCycle (s : State) (orig a : Nat) : u.InCycle (s.regRefuse orig a) ↔ u.InCycle s :=
    by
  simp [State.regRefuse]

@[simp ↓] theorem State.kick_inCycle (s : State) (o : Orig) (l : Nat) (w : Word) :
    u.InCycle (s.kick o l w).2 ↔ u.InCycle s := by
  unfold State.kick
  (repeat' split) <;> simp

@[simp ↓] theorem State.plgCmd_inCycle (s : State) (o : Orig) (w : Word) : u.InCycle (s.plgCmd o w).2 ↔ u.InCycle s :=
    by
  unfold State.plgCmd
  simp
  (repeat' split) <;> simp

@[simp ↓] theorem State.setStartRes_inCycle (s : State) (o r : Nat) : u.InCycle (s.setStartRes o r) ↔ u.InCycle s := by
  simp [State.setStartRes]

@[simp ↓] theorem State.plgStart_inCycle (s : State) (o : Orig) (w : Word) :
    u.InCycle (s.plgStart o w) ↔ u.InCycle s := by
  simp [State.plgStart]

@[simp ↓] theorem State.mailSend_inCycle (s : State) (l : Nat) (data sender : Word) :
    u.InCycle (s.mailSend l data sender).2 ↔ u.InCycle s := by
  simp [State.mailSend]

@[simp ↓] theorem State.jobPost_inCycle (s : State) (o : Orig) (a : Nat) :
    u.InCycle (s.jobPost o a).2 ↔ u.InCycle s := by
  unfold State.jobPost
  split <;> simp

@[simp ↓] theorem State.mailFrame_inCycle (s : State) (r l : Nat) (data : Word) :
    u.InCycle (s.mailFrame r l data).2 ↔ u.InCycle s := by
  simp [State.mailFrame]

@[simp ↓] theorem State.fill_inCycle (s : State) (p pc : Nat) : u.InCycle (s.fill p pc) ↔ u.InCycle s := by
  unfold State.fill
  simp
  split <;> simp

@[simp ↓] theorem State.issued_inCycle (s : State) (p h : Nat) (w : Word) :
    u.InCycle (s.issued p h w) ↔ u.InCycle s := by
  simp [State.issued]

@[simp ↓] theorem State.issue_inCycle (s : State) (p h : Nat) (w : Word) (f : Hand → State → State) (hf : ∀ d t,
    u.InCycle (f d t) ↔ u.InCycle t) : u.InCycle (s.issue p h w f) ↔ u.InCycle s := by
  unfold State.issue
  simp [*]

@[simp ↓] theorem State.retire_inCycle (s : State) (p h : Nat) (hd : Hand) (c : Nat) :
    u.InCycle (s.retire p h hd c) ↔ u.InCycle s := by
  simp [State.retire]

@[simp ↓] theorem State.regOp_inCycle (s : State) (p h : Nat) (w : Word) (c : Nat) (g : Hand → Hand) :
    u.InCycle (s.regOp p h w c g) ↔ u.InCycle s := by
  simp [State.regOp]

@[simp ↓] theorem State.handWait_inCycle (s : State) (p h : Nat) (w : Wait) :
    u.InCycle (s.handWait p h w) ↔ u.InCycle s := by
  simp [State.handWait]

@[simp ↓] theorem State.afterStores_inCycle (s : State) (p h : Nat) (f : State → State) (hf : ∀ t, u.InCycle (f t) ↔
    u.InCycle t) : u.InCycle (s.afterStores p h f) ↔ u.InCycle s := by
  unfold State.afterStores
  simp [*]

@[simp ↓] theorem State.post_inCycle (s : State) (p h : Nat) (hd : Hand) (c : Nat) (x : Post) :
    u.InCycle (s.post p h hd c x) ↔ u.InCycle s := by
  simp [State.post]

@[simp ↓] theorem State.dataRefused_inCycle (s : State) (p h pc a : Nat) (wr reg : Bool) :
    u.InCycle (s.dataRefused p h pc a wr reg) ↔ u.InCycle s := by
  simp [State.dataRefused]

@[simp ↓] theorem State.engWrite_inCycle (s : State) (ws : List NvWord) : u.InCycle (s.engWrite ws) ↔ u.InCycle s := by
  simp [State.engWrite]

@[simp ↓] theorem State.recordPut_inCycle (s : State) (type len a b : Nat) (pl : List Nat) :
    u.InCycle (s.recordPut type len a b pl) ↔ u.InCycle s := by
  simp [State.recordPut]

@[simp ↓] theorem State.addBin_inCycle (s : State) (f o : Nat) (z : Int) : u.InCycle (s.addBin f o z) ↔ u.InCycle s :=
    by
  simp [State.addBin]

@[simp ↓] theorem State.fieldFlags_inCycle (s : State) (f m : Nat) : u.InCycle (s.fieldFlags f m) ↔ u.InCycle s := by
  simp [State.fieldFlags]

@[simp ↓] theorem State.withdraw_inCycle (s : State) (f r : Nat) (x : IvRow) :
    u.InCycle (s.withdraw f r x) ↔ u.InCycle s := by
  simp [State.withdraw]

@[simp ↓] theorem State.addDir_inCycle (s : State) (f o : Nat) (p : Int) : u.InCycle (s.addDir f o p) ↔ u.InCycle s :=
    by
  simp [State.addDir]

@[simp ↓] theorem State.addQuad_inCycle (s : State) (f o : Nat) (p q : Int) :
    u.InCycle (s.addQuad f o p q) ↔ u.InCycle s := by
  simp [State.addQuad]

@[simp ↓] theorem State.closeIv_inCycle (s : State) (f : Nat) : u.InCycle (s.closeIv f) ↔ u.InCycle s := by
  simp [State.closeIv]

@[simp ↓] theorem State.feedRound_inCycle (s : State) (f : Nat) : u.InCycle (s.feedRound f) ↔ u.InCycle s := by
  simp [State.feedRound]

@[simp ↓] theorem State.elemRound_inCycle (s : State) (f e : Nat) (adv : Bool) (xv xi : Int) (q : Quad) :
    u.InCycle (s.elemRound f e adv xv xi q) ↔ u.InCycle s := by
  simp [State.elemRound]

@[simp ↓] theorem State.fieldRound_inCycle (s : State) (t f : Nat) : u.InCycle (s.fieldRound t f) ↔ u.InCycle s := by
  simp [State.fieldRound]

@[simp ↓] theorem State.fieldTry_inCycle (s : State) (t f : Nat) : u.InCycle (s.fieldTry t f) ↔ u.InCycle s := by
  simp [State.fieldTry]

@[simp ↓] theorem State.setPulse_inCycle (s : State) (n : Nat) (p : Pulse) :
    u.InCycle (s.setPulse n p) ↔ u.InCycle s := by
  simp [State.setPulse]

@[simp ↓] theorem State.plsMoved_inCycle (s t : State) : u.InCycle (s.plsMoved t) ↔ u.InCycle t := by
  simp [State.plsMoved]

@[simp ↓] theorem State.pulseAdd_inCycle (s : State) (n : Nat) (z : Int) : u.InCycle (s.pulseAdd n z) ↔ u.InCycle s :=
    by
  simp [State.pulseAdd]

@[simp ↓] theorem State.pulsesFollow_inCycle (s : State) : u.InCycle (s.pulsesFollow) ↔ u.InCycle s := by
  simp [State.pulsesFollow]

@[simp ↓] theorem State.pulsesResync_inCycle (s : State) (f : Nat) : u.InCycle (s.pulsesResync f) ↔ u.InCycle s := by
  simp [State.pulsesResync]

@[simp ↓] theorem State.cfgBoundary_inCycle (s : State) (f : Nat) : u.InCycle (s.cfgBoundary f) ↔ u.InCycle s := by
  unfold State.cfgBoundary
  split <;> simp

@[simp ↓] theorem State.cfgReach_inCycle (s : State) (f e : Nat) : u.InCycle (s.cfgReach f e) ↔ u.InCycle s := by
  simp [State.cfgReach]

@[simp ↓] theorem State.snapField1_inCycle (s : State) (q : SnapReq) (f : Nat) :
    u.InCycle (s.snapField1 q f) ↔ u.InCycle s := by
  unfold State.snapField1
  (repeat' split) <;> simp

@[simp ↓] theorem State.snapsDue_inCycle (s : State) : u.InCycle (s.snapsDue) ↔ u.InCycle s := by
  simp [State.snapsDue]

@[simp ↓] theorem State.hcStates_inCycle (s : State) (f k : Nat) (w : Word) :
    u.InCycle (s.hcStates f k w) ↔ u.InCycle s := by
  simp [State.hcStates]

@[simp ↓] theorem State.tallyRound_inCycle (s : State) : u.InCycle (s.tallyRound) ↔ u.InCycle s := by
  simp [State.tallyRound]

@[simp ↓] theorem State.cfgNext_inCycle (s : State) (f : Nat) : u.InCycle (s.cfgNext f) ↔ u.InCycle s := by
  simp [State.cfgNext]

@[simp ↓] theorem State.plsHand_inCycle (s : State) (k : Nat) (x : Option Nat) :
    u.InCycle (s.plsHand k x) ↔ u.InCycle s := by
  simp [State.plsHand]

@[simp ↓] theorem State.setBank_inCycle (s : State) (o : Nat) (b : NvBank) :
    u.InCycle (s.setBank o b) ↔ u.InCycle s := by
  simp [State.setBank]

@[simp ↓] theorem State.nvPush_inCycle (s : State) (o : Nat) (crib : Bool) (addr mask data : Nat) :
    u.InCycle (s.nvPush o crib addr mask data).2 ↔ u.InCycle s := by
  unfold State.nvPush
  simp
  split <;> simp

@[simp ↓] theorem State.pushWrite_inCycle (s : State) (o : Nat) (hi : Word) :
    u.InCycle (s.pushWrite o hi).2 ↔ u.InCycle s := by
  simp [State.pushWrite]

@[simp ↓] theorem State.carried_inCycle (s : State) (c : Commit) : u.InCycle (s.carried c) ↔ u.InCycle s := by
  simp [State.carried]

@[simp ↓] theorem State.cribBegin_inCycle (s : State) (y0 : List CribPage) :
    u.InCycle (s.cribBegin y0) ↔ u.InCycle s := by
  induction y0 generalizing s with
  | nil => rfl
  | cons p ps ih => simp [State.cribBegin, ih]

@[simp ↓] theorem State.barnPut_inCycle (s : State) (a v : Nat) : u.InCycle (s.barnPut a v) ↔ u.InCycle s := by
  simp [State.barnPut]

@[simp ↓] theorem State.commitWord_inCycle (s : State) (w : NvWord) : u.InCycle (s.commitWord w) ↔ u.InCycle s := by
  simp [State.commitWord]

@[simp ↓] theorem State.pageDone_inCycle (s : State) (p : CribPage) : u.InCycle (s.pageDone p) ↔ u.InCycle s := by
  simp [State.pageDone]

@[simp ↓] theorem State.copyRun_inCycle (s : State) : u.InCycle (s.copyRun) ↔ u.InCycle s := by
  unfold State.copyRun
  split <;> simp

@[simp ↓] theorem State.engStep_inCycle (s : State) : u.InCycle (s.engStep) ↔ u.InCycle s := by
  simp [State.engStep]

@[simp ↓] theorem State.commitNote_inCycle (s : State) (num start t : Nat) :
    u.InCycle (s.commitNote num start t) ↔ u.InCycle s := by
  simp [State.commitNote]

@[simp ↓] theorem State.nvmRun_inCycle (s : State) : u.InCycle (s.nvmRun) ↔ u.InCycle s := by
  unfold State.nvmRun
  simp
  (repeat' split) <;> simp

@[simp ↓] theorem State.nvBoundary_inCycle (s : State) : u.InCycle (s.nvBoundary) ↔ u.InCycle s := by
  unfold State.nvBoundary
  split <;> simp

@[simp ↓] theorem State.commitStart_inCycle (s : State) (kind : Nat) : u.InCycle (s.commitStart kind) ↔ u.InCycle s :=
    by
  unfold State.commitStart
  simp

@[simp ↓] theorem State.commitReq_inCycle (s : State) (kind : Nat) : u.InCycle (s.commitReq kind) ↔ u.InCycle s := by
  simp [State.commitReq]

@[simp ↓] theorem State.commitHeld_inCycle (s : State) : u.InCycle (s.commitHeld) ↔ u.InCycle s := by
  simp [State.commitHeld]

@[simp ↓] theorem State.commitStall_inCycle (s : State) : u.InCycle (s.commitStall) ↔ u.InCycle s := by
  simp [State.commitStall]

@[simp ↓] theorem State.commitFail_inCycle (s : State) (kind : Nat) : u.InCycle (s.commitFail kind) ↔ u.InCycle s := by
  unfold State.commitFail
  split <;> simp

@[simp ↓] theorem State.commitEnd_inCycle (s : State) (c : Commit) : u.InCycle (s.commitEnd c) ↔ u.InCycle s := by
  simp [State.commitEnd]

@[simp ↓] theorem State.rowBad_inCycle (s : State) (row cause : Nat) : u.InCycle (s.rowBad row cause) ↔ u.InCycle s :=
    by
  simp [State.rowBad]

@[simp ↓] theorem State.scrub_inCycle (s : State) (sgl dbl : List (Fin 8192)) :
    u.InCycle (s.scrub sgl dbl) ↔ u.InCycle s := by
  simp [State.scrub]

@[simp ↓] theorem State.copyStart_inCycle (s : State) : u.InCycle (s.copyStart) ↔ u.InCycle s := by
  simp [State.copyStart]

@[simp ↓] theorem State.nvCut_inCycle (s : State) : u.InCycle (s.nvCut) ↔ u.InCycle s := by
  unfold State.nvCut
  simp
  (repeat' split) <;> simp

@[simp ↓] theorem State.nvmCmd_inCycle (s : State) (x : Nat) : u.InCycle (s.nvmCmd x) ↔ u.InCycle s := by
  simp [State.nvmCmd]

@[simp ↓] theorem State.pfClose_inCycle (s : State) (c : Commit) : u.InCycle (s.pfClose c) ↔ u.InCycle s := by
  simp [State.pfClose]

@[simp ↓] theorem State.inject_inCycle (s : State) (o a : Nat) : u.InCycle (s.inject o a) ↔ u.InCycle s := by
  simp [State.inject]

@[simp ↓] theorem State.mismatch_inCycle (s : State) (o a k : Nat) : u.InCycle (s.mismatch o a k).2 ↔ u.InCycle s := by
  simp [State.mismatch]

@[simp ↓] theorem State.eccRead_inCycle (s : State) (a k : Nat) : u.InCycle (s.eccRead a k).2 ↔ u.InCycle s := by
  simp [State.eccRead]

@[simp ↓] theorem State.access_inCycle (s : State) (o a k : Nat) : u.InCycle (s.access o a k).2 ↔ u.InCycle s := by
  simp [State.access]

@[simp ↓] theorem State.flagNote_inCycle (s : State) (c : Nat) : u.InCycle (s.flagNote c) ↔ u.InCycle s := by
  unfold State.flagNote
  simp
  split <;> simp

@[simp ↓] theorem State.flagsKeep_inCycle (s : State) : u.InCycle (s.flagsKeep) ↔ u.InCycle s := by
  simp [State.flagsKeep]

@[simp ↓] theorem State.calStep_inCycle (s : State) (c : Nat) : u.InCycle (s.calStep c) ↔ u.InCycle s := by
  simp [State.calStep]

@[simp ↓] theorem State.tamperBk_inCycle (s : State) (c : Nat) : u.InCycle (s.tamperBk c) ↔ u.InCycle s := by
  simp [State.tamperBk]

@[simp ↓] theorem State.tamperAny_inCycle (s : State) (c : Nat) : u.InCycle (s.tamperAny c) ↔ u.InCycle s := by
  simp [State.tamperAny]

@[simp ↓] theorem State.dstSet_inCycle (s : State) : u.InCycle (s.dstSet) ↔ u.InCycle s := by
  simp [State.dstSet]

@[simp ↓] theorem State.dstClear_inCycle (s : State) : u.InCycle (s.dstClear) ↔ u.InCycle s := by
  simp [State.dstClear]

@[simp ↓] theorem State.almAct_inCycle (s : State) (a : Nat) : u.InCycle (s.almAct a) ↔ u.InCycle s := by
  simp [State.almAct]

@[simp ↓] theorem State.calTick_inCycle (s : State) : u.InCycle (s.calTick) ↔ u.InCycle s := by
  simp [State.calTick]

@[simp ↓] theorem State.badWr_inCycle (s : State) : u.InCycle (s.badWr) ↔ u.InCycle s := by
  simp [State.badWr]

@[simp ↓] theorem State.adjust_inCycle (s : State) (o mag addr : Nat) :
    u.InCycle (s.adjust o mag addr).2 ↔ u.InCycle s := by
  simp [State.adjust]

@[simp ↓] theorem State.shift_inCycle (s : State) (n : Int) : u.InCycle (s.shift n) ↔ u.InCycle s := by
  simp [State.shift]

@[simp ↓] theorem State.calSet_inCycle (s : State) (u_ : Nat) : u.InCycle (s.calSet u_) ↔ u.InCycle s := by
  simp [State.calSet]

@[simp ↓] theorem State.bkApply_inCycle (s : State) (o a : Nat) (w : Word) :
    u.InCycle (s.bkApply o a w) ↔ u.InCycle s := by
  unfold State.bkApply
  simp
  split <;> simp

@[simp ↓] theorem State.bkWrite_inCycle (s : State) (o a : Nat) (w : Word) :
    u.InCycle (s.bkWrite o a w) ↔ u.InCycle s := by
  simp [State.bkWrite]

@[simp ↓] theorem State.bkFlush_inCycle (s : State) : u.InCycle (s.bkFlush) ↔ u.InCycle s := by
  simp [State.bkFlush]

@[simp ↓] theorem State.bkDeal_inCycle (s : State) (o a : Nat) (w : Word) :
    u.InCycle (s.bkDeal o a w) ↔ u.InCycle s := by
  simp [State.bkDeal]

@[simp ↓] theorem State.isolate_inCycle (s : State) : u.InCycle (s.isolate) ↔ u.InCycle s := by
  simp [State.isolate]

@[simp ↓] theorem State.tbStep_inCycle (s : State) (n : Nat) : u.InCycle (s.tbStep n) ↔ u.InCycle s := by
  simp [State.tbStep]

@[simp ↓] theorem State.tbTrim_inCycle (s : State) (z : Int) : u.InCycle (s.tbTrim z) ↔ u.InCycle s := by
  simp [State.tbTrim]

@[simp ↓] theorem State.tbLoadNow_inCycle (s : State) (sec ns : Nat) : u.InCycle (s.tbLoadNow sec ns) ↔ u.InCycle s :=
    by
  simp [State.tbLoadNow]

@[simp ↓] theorem State.tbCmd_inCycle (s : State) (o op : Nat) : u.InCycle (s.tbCmd o op) ↔ u.InCycle s := by
  simp [State.tbCmd]

@[simp ↓] theorem State.discChange_inCycle (s : State) (was now : Nat) :
    u.InCycle (s.discChange was now) ↔ u.InCycle s := by
  simp [State.discChange]

@[simp ↓] theorem State.servo_inCycle (s : State) (z : Int) : u.InCycle (s.servo z) ↔ u.InCycle s := by
  simp [State.servo]

@[simp ↓] theorem State.ppsMiss_inCycle (s : State) : u.InCycle (s.ppsMiss) ↔ u.InCycle s := by
  simp [State.ppsMiss]

@[simp ↓] theorem State.ppsAcquire_inCycle (s : State) (e z : Int) : u.InCycle (s.ppsAcquire e z) ↔ u.InCycle s := by
  simp [State.ppsAcquire]

@[simp ↓] theorem State.ppsEdge_inCycle (s : State) (z : Int) : u.InCycle (s.ppsEdge z) ↔ u.InCycle s := by
  unfold State.ppsEdge
  extract_lets early s1 s2 e s3
  have h2 : u.InCycle s2 ↔ u.InCycle s := by
    unfold s2
    split <;> simp [s1]
  have h3 : u.InCycle s3 ↔ u.InCycle s := by simp [s3, h2]
  clear_value s2 s3 early
  simp [h2]
  split <;> simp +zetaDelta [h3]

@[simp ↓] theorem State.follow_inCycle (s : State) : u.InCycle (s.follow) ↔ u.InCycle s := by
  unfold State.follow
  (repeat' split) <;> simp

@[simp ↓] theorem State.calRead_inCycle (s : State) (o k : Nat) : u.InCycle (s.calRead o k).2 ↔ u.InCycle s := by
  simp [State.calRead]

@[simp ↓] theorem State.hedgeWrite_inCycle (s : State) (r : Nat) (w : Word) :
    u.InCycle (s.hedgeWrite r w) ↔ u.InCycle s := by
  simp [State.hedgeWrite]

@[simp ↓] theorem State.safeLeave_inCycle (s : State) : u.InCycle (s.safeLeave) ↔ u.InCycle s := by
  simp [State.safeLeave]

@[simp ↓] theorem State.hdgCmd_inCycle (s : State) (w : Word) : u.InCycle (s.hdgCmd w) ↔ u.InCycle s := by
  simp [State.hdgCmd]

@[simp ↓] theorem State.loopBit_inCycle (s : State) (n : Nat) (ok : Bool) :
    u.InCycle (s.loopBit n ok) ↔ u.InCycle s := by
  simp [State.loopBit]

@[simp ↓] theorem State.calBegin_inCycle (s : State) (k : Cal) : u.InCycle (s.calBegin k) ↔ u.InCycle s := by
  simp [State.calBegin]

@[simp ↓] theorem State.calNext_inCycle (s : State) : u.InCycle (s.calNext) ↔ u.InCycle s := by
  unfold State.calNext
  split <;> simp

@[simp ↓] theorem State.calEnd_inCycle (s : State) : u.InCycle (s.calEnd) ↔ u.InCycle s := by
  simp [State.calEnd]

@[simp ↓] theorem State.chcfgWrite_inCycle (s : State) (c : Nat) (w : Word) :
    u.InCycle (s.chcfgWrite c w) ↔ u.InCycle s := by
  simp [State.chcfgWrite]

@[simp ↓] theorem State.shadowAgain_inCycle (s : State) (c t : Nat) : u.InCycle (s.shadowAgain c t) ↔ u.InCycle s := by
  simp [State.shadowAgain]

@[simp ↓] theorem State.reassign_inCycle (s : State) (c : Nat) : u.InCycle (s.reassign c) ↔ u.InCycle s := by
  simp [State.reassign]

@[simp ↓] theorem State.chcfgTake_inCycle (s : State) (c : Nat) : u.InCycle (s.chcfgTake c) ↔ u.InCycle s := by
  simp [State.chcfgTake]

@[simp ↓] theorem State.putCoefs_inCycle (s : State) (c sl : Nat) (x : Coefs) :
    u.InCycle (s.putCoefs c sl x) ↔ u.InCycle s := by
  simp [State.putCoefs]

@[simp ↓] theorem State.excursions_inCycle (s : State) (c sl n : Nat) :
    u.InCycle (s.excursions c sl n) ↔ u.InCycle s := by
  simp [State.excursions]

@[simp ↓] theorem State.coefLoad_inCycle (s : State) (c sl : Nat) (x : Coefs) :
    u.InCycle (s.coefLoad c sl x) ↔ u.InCycle s := by
  simp [State.coefLoad]

@[simp ↓] theorem State.blindMove_inCycle (s : State) (c sl : Nat) (x : Coefs) :
    u.InCycle (s.blindMove c sl x) ↔ u.InCycle s := by
  simp [State.blindMove]

@[simp ↓] theorem State.putShadow_inCycle (s : State) (c sl : Nat) (r : Residual) (x : Coefs) :
    u.InCycle (s.putShadow c sl r x) ↔ u.InCycle s := by
  simp [State.putShadow]

@[simp ↓] theorem State.stepTo_inCycle (s : State) (c step : Nat) : u.InCycle (s.stepTo c step) ↔ u.InCycle s := by
  simp [State.stepTo]

@[simp ↓] theorem State.rotStart_inCycle (s : State) : u.InCycle (s.rotStart) ↔ u.InCycle s := by
  simp [State.rotStart]

@[simp ↓] theorem State.rotChange_inCycle (s : State) (q : Nat) : u.InCycle (s.rotChange q) ↔ u.InCycle s := by
  unfold State.rotChange
  split <;> simp

@[simp ↓] theorem State.phaseMark_inCycle (s : State) (c : Nat) : u.InCycle (s.phaseMark c) ↔ u.InCycle s := by
  simp [State.phaseMark]

@[simp ↓] theorem State.handover_inCycle (s : State) (c : Nat) (r : Residual) (x : Coefs) :
    u.InCycle (s.handover c r x) ↔ u.InCycle s := by
  simp [State.handover]

@[simp ↓] theorem State.retired_inCycle (s : State) (c sl cause : Nat) :
    u.InCycle (s.retired c sl cause) ↔ u.InCycle s := by
  simp [State.retired]

@[simp ↓] theorem State.takePhase_inCycle (s : State) (c sl : Nat) : u.InCycle (s.takePhase c sl) ↔ u.InCycle s := by
  simp [State.takePhase]

@[simp ↓] theorem State.retireBegin_inCycle (s : State) (c sl cause : Nat) :
    u.InCycle (s.retireBegin c sl cause) ↔ u.InCycle s := by
  simp [State.retireBegin]

@[simp ↓] theorem State.putPga_inCycle (s : State) (c : Nat) (all : Bool) (pga : List Int) :
    u.InCycle (s.putPga c all pga) ↔ u.InCycle s := by
  unfold State.putPga
  simp
  split <;> simp

@[simp ↓] theorem State.calChannel_inCycle (s : State) (all : Bool) (o : CalOut) :
    u.InCycle (s.calChannel all o) ↔ u.InCycle s := by
  unfold State.calChannel
  simp
  split <;> simp

@[simp ↓] theorem State.anaCmd_inCycle (s : State) (w : Word) : u.InCycle (s.anaCmd w) ↔ u.InCycle s := by
  simp [State.anaCmd]

@[simp ↓] theorem State.gangPut_inCycle (s : State) (k m : Nat) : u.InCycle (s.gangPut k m) ↔ u.InCycle s := by
  simp [State.gangPut]

@[simp ↓] theorem State.gangWrite_inCycle (s : State) (k : Nat) (w : Word) :
    u.InCycle (s.gangWrite k w) ↔ u.InCycle s := by
  simp [State.gangWrite]

@[simp ↓] theorem State.refCUp_inCycle (s : State) : u.InCycle (s.refCUp) ↔ u.InCycle s := by
  simp [State.refCUp]

@[simp ↓] theorem State.refRetire_inCycle (s : State) (r : Nat) : u.InCycle (s.refRetire r) ↔ u.InCycle s := by
  simp [State.refRetire]

@[simp ↓] theorem State.disagree_inCycle (s : State) (d : Int) : u.InCycle (s.disagree d) ↔ u.InCycle s := by
  simp [State.disagree]

@[simp ↓] theorem State.slcCmd_inCycle (s : State) (op c sl : Nat) : u.InCycle (s.slcCmd op c sl) ↔ u.InCycle s := by
  unfold State.slcCmd
  (repeat' split) <;> simp

@[simp ↓] theorem State.slcCtlWrite_inCycle (s : State) (w : Word) : u.InCycle (s.slcCtlWrite w) ↔ u.InCycle s := by
  simp [State.slcCtlWrite]

@[simp ↓] theorem State.slcTolWrite_inCycle (s : State) (w : Word) : u.InCycle (s.slcTolWrite w) ↔ u.InCycle s := by
  simp [State.slcTolWrite]

@[simp ↓] theorem State.logWrite_inCycle (s : State) (r : LogRec) : u.InCycle (s.logWrite r) ↔ u.InCycle s := by
  unfold State.logWrite
  extract_lets q
  split <;> simp

@[simp ↓] theorem State.yldItem_inCycle (s : State) (i : Nat) : u.InCycle (s.yldItem i) ↔ u.InCycle s := by
  simp [State.yldItem]

@[simp ↓] theorem State.yldRun_inCycle (s : State) : u.InCycle (s.yldRun) ↔ u.InCycle s := by
  simp [State.yldRun]

@[simp ↓] theorem State.yldEvents_inCycle (s : State) : u.InCycle (s.yldEvents) ↔ u.InCycle s := by
  simp [State.yldEvents]

@[simp ↓] theorem State.yldMeasure_inCycle (s : State) (cell cycles : Word) (osc : List Word) :
    u.InCycle (s.yldMeasure cell cycles osc) ↔ u.InCycle s := by
  unfold State.yldMeasure
  simp

@[simp ↓] theorem State.yldStore_inCycle (s : State) (day : Nat) (vals : List Nat) :
    u.InCycle (s.yldStore day vals) ↔ u.InCycle s := by
  simp [State.yldStore]

@[simp ↓] theorem State.yldLoad_inCycle (s : State) : u.InCycle (s.yldLoad) ↔ u.InCycle s := by
  unfold State.yldLoad
  extract_lets days sorted cold s1 s2
  clear_value days sorted cold
  have h2 : u.InCycle s2 ↔ u.InCycle s := by
    unfold s2
    split <;> simp [s1]
  clear_value s2
  split <;> simp [h2]

@[simp ↓] theorem State.msdStop_inCycle (s : State) (k : Nat) : u.InCycle (s.msdStop k) ↔ u.InCycle s := by
  simp [State.msdStop]

@[simp ↓] theorem State.msdStart_inCycle (s : State) : u.InCycle (s.msdStart) ↔ u.InCycle s := by
  simp [State.msdStart]

@[simp ↓] theorem State.msdSelect_inCycle (s : State) (p : Nat) : u.InCycle (s.msdSelect p).2 ↔ u.InCycle s := by
  simp [State.msdSelect]

@[simp ↓] theorem State.dutyHold_inCycle (s : State) : u.InCycle (s.dutyHold) ↔ u.InCycle s := by
  simp [State.dutyHold]

@[simp ↓] theorem State.duoSend_inCycle (s : State) (syms : Nat) (bytes : List Byte) (desc : Option Nat) :
    u.InCycle (s.duoSend syms bytes desc) ↔ u.InCycle s := by
  simp [State.duoSend]

@[simp ↓] theorem State.duoQuiet_inCycle (s : State) : u.InCycle (s.duoQuiet) ↔ u.InCycle s := by
  simp [State.duoQuiet]

@[simp ↓] theorem State.duoHedge_inCycle (s : State) : u.InCycle (s.duoHedge) ↔ u.InCycle s := by
  simp [State.duoHedge]

@[simp ↓] theorem State.descState_inCycle (s : State) (d : TxDesc) (st : Nat) :
    u.InCycle (s.descState d st) ↔ u.InCycle s := by
  simp [State.descState]

@[simp ↓] theorem State.descEnd_inCycle (s : State) (d : TxDesc) (st : Nat) :
    u.InCycle (s.descEnd d st) ↔ u.InCycle s := by
  simp [State.descEnd]

@[simp ↓] theorem State.descDone_inCycle (s : State) (d : TxDesc) : u.InCycle (s.descDone d) ↔ u.InCycle s := by
  simp [State.descDone]

@[simp ↓] theorem State.descPut_inCycle (s : State) (d : TxDesc) : u.InCycle (s.descPut d) ↔ u.InCycle s := by
  simp [State.descPut]

@[simp ↓] theorem State.acked_inCycle (s : State) (n seq : Nat) : u.InCycle (s.acked n seq) ↔ u.InCycle s := by
  unfold State.acked
  split <;> simp

@[simp ↓] theorem State.setNode_inCycle (s : State) (n : Nat) : u.InCycle (s.setNode n) ↔ u.InCycle s := by
  simp [State.setNode]

@[simp ↓] theorem State.descAll_inCycle (s : State) (st : Nat) : u.InCycle (s.descAll st) ↔ u.InCycle s := by
  simp [State.descAll]

@[simp ↓] theorem State.periodStart_inCycle (s : State) : u.InCycle (s.periodStart) ↔ u.InCycle s := by
  simp [State.periodStart]

@[simp ↓] theorem State.periodLost_inCycle (s : State) : u.InCycle (s.periodLost) ↔ u.InCycle s := by
  simp [State.periodLost]

@[simp ↓] theorem State.txPost_inCycle (s : State) (o : Nat) (a : Nat) : u.InCycle (s.txPost o a) ↔ u.InCycle s := by
  simp [State.txPost]

@[simp ↓] theorem State.rxStore_inCycle (s : State) (a w : Nat) : u.InCycle (s.rxStore a w) ↔ u.InCycle s := by
  simp [State.rxStore]

@[simp ↓] theorem State.rxPut_inCycle (s : State) (ws : List Nat) : u.InCycle (s.rxPut ws) ↔ u.InCycle s := by
  simp [State.rxPut]

@[simp ↓] theorem State.rxRecord_inCycle (s : State) (mode sy er snr : Nat) (bs : List Byte) :
    u.InCycle (s.rxRecord mode sy er snr bs) ↔ u.InCycle s := by
  simp [State.rxRecord]

@[simp ↓] theorem State.setGain_inCycle (s : State) (g : Nat) : u.InCycle (s.setGain g) ↔ u.InCycle s := by
  simp [State.setGain]

@[simp ↓] theorem State.sendDesc_inCycle (s : State) (d : TxDesc) : u.InCycle (s.sendDesc d) ↔ u.InCycle s := by
  simp [State.sendDesc]

@[simp ↓] theorem State.msdModem_inCycle (s : State) (sy er : Nat) (crc : Bool) :
    u.InCycle (s.msdModem sy er crc).2.2 ↔ u.InCycle s := by
  simp [State.msdModem]

@[simp ↓] theorem State.duoAccept_inCycle (s : State) (mode sy er snr : Nat) (bs : List Byte) :
    u.InCycle (s.duoAccept mode sy er snr bs) ↔ u.InCycle s := by
  simp [State.duoAccept]

@[simp ↓] theorem State.duoOff_inCycle (s : State) : u.InCycle (s.duoOff) ↔ u.InCycle s := by
  simp [State.duoOff]

@[simp ↓] theorem State.duoOn_inCycle (s : State) : u.InCycle (s.duoOn) ↔ u.InCycle s := by
  simp [State.duoOn]

@[simp ↓] theorem State.duoCtl_inCycle (s : State) (w : Word) : u.InCycle (s.duoCtl w) ↔ u.InCycle s := by
  simp [State.duoCtl]

@[simp ↓] theorem State.duoLevel_inCycle (s : State) (o : Nat) (w : Word) :
    u.InCycle (s.duoLevel o w) ↔ u.InCycle s := by
  simp [State.duoLevel]

@[simp ↓] theorem State.txGo_inCycle (s : State) (t : TxFrame) : u.InCycle (s.txGo t) ↔ u.InCycle s := by
  unfold State.txGo
  simp
  split <;> simp

@[simp ↓] theorem State.txPut_inCycle (s : State) (r : Nat) (f : Frame) (bad : Nat) (own : Bool) :
    u.InCycle (s.txPut r f bad own) ↔ u.InCycle s := by
  unfold State.txPut
  simp
  split <;> simp

@[simp ↓] theorem State.slotShow_inCycle (s : State) : u.InCycle (s.slotShow) ↔ u.InCycle s := by
  simp [State.slotShow]

@[simp ↓] theorem State.respFrame_inCycle (s : State) (q : Frame) (status : Nat) (arg1 arg2 : Option Nat) (pay : List
    Word) : u.InCycle (s.respFrame q status arg1 arg2 pay).2 ↔ u.InCycle s := by
  simp [State.respFrame]

@[simp ↓] theorem State.answer_inCycle (s : State) (ring : Nat) (q : Frame) (fs : List Frame) :
    u.InCycle (s.answer ring q fs) ↔ u.InCycle s := by
  simp [State.answer]

@[simp ↓] theorem State.reqFree_inCycle (s : State) (id : Nat) : u.InCycle (s.reqFree id) ↔ u.InCycle s := by
  simp [State.reqFree]

@[simp ↓] theorem State.respondAll_inCycle (s : State) (q : Request) (fs : List Frame) :
    u.InCycle (s.respondAll q fs) ↔ u.InCycle s := by
  simp [State.respondAll]

@[simp ↓] theorem State.respond_inCycle (s : State) (q : Request) (status : Nat) (arg2 : Option Nat) (pay : List Word) :
    u.InCycle (s.respond q status arg2 pay) ↔ u.InCycle s := by
  simp [State.respond]

@[simp ↓] theorem State.respondId_inCycle (s : State) (id status : Nat) (arg2 : Option Nat) (pay : List Word) :
    u.InCycle (s.respondId id status arg2 pay) ↔ u.InCycle s := by
  unfold State.respondId
  split <;> simp

@[simp ↓] theorem State.reqBusy_inCycle (s : State) (id : Nat) : u.InCycle (s.reqBusy id) ↔ u.InCycle s := by
  simp [State.reqBusy]

@[simp ↓] theorem State.dealShow_inCycle (s : State) (auth : Bool) : u.InCycle (s.dealShow auth) ↔ u.InCycle s := by
  unfold State.dealShow
  split <;> simp

@[simp ↓] theorem State.dealEnd_inCycle (s : State) (res idx : Nat) : u.InCycle (s.dealEnd res idx) ↔ u.InCycle s := by
  simp [State.dealEnd]

@[simp ↓] theorem State.dealHand_inCycle (s : State) (w : Option (Nat × Nat × Nat)) (st : Nat) :
    u.InCycle (s.dealHand w st) ↔ u.InCycle s := by
  unfold State.dealHand
  split <;> simp

@[simp ↓] theorem State.dealLate_inCycle (s : State) (res idx : Nat) : u.InCycle (s.dealLate res idx) ↔ u.InCycle s :=
    by
  simp [State.dealLate]

@[simp ↓] theorem State.dealFurOff_inCycle (s : State) (n : Nat) : u.InCycle (s.dealFurOff n) ↔ u.InCycle s := by
  unfold State.dealFurOff
  (repeat' split) <;> simp

@[simp ↓] theorem State.dealPlough_inCycle (s : State) : u.InCycle (s.dealPlough) ↔ u.InCycle s := by
  unfold State.dealPlough
  split <;> simp

@[simp ↓] theorem State.dealSeed_inCycle (s : State) : u.InCycle (s.dealSeed) ↔ u.InCycle s := by
  unfold State.dealSeed
  (repeat' split) <;> simp

@[simp ↓] theorem State.updShow_inCycle (s : State) : u.InCycle (s.updShow) ↔ u.InCycle s := by
  simp [State.updShow]

@[simp ↓] theorem State.setMark_inCycle (s : State) (k : Nat) (m : List Nat) :
    u.InCycle (s.setMark k m) ↔ u.InCycle s := by
  simp [State.setMark]

@[simp ↓] theorem State.setSel_inCycle (s : State) (p : List Nat) : u.InCycle (s.setSel p) ↔ u.InCycle s := by
  simp [State.setSel]

@[simp ↓] theorem State.updPush_inCycle (s : State) (y0 : List (Nat × Nat)) (y1 : List Nat) :
    u.InCycle (s.updPush y0 y1).2.2 ↔ u.InCycle s := by
  induction y0 generalizing s y1 with
  | nil => rfl
  | cons e ws ih => simp [State.updPush, ih]

@[simp ↓] theorem State.updKick_inCycle (s : State) : u.InCycle (s.updKick) ↔ u.InCycle s := by
  unfold State.updKick
  split <;> simp

@[simp ↓] theorem State.updJob_inCycle (s : State) (j : UpdJob) : u.InCycle (s.updJob j) ↔ u.InCycle s := by
  simp [State.updJob]

@[simp ↓] theorem State.updNext_inCycle (s : State) (j : UpdJob) : u.InCycle (s.updNext j) ↔ u.InCycle s := by
  simp [State.updNext]

@[simp ↓] theorem State.imgLoad_inCycle (s : State) (k : Nat) : u.InCycle (s.imgLoad k) ↔ u.InCycle s := by
  simp [State.imgLoad]

@[simp ↓] theorem State.vec0_inCycle (s : State) : u.InCycle (s.vec0) ↔ u.InCycle s := by
  simp [State.vec0]

@[simp ↓] theorem State.actReset_inCycle (s : State) : u.InCycle (s.actReset) ↔ u.InCycle s := by
  simp [State.actReset]

@[simp ↓] theorem State.actStop_inCycle (s : State) : u.InCycle (s.actStop) ↔ u.InCycle s := by
  unfold State.actStop
  rw [State.actReset_inCycle, State.InCycle.foldl_iff fun t x => ?_]
  · simp
  · split <;> simp

@[simp ↓] theorem State.recover_inCycle (s : State) : u.InCycle (s.recover) ↔ u.InCycle s := by
  simp [State.recover]

@[simp ↓] theorem State.updFin_inCycle (s : State) (y0 : UpdFin) : u.InCycle (s.updFin y0) ↔ u.InCycle s := by
  unfold State.updFin
  (repeat' split) <;> simp

@[simp ↓] theorem State.updClosed_inCycle (s : State) : u.InCycle (s.updClosed) ↔ u.InCycle s := by
  unfold State.updClosed
  split <;> simp

@[simp ↓] theorem State.updBad_inCycle (s : State) : u.InCycle (s.updBad) ↔ u.InCycle s := by
  simp [State.updBad]

@[simp ↓] theorem State.updBegin_inCycle (s : State) (kind : Nat) : u.InCycle (s.updBegin kind) ↔ u.InCycle s := by
  simp [State.updBegin]

@[simp ↓] theorem State.updResume_inCycle (s : State) : u.InCycle (s.updResume) ↔ u.InCycle s := by
  simp [State.updResume]

@[simp ↓] theorem State.updVerify_inCycle (s : State) : u.InCycle (s.updVerify) ↔ u.InCycle s := by
  simp [State.updVerify]

@[simp ↓] theorem State.updCancel_inCycle (s : State) : u.InCycle (s.updCancel) ↔ u.InCycle s := by
  simp [State.updCancel]

@[simp ↓] theorem State.updBack_inCycle (s : State) : u.InCycle (s.updBack) ↔ u.InCycle s := by
  simp [State.updBack]

@[simp ↓] theorem State.updRevert_inCycle (s : State) : u.InCycle (s.updRevert) ↔ u.InCycle s := by
  simp [State.updRevert]

@[simp ↓] theorem State.updErase_inCycle (s : State) : u.InCycle (s.updErase) ↔ u.InCycle s := by
  simp [State.updErase]

@[simp ↓] theorem State.updCmd_inCycle (s : State) (op : Nat) : u.InCycle (s.updCmd op) ↔ u.InCycle s := by
  unfold State.updCmd
  split <;> simp

@[simp ↓] theorem State.updVerified_inCycle (s : State) : u.InCycle (s.updVerified) ↔ u.InCycle s := by
  simp [State.updVerified]

@[simp ↓] theorem State.updGo_inCycle (s : State) : u.InCycle (s.updGo) ↔ u.InCycle s := by
  simp [State.updGo]

@[simp ↓] theorem State.updFurOff_inCycle (s : State) (n : Nat) : u.InCycle (s.updFurOff n) ↔ u.InCycle s := by
  unfold State.updFurOff
  split <;> simp

@[simp ↓] theorem State.updConfirm_inCycle (s : State) (w : Word) : u.InCycle (s.updConfirm w) ↔ u.InCycle s := by
  simp [State.updConfirm]

@[simp ↓] theorem State.blockBad_inCycle (s : State) (q : Request) : u.InCycle (s.blockBad q) ↔ u.InCycle s := by
  simp [State.blockBad]

@[simp ↓] theorem State.dlBlock_inCycle (s : State) (q : Request) (bs : List Byte) :
    u.InCycle (s.dlBlock q bs) ↔ u.InCycle s := by
  unfold State.dlBlock
  simp
  (repeat' split) <;> simp

@[simp ↓] theorem State.seedMiss_inCycle (s : State) (i : Nat) : u.InCycle (s.seedMiss i) ↔ u.InCycle s := by
  simp [State.seedMiss]

@[simp ↓] theorem State.seedAdvance_inCycle (s : State) (i : Nat) : u.InCycle (s.seedAdvance i) ↔ u.InCycle s := by
  simp [State.seedAdvance]

@[simp ↓] theorem State.seedAct_inCycle (s : State) (i w3 : Nat) : u.InCycle (s.seedAct i w3) ↔ u.InCycle s := by
  unfold State.seedAct
  split <;> simp

@[simp ↓] theorem State.seedSend_inCycle (s : State) (q : SeedWait) : u.InCycle (s.seedSend q) ↔ u.InCycle s := by
  simp [State.seedSend]

@[simp ↓] theorem State.seedLate_inCycle (s : State) (q : SeedWait) : u.InCycle (s.seedLate q) ↔ u.InCycle s := by
  simp [State.seedLate]

@[simp ↓] theorem State.cmpTrip_inCycle (s : State) (k : Nat) : u.InCycle (s.cmpTrip k) ↔ u.InCycle s := by
  simp [State.cmpTrip]

@[simp ↓] theorem State.saturate_inCycle (s : State) (c m : Nat) : u.InCycle (s.saturate c m) ↔ u.InCycle s := by
  simp [State.saturate]

@[simp ↓] theorem State.convAll_inCycle (s : State) (c : Nat) (xs : List Int) :
    u.InCycle (s.convAll c xs) ↔ u.InCycle s := by
  simp [State.convAll]

@[simp ↓] theorem State.coarseSample_inCycle (s : State) (c : Nat) (xs : List Int) :
    u.InCycle (s.coarseSample c xs) ↔ u.InCycle s := by
  simp [State.coarseSample]

@[simp ↓] theorem State.wideSample_inCycle (s : State) (c : Nat) (xs : List Int) :
    u.InCycle (s.wideSample c xs) ↔ u.InCycle s := by
  simp [State.wideSample]

@[simp ↓] theorem State.phasorsIn_inCycle (s : State) (c : Nat) (ps : List Phasor) :
    u.InCycle (s.phasorsIn c ps) ↔ u.InCycle s := by
  simp [State.phasorsIn]

@[simp ↓] theorem State.fineSample_inCycle (s : State) (c : Nat) (xs : List Int) (ps : List Phasor) :
    u.InCycle (s.fineSample c xs ps) ↔ u.InCycle s := by
  simp [State.fineSample]

@[simp ↓] theorem State.rawSample_inCycle (s : State) (c : Nat) : u.InCycle (s.rawSample c) ↔ u.InCycle s := by
  simp [State.rawSample]

@[simp ↓] theorem State.rsWrite_inCycle (s : State) (n r : Nat) (w : Word) :
    u.InCycle (s.rsWrite n r w) ↔ u.InCycle s := by
  unfold State.rsWrite
  split <;> simp

@[simp ↓] theorem State.unsealed_inCycle (s : State) (c : Nat) (t : State) (h : u.InCycle t ↔ u.InCycle s) :
    u.InCycle (s.unsealed c t) ↔ u.InCycle s := by
  unfold State.unsealed
  simp [*]

@[simp ↓] theorem State.typedWrite_inCycle (s : State) (deal : Bool) (a : Nat) (w : Word) :
    u.InCycle (s.typedWrite deal a w) ↔ u.InCycle s := by
  simp [State.typedWrite]

@[simp ↓] theorem State.orElse_inCycle (s : State) (bad : Bool) (err : State → State) (deal : Bool) (a : Nat) (w :
    Word) (he : ∀ t, u.InCycle (err t) ↔ u.InCycle t) : u.InCycle (s.orElse bad err deal a w) ↔ u.InCycle s := by
  unfold State.orElse
  simp [*]

@[simp ↓] theorem State.wrAna_inCycle (s : State) (deal : Bool) (a : Nat) (w : Word) :
    u.InCycle (s.wrAna deal a w) ↔ u.InCycle s := by
  unfold State.wrAna
  (repeat' split) <;> simp

@[simp ↓] theorem State.wrFlt_inCycle (s : State) (deal : Bool) (a : Nat) (w : Word) :
    u.InCycle (s.wrFlt deal a w) ↔ u.InCycle s := by
  unfold State.wrFlt
  split <;> simp

@[simp ↓] theorem State.awaitOff_inCycle (s : State) (n : Nat) : u.InCycle (s.awaitOff n) ↔ u.InCycle s := by
  unfold State.awaitOff
  refine State.InCycle.foldl_iff fun t x => ?_
  split <;> simp

@[simp ↓] theorem State.furDisable_inCycle (s : State) (n : Nat) : u.InCycle (s.furDisable n) ↔ u.InCycle s := by
  simp [State.furDisable]

@[simp ↓] theorem State.furCtlWrite_inCycle (s : State) (n : Nat) (w : Word) :
    u.InCycle (s.furCtlWrite n w) ↔ u.InCycle s := by
  simp [State.furCtlWrite]

@[simp ↓] theorem State.wrFur_inCycle (s : State) (deal : Bool) (a : Nat) (w : Word) :
    u.InCycle (s.wrFur deal a w) ↔ u.InCycle s := by
  simp [State.wrFur]

@[simp ↓] theorem State.wrSow_inCycle (s : State) (deal : Bool) (a : Nat) (w : Word) :
    u.InCycle (s.wrSow deal a w) ↔ u.InCycle s := by
  simp [State.wrSow]

@[simp ↓] theorem State.wrTal_inCycle (s : State) (o : Nat) (deal : Bool) (a : Nat) (w : Word) :
    u.InCycle (s.wrTal o deal a w) ↔ u.InCycle s := by
  simp [State.wrTal]

@[simp ↓] theorem State.plsChange_inCycle (s : State) (n : Nat) (const : Bool) (was : Word) :
    u.InCycle (s.plsChange n const was) ↔ u.InCycle s := by
  simp [State.plsChange]

@[simp ↓] theorem State.wrPls_inCycle (s : State) (deal : Bool) (a : Nat) (w : Word) :
    u.InCycle (s.wrPls deal a w) ↔ u.InCycle s := by
  simp [State.wrPls]

@[simp ↓] theorem State.wrThr_inCycle (s : State) (deal : Bool) (a : Nat) (w : Word) :
    u.InCycle (s.wrThr deal a w) ↔ u.InCycle s := by
  unfold State.wrThr
  simp
  split <;> simp

@[simp ↓] theorem State.wrPlg_inCycle (s : State) (deal : Bool) (a : Nat) (w : Word) :
    u.InCycle (s.wrPlg deal a w) ↔ u.InCycle s := by
  unfold State.wrPlg
  (repeat' split) <;> simp

@[simp ↓] theorem State.wrInt_inCycle (s : State) (deal : Bool) (a : Nat) (w : Word) :
    u.InCycle (s.wrInt deal a w) ↔ u.InCycle s := by
  unfold State.wrInt
  (repeat' split) <;> simp

@[simp ↓] theorem State.wrNvm_inCycle (s : State) (o : Nat) (deal : Bool) (a : Nat) (w : Word) :
    u.InCycle (s.wrNvm o deal a w) ↔ u.InCycle s := by
  simp [State.wrNvm]

@[simp ↓] theorem State.wrRtc_inCycle (s : State) (o : Nat) (deal : Bool) (a : Nat) (w : Word) :
    u.InCycle (s.wrRtc o deal a w) ↔ u.InCycle s := by
  simp [State.wrRtc]

@[simp ↓] theorem State.wrDuo_inCycle (s : State) (o : Nat) (deal : Bool) (a : Nat) (w : Word) :
    u.InCycle (s.wrDuo o deal a w) ↔ u.InCycle s := by
  simp [State.wrDuo]

@[simp ↓] theorem State.wrHdg_inCycle (s : State) (o : Nat) (deal : Bool) (a : Nat) (w : Word) :
    u.InCycle (s.wrHdg o deal a w) ↔ u.InCycle s := by
  simp [State.wrHdg]

@[simp ↓] theorem State.wrBal_inCycle (s : State) (deal : Bool) (a : Nat) (w : Word) :
    u.InCycle (s.wrBal deal a w) ↔ u.InCycle s := by
  simp [State.wrBal]

@[simp ↓] theorem State.regApply_inCycle (s : State) (o : Nat) (deal : Bool) (a : Nat) (w : Word) :
    u.InCycle (s.regApply o deal a w) ↔ u.InCycle s := by
  unfold State.regApply
  split <;> simp

@[simp ↓] theorem State.readClear_inCycle (s : State) (a : Nat) : u.InCycle (s.readClear a) ↔ u.InCycle s := by
  simp [State.readClear]

@[simp ↓] theorem State.regRead_inCycle (s : State) (o : Orig) (a : Nat) :
    u.InCycle (s.regRead o a).2 ↔ u.InCycle s := by
  unfold State.regRead
  extract_lets c k
  simp only [State.InCycle.ite_snd_iff, State.seedRead_inCycle, State.tripRead_inCycle, State.scntRead_inCycle,
    State.snapRead_inCycle, State.calRead_inCycle]
  split <;> simp +zetaDelta

theorem State.senderWrite_inCycle (s : State) (o : Orig) (a : Nat) (w : Word) : ∀ r, State.senderWrite s o a w = some
    r → (u.InCycle r.2 ↔ u.InCycle s) := by
  unfold State.senderWrite
  (repeat' split) <;> simp

@[simp ↓] theorem State.rstWrite_inCycle (s : State) (w : Word) : u.InCycle (s.rstWrite w) ↔ u.InCycle s := by
  simp [State.rstWrite]

@[simp ↓] theorem State.duoStatWrite_inCycle (s : State) (w : Word) : u.InCycle (s.duoStatWrite w) ↔ u.InCycle s := by
  simp [State.duoStatWrite]

@[simp ↓] theorem State.regWrite_inCycle (s : State) (o : Orig) (a : Nat) (w : Word) :
    u.InCycle (s.regWrite o a w).2 ↔ u.InCycle s := by
  unfold State.regWrite
  extract_lets c host t
  clear_value host
  have ht : u.InCycle t ↔ u.InCycle s := State.regApply_inCycle ..
  clear_value t
  simp
  split
  · simp [State.senderWrite_inCycle _ _ _ _ _ ‹_›]
  · simp [ht]

@[simp ↓] theorem State.wordRead_inCycle (s : State) (o : Orig) (a : Nat) :
    u.InCycle (s.wordRead o a).2 ↔ u.InCycle s := by
  simp [State.wordRead]

@[simp ↓] theorem State.hostRead_inCycle (s : State) (r : Fin 2) (a : Nat) :
    u.InCycle (s.hostRead r a).2 ↔ u.InCycle s := by
  simp [State.hostRead]

@[simp ↓] theorem State.hostWrite_inCycle (s : State) (r : Fin 2) (a : Nat) (w : Word) :
    u.InCycle (s.hostWrite r a w).2 ↔ u.InCycle s := by
  simp [State.hostWrite]

@[simp ↓] theorem State.loadOp_inCycle (s : State) (p h : Nat) (w : Word) (kind rd ra : Nat) (imm : BitVec 16) (n :
    Nat) : u.InCycle (s.loadOp p h w kind rd ra imm n) ↔ u.InCycle s := by
  simp [State.loadOp]

@[simp ↓] theorem State.storeOp_inCycle (s : State) (p h : Nat) (w : Word) (ra : Nat) (imm : BitVec 16) (n c : Nat) (f
    : Hand → List Byte) : u.InCycle (s.storeOp p h w ra imm n c f) ↔ u.InCycle s := by
  simp [State.storeOp]

@[simp ↓] theorem State.atomicOp_inCycle (s : State) (p h : Nat) (w : Word) (rd ra k : Nat) (f : Word → Hand → Option
    Word) : u.InCycle (s.atomicOp p h w rd ra k f) ↔ u.InCycle s := by
  unfold State.atomicOp
  refine State.issue_inCycle _ _ _ _ _ fun x t => State.afterStores_inCycle _ _ _ _ fun v => ?_
  extract_lets a b r s1 tw s2
  have h2 : u.InCycle s2 ↔ u.InCycle v := by
    unfold s2
    split <;> simp [s1, r]
  clear_value s2
  simp [h2, s1, r]

@[simp ↓] theorem State.branchOp_inCycle (s : State) (p h : Nat) (w : Word) (off : BitVec 16) (c : Hand → Bool) :
    u.InCycle (s.branchOp p h w off c) ↔ u.InCycle s := by
  simp [State.branchOp]

@[simp ↓] theorem State.jumpOp_inCycle (s : State) (p h : Nat) (w : Word) (off : BitVec 26) (g : Hand → Hand) :
    u.InCycle (s.jumpOp p h w off g) ↔ u.InCycle s := by
  simp [State.jumpOp]

@[simp ↓] theorem State.dealRun_inCycle (s : State) (y0 : Nat) (y1 : List (Nat × Word)) :
    u.InCycle (s.dealRun y0 y1).2 ↔ u.InCycle s := by
  induction y1 generalizing s y0 with
  | nil => rfl
  | cons e es ih => simp [State.dealRun, ih]

@[simp ↓] theorem State.checkViol_inCycle (s : State) (es : List (Nat × Word)) (i : Nat) :
    u.InCycle (s.checkViol es i) ↔ u.InCycle s := by
  unfold State.checkViol
  split <;> simp

@[simp ↓] theorem State.authVerify_inCycle (s : State) (msg : List Byte) (mac : Option (List Byte)) :
    u.InCycle (s.authVerify msg mac).2 ↔ u.InCycle s := by
  simp [State.authVerify]

theorem State.ceilPush_inCycle (s : State) : ∀ t, State.ceilPush s = some t → (u.InCycle t ↔ u.InCycle s) := by
  simp [State.ceilPush]

@[simp ↓] theorem State.dealVerify_inCycle (s : State) : u.InCycle (s.dealVerify) ↔ u.InCycle s := by
  unfold State.dealVerify
  (repeat' split) <;> simp

@[simp ↓] theorem State.ceilClosed_inCycle (s : State) : u.InCycle (s.ceilClosed) ↔ u.InCycle s := by
  unfold State.ceilClosed
  split <;> simp

@[simp ↓] theorem State.dealOpen_inCycle (s : State) (owner tmo : Nat) (seed : Bool) :
    u.InCycle (s.dealOpen owner tmo seed).2 ↔ u.InCycle s := by
  simp [State.dealOpen]

@[simp ↓] theorem State.dealEntry_inCycle (s : State) (owner a : Nat) (w : Word) :
    u.InCycle (s.dealEntry owner a w).2 ↔ u.InCycle s := by
  unfold State.dealEntry
  split <;> simp

@[simp ↓] theorem State.dealPlay_inCycle (s : State) (owner : Nat) (p : Play) :
    u.InCycle (s.dealPlay owner p).2 ↔ u.InCycle s := by
  unfold State.dealPlay
  simp
  split
  · simp
  · simp
    split
    · simp [State.ceilPush_inCycle _ _ ‹_›]
    · simp

@[simp ↓] theorem State.dealFold_inCycle (s : State) (owner : Nat) : u.InCycle (s.dealFold owner).2 ↔ u.InCycle s := by
  unfold State.dealFold
  split <;> simp

@[simp ↓] theorem State.playAnswer_inCycle (s : State) (p : Play) (st : Nat) (idx : Option Nat) (hand : Nat) :
    u.InCycle (s.playAnswer p st idx hand) ↔ u.InCycle s := by
  unfold State.playAnswer
  split <;> simp

@[simp ↓] theorem State.cfgPush_inCycle (s : State) (f : Nat) : u.InCycle (s.cfgPush f) ↔ u.InCycle s := by
  simp [State.cfgPush]

@[simp ↓] theorem State.dealApply_inCycle (s : State) (es : List (Nat × Word)) :
    u.InCycle (s.dealApply es) ↔ u.InCycle s := by
  simp [State.dealApply]

@[simp ↓] theorem State.dealCome_inCycle (s : State) : u.InCycle (s.dealCome) ↔ u.InCycle s := by
  unfold State.dealCome
  (repeat' split) <;> simp

@[simp ↓] theorem State.dreq_inCycle (s : State) (p h : Nat) (w : Word) (rd : Nat) (f : Hand → Nat → State → Nat ×
    State) (hf : ∀ x n t, u.InCycle (f x n t).2 ↔ u.InCycle t) : u.InCycle (s.dreq p h w rd f) ↔ u.InCycle s := by
  unfold State.dreq
  simp [*]

@[simp ↓] theorem State.ringErrs_inCycle (s : State) (r n : Nat) : u.InCycle (s.ringErrs r n) ↔ u.InCycle s := by
  simp [State.ringErrs]

@[simp ↓] theorem State.forward_inCycle (s : State) (r : Nat) (f : Frame) : u.InCycle (s.forward r f) ↔ u.InCycle s :=
    by
  simp [State.forward]

@[simp ↓] theorem State.enumIn_inCycle (s : State) (r : Nat) (f : Frame) : u.InCycle (s.enumIn r f) ↔ u.InCycle s := by
  simp [State.enumIn]

@[simp ↓] theorem State.ownFrame_inCycle (s : State) (op tag att arg1 : Nat) (pay : List Word) :
    u.InCycle (s.ownFrame op tag att arg1 pay).2 ↔ u.InCycle s := by
  simp [State.ownFrame]

@[simp ↓] theorem State.syncAdopt_inCycle (s : State) (r : Nat) (pay : List Word) :
    u.InCycle (s.syncAdopt r pay) ↔ u.InCycle s := by
  simp [State.syncAdopt]

@[simp ↓] theorem State.syncFurrow_inCycle (s : State) (pay : List Word) (n : Nat) :
    u.InCycle (s.syncFurrow pay n) ↔ u.InCycle s := by
  simp [State.syncFurrow]

@[simp ↓] theorem State.syncTake_inCycle (s : State) (r : Nat) (pay : List Word) :
    u.InCycle (s.syncTake r pay) ↔ u.InCycle s := by
  simp [State.syncTake]

@[simp ↓] theorem State.syncForward_inCycle (s : State) (r : Nat) (f : Frame) :
    u.InCycle (s.syncForward r f) ↔ u.InCycle s := by
  simp [State.syncForward]

@[simp ↓] theorem State.syncIn_inCycle (s : State) (r : Nat) (f : Frame) : u.InCycle (s.syncIn r f) ↔ u.InCycle s := by
  simp [State.syncIn]

@[simp ↓] theorem State.evSend_inCycle (s : State) (e : EvOut) : u.InCycle (s.evSend e) ↔ u.InCycle s := by
  simp [State.evSend]

@[simp ↓] theorem State.evAck_inCycle (s : State) (t : Nat) : u.InCycle (s.evAck t) ↔ u.InCycle s := by
  unfold State.evAck
  split <;> simp

@[simp ↓] theorem State.readWords_inCycle (s : State) (r : Fin 2) (at_ k : Nat) (y0 : Nat) (y1 : Nat) (y2 : Nat) :
    u.InCycle (s.readWords r at_ k y0 y1 y2).2.2 ↔ u.InCycle s := by
  induction y2 generalizing s y0 y1 with
  | zero => rfl
  | succ n ih =>
    unfold State.readWords
    extract_lets e
    have he : u.InCycle e.2 ↔ u.InCycle s := by simp [e]
    have hr : u.InCycle (e.2.hostRead r y1).2 ↔ u.InCycle s := by simp [he]
    clear_value e
    simp [he]
    split
    · next h => rw [h] at hr; simp [hr]
    · next h => rw [h] at hr; simp [hr, ih]

@[simp ↓] theorem State.writeWords_inCycle (s : State) (r : Fin 2) (at_ k : Nat) (y0 : Nat) (y1 : Nat) (y2 : List
    Word) : u.InCycle (s.writeWords r at_ k y0 y1 y2).2.2 ↔ u.InCycle s := by
  induction y2 generalizing s y0 y1 with
  | nil => rfl
  | cons w ws ih => simp +zetaDelta [State.writeWords, ih]

@[simp ↓] theorem State.entryWords_inCycle (s : State) (y0 : Nat) (y1 : List Word) :
    u.InCycle (s.entryWords y0 y1).2.2 ↔ u.InCycle s := by
  induction y1 generalizing s y0 with
  | nil => rfl
  | cons w ws ih => simp [State.entryWords, ih]

theorem State.bulkMore_inCycle (s : State) (r : Nat) (f : Frame) : ∀ t, State.bulkMore s r f = some t → (u.InCycle t ↔
    u.InCycle s) := by
  unfold State.bulkMore
  (repeat' split) <;> simp

@[simp ↓] theorem State.requestIn_inCycle (s : State) (r : Nat) (f : Frame) :
    u.InCycle (s.requestIn r f) ↔ u.InCycle s := by
  unfold State.requestIn
  extract_lets wr fresh
  have hf : ∀ t, u.InCycle (fresh t) ↔ u.InCycle t := fun t => by simp [fresh]
  clear_value fresh
  split
  · exact State.bulkMore_inCycle _ _ _ _ ‹_›
  · simp [hf]
    split <;> simp [hf]

@[simp ↓] theorem State.bcastIn_inCycle (s : State) (r : Fin 2) (f : Frame) (at_ k : Nat) :
    u.InCycle (s.bcastIn r f at_ k) ↔ u.InCycle s := by
  simp [State.bcastIn]

@[simp ↓] theorem State.frameIn_inCycle (s : State) (r : Fin 2) (f : Frame) (at_ k : Nat) :
    u.InCycle (s.frameIn r f at_ k) ↔ u.InCycle s := by
  simp [State.frameIn]

@[simp ↓] theorem State.nextReq_inCycle (s : State) (op : Nat) (f : Request → State → State) (hf : ∀ d t, u.InCycle (f
    d t) ↔ u.InCycle t) : u.InCycle (s.nextReq op f) ↔ u.InCycle s := by
  unfold State.nextReq
  split <;> simp [hf]

theorem State.confirmWait_inCycle (s : State) (q : Request) (was n : Nat) : ∀ t, State.confirmWait s q was n = some t
    → (u.InCycle t ↔ u.InCycle s) := by
  unfold State.confirmWait
  (repeat' split) <;> simp

@[simp ↓] theorem State.nextBulk_inCycle (s : State) (p : Request → Bool) (f : Request → State → State) (hf : ∀ d t,
    u.InCycle (f d t) ↔ u.InCycle t) : u.InCycle (s.nextBulk p f) ↔ u.InCycle s := by
  unfold State.nextBulk
  split <;> simp [hf]

@[simp ↓] theorem State.bulkFrames_inCycle (s : State) (q : Frame) (st : Nat) (y0 : Nat) (y1 : Nat) (y2 : List Word) :
    u.InCycle (s.bulkFrames q st y0 y1 y2).2 ↔ u.InCycle s := by
  induction y0 generalizing s y1 y2 with
  | zero => rfl
  | succ n ih =>
    unfold State.bulkFrames
    split <;> simp [ih]

@[simp ↓] theorem State.bulkPut_inCycle (s : State) (r : Fin 2) (at_ k : Nat) (y0 : Nat) (y1 : Nat) (y2 : List Word) :
    u.InCycle (s.bulkPut r at_ k y0 y1 y2).2.2 ↔ u.InCycle s := by
  induction y2 generalizing s y0 y1 with
  | nil => rfl
  | cons w ws ih => simp [State.bulkPut, ih]

@[simp ↓] theorem State.bootLog_inCycle (s : State) : u.InCycle (s.bootLog) ↔ u.InCycle s := by
  simp [State.bootLog]

@[simp ↓] theorem State.bootRecover_inCycle (s : State) : u.InCycle (s.bootRecover) ↔ u.InCycle s := by
  simp [State.bootRecover]

@[simp ↓] theorem State.recoverAuth_inCycle (s : State) (q : Request) (mac : List Byte) :
    u.InCycle (s.recoverAuth q mac) ↔ u.InCycle s := by
  simp [State.recoverAuth]

@[simp ↓] theorem State.alerts_inCycle (s : State) (now : Nat) : u.InCycle (s.alerts now) ↔ u.InCycle s := by
  simp [State.alerts]

@[simp ↓] theorem State.latchGroup_inCycle (s : State) (b : Nat) (fs : List Nat) :
    u.InCycle (s.latchGroup b fs) ↔ u.InCycle s := by
  simp [State.latchGroup]

@[simp ↓] theorem State.eventGroup_inCycle (s : State) (g : List Nat) : u.InCycle (s.eventGroup g) ↔ u.InCycle s := by
  unfold State.eventGroup
  split <;> simp

@[simp ↓] theorem State.logGroup_inCycle (s : State) (g : List Nat) : u.InCycle (s.logGroup g) ↔ u.InCycle s := by
  simp [State.logGroup]

@[simp ↓] theorem State.respondGroup_inCycle (s : State) (g : List Nat) (now : Nat) :
    u.InCycle (s.respondGroup g now) ↔ u.InCycle s := by
  simp [State.respondGroup]

@[simp ↓] theorem State.safeEnter_inCycle (s : State) : u.InCycle (s.safeEnter) ↔ u.InCycle s := by
  simp [State.safeEnter]

@[simp ↓] theorem State.safeRun_inCycle (s : State) : u.InCycle (s.safeRun) ↔ u.InCycle s := by
  simp [State.safeRun]

@[simp ↓] theorem State.dealFirst_inCycle (s : State) : u.InCycle (s.dealFirst) ↔ u.InCycle s := by
  unfold State.dealFirst
  split <;> simp

@[simp ↓] theorem State.binOp_inCycle (s : State) (p h : Nat) (w : Word) (rn : Nat) (set : Bool) (z : Hand → Int) :
    u.InCycle (s.binOp p h w rn set z) ↔ u.InCycle s := by
  simp [State.binOp]

@[simp ↓] theorem State.wordsRead_inCycle (s : State) (o : Orig) (y0 : Nat) (y1 : Nat) :
    u.InCycle (s.wordsRead o y0 y1).2 ↔ u.InCycle s := by
  induction y1 generalizing s y0 with
  | zero => rfl
  | succ n ih => simp [State.wordsRead, ih]

@[simp ↓] theorem State.loadDone_inCycle (s : State) (p : Fin 5) (h : Fin 16) (kind rd a : Nat) :
    u.InCycle (s.loadDone p h kind rd a) ↔ u.InCycle s := by
  simp [State.loadDone]

@[simp ↓] theorem State.regStores_inCycle (s : State) (o : Orig) (y0 : Nat) (y1 : List Word) :
    u.InCycle (s.regStores o y0 y1) ↔ u.InCycle s := by
  induction y1 generalizing s y0 with
  | nil => rfl
  | cons w ws ih => simp [State.regStores, ih]

@[simp ↓] theorem State.postDone_inCycle (s : State) (p : Fin 5) (y0 : Post) :
    u.InCycle (s.postDone p y0) ↔ u.InCycle s := by
  unfold State.postDone
  split <;> simp

@[simp ↓] theorem State.roomWake_inCycle (s : State) (p : Nat) : u.InCycle (s.roomWake p) ↔ u.InCycle s := by
  simp [State.roomWake]

@[simp ↓] theorem State.failTimes_inCycle (s : State) (o a : Nat) (y0 : Nat) :
    u.InCycle (s.failTimes o a y0) ↔ u.InCycle s := by
  induction y0 generalizing s with
  | zero => rfl
  | succ n ih => simp [State.failTimes, ih]

@[simp ↓] theorem State.thrRead_inCycle (s : State) (k : Nat) : u.InCycle (s.thrRead k) ↔ u.InCycle s := by
  unfold State.thrRead
  split <;> simp

@[simp ↓] theorem State.resetInto_inCycle (s : State) (warm : Bool) (cause : Nat) :
    u.InCycle (s.resetInto warm cause) ↔ u.InCycle s := by
  simp [State.resetInto]

@[simp ↓] theorem State.commitClosed_inCycle (s : State) : u.InCycle (s.commitClosed) ↔ u.InCycle s := by
  simp [State.commitClosed]

@[simp ↓] theorem State.actDrop_inCycle (s : State) : u.InCycle (s.actDrop) ↔ u.InCycle s := by
  unfold State.actDrop
  split <;> simp

@[simp ↓] theorem State.ploughMap_inCycle (s : State) (passed : Nat) : u.InCycle (s.ploughMap passed) ↔ u.InCycle s :=
    by
  unfold State.ploughMap
  extract_lets was live
  clear_value was live
  rw [State.wr_inCycle, State.InCycle.foldl_iff fun t x => ?_]
  extract_lets t1
  have h1 : u.InCycle t1 ↔ u.InCycle t := by simp [t1]
  split <;> simp [h1]

@[simp ↓] theorem State.tbBoot_inCycle (s : State) : u.InCycle (s.tbBoot) ↔ u.InCycle s := by
  simp [State.tbBoot]

@[simp ↓] theorem State.mapBoot_inCycle (s : State) : u.InCycle (s.mapBoot) ↔ u.InCycle s := by
  unfold State.mapBoot
  split <;> simp

@[simp ↓] theorem State.revBoot_inCycle (s : State) : u.InCycle (s.revBoot) ↔ u.InCycle s := by
  unfold State.revBoot
  split <;> simp

@[simp ↓] theorem State.energyBoot_inCycle (s : State) (c : Option Nat) (f : Nat) :
    u.InCycle (s.energyBoot c f) ↔ u.InCycle s := by
  unfold State.energyBoot
  split <;> simp

@[simp ↓] theorem State.pulseBoot_inCycle (s : State) : u.InCycle (s.pulseBoot) ↔ u.InCycle s := by
  unfold State.pulseBoot
  split <;> simp

@[simp ↓] theorem State.loadBoot_inCycle (s : State) : u.InCycle (s.loadBoot) ↔ u.InCycle s := by
  simp [State.loadBoot]

@[simp ↓] theorem State.tamperLate_inCycle (s : State) (c : Nat) (f : Fld) :
    u.InCycle (s.tamperLate c f) ↔ u.InCycle s := by
  simp [State.tamperLate]

@[simp ↓] theorem State.tamperBoot_inCycle (s : State) : u.InCycle (s.tamperBoot) ↔ u.InCycle s := by
  simp [State.tamperBoot]

@[simp ↓] theorem State.logBoot_inCycle (s : State) : u.InCycle (s.logBoot) ↔ u.InCycle s := by
  unfold State.logBoot
  extract_lets all
  clear_value all
  split <;> simp

@[simp ↓] theorem State.updBoot_inCycle (s : State) : u.InCycle (s.updBoot) ↔ u.InCycle s := by
  simp [State.updBoot]

@[simp ↓] theorem State.ceilBoot_inCycle (s : State) : u.InCycle (s.ceilBoot) ↔ u.InCycle s := by
  unfold State.ceilBoot
  extract_lets c s1
  clear_value c
  have h1 : u.InCycle s1 ↔ u.InCycle s := Iff.rfl
  clear_value s1
  exact (State.InCycle.getD_iff fun t ht => (State.ceilPush_inCycle _ _ ht)).trans h1

@[simp ↓] theorem State.slotTry_inCycle (s : State) (k : Nat) : u.InCycle (s.slotTry k).2 ↔ u.InCycle s := by
  simp [State.slotTry]

@[simp ↓] theorem State.bootWrite_inCycle (s : State) (recs : List (Nat × List Nat)) :
    u.InCycle (s.bootWrite recs) ↔ u.InCycle s := by
  simp [State.bootWrite]

@[simp ↓] theorem State.slotTake_inCycle (s : State) (k : Nat) : u.InCycle (s.slotTake k) ↔ u.InCycle s := by
  simp [State.slotTake]

@[simp ↓] theorem State.slotScan_inCycle (s : State) (y0 : List Nat) : u.InCycle (s.slotScan y0) ↔ u.InCycle s := by
  induction y0 generalizing s with
  | nil => simp [State.slotScan]
  | cons k ks ih => simp [State.slotScan, ih]

@[simp ↓] theorem State.slotPick_inCycle (s : State) : u.InCycle (s.slotPick) ↔ u.InCycle s := by
  simp [State.slotPick]

@[simp ↓] theorem State.loadStart_inCycle (s : State) (k : Nat) : u.InCycle (s.loadStart k) ↔ u.InCycle s := by
  simp [State.loadStart]

end
end Sys2Proof.Machine
end

section
/-!
SUPPORT. The effect of every row of the table takes no time, leaves the queue of commands alone and keeps the canonical
form and the capacities.
-/
namespace Sys2Proof.Machine
section
open State
/-- `f` takes no time, leaves the queue of commands alone, and keeps the canonical form and the capacities. -/
structure Sound (f : State → State) : Prop where
  inCycle : ∀ u s : State, u.InCycle (f s) ↔ u.InCycle s
  keeps : ∀ {p : List Instr} {c : Nat} {s : State}, Keeps p c s → Keeps p c (f s)

theorem issue_sound {p h : Nat} {w : Word} {f : Hand → State → State} (hf : ∀ x, Sound (f x)) :
    Sound fun s => s.issue p h w f where
  inCycle u _ := State.issue_inCycle _ _ _ _ _ fun x t => (hf x).inCycle u t
  keeps hs := State.issue_keeps _ _ _ _ _ (fun x _ ht => (hf x).keeps ht) hs

theorem afterStores_sound {p h : Nat} {f : State → State} (hf : Sound f) : Sound fun s => s.afterStores p h f where
  inCycle u _ := State.afterStores_inCycle _ _ _ _ fun t => hf.inCycle u t
  keeps hs := State.afterStores_keeps _ _ _ _ (fun _ ht => hf.keeps ht) hs

theorem nextReq_sound {op : Nat} {f : Request → State → State} (hf : ∀ q, Sound (f q)) :
    Sound fun s => s.nextReq op f where
  inCycle u _ := State.nextReq_inCycle _ _ _ fun q t => (hf q).inCycle u t
  keeps hs := State.nextReq_keeps _ _ _ (fun q _ ht => (hf q).keeps ht) hs

theorem nextBulk_sound {b : Request → Bool} {f : Request → State → State} (hf : ∀ q, Sound (f q)) :
    Sound fun s => s.nextBulk b f where
  inCycle u _ := State.nextBulk_inCycle _ _ _ fun q t => (hf q).inCycle u t
  keeps hs := State.nextBulk_keeps _ _ _ (fun q _ ht => (hf q).keeps ht) hs

theorem regOp_sound (p h : Nat) (w : Word) (c : Nat) (g : Hand → Hand) : Sound fun s => s.regOp p h w c g where
  inCycle _ _ := State.regOp_inCycle ..
  keeps hs := State.regOp_keeps _ _ _ _ _ _ hs

theorem loadOp_sound (p h : Nat) (w : Word) (kind rd ra : Nat) (imm : BitVec 16) (n : Nat) :
    Sound fun s => s.loadOp p h w kind rd ra imm n where
  inCycle _ _ := State.loadOp_inCycle ..
  keeps hs := State.loadOp_keeps _ _ _ _ _ _ _ _ _ hs

theorem storeOp_sound (p h : Nat) (w : Word) (ra : Nat) (imm : BitVec 16) (n c : Nat) (f : Hand → List Byte) :
    Sound fun s => s.storeOp p h w ra imm n c f where
  inCycle _ _ := State.storeOp_inCycle ..
  keeps hs := State.storeOp_keeps _ _ _ _ _ _ _ _ _ hs

theorem atomicOp_sound (p h : Nat) (w : Word) (rd ra k : Nat) (f : Word → Hand → Option Word) :
    Sound fun s => s.atomicOp p h w rd ra k f where
  inCycle _ _ := State.atomicOp_inCycle ..
  keeps hs := State.atomicOp_keeps _ _ _ _ _ _ _ _ hs

theorem branchOp_sound (p h : Nat) (w : Word) (off : BitVec 16) (c : Hand → Bool) :
    Sound fun s => s.branchOp p h w off c where
  inCycle _ _ := State.branchOp_inCycle ..
  keeps hs := State.branchOp_keeps _ _ _ _ _ _ hs

theorem jumpOp_sound (p h : Nat) (w : Word) (off : BitVec 26) (g : Hand → Hand) :
    Sound fun s => s.jumpOp p h w off g where
  inCycle _ _ := State.jumpOp_inCycle ..
  keeps hs := State.jumpOp_keeps _ _ _ _ _ _ hs

theorem binOp_sound (p h : Nat) (w : Word) (rn : Nat) (set : Bool) (z : Hand → Int) :
    Sound fun s => s.binOp p h w rn set z where
  inCycle _ _ := State.binOp_inCycle ..
  keeps hs := State.binOp_keeps _ _ _ _ _ _ _ hs

theorem dreq_sound {p h : Nat} {w : Word} {rd : Nat} {f : Hand → Nat → State → Nat × State}
    (hf : ∀ x n, Sound fun s => (f x n s).2) : Sound fun s => s.dreq p h w rd f where
  inCycle u _ := State.dreq_inCycle _ _ _ _ _ _ fun x n t => (hf x n).inCycle u t
  keeps hs := State.dreq_keeps _ _ _ _ _ _ (fun x n _ ht => (hf x n).keeps ht) hs

/-! ### The start-up in four parts, so that each is looked at once -/

theorem State.clkStart_inCycle {u t : State} (s : State) (hz : Nat) (h : s.clkStart hz = some t) :
    u.InCycle t ↔ u.InCycle s := by
  unfold State.clkStart at h
  split at h
  · simp_all
  · split at h
    · cases h
    · obtain ⟨k, -, rfl⟩ := Option.map_eq_some_iff.1 h
      simp

theorem State.clkStart_keeps {p : List Instr} {c : Nat} {t : State} (s : State) (hz : Nat) (h : s.clkStart hz = some t)
    (hs : Keeps p c s) : Keeps p c t := by
  unfold State.clkStart at h
  split at h
  · simp_all
  · split at h
    · cases h
    · obtain ⟨k, -, rfl⟩ := Option.map_eq_some_iff.1 h
      exact (Keeps_mk ..).2 (wr_keeps _ _ _ hs)

/-- RESET_RELEASE's first part: the reset ends, memory outside the barn is cleared and the ploughs' map is written. -/
def State.released (s : State) (passed : Nat) : State :=
  ({ s with
      inReset := false, clk0 := s.clk, roundClk := s.clk, pfRel := none
      iso := true, isoEnd := some (s.clk + cyMs)
      mem := s.mem.filter fun c => decide (0x400000 ≤ c.1) && decide (c.1 < 0xC40000) } : State).ploughMap passed

/-- RESET_RELEASE's second part: the rows its scan found. -/
def State.bootScan (s : State) (sgl dbl : List (Fin 8192)) : State :=
  let seen (r : Fin 8192) : Bool := decide (4096 ≤ r.val) && decide (r.val < 4480)
  { s.scrub (sgl.filter seen) (dbl.filter seen) with scrubClk := s.scrubClk, ramScrub := s.clk }

/-- RESET_RELEASE's third part: the records of the barn. -/
def State.bootLoads (s : State) : State :=
  (s.tbBoot.mapBoot.revBoot.loadBoot.yldLoad.logBoot.tamperBoot.updBoot).ceilBoot

/-- RESET_RELEASE's last part: the crib's time, the tests' bits and the way on. -/
def State.bootOn (s : State) (gpio00 ram : Bool) : State :=
  let s : State := { s with cribNext := s.clk + s.rd NVM_CTL_CRIBPER * 60 * cySec }
  let s := if ram then s else s.wr (bitFld UPD_BOOT 3) 1
  let s := if gpio00 then s else s.wr (bitFld UPD_BOOT 5) 1
  if !ram then s.bootRecover else { s with boot := if gpio00 then 2 else 1, bootAt := s.clk }

theorem opResetRelease_eq (hz : Nat) (gpio00 rom ram : Bool) (passed : Fin 32) (sgl dbl : List (Fin 8192)) (s : State) :
    opResetRelease hz gpio00 rom ram passed sgl dbl s =
      if (!s.inReset && decide (s.boot ≠ 0)) ||
        (s.pfBall || s.pfRel.any fun t => decide (s.clk < t + 10 * cyMs)) || !rom then s
      else match s.clkStart hz with
        | none => s
        | some t => (((t.released passed).bootScan sgl dbl).bootLoads).bootOn gpio00 ram := by
  simp only [opResetRelease, State.released, State.bootScan, State.bootLoads, State.bootOn] <;> rfl

section
variable {u : State}
@[simp ↓] theorem State.released_inCycle (s : State) (passed : Nat) : u.InCycle (s.released passed) ↔ u.InCycle s := by
  simp [State.released]

@[simp ↓] theorem State.bootScan_inCycle (s : State) (sgl dbl : List (Fin 8192)) :
    u.InCycle (s.bootScan sgl dbl) ↔ u.InCycle s := by
  simp [State.bootScan]

@[simp ↓] theorem State.bootLoads_inCycle (s : State) : u.InCycle s.bootLoads ↔ u.InCycle s := by
  simp [State.bootLoads]

@[simp ↓] theorem State.bootOn_inCycle (s : State) (gpio00 ram : Bool) :
    u.InCycle (s.bootOn gpio00 ram) ↔ u.InCycle s := by
  simp [State.bootOn]
end

section
variable {p : List Instr} {c : Nat} {s : State}
theorem State.released_keeps (passed : Nat) (h : Keeps p c s) : Keeps p c (s.released passed) :=
  ploughMap_keeps _ _ ((Keeps_mk ..).2 (KeepsP.mem h (Sparse.filter_wf _ h.1)))

theorem State.bootScan_keeps (sgl dbl : List (Fin 8192)) (h : Keeps p c s) : Keeps p c (s.bootScan sgl dbl) :=
  (Keeps_mk ..).2 (scrub_keeps _ _ _ h)

theorem State.bootLoads_keeps (h : Keeps p c s) : Keeps p c s.bootLoads :=
  ceilBoot_keeps _ (updBoot_keeps _ (tamperBoot_keeps _ (logBoot_keeps _ (yldLoad_keeps _
    (loadBoot_keeps _ (revBoot_keeps _ (mapBoot_keeps _ (tbBoot_keeps _ h))))))))

theorem State.bootOn_keeps (gpio00 ram : Bool) (h : Keeps p c s) : Keeps p c (s.bootOn gpio00 ram) := by
  unfold State.bootOn
  extract_lets s1 s2 s3
  have h1 : Keeps p c s1 := (Keeps_mk ..).2 h
  clear_value s1
  have h2 : Keeps p c s2 := Keeps_ite h1 (wr_keeps _ _ _ h1)
  clear_value s2
  have h3 : Keeps p c s3 := Keeps_ite h2 (wr_keeps _ _ _ h2)
  clear_value s3
  exact Keeps_ite (bootRecover_keeps _ h3) ((Keeps_mk ..).2 h3)
end

theorem opResetRelease_sound (hz : Nat) (gpio00 rom ram : Bool) (passed : Fin 32) (sgl dbl : List (Fin 8192)) :
    Sound (opResetRelease hz gpio00 rom ram passed sgl dbl) where
  inCycle u s := by
    rw [opResetRelease_eq]
    cases h : s.clkStart hz with
    | none => simp
    | some t => simp [← clkStart_inCycle s hz h]
  keeps {p c s} h := by
    rw [opResetRelease_eq]
    cases ht : s.clkStart hz with
    | none => simp [h]
    | some t =>
      exact Keeps_ite h (bootOn_keeps _ _ (bootLoads_keeps (bootScan_keeps _ _ (released_keeps _ (clkStart_keeps s hz ht h)))))
theorem opSeedArm_sound (i : Fin 1024) (w : Word) : Sound (opSeedArm i w) where
  inCycle _ _ := by simp [opSeedArm]
  keeps h := by simp [opSeedArm, h]

theorem opSeedDisarm_sound (i : Fin 1024) (w : Word) : Sound (opSeedDisarm i w) where
  inCycle _ _ := by simp [opSeedDisarm]
  keeps h := by simp [opSeedDisarm, h]

theorem opSeedBusyWrite_sound (i : Fin 1024) (k : Fin 4) (w : Word) : Sound (opSeedBusyWrite i k w) where
  inCycle _ _ := by simp [opSeedBusyWrite]
  keeps h := by simp [opSeedBusyWrite, h]

theorem opSowcEnable_sound : Sound opSowcEnable where
  inCycle _ _ := by simp [opSowcEnable]
  keeps h := by
    unfold opSowcEnable
    split <;> simp +contextual [h]

theorem opSowcDisable_sound : Sound opSowcDisable where
  inCycle _ _ := by simp [opSowcDisable]
  keeps h := by simp [opSowcDisable, h]

theorem opFurEnable_sound (n : Fin 4) : Sound (opFurEnable n) where
  inCycle _ _ := by simp [opFurEnable]
  keeps h := by simp [opFurEnable, h]

theorem opFirstLock_sound (n : Fin 4) : Sound (opFirstLock n) where
  inCycle _ _ := by simp [opFirstLock]
  keeps {p c s} h := by
    have h1 (f : Furrow) : Keeps p c (((((s.setFurrow n f).wr (FUR_STAT_LOCK n) 1).wr (FUR_STAT_HOLD n) 0).wr
        (FUR_STAT_SLEW n) 0).wr (FUR_STAT_RANGE n) 0) :=
      wr_keeps _ _ _ (wr_keeps _ _ _ (wr_keeps _ _ _ (wr_keeps _ _ _ (setFurrow_keeps _ _ _ h))))
    exact Keeps_ite (seedsReeval_keeps _ _ (Keeps_ite
      (setFurrow_keeps _ _ _ (rsMark_keeps _ _ (loadAngle_keeps _ _ _ _ (h1 _))))
      (setFurrow_keeps _ _ _ (loadAngle_keeps _ _ _ _ (h1 _))))) h

theorem opLockSet_sound (n : Fin 4) : Sound (opLockSet n) where
  inCycle _ _ := by simp [opLockSet]
  keeps h := by
    unfold opLockSet
    simp
    split <;> simp [h]

theorem opLockClear_sound (n : Fin 4) : Sound (opLockClear n) where
  inCycle _ _ := by simp [opLockClear]
  keeps h := Keeps_ite (segNow_keeps _ _ (lockWatch_keeps _ _ (wr_keeps _ _ _ h))) h

theorem opSourceLost_sound (n : Fin 4) : Sound (opSourceLost n) where
  inCycle _ _ := by simp [opSourceLost]
  keeps h := Keeps_ite (segNow_keeps _ _ (holdEnter_keeps _ _ (setFurrow_keeps _ _ _ (wr_keeps _ _ _ h)))) h

theorem opFreqOutOfRange_sound (n : Fin 4) : Sound (opFreqOutOfRange n) where
  inCycle _ _ := by simp [opFreqOutOfRange]
  keeps h := Keeps_ite
    (segNow_keeps _ _ (setFurrow_keeps _ _ _ (loopOff_keeps _ _ (wr_keeps _ _ _ (wr_keeps _ _ _ h))))) h

theorem opRangeHoldoverExpiry_sound (n : Fin 4) : Sound (opRangeHoldoverExpiry n) where
  inCycle _ _ := by simp [opRangeHoldoverExpiry]
  keeps h := by
    unfold opRangeHoldoverExpiry
    simp
    split <;> simp [h]

theorem opSourceReturn_sound (n : Fin 4) : Sound (opSourceReturn n) where
  inCycle _ _ := by simp [opSourceReturn]
  keeps h := by
    unfold opSourceReturn
    simp
    (repeat' split) <;> simp [h]

theorem opSlewEnd_sound (n : Fin 4) : Sound (opSlewEnd n) where
  inCycle _ _ := by simp [opSlewEnd]
  keeps h := by simp [opSlewEnd, h]

theorem opForcehSet_sound (n : Fin 4) : Sound (opForcehSet n) where
  inCycle _ _ := by simp [opForcehSet]
  keeps h := by simp [opForcehSet, h]

theorem opForcehClear_sound (n : Fin 4) : Sound (opForcehClear n) where
  inCycle _ _ := by simp [opForcehClear]
  keeps h := by simp [opForcehClear, h]

theorem opSourceChange_sound (n : Fin 4) (w : Word) : Sound (opSourceChange n w) where
  inCycle _ _ := by simp [opSourceChange]
  keeps h := by simp [opSourceChange, h]

theorem opEncoderIndex_sound (k : Fin 2) : Sound (opEncoderIndex k) where
  inCycle _ _ := by simp [opEncoderIndex]
  keeps h := by simp +contextual [opEncoderIndex, h]

theorem opEncoderCountEdge_sound (k : Fin 2) (up : Bool) : Sound (opEncoderCountEdge k up) where
  inCycle _ _ := by simp [opEncoderCountEdge]
  keeps h := by simp +contextual [opEncoderCountEdge, h]

theorem opAnginEdge_sound (k : Fin 2) : Sound (opAnginEdge k) where
  inCycle _ _ := by simp [opAnginEdge]
  keeps h := by simp +contextual [opAnginEdge, h]

theorem opZeroCrossing_sound (n : Fin 4) : Sound (opZeroCrossing n) where
  inCycle _ _ := by
    unfold opZeroCrossing
    simp
    split <;> simp
  keeps h := by
    unfold opZeroCrossing
    simp
    (repeat' split) <;> simp [h]

theorem opFurLatch_sound : Sound opFurLatch where
  inCycle _ _ := by simp [opFurLatch]
  keeps h := by simp [opFurLatch, h]

theorem opInterruptClaim_sound (o : Orig) (t : Fin 6) : Sound (opInterruptClaim o t) where
  inCycle _ _ := by simp [opInterruptClaim]
  keeps h := by simp [opInterruptClaim, h]

theorem opInterruptComplete_sound (t : Fin 6) (w : Word) : Sound (opInterruptComplete t w) where
  inCycle _ _ := by simp [opInterruptComplete]
  keeps h := by simp [opInterruptComplete, h]

theorem opIntSwset_sound (k : Fin 2) (w : Word) : Sound (opIntSwset k w) where
  inCycle _ _ := by simp [opIntSwset]
  keeps h := by simp [opIntSwset, h]

theorem opIntSwclr_sound (k : Fin 2) (w : Word) : Sound (opIntSwclr k w) where
  inCycle _ _ := by simp [opIntSwclr]
  keeps h := by simp [opIntSwclr, h]

theorem opComparatorWrite_sound (k : Fin 96) (r : Fin 4) (w : Word) : Sound (opComparatorWrite k r w) where
  inCycle _ _ := by simp [opComparatorWrite]
  keeps h := by simp [opComparatorWrite, h]

theorem opComparatorReturn_sound (k : Fin 96) : Sound (opComparatorReturn k) where
  inCycle _ _ := by simp [opComparatorReturn]
  keeps h := by simp [opComparatorReturn, h]

theorem opOverloadMonitor_sound : Sound opOverloadMonitor where
  inCycle _ _ := by simp [opOverloadMonitor]
  keeps h := Keeps_ite h ((Keeps_mk ..).2 (Keeps_foldl (fun _ _ ht => setBit_keeps _ _ _ ht) h))

theorem opGlnRegularStart_sound : Sound opGlnRegularStart where
  inCycle _ _ := by simp [opGlnRegularStart]
  keeps h := by simp [opGlnRegularStart, h]

theorem opGlnCmdRegular_sound : Sound opGlnCmdRegular where
  inCycle _ _ := by simp [opGlnCmdRegular]
  keeps h := by simp [opGlnCmdRegular, h]

theorem opGlnInjectTrigger_sound : Sound opGlnInjectTrigger where
  inCycle _ _ := by simp [opGlnInjectTrigger]
  keeps h := by simp [opGlnInjectTrigger, h]

theorem opGlnInjectDelayExpiry_sound : Sound opGlnInjectDelayExpiry where
  inCycle _ _ := by simp [opGlnInjectDelayExpiry]
  keeps h := by simp [opGlnInjectDelayExpiry, h]

theorem opGlnConversionDone_sound (r : Fin 4096) : Sound (opGlnConversionDone r) where
  inCycle _ _ := by
    unfold opGlnConversionDone
    (repeat' split) <;> simp
  keeps {p c s} h := by
    unfold opGlnConversionDone
    split
    · refine Keeps_ite ?_ h
      extract_lets es seq code s1 s2 s3
      have h1 : Keeps p c s1 := Keeps_ite (wr_keeps _ _ _ (wr_keeps _ _ _ h)) (wr_keeps _ _ _ (wr_keeps _ _ _ h))
      have h3 : Keeps p c s3 :=
        Keeps_foldl (fun _ _ ht => glnCompare_keeps _ _ _ _ ht) (Keeps_ite (hopGleaner_keeps _ _ _ _ _ _ h1) h1)
      exact Keeps_ite (Keeps.of h3) (Keeps.of h3)
    · exact h

theorem opGlnSequenceEnd_sound : Sound opGlnSequenceEnd where
  inCycle _ _ := by simp [opGlnSequenceEnd]
  keeps h := by
    unfold opGlnSequenceEnd
    simp [h]
    (repeat' split) <;> simp [h]

theorem opSiloArm_sound (b : Fin 8) : Sound (opSiloArm b) where
  inCycle _ _ := by simp [opSiloArm]
  keeps h := by simp [opSiloArm, h]

theorem opSiloTrigger_sound (b : Fin 8) : Sound (opSiloTrigger b) where
  inCycle _ _ := by simp [opSiloTrigger]
  keeps h := by simp [opSiloTrigger, h]

theorem opSiloStop_sound (b : Fin 8) : Sound (opSiloStop b) where
  inCycle _ _ := by simp [opSiloStop]
  keeps h := by simp [opSiloStop, h]

theorem opSiloWavefrontRerun_sound (b : Fin 8) : Sound (opSiloWavefrontRerun b) where
  inCycle _ _ := by simp [opSiloWavefrontRerun]
  keeps h := by
    unfold opSiloWavefrontRerun
    split <;> simp +contextual [h]

theorem opSiloFreeze_sound (b : Fin 8) : Sound (opSiloFreeze b) where
  inCycle _ _ := by simp [opSiloFreeze]
  keeps {p c s} h := by
    have h1 : Keeps p c (((s.siloRecord b).wr (SIL_BSTAT_STATE b) 3).setBit SIL_STAT (8 + b)) :=
      setBit_keeps _ _ _ (wr_keeps _ _ _ (siloRecord_keeps _ _ h))
    exact Keeps_ite (Keeps_ite (setSilo_keeps _ _ _ h1) h1) h

theorem opWavefrontDone_sound (b : Fin 8) : Sound (opWavefrontDone b) where
  inCycle _ _ := by simp [opWavefrontDone]
  keeps h := by
    unfold opWavefrontDone
    split <;> simp +contextual [h]

theorem opJobCancel_sound (a : Word) : Sound (opJobCancel a) where
  inCycle _ _ := by simp [opJobCancel]
  keeps h := by simp [opJobCancel, h]

theorem opWindowReady_sound (_n : Fin 4) : Sound (opWindowReady _n) where
  inCycle _ _ := by simp [opWindowReady]
  keeps h := by simp [opWindowReady, h]

theorem opLaneBlockDue_sound (k : Fin 16) : Sound (opLaneBlockDue k) where
  inCycle _ _ := by
    unfold opLaneBlockDue
    split <;> simp
  keeps h := by
    unfold opLaneBlockDue
    dsimp only
    (repeat' split) <;> simp [h]

theorem opJobPost_sound (o : Orig) (a : Word) : Sound (opJobPost o a) where
  inCycle _ _ := by simp [opJobPost]
  keeps h := by simp [opJobPost, h]

theorem opStartRequest_sound (o : Orig) (w : Word) : Sound (opStartRequest o w) where
  inCycle _ _ := by simp [opStartRequest]
  keeps h := by simp [opStartRequest, h]

theorem opStartDispatch_sound (l : Fin 4) : Sound (opStartDispatch l) where
  inCycle _ _ := by
    unfold opStartDispatch
    (repeat' split) <;> simp
  keeps h := by
    unfold opStartDispatch
    split
    · dsimp only
      split
      · exact Keeps_ite (setPlough_keeps _ _ _ (setHand_keeps _ _ _ _ (startTaken_keeps _ _ _ h))) h
      · exact h
    · exact h

theorem opStartAgeExpiry_sound (l : Fin 4) : Sound (opStartAgeExpiry l) where
  inCycle _ _ := by simp [opStartAgeExpiry]
  keeps h := Keeps_ite h (Keeps_foldl (fun _ _ ht => flag_keeps _ _ (ovInc_keeps _ _ _ ht)) (setLogi_keeps _ _ _ h))

theorem opVector15Request_sound (l : Fin 4) : Sound (opVector15Request l) where
  inCycle _ _ := by simp [opVector15Request]
  keeps h := by simp [opVector15Request, h]

theorem opScarecrowKick_sound (o : Orig) (l : Fin 4) (w : Word) : Sound (opScarecrowKick o l w) where
  inCycle _ _ := by simp [opScarecrowKick]
  keeps h := by simp [opScarecrowKick, h]

theorem opScarecrowExpiry_sound (l : Fin 4) : Sound (opScarecrowExpiry l) where
  inCycle _ _ := by
    unfold opScarecrowExpiry
    split <;> simp
  keeps h := by
    unfold opScarecrowExpiry
    split <;> simp +contextual [h]

theorem opPloughRestartEnd_sound (l : Fin 4) : Sound (opPloughRestartEnd l) where
  inCycle _ _ := by
    unfold opPloughRestartEnd
    split <;> simp
  keeps h := by
    unfold opPloughRestartEnd
    (repeat' split) <;> simp +contextual [h]

theorem opPloughSwapCmd_sound (r : Fin 2) (l : Fin 8) : Sound (opPloughSwapCmd r l) where
  inCycle _ _ := by simp [opPloughSwapCmd]
  keeps h := by simp [opPloughSwapCmd, h]

theorem opIcacheInvalidate_sound (o : Orig) (l : Fin 8) : Sound (opIcacheInvalidate o l) where
  inCycle _ _ := by simp [opIcacheInvalidate]
  keeps h := by simp [opIcacheInvalidate, h]

theorem opPloughRestartCmd_sound (r : Fin 2) (l : Fin 8) : Sound (opPloughRestartCmd r l) where
  inCycle _ _ := by simp [opPloughRestartCmd]
  keeps h := by simp [opPloughRestartCmd, h]

theorem opSelfTestEnd_sound (p : Fin 5) (pass : Bool) : Sound (opSelfTestEnd p pass) where
  inCycle _ _ := by simp [opSelfTestEnd]
  keeps {p' c s} h := by
    have h1 : Keeps p' c (s.wr (PLG_PSTAT_PASS p) (b2n pass)) := wr_keeps _ _ _ h
    exact Keeps_ite (Keeps_ite (wr_keeps _ _ _ (wr_keeps _ _ _ (wr_keeps _ _ _ h1)))
      (logEv_keeps _ _ _ _ _ (wr_keeps _ _ _ h1))) h

theorem opGranaryWord0Read_sound (o : Orig) (snap : Bool) (b : Fin 4096) : Sound (opGranaryWord0Read o snap b) where
  inCycle _ _ := by simp [opGranaryWord0Read]
  keeps h := by
    unfold opGranaryWord0Read
    split <;> simp +contextual [h]

theorem opSnapshotRequest_sound (fields : Fin 65536) (aligned : Bool) : Sound (opSnapshotRequest fields aligned) where
  inCycle _ _ := by simp [opSnapshotRequest]
  keeps h := by simp [opSnapshotRequest, h]

theorem opSnapshotBoundary_sound : Sound opSnapshotBoundary where
  inCycle _ _ := by simp [opSnapshotBoundary]
  keeps h := by simp [opSnapshotBoundary, h]

theorem opConfigBoundary_sound (f : Fin 16) : Sound (opConfigBoundary f) where
  inCycle _ _ := by simp [opConfigBoundary]
  keeps h := by simp [opConfigBoundary, h]

theorem opPulseStart_sound (n : Fin 16) : Sound (opPulseStart n) where
  inCycle _ _ := by simp [opPulseStart]
  keeps h := Keeps_ite (plsMoved_keeps _ _ h (setPulse_keeps _ _ _ (wrW_keeps _ _ _ (wr_keeps _ _ _ h)))) h

theorem opPulseEnd_sound (n : Fin 16) : Sound (opPulseEnd n) where
  inCycle _ _ := by simp [opPulseEnd]
  keeps h := by
    unfold opPulseEnd
    simp
    split <;> simp [h]

theorem opPulseReadbackFault_sound (n : Fin 16) : Sound (opPulseReadbackFault n) where
  inCycle _ _ := by simp [opPulseReadbackFault]
  keeps h := by simp [opPulseReadbackFault, h]

theorem opPulseSpareHandover_sound (k : Fin 4) : Sound (opPulseSpareHandover k) where
  inCycle _ _ := by
    unfold opPulseSpareHandover
    simp
    split <;> simp
  keeps h := by
    unfold opPulseSpareHandover
    extract_lets cur want
    clear_value cur want
    split
    · exact Keeps_ite h (logEv_keeps _ _ _ _ _ (swapIn_keeps _ (plsHand_keeps _ _ _ h)))
    · exact Keeps_ite h (logEv_keeps _ _ _ _ _ (plsHand_keeps _ _ _ h))
    · exact Keeps_ite h (logEv_keeps _ _ _ _ _ (plsHand_keeps _ _ _ h))
    · exact h

theorem opPulseHedgeClear_sound (n : Fin 16) : Sound (opPulseHedgeClear n) where
  inCycle _ _ := by simp [opPulseHedgeClear]
  keeps h := Keeps_ite (setPulse_keeps _ _ _ (wr_keeps _ _ _ (clrBit_keeps _ _ _ h))) h

theorem opTallyRound_sound : Sound opTallyRound where
  inCycle _ _ := by simp [opTallyRound]
  keeps h := by simp [opTallyRound, h]

theorem opNvmPush_sound (o : Orig) (w : Word) : Sound (opNvmPush o w) where
  inCycle _ _ := by simp [opNvmPush]
  keeps h := by simp [opNvmPush, h]

theorem opCommitTimerExpiry_sound : Sound opCommitTimerExpiry where
  inCycle _ _ := by simp [opCommitTimerExpiry]
  keeps h := by simp [opCommitTimerExpiry, h]

theorem opCommitNow_sound : Sound opCommitNow where
  inCycle _ _ := by simp [opCommitNow]
  keeps h := by simp [opCommitNow, h]

theorem opScrubNow_sound : Sound opScrubNow where
  inCycle _ _ := by simp [opScrubNow]
  keeps h := by simp [opScrubNow, h]

theorem opCribCopyNow_sound : Sound opCribCopyNow where
  inCycle _ _ := by simp [opCribCopyNow]
  keeps h := by simp [opCribCopyNow, h]

theorem opCribPageProgramEnd_sound : Sound opCribPageProgramEnd where
  inCycle _ _ := by
    unfold opCribPageProgramEnd
    split <;> simp
  keeps h := by
    unfold opCribPageProgramEnd
    (repeat' split) <;> simp +contextual [h]

theorem opScrubTimer_sound (sgl dbl : Scrubbed) : Sound (opScrubTimer sgl dbl) where
  inCycle _ _ := by simp [opScrubTimer]
  keeps {p c s} h := by
    unfold opScrubTimer
    extract_lets s1
    have h1 : Keeps p c s1 := Keeps_ite (scrub_keeps _ _ _ h) h
    exact Keeps_ite (add_keeps _ _ _ (add_keeps _ _ _ (Keeps.of h1))) h1

theorem opCribCopyTimer_sound : Sound opCribCopyTimer where
  inCycle _ _ := by simp [opCribCopyTimer]
  keeps h := by simp [opCribCopyTimer, h]

theorem opCribCopyEnd_sound : Sound opCribCopyEnd where
  inCycle _ _ := by
    unfold opCribCopyEnd
    simp
    split <;> simp
  keeps h := by
    unfold opCribCopyEnd
    simp
    split <;> simp [h]

theorem Keeps.ffDrop {p : List Instr} {c : Nat} {t : State} (h : Keeps p c t) (l : List Nat) :
    Keeps p c { t with ffDrop := l } := (Keeps_mk ..).2 h

theorem opFixedFunctionRetry_sound (k : Fin 6) (f : Fin 16) (a : Word) (n : Fin 17) : Sound (opFixedFunctionRetry k f
    a n) where
  inCycle _ _ := by
    unfold opFixedFunctionRetry
    (repeat' split) <;> simp
  keeps {p c s} h := by
    unfold opFixedFunctionRetry
    have hf (o a m : Nat) {t : State} (ht : Keeps p c t) : Keeps p c (t.failTimes o a m) := failTimes_keeps _ _ _ _ ht
    split
    · exact Keeps_ite (setField_keeps _ _ _ (hf _ _ _ h)) (hf _ _ _ h)
    · exact hf _ _ _ h
    · exact (bicMismatch_keeps s 12 a.toNat false h).ffDrop _
    · exact (bicMismatch_keeps s 13 a.toNat false h).ffDrop _
    · exact thrRead_keeps _ _ h
    · split
      · exact Keeps_ite (commitStall_keeps _ (rowBad_keeps _ _ _ (hf _ _ _ h))) (hf _ _ _ h)
      · exact h

theorem opTransformBoundary_sound : Sound opTransformBoundary where
  inCycle _ _ := by
    unfold opTransformBoundary
    split <;> simp
  keeps h := by
    unfold opTransformBoundary
    split
    · exact thrNext_keeps _ h
    · exact Keeps_ite h (thrNext_keeps _ (harmLast_keeps _ (thrFinish_keeps _ _ h)))

theorem opChannelCfgTakeEffect_sound (c : Fin 48) : Sound (opChannelCfgTakeEffect c) where
  inCycle _ _ := by simp [opChannelCfgTakeEffect]
  keeps h := by simp [opChannelCfgTakeEffect, h]

theorem opChannelPowerupDone_sound (c : Fin 48) : Sound (opChannelPowerupDone c) where
  inCycle _ _ := by
    unfold opChannelPowerupDone
    simp
  keeps h := by
    unfold opChannelPowerupDone
    dsimp only
    (repeat' split) <;> simp [h]

theorem opHandoverSlot_sound (c : Fin 48) (res : Residual) (co : Coefs) : Sound (opHandoverSlot c res co) where
  inCycle _ _ := by simp [opHandoverSlot]
  keeps h := by
    unfold opHandoverSlot
    simp
    (repeat' split) <;> simp [h]

theorem opFallowStepChange_sound (c : Fin 48) (co : Coefs) : Sound (opFallowStepChange c co) where
  inCycle _ _ := by simp [opFallowStepChange]
  keeps h := by
    unfold opFallowStepChange
    simp
    (repeat' split) <;> simp [h]

theorem opShadowExtension_sound (c : Fin 48) (res : Residual) (co : Coefs) : Sound (opShadowExtension c res co) where
  inCycle _ _ := by simp [opShadowExtension]
  keeps h := Keeps_ite (Keeps_ite (handover_keeps _ _ _ _ h) (Keeps_ite (setChan_keeps _ _ _ h)
    (excursions_keeps _ _ _ _ (setChan_keeps _ _ _ (flag_keeps _ _ (stepTo_keeps _ _ _ h)))))) h

theorem opCoefficientExcursion_sound (c : Fin 48) (sl : Fin 5) (co : Coefs) : Sound (opCoefficientExcursion c sl co)
    where
  inCycle _ _ := by simp [opCoefficientExcursion]
  keeps h := by simp [opCoefficientExcursion, h]

theorem opCoefficientReturn_sound (c : Fin 48) (sl : Fin 5) (co : Coefs) : Sound (opCoefficientReturn c sl co) where
  inCycle _ _ := by simp [opCoefficientReturn]
  keeps h := by simp [opCoefficientReturn, h]

theorem opSliceRetirement_sound (c : Fin 48) (sl : Fin 5) : Sound (opSliceRetirement c sl) where
  inCycle _ _ := by simp [opSliceRetirement]
  keeps h := by
    unfold opSliceRetirement
    simp
    (repeat' split) <;> simp [h]

theorem opRetirementHandover_sound (c : Fin 48) (res : Residual) (co : Coefs) : Sound (opRetirementHandover c res co)
    where
  inCycle _ _ := by
    unfold opRetirementHandover
    simp
    split <;> simp
  keeps h := by
    unfold opRetirementHandover
    extract_lets h1
    split
    · exact Keeps_ite (Keeps_ite (swapIn_keeps _ (retired_keeps _ _ _ _ (takePhase_keeps _ _ _
        (putShadow_keeps _ _ _ _ _ h)))) (setChan_keeps _ _ _ h)) h
    · exact h

theorem opSlcRotateNow_sound (c : Fin 64) : Sound (opSlcRotateNow c) where
  inCycle _ _ := by simp [opSlcRotateNow]
  keeps h := by simp [opSlcRotateNow, h]

theorem opSlcRetire_sound (c : Fin 64) (sl : Fin 8) : Sound (opSlcRetire c sl) where
  inCycle _ _ := by simp [opSlcRetire]
  keeps h := by simp [opSlcRetire, h]

theorem opCalibrationStart_sound (one : Bool) (c : Fin 64) : Sound (opCalibrationStart one c) where
  inCycle _ _ := by simp [opCalibrationStart]
  keeps h := by simp [opCalibrationStart, h]

theorem opCalibrationEnd_sound (out : List CalOut) : Sound (opCalibrationEnd out) where
  inCycle _ _ := by
    unfold opCalibrationEnd
    (repeat' split) <;> simp
  keeps {p c s} h := by
    unfold opCalibrationEnd
    split
    · refine Keeps_ite (calEnd_keeps _ ?_) h
      have h1 (l : List CalOut) (b : Bool) : Keeps p c
          (l.foldl (fun s o => if s.inCal o.ch then s.calChannel b o else s) s) :=
        Keeps_foldl (fun _ _ ht => Keeps_ite (calChannel_keeps _ _ _ ht) ht) h
      have h2 {t : State} {b : Prop} [Decidable b] {n : Nat} {x : Chan} (ht : Keeps p c t) :
          Keeps p c (if b then t.setChan n x else t) := Keeps_ite (setChan_keeps _ _ _ ht) ht
      exact Keeps_ite (rotStart_keeps _ (h2 (h1 ..))) (h2 (h1 ..))
    · exact h

theorem opReferenceCheck_sound : Sound opReferenceCheck where
  inCycle _ _ := by simp [opReferenceCheck]
  keeps h := by simp [opReferenceCheck, h]

theorem opReferenceCheckDone_sound (d : Int) : Sound (opReferenceCheckDone d) where
  inCycle _ _ := by
    unfold opReferenceCheckDone
    split <;> simp
  keeps h := by
    unfold opReferenceCheckDone
    split
    · exact Keeps_ite ((Keeps_mk ..).2 (wrW_keeps _ _ _ h)) h
    · exact h

theorem opGangModeChange_sound (k : Fin 24) : Sound (opGangModeChange k) where
  inCycle _ _ := by simp [opGangModeChange]
  keeps {p c s} h := by
    unfold opGangModeChange
    refine Keeps_ite h ?_
    extract_lets was s1 again s2
    have ha (n : Nat) {t : State} (ht : Keeps p c t) : Keeps p c (again n t) :=
      shadowAgain_keeps _ _ _ (setChan_keeps _ _ _ ht)
    have h2 : Keeps p c s2 := ha _ (ha _ (Keeps.of h))
    exact Keeps_ite (reassign_keeps _ _ h2) h2

theorem opRefRatioAverage_sound (ab ca cb : Int) : Sound (opRefRatioAverage ab ca cb) where
  inCycle _ _ := by simp [opRefRatioAverage]
  keeps {p c s} h := by
    unfold opRefRatioAverage
    extract_lets s1 s2 far pair r up r1 s3
    have h1 : Keeps p c s1 := wrW_keeps _ _ _ h
    clear_value s1
    have h2 : Keeps p c s2 := Keeps_ite (wrW_keeps _ _ _ (wrW_keeps _ _ _ h1)) h1
    clear_value s2 r1
    have h3 : Keeps p c s3 := (Keeps_mk ..).2 h2
    clear_value s3
    exact Keeps_ite (Keeps_ite ((Keeps_mk ..).2 h3) (Keeps_ite ((Keeps_mk ..).2 h3) h3))
      (Keeps_ite (Keeps_ite (wr_keeps _ _ _ (wr_keeps _ _ _ h3)) h3) (Keeps_ite (disagree_keeps _ _ h3) h3))

theorem opReferenceArbitration_sound (ca cb : Int) : Sound (opReferenceArbitration ca cb) where
  inCycle _ _ := by
    unfold opReferenceArbitration
    simp
    split <;> simp
  keeps h := by
    unfold opReferenceArbitration
    refine Keeps_ite ?_ h
    extract_lets okA okB r
    clear_value okA okB
    split
    · exact (Keeps_mk ..).2 (wr_keeps _ _ _ h)
    · exact Keeps.of h
    · exact Keeps.of h
    · exact (Keeps_mk ..).2 (wr_keeps _ _ _ h)

theorem opReferenceSwap_sound : Sound opReferenceSwap where
  inCycle _ _ := by
    unfold opReferenceSwap
    split <;> simp
  keeps {p c s} h := by
    unfold opReferenceSwap
    split
    · refine Keeps_ite h (logEv_keeps _ _ _ _ _ (Keeps_foldl (fun _ _ ht => Keeps_ite (stepTo_keeps _ _ _ ht) ht) ?_))
      exact (Keeps_mk ..).2 (swapIn_keeps _ (flag_keeps _ _ (wr_keeps _ _ _ (wr_keeps _ _ _ (wr_keeps _ _ _
        (Keeps_ite (wr_keeps _ _ _ h) (wr_keeps _ _ _ h)))))))
    · exact h

theorem opRefRetireSettleExpiry_sound : Sound opRefRetireSettleExpiry where
  inCycle _ _ := by
    unfold opRefRetireSettleExpiry
    split <;> simp
  keeps h := by
    unfold opRefRetireSettleExpiry
    split <;> simp +contextual [h]

theorem opComparatorTrip_sound (k : Fin 96) : Sound (opComparatorTrip k) where
  inCycle _ _ := by simp [opComparatorTrip]
  keeps h := by simp [opComparatorTrip, h]

theorem opStreamSample_sound (c : Fin 48) (t : Tap) (xs : List Int) (ps : List Phasor) : Sound (opStreamSample c t xs
    ps) where
  inCycle _ _ := by
    unfold opStreamSample
    split <;> simp
  keeps h := by
    unfold opStreamSample
    split <;> simp +contextual [h]

theorem opSettlingClose_sound (c : Fin 48) (t : Tap) : Sound (opSettlingClose c t) where
  inCycle _ _ := by
    unfold opSettlingClose
    split <;> simp
  keeps h := by
    unfold opSettlingClose
    split <;> simp +contextual [h]

theorem opResampledSample_sound (n : Fin 4) (c : Fin 48) (x : Int) (inv : Bool) : Sound (opResampledSample n c x inv)
    where
  inCycle _ _ := by simp [opResampledSample]
  keeps h := by
    refine Keeps_ite (Keeps_ite (hopResampled_keeps _ _ _ _ _ _ ?_) ?_) h <;>
      exact setFurrow_keeps _ _ _ ((Keeps_mk ..).2 (ffStore_keeps _ _ _ _ h))

theorem opHalfCycleRmsPublish_sound (f : Fin 16) (k : Fin 8) : Sound (opHalfCycleRmsPublish f k) where
  inCycle _ _ := by
    unfold opHalfCycleRmsPublish
    simp
    split <;> simp
  keeps {p' c' s} h := by
    unfold opHalfCycleRmsPublish
    extract_lets g
    clear_value g
    split
    · have h1 (m : Sparse Nat) (a : Nat) (w : Word) : Keeps p' c'
          ((({ s with hcLast := m } : State).wrW a w).hcStates f k w) :=
        hcStates_keeps _ _ _ _ (wrW_keeps _ _ _ ((Keeps_mk ..).2 h))
      exact Keeps_ite h (Keeps_ite (hopRms_keeps _ _ _ _ _ _ (h1 ..)) (h1 ..))
    · exact h

theorem opChannelCfgWrite_sound (c : Fin 48) (w : Word) : Sound (opChannelCfgWrite c w) where
  inCycle _ _ := by simp [opChannelCfgWrite]
  keeps h := by simp [opChannelCfgWrite, h]

theorem opChannelEnable_sound (c : Fin 48) : Sound (opChannelEnable c) where
  inCycle _ _ := by simp [opChannelEnable]
  keeps h := by simp [opChannelEnable, h]

theorem opChannelDisable_sound (c : Fin 48) : Sound (opChannelDisable c) where
  inCycle _ _ := by simp [opChannelDisable]
  keeps h := by simp [opChannelDisable, h]

theorem opShiftChange_sound (c : Fin 48) (w : Word) : Sound (opShiftChange c w) where
  inCycle _ _ := by simp [opShiftChange]
  keeps h := by simp [opShiftChange, h]

theorem opPpsEdge_sound (fall : Bool) (z : Int) : Sound (opPpsEdge fall z) where
  inCycle _ _ := by simp [opPpsEdge]
  keeps h := by simp [opPpsEdge, h]

theorem opPpsEdgeMissing_sound : Sound opPpsEdgeMissing where
  inCycle _ _ := by simp [opPpsEdgeMissing]
  keeps h := by simp [opPpsEdgeMissing, h]

theorem opTb0LoadAtPps_sound (o : Orig) : Sound (opTb0LoadAtPps o) where
  inCycle _ _ := by simp [opTb0LoadAtPps]
  keeps h := by simp [opTb0LoadAtPps, h]

theorem opTb0LoadNow_sound (o : Orig) : Sound (opTb0LoadNow o) where
  inCycle _ _ := by simp [opTb0LoadNow]
  keeps h := by simp [opTb0LoadNow, h]

theorem opCalendarSecond_sound : Sound opCalendarSecond where
  inCycle _ _ := by simp [opCalendarSecond]
  keeps h := Keeps_ite (follow_keeps _ (calTick_keeps _ (Keeps_ite (inc_keeps _ _ (Keeps.of h)) (Keeps.of h)))) h

theorem opDstSetCmd_sound (o : Orig) : Sound (opDstSetCmd o) where
  inCycle _ _ := by simp [opDstSetCmd]
  keeps h := by simp [opDstSetCmd, h]

theorem opDstClearCmd_sound (o : Orig) : Sound (opDstClearCmd o) where
  inCycle _ _ := by simp [opDstClearCmd]
  keeps h := by simp [opDstClearCmd, h]

theorem opFoldEnd_sound : Sound opFoldEnd where
  inCycle _ _ := by simp [opFoldEnd]
  keeps h := by simp [opFoldEnd, h]

theorem opCalendarWrite_sound (o : Orig) (w : Word) : Sound (opCalendarWrite o w) where
  inCycle _ _ := by simp [opCalendarWrite]
  keeps h := by simp [opCalendarWrite, h]

theorem opCalendarShift_sound (o : Orig) (w : Word) : Sound (opCalendarShift o w) where
  inCycle _ _ := by simp [opCalendarShift]
  keeps h := by simp [opCalendarShift, h]

theorem opShiftHoldEnd_sound : Sound opShiftHoldEnd where
  inCycle _ _ := by simp [opShiftHoldEnd]
  keeps h := by
    unfold opShiftHoldEnd
    split <;> simp +contextual [h]

theorem opCalendarFreezeRead_sound (o : Orig) : Sound (opCalendarFreezeRead o) where
  inCycle _ _ := by simp [opCalendarFreezeRead]
  keeps h := by simp [opCalendarFreezeRead, h]

theorem opCalendarYearRead_sound (o : Orig) : Sound (opCalendarYearRead o) where
  inCycle _ _ := by simp [opCalendarYearRead]
  keeps h := by simp [opCalendarYearRead, h]

theorem opBackupWriteApply_sound : Sound opBackupWriteApply where
  inCycle _ _ := by
    unfold opBackupWriteApply
    split <;> simp
  keeps h := by
    unfold opBackupWriteApply
    split <;> simp +contextual [h]

theorem opBackupIsolationEnd_sound : Sound opBackupIsolationEnd where
  inCycle _ _ := by
    unfold opBackupIsolationEnd
    split <;> simp
  keeps h := by
    unfold opBackupIsolationEnd
    split <;> simp +contextual [h]

theorem opXtal32Stop_sound : Sound opXtal32Stop where
  inCycle _ _ := by simp [opXtal32Stop]
  keeps h := by
    unfold opXtal32Stop
    split <;> simp +contextual [h]

theorem opXtal32Restart_sound : Sound opXtal32Restart where
  inCycle _ _ := by simp [opXtal32Restart]
  keeps h := by simp [opXtal32Restart, h]

theorem opXtal32Measurement_sound (e : Int) (ovr : Bool) : Sound (opXtal32Measurement e ovr) where
  inCycle _ _ := by simp [opXtal32Measurement]
  keeps {p c s} h := by
    have h1 : Keeps p c ((s.wrS RTC_XMEAS_ERR (satS 16 e)).wr RTC_XMEAS_VALID 1) := wr_keeps _ _ _ (wrS_keeps _ _ _ h)
    exact Keeps_ite (tamper_keeps _ _ h1) h1

theorem opSupplyChangeover_sound : Sound opSupplyChangeover where
  inCycle _ _ := by simp [opSupplyChangeover]
  keeps h := by
    unfold opSupplyChangeover
    simp +contextual [h]

theorem opCellCheck_sound (low : Bool) : Sound (opCellCheck low) where
  inCycle _ _ := by simp [opCellCheck]
  keeps h := by simp [opCellCheck, h]

theorem opBackupDomainReset_sound : Sound opBackupDomainReset where
  inCycle _ _ := by simp [opBackupDomainReset]
  keeps h := wr_keeps _ _ _ (Keeps_foldl (fun _ _ ht => wrW_keeps _ _ _ (draw_keeps _ ht))
    ((Keeps_mk ..).2 (KeepsP.regs h (Sparse.filter_wf _ h.2.1))))

theorem opTamperLoopEvent_sound (n : Fin 4) (bs : List Bool) : Sound (opTamperLoopEvent n bs) where
  inCycle _ _ := by simp [opTamperLoopEvent]
  keeps h := Keeps_ite (Keeps_foldl (fun _ _ ht => loopBit_keeps _ _ _ ht) h) h

theorem opMagneticCheck_sound (code : Fin 4096) : Sound (opMagneticCheck code) where
  inCycle _ _ := by simp [opMagneticCheck]
  keeps h := by
    unfold opMagneticCheck
    simp
    (repeat' split) <;> simp [h]

theorem opTemperatureCheck_sound (t0 t1 t2 t3 : Fin 256) : Sound (opTemperatureCheck t0 t1 t2 t3) where
  inCycle _ _ := by simp [opTemperatureCheck]
  keeps h := by
    unfold opTemperatureCheck
    simp
    (repeat' split) <;> simp [h]

theorem opSupplyExcursion_sound : Sound opSupplyExcursion where
  inCycle _ _ := by simp [opSupplyExcursion]
  keeps h := by simp [opSupplyExcursion, h]

theorem opTapInstructionLoad_sound (i : Fin 5) : Sound (opTapInstructionLoad i) where
  inCycle _ _ := by simp [opTapInstructionLoad]
  keeps h := by simp [opTapInstructionLoad, h]

theorem opTestEnHigh_sound : Sound opTestEnHigh where
  inCycle _ _ := by simp [opTestEnHigh]
  keeps h := by simp [opTestEnHigh, h]

theorem opOtpBurnDone_sound (ok : Bool) : Sound (opOtpBurnDone ok) where
  inCycle _ _ := by
    unfold opOtpBurnDone
    (repeat' split) <;> simp
  keeps {p c s} h := by
    unfold opOtpBurnDone
    split
    · exact h
    · refine Keeps_ite h (Keeps_ite ?_ (Keeps_ite (burnNext_keeps _ ((Keeps_mk ..).2 h)) ((Keeps_mk ..).2 h)))
      extract_lets n s1 s2 s3
      have h1 : Keeps p c s1 := wr_keeps _ _ _ (wr_keeps _ _ _ h)
      have h2 : Keeps p c s2 := Keeps_ite (wr_keeps _ _ _ h1) h1
      have h3 : Keeps p c s3 := Keeps_ite (wr_keeps _ _ _ h2) (Keeps_ite (wr_keeps _ _ _ h2) h2)
      exact burnNext_keeps _ ((Keeps_mk ..).2 h3)

theorem opRefinLoss_sound : Sound opRefinLoss where
  inCycle _ _ := by simp [opRefinLoss]
  keeps h := by
    unfold opRefinLoss
    simp
    (repeat' split) <;> simp [h]

theorem opRefinReturn_sound : Sound opRefinReturn where
  inCycle _ _ := by simp [opRefinReturn]
  keeps h := by simp [opRefinReturn, h]

theorem opPllLockRegained_sound : Sound opPllLockRegained where
  inCycle _ _ := by simp [opPllLockRegained]
  keeps h := by simp [opPllLockRegained, h]

theorem opRefinPeriodDeviation_sound : Sound opRefinPeriodDeviation where
  inCycle _ _ := by simp [opRefinPeriodDeviation]
  keeps h := by simp [opRefinPeriodDeviation, h]

theorem opAlarmRecordWrite_sound : Sound opAlarmRecordWrite where
  inCycle _ _ := by
    unfold opAlarmRecordWrite
    split <;> simp
  keeps h := by
    unfold opAlarmRecordWrite
    split
    · next r q hq =>
      have hle := h.al_le
      rw [hq, List.length_cons] at hle
      have hq : q.length ≤ 32 := by omega
      exact Keeps_ite h (logWrite_keeps _ _ ((Keeps_mk ..).2 (KeepsP.al h hq)))
    · exact h

theorem opLogRecordWrite_sound : Sound opLogRecordWrite where
  inCycle _ _ := by
    unfold opLogRecordWrite
    split <;> simp
  keeps h := by
    unfold opLogRecordWrite
    split <;> simp +contextual [h]

theorem opYieldDay_sound (cell vbat cycles osc0 osc1 osc2 osc3 : Word) : Sound (opYieldDay cell vbat cycles osc0 osc1
    osc2 osc3) where
  inCycle _ _ := by simp [opYieldDay]
  keeps {p c s} h := by
    unfold opYieldDay
    refine Keeps_ite h (recordPut_keeps _ _ _ _ _ _ (yldStore_keeps _ _ _ (yldRun_keeps _ ((Keeps_mk ..).2 ?_))))
    exact yldMeasure_keeps _ _ _ _ ((Keeps_mk ..).2 (inc_keeps _ _ h))

theorem opMisdealDurationExpiry_sound : Sound opMisdealDurationExpiry where
  inCycle _ _ := by simp [opMisdealDurationExpiry]
  keeps h := by simp [opMisdealDurationExpiry, h]

theorem opBeaconSend_sound : Sound opBeaconSend where
  inCycle _ _ := by simp [opBeaconSend]
  keeps {p c s} h := by
    unfold opBeaconSend
    refine Keeps_ite h ?_
    extract_lets s1 n s2 s3 s4 gs
    have h1 : Keeps p c s1 := (Keeps_mk ..).2 h
    clear_value s1
    have h3 : Keeps p c s3 := duoSend_keeps _ _ _ _ (wr_keeps _ _ _ h1)
    clear_value s3
    have h4 : Keeps p c s4 := Keeps_foldl (fun t j ht => Keeps_ite
      (Keeps_ite ((Keeps_mk ..).2 (wr_keeps _ _ _ ht)) ((Keeps_mk ..).2 ht)) ht) h3
    clear_value s4
    exact Keeps_ite (periodLost_keeps _ h1) (Keeps_ite (periodLost_keeps _ (dutyHold_keeps _ h1))
      (periodStart_keeps _ ((Keeps_mk ..).2 h4)))

theorem opBeaconReceive_sound (bs : List Byte) (er : Fin 18) (snr : Fin 256) (gain : Fin 8) : Sound (opBeaconReceive
    bs er snr gain) where
  inCycle _ _ := by
    unfold opBeaconReceive
    simp
    (repeat' split) <;> simp
  keeps {p c s} h := by
    unfold opBeaconReceive
    extract_lets dom want seq s1 s2 s3 s4 s5
    have h1 : Keeps p c s1 := wr_keeps _ _ _ (setGain_keeps _ _ h)
    clear_value s1
    have h2 : Keeps p c s2 := Keeps_ite (rxRecord_keeps _ _ _ _ _ _ h1) h1
    clear_value s2
    have h3 : Keeps p c s3 := (Keeps_mk ..).2 h2
    clear_value s3
    have h4 : Keeps p c s4 := Keeps_foldl (fun _ _ ht => Keeps_ite (acked_keeps _ _ _ ht) ht) h3
    clear_value s4
    have h5 : Keeps p c s5 := by
      refine Keeps_ite h4 ?_
      split
      · exact (Keeps_mk ..).2 (wr_keeps _ _ _ (setNode_keeps _ _ h4))
      · split
        · exact (Keeps_mk ..).2 h4
        · exact (Keeps_mk ..).2 h4
        · exact h4
    exact Keeps_ite h (periodStart_keeps _ h5)

theorem opBeaconMiss_sound : Sound opBeaconMiss where
  inCycle _ _ := by simp [opBeaconMiss]
  keeps {p c s} h := by
    have h1 (n k : Nat) : Keeps p c (({ (s.flag DUO_STAT_BCNMISS).inc DUO_BCNMISSCNT_V with
        bcnClk := n, duoMiss := k } : State).periodLost) :=
      periodLost_keeps _ ((Keeps_mk ..).2 (inc_keeps _ _ (flag_keeps _ _ h)))
    exact Keeps_ite h (Keeps_ite ((Keeps_mk ..).2 (wr_keeps _ _ _ (setNode_keeps _ _ (descAll_keeps _ _ (h1 ..))))) (h1 ..))

theorem opJoinSend_sound (pair : Fin 32) : Sound (opJoinSend pair) where
  inCycle _ _ := by simp [opJoinSend]
  keeps h := by
    unfold opJoinSend
    split <;> simp +contextual [h]

theorem opJoinBackoffExpiry_sound : Sound opJoinBackoffExpiry where
  inCycle _ _ := by
    unfold opJoinBackoffExpiry
    split <;> simp
  keeps h := by
    unfold opJoinBackoffExpiry
    split <;> simp +contextual [h]

theorem opModemRunStart_sound (k : Fin 64) : Sound (opModemRunStart k) where
  inCycle _ _ := by
    unfold opModemRunStart
    simp
    split <;> simp
  keeps h := by
    unfold opModemRunStart
    simp [h]
    (repeat' split) <;> simp [h]

theorem opModemTransmitEnd_sound : Sound opModemTransmitEnd where
  inCycle _ _ := by
    unfold opModemTransmitEnd
    simp
    (repeat' split) <;> simp
  keeps {p c s} h := by
    unfold opModemTransmitEnd
    split
    · exact h
    · refine Keeps_ite h ?_
      extract_lets s0 s1
      have h1 : Keeps p c s1 := (Keeps_mk ..).2 (wr_keeps s DUO_STAT_TXON 0 h)
      clear_value s1
      split
      · exact descDone_keeps _ _ h1
      · exact h1

theorem opModemAckTimeout_sound : Sound opModemAckTimeout where
  inCycle _ _ := by
    unfold opModemAckTimeout
    split <;> simp
  keeps h := by
    unfold opModemAckTimeout
    split
    · exact h
    · exact Keeps_ite (flag_keeps _ _ (inc_keeps _ _ (descEnd_keeps _ _ _ h))) (descPut_keeps _ _ h)

theorem opModemFrameReceive_sound (mode : Fin 4) (sy er : Fin 113) (fc crc : Bool) (bs : List Byte) (snr : Fin 256)
    (gain : Fin 8) : Sound (opModemFrameReceive mode sy er fc crc bs snr gain) where
  inCycle _ _ := by simp [opModemFrameReceive]
  keeps {p c s} h := by
    unfold opModemFrameReceive
    refine Keeps_ite h ?_
    extract_lets s1 x s2
    have h1 : Keeps p c s1 := setGain_keeps _ _ h
    have h2 : Keeps p c s2 := msdModem_keeps _ _ _ _ h1
    exact Keeps_ite h1 (Keeps_ite (inc_keeps _ _ (inc_keeps _ _ h2)) (Keeps_ite (inc_keeps _ _ h2)
      (Keeps_ite h2 (duoAccept_keeps _ _ _ _ _ _ h2))))

theorem opModemSymbol_sound (e : Nat) (gain : Fin 8) : Sound (opModemSymbol e gain) where
  inCycle _ _ := by simp [opModemSymbol]
  keeps {p c s} h := by
    unfold opModemSymbol
    refine Keeps_ite h ?_
    extract_lets s1 v thr above lo hi d er s2 s3 s4 s5
    have h1 : Keeps p c s1 := setGain_keeps _ _ h
    have hd : Keeps p c d.2 := draw_keeps _ h1
    clear_value d
    have h2 : Keeps p c s2 := Keeps_ite h1 hd
    clear_value s2
    have h3 : Keeps p c s3 := (Keeps_mk ..).2 h2
    clear_value s3
    have h4 : Keeps p c s4 := inc_keeps _ _ h3
    clear_value s4
    have h5 : Keeps p c s5 := Keeps_ite h4 (inc_keeps _ _ h4)
    clear_value s5
    exact Keeps_ite ((Keeps_mk ..).2 h5) ((Keeps_mk ..).2 h3)

theorem opTxenReadbackFault_sound : Sound opTxenReadbackFault where
  inCycle _ _ := by simp [opTxenReadbackFault]
  keeps h := by simp [opTxenReadbackFault, h]

theorem opMisdealFrameRelease_sound (r : Fin 2) : Sound (opMisdealFrameRelease r) where
  inCycle _ _ := by simp [opMisdealFrameRelease]
  keeps h := by simp [opMisdealFrameRelease, h]

theorem opResponseKeepExpiry_sound : Sound opResponseKeepExpiry where
  inCycle _ _ := by simp [opResponseKeepExpiry]
  keeps h := by simp [opResponseKeepExpiry, h]

theorem opUpdBeginFull_sound : Sound opUpdBeginFull where
  inCycle _ _ := by simp [opUpdBeginFull]
  keeps h := by simp [opUpdBeginFull, h]

theorem opUpdBeginDelta_sound : Sound opUpdBeginDelta where
  inCycle _ _ := by simp [opUpdBeginDelta]
  keeps h := by simp [opUpdBeginDelta, h]

theorem opUpdResume_sound : Sound opUpdResume where
  inCycle _ _ := by simp [opUpdResume]
  keeps h := by simp [opUpdResume, h]

theorem opUpdVerify_sound : Sound opUpdVerify where
  inCycle _ _ := by simp [opUpdVerify]
  keeps h := by simp [opUpdVerify, h]

theorem opUpdCancel_sound : Sound opUpdCancel where
  inCycle _ _ := by simp [opUpdCancel]
  keeps h := by simp [opUpdCancel, h]

theorem opUpdRevert_sound : Sound opUpdRevert where
  inCycle _ _ := by simp [opUpdRevert]
  keeps h := by simp [opUpdRevert, h]

theorem opUpdErase_sound : Sound opUpdErase where
  inCycle _ _ := by simp [opUpdErase]
  keeps h := by simp [opUpdErase, h]

theorem opUpdVerifyDone_sound : Sound opUpdVerifyDone where
  inCycle _ _ := by
    unfold opUpdVerifyDone
    split <;> simp
  keeps h := by
    unfold opUpdVerifyDone
    split <;> simp +contextual [h]

theorem opActivationSchedule_sound : Sound opActivationSchedule where
  inCycle _ _ := by simp [opActivationSchedule]
  keeps h := by simp [opActivationSchedule, h]

theorem opActivation_sound : Sound opActivation where
  inCycle _ _ := by
    unfold opActivation
    split <;> simp
  keeps h := by
    unfold opActivation
    split <;> simp +contextual [h]

theorem opTrialProgress_sound : Sound opTrialProgress where
  inCycle _ _ := by simp [opTrialProgress]
  keeps h := by simp [opTrialProgress, h]

theorem opTrialConfirm_sound (w : Word) : Sound (opTrialConfirm w) where
  inCycle _ _ := by simp [opTrialConfirm]
  keeps h := by simp [opTrialConfirm, h]

theorem opTrialWindowExpiry_sound : Sound opTrialWindowExpiry where
  inCycle _ _ := by simp [opTrialWindowExpiry]
  keeps h := by simp [opTrialWindowExpiry, h]

theorem opRegisterWrite_sound (o : Orig) (a w : Word) : Sound (opRegisterWrite o a w) where
  inCycle _ _ := by simp [opRegisterWrite]
  keeps h := by simp [opRegisterWrite, h]

theorem opSysRstcmdWrite_sound (o : Orig) (w : Word) : Sound (opSysRstcmdWrite o w) where
  inCycle _ _ := by simp [opSysRstcmdWrite]
  keeps h := by simp [opSysRstcmdWrite, h]

theorem opFurDisable_sound (n : Fin 4) : Sound (opFurDisable n) where
  inCycle _ _ := by simp [opFurDisable]
  keeps h := by simp [opFurDisable, h]

theorem opTripQueueRead_sound (o : Orig) (k : Fin 6) : Sound (opTripQueueRead o k) where
  inCycle _ _ := by simp [opTripQueueRead]
  keeps h := by simp [opTripQueueRead, h]

theorem opTalScntlRead_sound (o : Orig) : Sound (opTalScntlRead o) where
  inCycle _ _ := by simp [opTalScntlRead]
  keeps h := by simp [opTalScntlRead, h]

theorem opAlertLatchClear_sound (o : Orig) (w : Word) : Sound (opAlertLatchClear o w) where
  inCycle _ _ := by simp [opAlertLatchClear]
  keeps h := by simp [opAlertLatchClear, h]

theorem opHedgeWrite_sound (o : Orig) (r : Fin 7) (w : Word) : Sound (opHedgeWrite o r w) where
  inCycle _ _ := by simp [opHedgeWrite]
  keeps h := by simp [opHedgeWrite, h]

theorem opSafeStateForce_sound (o : Orig) : Sound (opSafeStateForce o) where
  inCycle _ _ := by simp [opSafeStateForce]
  keeps h := by simp [opSafeStateForce, h]

theorem opSafeStateClear_sound (o : Orig) : Sound (opSafeStateClear o) where
  inCycle _ _ := by simp [opSafeStateClear]
  keeps h := by simp [opSafeStateClear, h]

theorem opDuoTxpost_sound (o : Orig) (w : Word) : Sound (opDuoTxpost o w) where
  inCycle _ _ := by simp [opDuoTxpost]
  keeps h := by simp [opDuoTxpost, h]

theorem opDuoDisable_sound (o : Orig) (w : Word) : Sound (opDuoDisable o w) where
  inCycle _ _ := by simp [opDuoDisable]
  keeps h := by simp [opDuoDisable, h]

theorem opDuoLevelWrite_sound (o : Orig) (w : Word) : Sound (opDuoLevelWrite o w) where
  inCycle _ _ := by simp [opDuoLevelWrite]
  keeps h := by simp [opDuoLevelWrite, h]

theorem opModemHedgeClear_sound (o : Orig) : Sound (opModemHedgeClear o) where
  inCycle _ _ := by simp [opModemHedgeClear]
  keeps h := by simp [opModemHedgeClear, h]

theorem opYldRun_sound (o : Orig) : Sound (opYldRun o) where
  inCycle _ _ := by simp [opYldRun]
  keeps h := by simp [opYldRun, h]

theorem opMisdealStop_sound (o : Orig) : Sound (opMisdealStop o) where
  inCycle _ _ := by simp [opMisdealStop]
  keeps h := by simp [opMisdealStop, h]

theorem opShadowExpiry_sound : Sound opShadowExpiry where
  inCycle _ _ := by simp [opShadowExpiry]
  keeps h := by simp [opShadowExpiry, h]

theorem opJreg_sound (p : Fin 5) (h : Fin 16) (rd ra : Fin 32) (imm : BitVec 16) : Sound (opJreg p h rd ra imm) :=
    issue_sound fun _ => ⟨fun _ _ => by simp, fun h => by simp [h]⟩

theorem opDealCheckEnd_sound : Sound opDealCheckEnd where
  inCycle _ _ := by
    unfold opDealCheckEnd
    (repeat' split) <;> simp
  keeps {p c s} h := by
    have hd := h.dl_le
    unfold opDealCheckEnd
    split
    · next d he =>
      have hk (x y z) : Keeps p c { s with deal := some { d with checking := x, play := y, chkEnd := z } } :=
        (Keeps_mk ..).2 (KeepsP.dl h (by simpa using hd d he))
      split
      · split
        · exact h
        · exact playAnswer_keeps _ _ _ _ _ (tamper_keeps _ _ (dealEnd_keeps _ _ _ (flag_keeps _ _ (draw_keeps _ h))))
        · split
          · exact playAnswer_keeps _ _ _ _ _ (checkViol_keeps _ _ _ (wr_keeps _ _ _ (wr_keeps _ _ _ (hk ..))))
          · extract_lets s1 s2
            have h2 : Keeps p c s2 := playAnswer_keeps _ _ _ _ _ (dealShow_keeps _ _ (hk ..))
            exact Keeps_ite (dealLate_keeps _ _ _ h2) h2
      · exact h
    · exact h

theorem opDealTimeout_sound : Sound opDealTimeout where
  inCycle _ _ := by
    unfold opDealTimeout
    split <;> simp
  keeps h := by
    unfold opDealTimeout
    (repeat' split) <;> simp +contextual [h]

theorem opDealApplication_sound : Sound opDealApplication where
  inCycle _ _ := by simp [opDealApplication]
  keeps h := by simp [opDealApplication, h]

theorem opDreqOpen_sound (p : Fin 5) (h : Fin 16) (rd ra : Fin 32) : Sound (opDreqOpen p h rd ra) where
  inCycle _ _ := by simp [opDreqOpen]
  keeps h := by simp +contextual [opDreqOpen, h]

theorem opDreqWrite_sound (p : Fin 5) (h : Fin 16) (rd ra rb : Fin 32) : Sound (opDreqWrite p h rd ra rb) :=
    dreq_sound fun _ _ => {
    inCycle := fun _ _ => by simp
    keeps := fun h => Keeps_ite2 h (Keeps_ite2 (violate_keeps _ _ _ _ _ h) (dealEntry_keeps _ _ _ _ h)) }

theorem opDreqPlay_sound (p : Fin 5) (h : Fin 16) (rd ra rb : Fin 32) : Sound (opDreqPlay p h rd ra rb) := issue_sound
    fun _ => afterStores_sound {
    inCycle := fun _ _ => by simp
    keeps := fun h => Keeps_ite (retire_keeps _ _ _ _ _ h) (Keeps_ite (handWait_keeps _ _ _ _ (dealPlay_keeps _ _ _ h))
      (retire_keeps _ _ _ _ _ (dealPlay_keeps _ _ _ h))) }

theorem opDreqFold_sound (p : Fin 5) (h : Fin 16) (rd : Fin 32) : Sound (opDreqFold p h rd) where
  inCycle _ _ := by simp [opDreqFold]
  keeps h := by simp +contextual [opDreqFold, h]

theorem opLinkSignalDetect_sound (r : Fin 2) : Sound (opLinkSignalDetect r) where
  inCycle _ _ := by simp [opLinkSignalDetect]
  keeps h := Keeps_ite ((Keeps_mk ..).2 (wr_keeps _ _ _ h)) h

theorem opLinkTrainComplete_sound (r : Fin 2) (valid : Bool) (pos : Fin 64) : Sound (opLinkTrainComplete r valid pos)
    where
  inCycle _ _ := by simp [opLinkTrainComplete]
  keeps h := Keeps_ite (wr_keeps _ _ _ (wr_keeps _ _ _ (wr_keeps _ _ _ h))) h

theorem opLinkDown_sound (r : Fin 2) (viol : Fin 17) : Sound (opLinkDown r viol) where
  inCycle _ _ := by simp [opLinkDown]
  keeps {p c s} h := by
    have h1 : Keeps p c ((s.add (BAL_ERR_VIOL r) viol).ringErrs r viol) := ringErrs_keeps _ _ _ (add_keeps _ _ _ h)
    exact Keeps_ite h1 (flag_keeps _ _ (wr_keeps _ _ _ (wr_keeps _ _ _ (logEv_keeps _ _ _ _ _ h1))))

theorem opSyncSend_sound : Sound opSyncSend where
  inCycle _ _ := by simp [opSyncSend]
  keeps h := Keeps_ite ((Keeps_mk ..).2 (txPut_keeps _ _ _ _ _ (txPut_keeps _ _ _ _ _ (ownFrame_keeps _ _ _ _ _ _ (draw_keeps _ h))))) h

theorem opHopDelayMeasure_sound (r : Fin 2) (d : Fin 65536) : Sound (opHopDelayMeasure r d) where
  inCycle _ _ := by simp [opHopDelayMeasure]
  keeps h := Keeps_ite ((Keeps_mk ..).2 (wr_keeps _ _ _ h)) h

theorem opEventSend_sound : Sound opEventSend where
  inCycle _ _ := by
    unfold opEventSend
    (repeat' split) <;> simp
  keeps h := by
    unfold opEventSend
    refine Keeps_ite ?_ h
    split
    · next e es he =>
      have hle := h.ev_le
      rw [he, List.length_cons] at hle
      have hes : es.length ≤ 5 := by omega
      exact evSend_keeps _ _ ((Keeps_mk ..).2 (KeepsP.ev (draw_keeps _ h) hes))
    · exact h

theorem opEventRetryTimeout_sound : Sound opEventRetryTimeout where
  inCycle _ _ := by
    unfold opEventRetryTimeout
    split <;> simp
  keeps h := by
    unfold opEventRetryTimeout
    split
    · exact Keeps_ite h (Keeps_ite (evSend_keeps _ _ h) ((Keeps_mk ..).2 (inc_keeps _ _ h)))
    · exact h

theorem opFrameReceive_sound (r : Fin 2) (ok abort : Bool) (w0 w1 w2 : Word) (pay : List Word) (at_ : Fin 64) (k : Fin
    5) : Sound (opFrameReceive r ok abort w0 w1 w2 pay at_ k) where
  inCycle _ _ := by simp [opFrameReceive]
  keeps h := Keeps_ite h (Keeps_ite (txPut_keeps _ _ _ _ _ h) (Keeps_ite
    (txPut_keeps _ _ _ _ _ (ringErrs_keeps _ _ _ (inc_keeps _ _ h))) (frameIn_keeps _ _ _ _ _ h)))

theorem opEnum_sound (r : Fin 2) (w0 w1 w2 : Word) : Sound (opEnum r w0 w1 w2) where
  inCycle _ _ := by simp [opEnum]
  keeps h := by simp [opEnum, h]

theorem opSync_sound (r : Fin 2) (host : Bool) (pos : Fin 64) (pay : List Word) : Sound (opSync r host pos pay) where
  inCycle _ _ := by simp [opSync]
  keeps h := by simp [opSync, h]

theorem opEventAck_sound (tag : Fin 64) : Sound (opEventAck tag) where
  inCycle _ _ := by simp [opEventAck]
  keeps h := by simp [opEventAck, h]

theorem opRead_sound (at_ : Fin 64) (k : Fin 5) : Sound (opRead at_ k) := nextReq_sound fun _ => {
    inCycle := fun _ _ => by simp
    keeps := fun h => Keeps_ite (respond_keeps _ _ _ _ _ h) (respond_keeps _ _ _ _ _ (readWords_keeps _ _ _ _ _ _ _ h)) }

theorem opWrite_sound (at_ : Fin 64) (k : Fin 5) : Sound (opWrite at_ k) := nextReq_sound fun q => {
    inCycle := fun u s => by
      simp
      split
      · simp [State.confirmWait_inCycle _ _ _ _ _ ‹_›]
      · simp
    keeps := fun {p c s} h => by
      refine Keeps_ite (respond_keeps _ _ _ _ _ h) (Keeps_ite (respond_keeps _ _ _ _ _ (entryWords_keeps _ _ _ h)) ?_)
      have hx := writeWords_keeps s q.r at_ k 0 q.frame.arg1 q.frame.pay h
      dsimp only
      split
      · exact confirmWait_keeps _ _ _ _ hx _ ‹_›
      · exact respond_keeps _ _ _ _ _ hx }

theorem opRmw_sound (k : Fin 5) : Sound (opRmw k) := nextReq_sound fun q => {
    inCycle := fun u s => by
      dsimp only
      split
      · simp
        split <;> simp
      · simp
    keeps := fun {p c s} h => by
      dsimp only
      split
      · refine Keeps_ite (respond_keeps _ _ _ _ _ h) (Keeps_ite (respond_keeps _ _ _ _ _ (refuse_keeps _ _ _ _ h)) ?_)
        have he := access_keeps s (5 + q.r) q.frame.arg1 k h
        refine Keeps_ite (respond_keeps _ _ _ _ _ he) ?_
        split <;> exact respond_keeps _ _ _ _ _ (hostWrite_keeps _ _ _ _ (wordRead_keeps _ _ _ he))
      · exact respond_keeps _ _ _ _ _ h }

theorem opDealOpen_sound : Sound opDealOpen := nextReq_sound fun _ => {
    inCycle := fun _ _ => by simp
    keeps := fun h => Keeps_ite (respond_keeps _ _ _ _ _ h) (respond_keeps _ _ _ _ _ (dealOpen_keeps _ _ _ _ h)) }

theorem opDealPlay_sound : Sound opDealPlay := nextReq_sound fun _ => {
    inCycle := fun _ _ => by simp
    keeps := fun h => Keeps_ite (respond_keeps _ _ _ _ _ h) (Keeps_ite (reqBusy_keeps _ _ (dealPlay_keeps _ _ _ h))
      (respond_keeps _ _ _ _ _ (dealPlay_keeps _ _ _ h))) }

theorem opDealFold_sound : Sound opDealFold := nextReq_sound fun _ => {
    inCycle := fun _ _ => by simp
    keeps := fun h => Keeps_ite (respond_keeps _ _ _ _ _ h) (respond_keeps _ _ _ _ _ (dealFold_keeps _ _ h)) }

theorem opMailbox_sound : Sound opMailbox := nextReq_sound fun q => {
    inCycle := fun u s => by split <;> simp
    keeps := fun h => by split <;> simp [h] }

theorem opBulkRead_sound (at_ : Nat) (k : Fin 5) : Sound (opBulkRead at_ k) := nextBulk_sound fun q => {
    inCycle := fun u s => by dsimp only; split <;> simp
    keeps := fun h => by
      dsimp only
      split
      · exact Keeps_ite (respond_keeps _ _ _ _ _ h)
          (respondAll_keeps _ _ _ (bulkFrames_keeps _ _ _ _ _ _ (readWords_keeps _ _ _ _ _ _ _ h)))
      · exact respond_keeps _ _ _ _ _ h }

theorem opBulkWrite_sound (at_ : Fin 1024) (k : Fin 5) : Sound (opBulkWrite at_ k) := nextBulk_sound fun _ => {
    inCycle := fun _ _ => by simp
    keeps := fun h => Keeps_ite (respond_keeps _ _ _ _ _ h) (respond_keeps _ _ _ _ _ (bulkPut_keeps _ _ _ _ _ _ _ h)) }

theorem opDownloadBlock_sound : Sound opDownloadBlock := nextBulk_sound fun _ => ⟨fun _ _ => by simp, fun h => by simp
    [h]⟩

theorem opBootcmdRecover_sound : Sound opBootcmdRecover := nextReq_sound fun q => {
    inCycle := fun u s => by
      simp
      split
      · simp [State.ceilPush_inCycle _ _ ‹_›]
      · simp
    keeps := fun {p c s} h => by
      refine Keeps_ite h (Keeps_ite (respond_keeps _ _ _ _ _ h) (Keeps_ite (respond_keeps _ _ _ _ _ h) (Keeps_ite h
        (Keeps_ite ?_ (recoverAuth_keeps _ _ _ h)))))
      split
      · exact ceilPush_keeps _ h _ ‹_›
      · exact respond_keeps _ _ _ _ _ h }

theorem opBootcmdLeave_sound : Sound opBootcmdLeave := nextReq_sound fun q => {
    inCycle := fun u s => by simp
    keeps := fun h => Keeps_ite h (Keeps_ite (respond_keeps _ _ _ _ _ h) (Keeps_ite (respond_keeps _ _ _ _ _ h)
      (Keeps_ite ((Keeps_mk ..).2 (respond_keeps _ _ _ _ _ h)) (respond_keeps _ _ _ _ _ h)))) }

theorem opAlertReleaseDeferred_sound (k : Fin 2) : Sound (opAlertReleaseDeferred k) where
  inCycle _ _ := by simp [opAlertReleaseDeferred]
  keeps h := by simp [opAlertReleaseDeferred, h]

theorem opSeedDue_sound (i : Fin 1024) : Sound (opSeedDue i) where
  inCycle _ _ := by simp [opSeedDue]
  keeps h := Keeps_ite (seedAdvance_keeps _ _ (Keeps_ite (seedMiss_keeps _ _ (dealFirst_keeps _ h))
    ((Keeps_mk ..).2 (dealFirst_keeps _ h)))) (dealFirst_keeps _ h)

theorem opSeedDispatch_sound : Sound opSeedDispatch where
  inCycle _ _ := by simp [opSeedDispatch]
  keeps h := Keeps_foldl (fun _ _ ht => seedSend_keeps _ _ ht)
    ((Keeps_mk ..).2 (Keeps_foldl (fun _ _ ht => seedLate_keeps _ _ ht) (dealFirst_keeps _ h)))

theorem opSeedDelayExpiry_sound (i : Fin 1024) : Sound (opSeedDelayExpiry i) where
  inCycle _ _ := by
    unfold opSeedDelayExpiry
    split <;> simp
  keeps h := by
    unfold opSeedDelayExpiry
    split <;> simp +contextual [h]

theorem opSeedWord0Read_sound (o : Orig) (i : Fin 1024) : Sound (opSeedWord0Read o i) where
  inCycle _ _ := by simp [opSeedWord0Read]
  keeps h := by simp [opSeedWord0Read, h]

theorem opIllegalInstruction_sound (p : Fin 5) (h : Fin 16) (w : Word) (k : Fin 5) : Sound (opIllegalInstruction p h w
    k) where
  inCycle _ _ := by simp [opIllegalInstruction]
  keeps {p' c s} h := by
    unfold opIllegalInstruction
    extract_lets pc miss r s1
    have h1 : Keeps p' c s1 := Keeps_ite2 (access_keeps _ _ _ _ h) h
    exact Keeps_ite (raise_keeps _ _ _ _ _ (setPlough_keeps _ _ _ h1)) (Keeps_ite
      (issue_keeps _ _ _ _ _ (fun _ _ ht => ht) h1) (Keeps_ite (fill_keeps _ _ _ h1) h1))

theorem opDWaitEnd_sound (p : Fin 5) (h : Fin 16) : Sound (opDWaitEnd p h) where
  inCycle _ _ := by simp [opDWaitEnd]
  keeps h := by simp [opDWaitEnd, h]

theorem opHpopWaitEnd_sound (p : Fin 5) : Sound (opHpopWaitEnd p) where
  inCycle _ _ := by
    unfold opHpopWaitEnd
    (repeat' split) <;> simp
  keeps h := by
    unfold opHpopWaitEnd
    (repeat' split) <;> simp +contextual [h]

theorem opMrcvWaitEnd_sound (p : Fin 5) : Sound (opMrcvWaitEnd p) where
  inCycle _ _ := by
    unfold opMrcvWaitEnd
    simp
    (repeat' split) <;> simp
  keeps h := by
    unfold opMrcvWaitEnd
    simp
    (repeat' split) <;> simp [h]

theorem opIclmWaitEnd_sound (p : Fin 5) (h : Fin 16) : Sound (opIclmWaitEnd p h) where
  inCycle _ _ := by
    unfold opIclmWaitEnd
    split <;> simp
  keeps h := by
    unfold opIclmWaitEnd
    (repeat' split) <;> simp +contextual [h]

theorem opAwaitEnd_sound (p : Fin 5) (h : Fin 16) : Sound (opAwaitEnd p h) where
  inCycle _ _ := by
    unfold opAwaitEnd
    (repeat' split) <;> simp
  keeps h := by
    unfold opAwaitEnd
    (repeat' split) <;> simp +contextual [h]

theorem opHpop_sound (p : Fin 5) (h : Fin 16) (rd rt : Fin 32) : Sound (opHpop p h rd rt) := issue_sound fun _ => {
    inCycle := fun u s => by split <;> simp
    keeps := fun h => by split <;> simp [h] }

theorem opHpeek_sound (p : Fin 5) (h : Fin 16) (rd rt : Fin 32) : Sound (opHpeek p h rd rt) := issue_sound fun _ => {
    inCycle := fun u s => by split <;> simp
    keeps := fun h => by split <;> simp [h] }

theorem opGrd_sound (p : Fin 5) (h : Fin 16) (vd : Fin 16) (rn : Fin 32) : Sound (opGrd p h vd rn) := issue_sound fun
    _ => ⟨fun _ _ => by simp, fun h => by simp [h]⟩

theorem opGsnap_sound (p : Fin 5) (h : Fin 16) (rd ra : Fin 32) : Sound (opGsnap p h rd ra) := issue_sound fun _ =>
    afterStores_sound {
    inCycle := fun _ _ => by simp
    keeps := fun h => Keeps_ite (retire_keeps _ _ _ _ _ h) (retire_keeps _ _ _ _ _ (snapRequest_keeps _ _ _ h)) }

theorem opAwait_sound (p : Fin 5) (h : Fin 16) (rd ra rt : Fin 32) (fw : Fin 4) : Sound (opAwait p h rd ra rt fw) :=
    issue_sound fun _ => {
    inCycle := fun _ _ => by simp
    keeps := fun h => Keeps_ite (retire_keeps _ _ _ _ _ h) (Keeps_ite (retire_keeps _ _ _ _ _ h) (handWait_keeps _ _ _ _ h)) }

theorem opArd_sound (p : Fin 5) (h : Fin 16) (rd : Fin 32) (fw : Fin 4) : Sound (opArd p h rd fw) where
  inCycle _ _ := by simp [opArd]
  keeps h := by simp +contextual [opArd, h]

theorem opAts_sound (p : Fin 5) (h : Fin 16) (vd : Fin 16) (fw : Fin 4) : Sound (opAts p h vd fw) where
  inCycle _ _ := by simp [opAts]
  keeps h := by simp +contextual [opAts, h]

theorem opSarm_sound (p : Fin 5) (h : Fin 16) (rd rn : Fin 32) (vs : Fin 16) : Sound (opSarm p h rd rn vs) :=
    issue_sound fun _ => afterStores_sound {
    inCycle := fun _ _ => by simp
    keeps := fun h => Keeps_ite (retire_keeps _ _ _ _ _ (sowFlag_keeps _ _ _ h))
      (retire_keeps _ _ _ _ _ (seedArm_keeps _ _ _ (wrWords_keeps _ _ _ h))) }

theorem opSdis_sound (p : Fin 5) (h : Fin 16) (rd rn : Fin 32) : Sound (opSdis p h rd rn) := issue_sound fun _ =>
    afterStores_sound ⟨fun _ _ => by simp, fun h => by simp [h]⟩

theorem opTpost_sound (p : Fin 5) (h : Fin 16) (rd ra : Fin 32) : Sound (opTpost p h rd ra) := issue_sound fun _ =>
    afterStores_sound ⟨fun _ _ => by simp, fun h => by simp [h]⟩

theorem opMsnd_sound (p : Fin 5) (h : Fin 16) (rd ra rb : Fin 32) : Sound (opMsnd p h rd ra rb) := issue_sound fun _
    => afterStores_sound ⟨fun _ _ => by simp, fun h => by simp [h]⟩

theorem opMrcv_sound (p : Fin 5) (h : Fin 16) (rd rt : Fin 32) (nb : Bool) : Sound (opMrcv p h rd rt nb) :=
    issue_sound fun _ => {
    inCycle := fun u s => by dsimp only; split <;> simp
    keeps := fun h => by dsimp only; split <;> simp [h] }

theorem opIclm_sound (p : Fin 5) (h : Fin 16) (rd : Fin 32) (w : Bool) : Sound (opIclm p h rd w) := issue_sound fun _
    => {
    inCycle := fun _ _ => by simp
    keeps := fun h => Keeps_ite (handWait_keeps _ _ _ _ h) (retire_keeps _ _ _ _ _ (claim_keeps _ _ h)) }

theorem opIdone_sound (p : Fin 5) (h : Fin 16) (ra : Fin 32) : Sound (opIdone p h ra) where
  inCycle _ _ := by simp [opIdone]
  keeps h := by simp +contextual [opIdone, h]

theorem opSpawn_sound (p : Fin 5) (h : Fin 16) (rd ra rb : Fin 32) : Sound (opSpawn p h rd ra rb) := issue_sound fun x
    => afterStores_sound {
  inCycle := fun _ _ => by simp
  keeps := fun h => Keeps_ite (retire_keeps _ _ _ _ _ h) (Keeps_ite (retire_keeps _ _ _ _ _ h)
    (retire_keeps _ _ _ _ _ (startReq_keeps _ _ _ _ h))) }

theorem opYield_sound (p : Fin 5) (h : Fin 16) (ra : Fin 32) : Sound (opYield p h ra) where
  inCycle _ _ := by simp [opYield]
  keeps h := by simp +contextual [opYield, h]

theorem opHalt_sound (p : Fin 5) (h : Fin 16) : Sound (opHalt p h) where
  inCycle _ _ := by simp [opHalt]
  keeps h := by simp +contextual [opHalt, h]

theorem opDrain_sound (p : Fin 5) (h : Fin 16) : Sound (opDrain p h) := issue_sound fun _ => afterStores_sound ⟨fun _
    _ => by simp, fun h => by simp [h]⟩

theorem opWho_sound (p : Fin 5) (h : Fin 16) (rd : Fin 32) : Sound (opWho p h rd) where
  inCycle _ _ := by simp [opWho]
  keeps h := by simp +contextual [opWho, h]

theorem opCycrd_sound (p : Fin 5) (h : Fin 16) (rd : Fin 32) : Sound (opCycrd p h rd) where
  inCycle _ _ := by simp [opCycrd]
  keeps h := by simp +contextual [opCycrd, h]

theorem opBrk_sound (p : Fin 5) (h : Fin 16) (k : Fin 32) : Sound (opBrk p h k) where
  inCycle _ _ := by simp [opBrk]
  keeps h := by simp +contextual [opBrk, h]

theorem opLoadReturn_sound (p : Fin 5) (h : Fin 16) (k : Fin 5) : Sound (opLoadReturn p h k) where
  inCycle _ _ := by
    unfold opLoadReturn
    split <;> simp
  keeps h := by
    unfold opLoadReturn
    simp
    (repeat' split) <;> simp [h]

theorem opStoreComplete_sound (p : Fin 5) (k : Fin 5) : Sound (opStoreComplete p k) where
  inCycle _ _ := by
    unfold opStoreComplete
    split <;> simp
  keeps h := by
    unfold opStoreComplete
    split
    · exact h
    · exact actReset_keeps _ (drained_keeps _ _ (roomWake_keeps _ _ (Keeps_ite
        (mismatch_keeps _ _ _ _ (setPlough_keeps _ _ _ h)) (postDone_keeps _ _ _ (setPlough_keeps _ _ _ h)))))

theorem opYieldEnd_sound (p : Fin 5) (h : Fin 16) : Sound (opYieldEnd p h) where
  inCycle _ _ := by
    unfold opYieldEnd
    split <;> simp
  keeps h := by
    unfold opYieldEnd
    split <;> simp +contextual [h]

theorem opPowerOnReset_sound : Sound opPowerOnReset where
  inCycle _ _ := by simp [opPowerOnReset]
  keeps h := by simp [opPowerOnReset, h]

theorem opRstNLow_sound : Sound opRstNLow where
  inCycle _ _ := by simp [opRstNLow]
  keeps h := by simp [opRstNLow, h]

theorem opSoftwareResetDelayExpiry_sound : Sound opSoftwareResetDelayExpiry where
  inCycle _ _ := by
    unfold opSoftwareResetDelayExpiry
    split <;> simp
  keeps h := by
    unfold opSoftwareResetDelayExpiry
    split <;> simp +contextual [h]

theorem opCommitClose_sound (bad : List (Fin 8192)) : Sound (opCommitClose bad) where
  inCycle _ _ := by
    unfold opCommitClose
    split <;> simp
  keeps {p c s} h := by
    unfold opCommitClose
    split
    · refine Keeps_ite ?_ h
      extract_lets s1 s2
      have h2 : Keeps p c s2 := commitEnd_keeps _ _ (Keeps_foldl (fun _ _ ht => rowBad_keeps _ _ _ ht) h)
      exact Keeps_ite (resetInto_keeps _ _ _ h2) (commitClosed_keeps _ (commitHeld_keeps _ h2))
    · exact h

theorem opPowerFailCommitClose_sound : Sound opPowerFailCommitClose where
  inCycle _ _ := by
    unfold opPowerFailCommitClose
    split <;> simp
  keeps h := by
    unfold opPowerFailCommitClose
    (repeat' split) <;> simp +contextual [h]

theorem opPfwarnAssert_sound : Sound opPfwarnAssert where
  inCycle _ _ := by simp [opPfwarnAssert]
  keeps h := Keeps_ite (Keeps.of h) (Keeps_ite h
    (commitFail_keeps _ _ (actDrop_keeps _ (isolate_keeps _ ((Keeps_mk ..).2 (wr_keeps _ _ _ h))))))

theorem opPfwarnRelease_sound : Sound opPfwarnRelease where
  inCycle _ _ := by simp [opPfwarnRelease]
  keeps h := by simp [opPfwarnRelease, h]

theorem opPfwarnReleaseExpiry_sound : Sound opPfwarnReleaseExpiry where
  inCycle _ _ := by
    unfold opPfwarnReleaseExpiry
    split <;> simp
  keeps h := by
    unfold opPfwarnReleaseExpiry
    split
    · exact Keeps_ite (burnNext_keeps _ (updKick_keeps _ (commitHeld_keeps _ ((Keeps_mk ..).2 (wr_keeps _ _ _ h))))) h
    · exact h

theorem opGpio00WaitExpiry_sound : Sound opGpio00WaitExpiry where
  inCycle _ _ := by simp [opGpio00WaitExpiry]
  keeps h := by simp [opGpio00WaitExpiry, h]

theorem opSlotSelection_sound : Sound opSlotSelection where
  inCycle _ _ := by simp [opSlotSelection]
  keeps {p c s} h := by
    unfold opSlotSelection
    refine Keeps_ite h (Keeps_ite (slotScan_keeps _ _ (wr_keeps _ _ _ h)) (Keeps_ite ?_ (slotPick_keeps _ h)))
    extract_lets held s1 ps
    have h1 : Keeps p c s1 := Keeps.of h
    clear_value s1 ps
    have h2 {k m q f v e x y z l} : Keeps p c
        (((((s1.setMark k m).setSel q).wr f v).logEv e x y z).bootWrite l) :=
      bootWrite_keeps _ _ (logEv_keeps _ _ _ _ _ (wr_keeps _ _ _ (setSel_keeps _ _ (setMark_keeps _ _ _ h1))))
    exact Keeps_ite (Keeps_ite (slotTake_keeps _ _ (slotTry_keeps _ _ h2)) (bootRecover_keeps _ (slotTry_keeps _ _ h2)))
      (slotPick_keeps _ h1)

theorem opImageLoadDone_sound : Sound opImageLoadDone where
  inCycle _ _ := by
    unfold opImageLoadDone
    (repeat' split) <;> simp
  keeps h := by
    unfold opImageLoadDone
    dsimp only
    (repeat' split) <;> simp [h]

theorem opFurrowLockWaitEnd_sound : Sound opFurrowLockWaitEnd where
  inCycle _ _ := by
    unfold opFurrowLockWaitEnd
    split <;> simp
  keeps h := by
    unfold opFurrowLockWaitEnd
    (repeat' split) <;> simp +contextual [h]
end
end Sys2Proof.Machine
end

section
/-!
SUPPORT. A step completes: the time before a command, the three forms that a meaning has, and all rows of the table.
-/
namespace Sys2Proof.Machine
/-! ### Time: the end of a cycle, the cycles before a command, the place in a cycle's order -/

/-- From `s` to `t` the queue of commands stands and time has not gone back. -/
def State.Later (s t : State) : Prop := t.pending = s.pending ∧ s.clk ≤ t.clk

theorem State.Later.refl (s : State) : s.Later s := ⟨rfl, Nat.le_refl _⟩

theorem State.Later.trans {s t u : State} (h : s.Later t) (g : t.Later u) : s.Later u :=
  ⟨g.1.trans h.1, Nat.le_trans h.2 g.2⟩

theorem State.InCycle.later {s t : State} (h : s.InCycle t) : s.Later t := ⟨h.1, Nat.le_of_eq h.2.symm⟩

theorem State.nextCycle_later (s : State) : s.Later s.nextCycle := ⟨rfl, Nat.le_succ _⟩

theorem State.safeRun_later (s : State) : s.Later s.safeRun := ((State.safeRun_inCycle s).2 (InCycle.refl s)).later

theorem State.nvmRun_later (s : State) : s.Later s.nvmRun := ((State.nvmRun_inCycle s).2 (InCycle.refl s)).later

theorem State.cycleEnd_later (s : State) : s.Later s.cycleEnd := by
  unfold State.cycleEnd
  split
  · exact s.nextCycle_later
  · extract_lets s1 now g s2
    have h1 : s.InCycle s1 := by simp [s1, InCycle.refl]
    clear_value s1
    have h2 : s.InCycle s2 := by simp [s2, h1]
    clear_value s2
    have h3 : s.Later { s2 with lvl := now } := ⟨h2.1, Nat.le_of_eq h2.2.symm⟩
    exact (h3.trans (nextCycle_later _)).trans (safeRun_later _)

theorem State.advance_later (s : State) (dt : Nat) : s.Later (s.advance dt) := by
  have h2 : s.Later s.cycleEnd.cycleEnd := s.cycleEnd_later.trans (cycleEnd_later _)
  match dt with
  | 0 => exact .refl s
  | 1 => exact s.cycleEnd_later.trans (nvmRun_later _)
  | 2 => exact h2.trans (nvmRun_later _)
  | n + 3 =>
    have h3 : s.Later { s.cycleEnd.cycleEnd with clk := s.cycleEnd.cycleEnd.clk + n } :=
      ⟨h2.1, Nat.le_trans h2.2 (Nat.le_add_right ..)⟩
    have h4 := (h3.trans (nextCycle_later _)).trans (nvmRun_later _)
    exact ⟨h4.1, h4.2⟩

theorem State.turn_later (s : State) (dt : Nat) (ks : State → List (Nat × Nat)) : s.Later (s.turn dt ks) := by
  unfold State.turn
  dsimp only
  split
  · exact (s.advance_later dt).trans (advance_later _ 1)
  · exact s.advance_later dt

/-! ### A row completes: its queue stands, time has not gone back, its state keeps the canonical form and fits -/

theorem State.keeps_self {s : State} (hi : s.Inv) (hf : s.Fits) : Keeps s.pending s.clk s :=
  ⟨hi.1, hi.2, rfl, Nat.le_refl _, hf⟩

theorem Keeps.inv_fits {p : List Instr} {c : Nat} {t : State} (h : Keeps p c t) : t.Inv ∧ t.Fits := by
  obtain ⟨hm, hr, -, -, hc⟩ := h
  exact ⟨⟨hm, hr⟩, hc⟩

/-- The outcome `r` of a command or an idle cycle in `s` is a next state later than `s` that keeps `Inv` and `Fits`. -/
def Completes (s : State) (r : Res State) : Prop := ∃ t, r = .next t ∧ s.Later t ∧ (s.Inv → s.Fits → t.Inv ∧ t.Fits)

theorem Completes.of_keeps {s t : State} (hl : s.Later t) (hk : Keeps s.pending s.clk s → Keeps s.pending s.clk t) :
    Completes s (.next t) :=
  ⟨t, rfl, hl, fun hi hf => (hk (State.keeps_self hi hf)).inv_fits⟩

theorem advance_completes (s : State) (dt : Nat) : Completes s (.next (s.advance dt)) :=
  .of_keeps (s.advance_later dt) (State.advance_keeps dt s)

theorem Sound.later {f : State → State} (hf : Sound f) {s t : State} (h : s.Later t) : s.Later (f t) :=
  h.trans ((hf.inCycle t t).2 (.refl t)).later

theorem anyCmd_completes {f : State → State} (hf : Sound f) (dt : Nat) (s : State) : Completes s (anyCmd dt f s) :=
  .of_keeps (hf.later (s.advance_later dt)) fun h => hf.keeps (State.advance_keeps dt s h)

theorem mainCmd_completes {f : State → State} (hf : Sound f) (dt : Nat) (s : State) : Completes s (mainCmd dt f s) := by
  unfold mainCmd
  dsimp only
  split
  · exact advance_completes s dt
  · exact anyCmd_completes hf dt s

theorem ordCmd_completes {f : State → State} (hf : Sound f) (dt : Nat) (ks : State → List (Nat × Nat)) (s : State) :
    Completes s (ordCmd dt ks f s) := by
  unfold ordCmd
  extract_lets t
  have hl : s.Later t := s.turn_later dt ks
  have hk : Keeps s.pending s.clk s → Keeps s.pending s.clk t := State.turn_keeps s dt ks
  clear_value t
  split
  · exact .of_keeps hl hk
  · exact .of_keeps (hf.later (t := { t with taken := t.taken ++ ks t }) hl) fun h =>
      hf.keeps ((Keeps_mk ..).2 (hk h))

theorem wfCmd_completes {s : State} {ok : Bool} {r : Res State} (h : ok = true) (hr : Completes s r) :
    Completes s (wfCmd ok r) := by
  subst h
  exact hr

/-- Every row that can reach the device completes: its effect is sound. -/
theorem exec_completes (s : State) (c : Instr) (hw : c.wf = true) : Completes s (exec c s) := by
  cases c with
  | powerOnReset => exact anyCmd_completes opPowerOnReset_sound ..
  | rstNLow => exact anyCmd_completes opRstNLow_sound ..
  | resetRelease => exact anyCmd_completes (opResetRelease_sound ..) ..
  | refinLoss => exact anyCmd_completes opRefinLoss_sound ..
  | refinReturn => exact anyCmd_completes opRefinReturn_sound ..
  | sysRstcmdWrite => exact ordCmd_completes (opSysRstcmdWrite_sound ..) ..
  | softwareResetDelayExpiry => exact mainCmd_completes opSoftwareResetDelayExpiry_sound ..
  | registerWrite => exact ordCmd_completes (opRegisterWrite_sound ..) ..
  | furEnable => exact ordCmd_completes (opFurEnable_sound ..) ..
  | furDisable => exact ordCmd_completes (opFurDisable_sound ..) ..
  | firstLock => exact mainCmd_completes (opFirstLock_sound ..) ..
  | lockSet => exact mainCmd_completes (opLockSet_sound ..) ..
  | lockClear => exact mainCmd_completes (opLockClear_sound ..) ..
  | sourceLost => exact mainCmd_completes (opSourceLost_sound ..) ..
  | freqOutOfRange => exact mainCmd_completes (opFreqOutOfRange_sound ..) ..
  | rangeHoldoverExpiry => exact mainCmd_completes (opRangeHoldoverExpiry_sound ..) ..
  | sourceReturn => exact mainCmd_completes (opSourceReturn_sound ..) ..
  | slewEnd => exact mainCmd_completes (opSlewEnd_sound ..) ..
  | forcehSet => exact ordCmd_completes (opForcehSet_sound ..) ..
  | forcehClear => exact ordCmd_completes (opForcehClear_sound ..) ..
  | sourceChange => exact ordCmd_completes (opSourceChange_sound ..) ..
  | encoderIndex => exact mainCmd_completes (opEncoderIndex_sound ..) ..
  | anginEdge => exact mainCmd_completes (opAnginEdge_sound ..) ..
  | zeroCrossing => exact mainCmd_completes (opZeroCrossing_sound ..) ..
  | furLatch => exact ordCmd_completes opFurLatch_sound ..
  | seedArm => exact ordCmd_completes (opSeedArm_sound ..) ..
  | seedDisarm => exact ordCmd_completes (opSeedDisarm_sound ..) ..
  | seedBusyWrite => exact ordCmd_completes (opSeedBusyWrite_sound ..) ..
  | seedWord0Read => exact mainCmd_completes (opSeedWord0Read_sound ..) ..
  | sowcEnable => exact ordCmd_completes opSowcEnable_sound ..
  | sowcDisable => exact ordCmd_completes opSowcDisable_sound ..
  | seedDue => exact ordCmd_completes (opSeedDue_sound ..) ..
  | seedDispatch => exact ordCmd_completes opSeedDispatch_sound ..
  | seedDelayExpiry => exact mainCmd_completes (opSeedDelayExpiry_sound ..) ..
  | channelCfgWrite => exact ordCmd_completes (opChannelCfgWrite_sound ..) ..
  | channelCfgTakeEffect => exact mainCmd_completes (opChannelCfgTakeEffect_sound ..) ..
  | channelEnable => exact ordCmd_completes (opChannelEnable_sound ..) ..
  | channelPowerupDone => exact mainCmd_completes (opChannelPowerupDone_sound ..) ..
  | channelDisable => exact ordCmd_completes (opChannelDisable_sound ..) ..
  | handoverSlot => exact mainCmd_completes (opHandoverSlot_sound ..) ..
  | fallowStepChange => exact mainCmd_completes (opFallowStepChange_sound ..) ..
  | shadowExtension => exact mainCmd_completes (opShadowExtension_sound ..) ..
  | coefficientExcursion => exact mainCmd_completes (opCoefficientExcursion_sound ..) ..
  | sliceRetirement => exact mainCmd_completes (opSliceRetirement_sound ..) ..
  | retirementHandover => exact mainCmd_completes (opRetirementHandover_sound ..) ..
  | slcRotateNow => exact ordCmd_completes (opSlcRotateNow_sound ..) ..
  | slcRetire => exact ordCmd_completes (opSlcRetire_sound ..) ..
  | calibrationStart => exact ordCmd_completes (opCalibrationStart_sound ..) ..
  | calibrationEnd => exact wfCmd_completes hw (mainCmd_completes (opCalibrationEnd_sound ..) ..)
  | referenceCheck => exact ordCmd_completes opReferenceCheck_sound ..
  | referenceCheckDone => exact mainCmd_completes (opReferenceCheckDone_sound ..) ..
  | gangModeChange => exact mainCmd_completes (opGangModeChange_sound ..) ..
  | refRatioAverage => exact mainCmd_completes (opRefRatioAverage_sound ..) ..
  | referenceArbitration => exact mainCmd_completes (opReferenceArbitration_sound ..) ..
  | referenceSwap => exact mainCmd_completes opReferenceSwap_sound ..
  | refRetireSettleExpiry => exact mainCmd_completes opRefRetireSettleExpiry_sound ..
  | shiftChange => exact ordCmd_completes (opShiftChange_sound ..) ..
  | settlingClose => exact mainCmd_completes (opSettlingClose_sound ..) ..
  | comparatorWrite => exact ordCmd_completes (opComparatorWrite_sound ..) ..
  | comparatorTrip => exact mainCmd_completes (opComparatorTrip_sound ..) ..
  | comparatorReturn => exact mainCmd_completes (opComparatorReturn_sound ..) ..
  | tripQueueRead => exact mainCmd_completes (opTripQueueRead_sound ..) ..
  | tallyRound => exact ordCmd_completes opTallyRound_sound ..
  | granaryWord0Read => exact ordCmd_completes (opGranaryWord0Read_sound ..) ..
  | snapshotRequest => exact ordCmd_completes (opSnapshotRequest_sound ..) ..
  | snapshotBoundary => exact ordCmd_completes opSnapshotBoundary_sound ..
  | configBoundary => exact mainCmd_completes (opConfigBoundary_sound ..) ..
  | halfCycleRmsPublish => exact mainCmd_completes (opHalfCycleRmsPublish_sound ..) ..
  | pulseStart => exact mainCmd_completes (opPulseStart_sound ..) ..
  | pulseEnd => exact mainCmd_completes (opPulseEnd_sound ..) ..
  | pulseReadbackFault => exact mainCmd_completes (opPulseReadbackFault_sound ..) ..
  | pulseSpareHandover => exact mainCmd_completes (opPulseSpareHandover_sound ..) ..
  | jobPost => exact ordCmd_completes (opJobPost_sound ..) ..
  | jobCancel => exact ordCmd_completes (opJobCancel_sound ..) ..
  | windowReady => exact mainCmd_completes (opWindowReady_sound ..) ..
  | transformBoundary => exact ordCmd_completes opTransformBoundary_sound ..
  | laneBlockDue => exact mainCmd_completes (opLaneBlockDue_sound ..) ..
  | siloArm => exact ordCmd_completes (opSiloArm_sound ..) ..
  | siloTrigger => exact ordCmd_completes (opSiloTrigger_sound ..) ..
  | siloStop => exact ordCmd_completes (opSiloStop_sound ..) ..
  | siloWavefrontRerun => exact ordCmd_completes (opSiloWavefrontRerun_sound ..) ..
  | siloFreeze => exact mainCmd_completes (opSiloFreeze_sound ..) ..
  | wavefrontDone => exact mainCmd_completes (opWavefrontDone_sound ..) ..
  | startRequest => exact ordCmd_completes (opStartRequest_sound ..) ..
  | startDispatch => exact mainCmd_completes (opStartDispatch_sound ..) ..
  | startAgeExpiry => exact mainCmd_completes (opStartAgeExpiry_sound ..) ..
  | vector15Request => exact ordCmd_completes (opVector15Request_sound ..) ..
  | scarecrowKick => exact ordCmd_completes (opScarecrowKick_sound ..) ..
  | scarecrowExpiry => exact mainCmd_completes (opScarecrowExpiry_sound ..) ..
  | ploughRestartEnd => exact mainCmd_completes (opPloughRestartEnd_sound ..) ..
  | ploughSwapCmd => exact ordCmd_completes (opPloughSwapCmd_sound ..) ..
  | icacheInvalidate => exact ordCmd_completes (opIcacheInvalidate_sound ..) ..
  | ploughRestartCmd => exact ordCmd_completes (opPloughRestartCmd_sound ..) ..
  | selfTestEnd => exact mainCmd_completes (opSelfTestEnd_sound ..) ..
  | overloadMonitor => exact mainCmd_completes opOverloadMonitor_sound ..
  | glnRegularStart => exact mainCmd_completes opGlnRegularStart_sound ..
  | glnCmdRegular => exact ordCmd_completes opGlnCmdRegular_sound ..
  | glnInjectTrigger => exact mainCmd_completes opGlnInjectTrigger_sound ..
  | glnInjectDelayExpiry => exact mainCmd_completes opGlnInjectDelayExpiry_sound ..
  | glnConversionDone => exact mainCmd_completes (opGlnConversionDone_sound ..) ..
  | glnSequenceEnd => exact mainCmd_completes opGlnSequenceEnd_sound ..
  | illegalInstruction => exact mainCmd_completes (opIllegalInstruction_sound ..) ..
  | add => exact mainCmd_completes (regOp_sound ..) ..
  | sub => exact mainCmd_completes (regOp_sound ..) ..
  | and => exact mainCmd_completes (regOp_sound ..) ..
  | ior => exact mainCmd_completes (regOp_sound ..) ..
  | eor => exact mainCmd_completes (regOp_sound ..) ..
  | shl => exact mainCmd_completes (regOp_sound ..) ..
  | shru => exact mainCmd_completes (regOp_sound ..) ..
  | shrs => exact mainCmd_completes (regOp_sound ..) ..
  | lts => exact mainCmd_completes (regOp_sound ..) ..
  | ltu => exact mainCmd_completes (regOp_sound ..) ..
  | mins => exact mainCmd_completes (regOp_sound ..) ..
  | maxs => exact mainCmd_completes (regOp_sound ..) ..
  | minu => exact mainCmd_completes (regOp_sound ..) ..
  | maxu => exact mainCmd_completes (regOp_sound ..) ..
  | addq => exact mainCmd_completes (regOp_sound ..) ..
  | subq => exact mainCmd_completes (regOp_sound ..) ..
  | absq => exact mainCmd_completes (regOp_sound ..) ..
  | lzc => exact mainCmd_completes (regOp_sound ..) ..
  | addk => exact mainCmd_completes (regOp_sound ..) ..
  | ltsk => exact mainCmd_completes (regOp_sound ..) ..
  | ltuk => exact mainCmd_completes (regOp_sound ..) ..
  | andk => exact mainCmd_completes (regOp_sound ..) ..
  | iork => exact mainCmd_completes (regOp_sound ..) ..
  | eork => exact mainCmd_completes (regOp_sound ..) ..
  | shlk => exact mainCmd_completes (regOp_sound ..) ..
  | shruk => exact mainCmd_completes (regOp_sound ..) ..
  | shrsk => exact mainCmd_completes (regOp_sound ..) ..
  | hik => exact mainCmd_completes (regOp_sound ..) ..
  | mull => exact mainCmd_completes (regOp_sound ..) ..
  | mulhs => exact mainCmd_completes (regOp_sound ..) ..
  | mulhu => exact mainCmd_completes (regOp_sound ..) ..
  | mulq => exact mainCmd_completes (regOp_sound ..) ..
  | divs => exact mainCmd_completes (regOp_sound ..) ..
  | divu => exact mainCmd_completes (regOp_sound ..) ..
  | mods => exact mainCmd_completes (regOp_sound ..) ..
  | modu => exact mainCmd_completes (regOp_sound ..) ..
  | kmac => exact mainCmd_completes (regOp_sound ..) ..
  | kmsu => exact mainCmd_completes (regOp_sound ..) ..
  | kmacu => exact mainCmd_completes (regOp_sound ..) ..
  | cmac => exact mainCmd_completes (regOp_sound ..) ..
  | cmacj => exact mainCmd_completes (regOp_sound ..) ..
  | kclr => exact mainCmd_completes (regOp_sound ..) ..
  | kext => exact mainCmd_completes (regOp_sound ..) ..
  | krd => exact mainCmd_completes (regOp_sound ..) ..
  | kwr => exact mainCmd_completes (regOp_sound ..) ..
  | kadd => exact mainCmd_completes (regOp_sound ..) ..
  | kflt => exact mainCmd_completes (regOp_sound ..) ..
  | fladd => exact mainCmd_completes (regOp_sound ..) ..
  | flsub => exact mainCmd_completes (regOp_sound ..) ..
  | flmul => exact mainCmd_completes (regOp_sound ..) ..
  | fldiv => exact mainCmd_completes (regOp_sound ..) ..
  | flsqrt => exact mainCmd_completes (regOp_sound ..) ..
  | flmac => exact mainCmd_completes (regOp_sound ..) ..
  | flmin => exact mainCmd_completes (regOp_sound ..) ..
  | flmax => exact mainCmd_completes (regOp_sound ..) ..
  | flabs => exact mainCmd_completes (regOp_sound ..) ..
  | flneg => exact mainCmd_completes (regOp_sound ..) ..
  | flceq => exact mainCmd_completes (regOp_sound ..) ..
  | flclt => exact mainCmd_completes (regOp_sound ..) ..
  | flcle => exact mainCmd_completes (regOp_sound ..) ..
  | fltoi => exact mainCmd_completes (regOp_sound ..) ..
  | itofl => exact mainCmd_completes (regOp_sound ..) ..
  | qtofl => exact mainCmd_completes (regOp_sound ..) ..
  | fltoq => exact mainCmd_completes (regOp_sound ..) ..
  | vadd => exact mainCmd_completes (regOp_sound ..) ..
  | vsub => exact mainCmd_completes (regOp_sound ..) ..
  | vaddq => exact mainCmd_completes (regOp_sound ..) ..
  | vmulq => exact mainCmd_completes (regOp_sound ..) ..
  | vmin => exact mainCmd_completes (regOp_sound ..) ..
  | vmax => exact mainCmd_completes (regOp_sound ..) ..
  | vfladd => exact mainCmd_completes (regOp_sound ..) ..
  | vflsub => exact mainCmd_completes (regOp_sound ..) ..
  | vflmul => exact mainCmd_completes (regOp_sound ..) ..
  | vflmac => exact mainCmd_completes (regOp_sound ..) ..
  | vsplat => exact mainCmd_completes (regOp_sound ..) ..
  | vins => exact mainCmd_completes (regOp_sound ..) ..
  | vext => exact mainCmd_completes (regOp_sound ..) ..
  | vkdot => exact mainCmd_completes (regOp_sound ..) ..
  | vflsum => exact mainCmd_completes (regOp_sound ..) ..
  | vshrs => exact mainCmd_completes (regOp_sound ..) ..
  | vqtofl => exact mainCmd_completes (regOp_sound ..) ..
  | ldb => exact mainCmd_completes (loadOp_sound ..) ..
  | ldbu => exact mainCmd_completes (loadOp_sound ..) ..
  | ldh => exact mainCmd_completes (loadOp_sound ..) ..
  | ldhu => exact mainCmd_completes (loadOp_sound ..) ..
  | ldw => exact mainCmd_completes (loadOp_sound ..) ..
  | ldv => exact mainCmd_completes (loadOp_sound ..) ..
  | stb => exact mainCmd_completes (storeOp_sound ..) ..
  | sth => exact mainCmd_completes (storeOp_sound ..) ..
  | stw => exact mainCmd_completes (storeOp_sound ..) ..
  | stv => exact mainCmd_completes (storeOp_sound ..) ..
  | loadReturn => exact ordCmd_completes (opLoadReturn_sound ..) ..
  | storeComplete => exact ordCmd_completes (opStoreComplete_sound ..) ..
  | fixedFunctionRetry => exact mainCmd_completes (opFixedFunctionRetry_sound ..) ..
  | dWaitEnd => exact mainCmd_completes (opDWaitEnd_sound ..) ..
  | aadd => exact mainCmd_completes (atomicOp_sound ..) ..
  | aswap => exact mainCmd_completes (atomicOp_sound ..) ..
  | acas => exact mainCmd_completes (atomicOp_sound ..) ..
  | breq => exact mainCmd_completes (branchOp_sound ..) ..
  | brne => exact mainCmd_completes (branchOp_sound ..) ..
  | brlt => exact mainCmd_completes (branchOp_sound ..) ..
  | brge => exact mainCmd_completes (branchOp_sound ..) ..
  | brltu => exact mainCmd_completes (branchOp_sound ..) ..
  | brgeu => exact mainCmd_completes (branchOp_sound ..) ..
  | call => exact mainCmd_completes (jumpOp_sound ..) ..
  | jump => exact mainCmd_completes (jumpOp_sound ..) ..
  | jreg => exact mainCmd_completes (opJreg_sound ..) ..
  | hpop => exact mainCmd_completes (opHpop_sound ..) ..
  | hpopWaitEnd => exact mainCmd_completes (opHpopWaitEnd_sound ..) ..
  | hpeek => exact mainCmd_completes (opHpeek_sound ..) ..
  | gadd => exact mainCmd_completes (binOp_sound ..) ..
  | gset => exact mainCmd_completes (binOp_sound ..) ..
  | gaddk => exact mainCmd_completes (binOp_sound ..) ..
  | grd => exact mainCmd_completes (opGrd_sound ..) ..
  | gsnap => exact mainCmd_completes (opGsnap_sound ..) ..
  | await => exact mainCmd_completes (opAwait_sound ..) ..
  | awaitEnd => exact mainCmd_completes (opAwaitEnd_sound ..) ..
  | ard => exact mainCmd_completes (opArd_sound ..) ..
  | ats => exact mainCmd_completes (opAts_sound ..) ..
  | sarm => exact ordCmd_completes (opSarm_sound ..) ..
  | sdis => exact ordCmd_completes (opSdis_sound ..) ..
  | tpost => exact mainCmd_completes (opTpost_sound ..) ..
  | msnd => exact ordCmd_completes (opMsnd_sound ..) ..
  | mrcv => exact mainCmd_completes (opMrcv_sound ..) ..
  | mrcvWaitEnd => exact mainCmd_completes (opMrcvWaitEnd_sound ..) ..
  | iclm => exact ordCmd_completes (opIclm_sound ..) ..
  | iclmWaitEnd => exact ordCmd_completes (opIclmWaitEnd_sound ..) ..
  | idone => exact mainCmd_completes (opIdone_sound ..) ..
  | spawn => exact ordCmd_completes (opSpawn_sound ..) ..
  | yield => exact mainCmd_completes (opYield_sound ..) ..
  | yieldEnd => exact mainCmd_completes (opYieldEnd_sound ..) ..
  | halt => exact mainCmd_completes (opHalt_sound ..) ..
  | suit => exact mainCmd_completes (regOp_sound ..) ..
  | drain => exact mainCmd_completes (opDrain_sound ..) ..
  | hsrd => exact mainCmd_completes (regOp_sound ..) ..
  | hswr => exact mainCmd_completes (regOp_sound ..) ..
  | who => exact mainCmd_completes (opWho_sound ..) ..
  | cycrd => exact mainCmd_completes (opCycrd_sound ..) ..
  | brk => exact mainCmd_completes (opBrk_sound ..) ..
  | dreqOpen => exact ordCmd_completes (opDreqOpen_sound ..) ..
  | dreqWrite => exact ordCmd_completes (opDreqWrite_sound ..) ..
  | dreqPlay => exact ordCmd_completes (opDreqPlay_sound ..) ..
  | dreqFold => exact ordCmd_completes (opDreqFold_sound ..) ..
  | nvmPush => exact ordCmd_completes (opNvmPush_sound ..) ..
  | commitTimerExpiry => exact mainCmd_completes opCommitTimerExpiry_sound ..
  | commitNow => exact ordCmd_completes opCommitNow_sound ..
  | scrubNow => exact ordCmd_completes opScrubNow_sound ..
  | cribCopyNow => exact ordCmd_completes opCribCopyNow_sound ..
  | commitClose => exact mainCmd_completes (opCommitClose_sound ..) ..
  | cribPageProgramEnd => exact mainCmd_completes opCribPageProgramEnd_sound ..
  | scrubTimer => exact mainCmd_completes (opScrubTimer_sound ..) ..
  | cribCopyTimer => exact mainCmd_completes opCribCopyTimer_sound ..
  | cribCopyEnd => exact mainCmd_completes opCribCopyEnd_sound ..
  | pfwarnAssert => exact anyCmd_completes opPfwarnAssert_sound ..
  | powerFailCommitClose => exact mainCmd_completes opPowerFailCommitClose_sound ..
  | pfwarnReleaseExpiry => exact mainCmd_completes opPfwarnReleaseExpiry_sound ..
  | backupIsolationEnd => exact anyCmd_completes opBackupIsolationEnd_sound ..
  | ppsEdge => exact mainCmd_completes (opPpsEdge_sound ..) ..
  | ppsEdgeMissing => exact mainCmd_completes opPpsEdgeMissing_sound ..
  | tb0LoadAtPps => exact ordCmd_completes (opTb0LoadAtPps_sound ..) ..
  | tb0LoadNow => exact ordCmd_completes (opTb0LoadNow_sound ..) ..
  | calendarSecond => exact anyCmd_completes opCalendarSecond_sound ..
  | dstSetCmd => exact ordCmd_completes (opDstSetCmd_sound ..) ..
  | dstClearCmd => exact ordCmd_completes (opDstClearCmd_sound ..) ..
  | foldEnd => exact anyCmd_completes opFoldEnd_sound ..
  | calendarWrite => exact ordCmd_completes (opCalendarWrite_sound ..) ..
  | calendarShift => exact ordCmd_completes (opCalendarShift_sound ..) ..
  | shiftHoldEnd => exact anyCmd_completes opShiftHoldEnd_sound ..
  | calendarFreezeRead => exact mainCmd_completes (opCalendarFreezeRead_sound ..) ..
  | calendarYearRead => exact mainCmd_completes (opCalendarYearRead_sound ..) ..
  | backupWriteApply => exact anyCmd_completes opBackupWriteApply_sound ..
  | xtal32Stop => exact anyCmd_completes opXtal32Stop_sound ..
  | supplyChangeover => exact anyCmd_completes opSupplyChangeover_sound ..
  | cellCheck => exact anyCmd_completes (opCellCheck_sound ..) ..
  | backupDomainReset => exact anyCmd_completes opBackupDomainReset_sound ..
  | linkSignalDetect => exact mainCmd_completes (opLinkSignalDetect_sound ..) ..
  | linkTrainComplete => exact mainCmd_completes (opLinkTrainComplete_sound ..) ..
  | linkDown => exact mainCmd_completes (opLinkDown_sound ..) ..
  | frameReceive => exact wfCmd_completes hw (ordCmd_completes (opFrameReceive_sound ..) ..)
  | responseKeepExpiry => exact mainCmd_completes opResponseKeepExpiry_sound ..
  | enum => exact mainCmd_completes (opEnum_sound ..) ..
  | read => exact ordCmd_completes (opRead_sound ..) ..
  | write => exact ordCmd_completes (opWrite_sound ..) ..
  | rmw => exact ordCmd_completes (opRmw_sound ..) ..
  | dealOpen => exact ordCmd_completes opDealOpen_sound ..
  | dealPlay => exact ordCmd_completes opDealPlay_sound ..
  | dealCheckEnd => exact mainCmd_completes opDealCheckEnd_sound ..
  | dealFold => exact ordCmd_completes opDealFold_sound ..
  | dealTimeout => exact mainCmd_completes opDealTimeout_sound ..
  | dealApplication => exact mainCmd_completes opDealApplication_sound ..
  | mailbox => exact ordCmd_completes opMailbox_sound ..
  | eventSend => exact mainCmd_completes opEventSend_sound ..
  | eventAck => exact mainCmd_completes (opEventAck_sound ..) ..
  | eventRetryTimeout => exact mainCmd_completes opEventRetryTimeout_sound ..
  | syncSend => exact mainCmd_completes opSyncSend_sound ..
  | sync => exact wfCmd_completes hw (mainCmd_completes (opSync_sound ..) ..)
  | hopDelayMeasure => exact mainCmd_completes (opHopDelayMeasure_sound ..) ..
  | bulkRead => exact ordCmd_completes (opBulkRead_sound ..) ..
  | bulkWrite => exact mainCmd_completes (opBulkWrite_sound ..) ..
  | bootcmdRecover => exact mainCmd_completes opBootcmdRecover_sound ..
  | bootcmdLeave => exact mainCmd_completes opBootcmdLeave_sound ..
  | beaconSend => exact mainCmd_completes opBeaconSend_sound ..
  | beaconReceive => exact wfCmd_completes hw (mainCmd_completes (opBeaconReceive_sound ..) ..)
  | beaconMiss => exact mainCmd_completes opBeaconMiss_sound ..
  | joinSend => exact mainCmd_completes (opJoinSend_sound ..) ..
  | joinBackoffExpiry => exact mainCmd_completes opJoinBackoffExpiry_sound ..
  | modemFrameReceive => exact wfCmd_completes hw (mainCmd_completes (opModemFrameReceive_sound ..) ..)
  | modemRunStart => exact mainCmd_completes (opModemRunStart_sound ..) ..
  | modemTransmitEnd => exact mainCmd_completes opModemTransmitEnd_sound ..
  | modemAckTimeout => exact mainCmd_completes opModemAckTimeout_sound ..
  | duoTxpost => exact ordCmd_completes (opDuoTxpost_sound ..) ..
  | duoDisable => exact ordCmd_completes (opDuoDisable_sound ..) ..
  | duoLevelWrite => exact ordCmd_completes (opDuoLevelWrite_sound ..) ..
  | txenReadbackFault => exact mainCmd_completes opTxenReadbackFault_sound ..
  | interruptClaim => exact ordCmd_completes (opInterruptClaim_sound ..) ..
  | interruptComplete => exact ordCmd_completes (opInterruptComplete_sound ..) ..
  | intSwset => exact ordCmd_completes (opIntSwset_sound ..) ..
  | intSwclr => exact ordCmd_completes (opIntSwclr_sound ..) ..
  | alarmRecordWrite => exact mainCmd_completes opAlarmRecordWrite_sound ..
  | alertLatchClear => exact ordCmd_completes (opAlertLatchClear_sound ..) ..
  | alertReleaseDeferred => exact mainCmd_completes (opAlertReleaseDeferred_sound ..) ..
  | hedgeWrite => exact ordCmd_completes (opHedgeWrite_sound ..) ..
  | safeStateForce => exact ordCmd_completes (opSafeStateForce_sound ..) ..
  | safeStateClear => exact ordCmd_completes (opSafeStateClear_sound ..) ..
  | tamperLoopEvent => exact anyCmd_completes (opTamperLoopEvent_sound ..) ..
  | magneticCheck => exact mainCmd_completes (opMagneticCheck_sound ..) ..
  | temperatureCheck => exact mainCmd_completes (opTemperatureCheck_sound ..) ..
  | supplyExcursion => exact mainCmd_completes opSupplyExcursion_sound ..
  | tapInstructionLoad => exact mainCmd_completes (opTapInstructionLoad_sound ..) ..
  | testEnHigh => exact mainCmd_completes opTestEnHigh_sound ..
  | otpBurnDone => exact mainCmd_completes (opOtpBurnDone_sound ..) ..
  | slotSelection => exact mainCmd_completes opSlotSelection_sound ..
  | imageLoadDone => exact mainCmd_completes opImageLoadDone_sound ..
  | furrowLockWaitEnd => exact mainCmd_completes opFurrowLockWaitEnd_sound ..
  | gpio00WaitExpiry => exact mainCmd_completes opGpio00WaitExpiry_sound ..
  | updBeginFull => exact ordCmd_completes opUpdBeginFull_sound ..
  | updBeginDelta => exact ordCmd_completes opUpdBeginDelta_sound ..
  | updResume => exact ordCmd_completes opUpdResume_sound ..
  | updVerify => exact ordCmd_completes opUpdVerify_sound ..
  | updVerifyDone => exact mainCmd_completes opUpdVerifyDone_sound ..
  | updCancel => exact ordCmd_completes opUpdCancel_sound ..
  | updRevert => exact ordCmd_completes opUpdRevert_sound ..
  | updErase => exact ordCmd_completes opUpdErase_sound ..
  | downloadBlock => exact mainCmd_completes opDownloadBlock_sound ..
  | activationSchedule => exact ordCmd_completes opActivationSchedule_sound ..
  | activation => exact mainCmd_completes opActivation_sound ..
  | trialProgress => exact mainCmd_completes opTrialProgress_sound ..
  | trialConfirm => exact ordCmd_completes (opTrialConfirm_sound ..) ..
  | trialWindowExpiry => exact mainCmd_completes opTrialWindowExpiry_sound ..
  | yieldDay => exact mainCmd_completes (opYieldDay_sound ..) ..
  | yldRun => exact ordCmd_completes (opYldRun_sound ..) ..
  | logRecordWrite => exact mainCmd_completes opLogRecordWrite_sound ..
  | misdealStop => exact ordCmd_completes (opMisdealStop_sound ..) ..
  | misdealDurationExpiry => exact mainCmd_completes opMisdealDurationExpiry_sound ..
  | streamSample => exact wfCmd_completes hw (mainCmd_completes (opStreamSample_sound ..) ..)
  | resampledSample => exact mainCmd_completes (opResampledSample_sound ..) ..
  | coefficientReturn => exact mainCmd_completes (opCoefficientReturn_sound ..) ..
  | pllLockRegained => exact anyCmd_completes opPllLockRegained_sound ..
  | xtal32Restart => exact anyCmd_completes opXtal32Restart_sound ..
  | xtal32Measurement => exact mainCmd_completes (opXtal32Measurement_sound ..) ..
  | refinPeriodDeviation => exact mainCmd_completes opRefinPeriodDeviation_sound ..
  | pfwarnRelease => exact anyCmd_completes opPfwarnRelease_sound ..
  | modemSymbol => exact mainCmd_completes (opModemSymbol_sound ..) ..
  | pulseHedgeClear => exact ordCmd_completes (opPulseHedgeClear_sound ..) ..
  | modemHedgeClear => exact ordCmd_completes (opModemHedgeClear_sound ..) ..
  | misdealFrameRelease => exact mainCmd_completes (opMisdealFrameRelease_sound ..) ..
  | shadowExpiry => exact mainCmd_completes opShadowExpiry_sound ..
  | talScntlRead => exact mainCmd_completes (opTalScntlRead_sound ..) ..
  | encoderCountEdge => exact mainCmd_completes (opEncoderCountEdge_sound ..) ..

/-! ### The step -/

theorem step_cons {s : State} {c : Instr} {q : List Instr} (h : s.pending = c :: q) :
    step s = exec c { s with pending := q } := by
  unfold step
  rw [h]

theorem step_nil {s : State} (h : s.pending = []) : step s = .next (s.advance 1) := by
  unfold step
  rw [h]

theorem wfCmd_false {ok : Bool} {r : Res State} (h : ok = false) : wfCmd ok r = .fault .illFormed := by
  subst h
  rfl
end Sys2Proof.Machine
end

section
open Sys2Proof Sys2Proof.Machine

/-- Settles O3: every row is an effect that takes no time, leaves the queue alone and keeps `Keeps` (`exec_completes`);
the time before it passes by `State.advance_later` and `State.advance_keeps`. -/
theorem stepKeeps : Obligations.StepKeeps := by
  intro s hw
  cases hp : s.pending with
  | nil =>
    obtain ⟨t, ht, ⟨hq, hc⟩, hk⟩ := advance_completes s 1
    exact ⟨t, (step_nil hp).trans ht, hq.trans hp, hc, hk⟩
  | cons c q =>
    obtain ⟨t, ht, ⟨hq, hc⟩, hk⟩ := exec_completes { s with pending := q } c (hw c (by rw [hp]; rfl))
    exact ⟨t, (step_cons hp).trans ht, hq, hc, hk⟩

/-- Settles O1: a row's `wf` is `true` but for the six rows that carry lists, whose meaning `wfCmd` guards with it. -/
theorem steps : Obligations.Steps := by
  refine ⟨fun _ _ _ h => step_cons h, fun _ h => step_nil h, fun c s h => ?_⟩
  cases c with
  | frameReceive => exact wfCmd_false h
  | sync => exact wfCmd_false h
  | calibrationEnd => exact wfCmd_false h
  | beaconReceive => exact wfCmd_false h
  | streamSample => exact wfCmd_false h
  | modemFrameReceive => exact wfCmd_false h
  | _ => cases h
end

section
/-! SUPPORT. What the registers read at reset. -/
namespace Sys2Proof.Machine

/-- The sowing table lies in blocks of their own, of which no row of the register map speaks. -/
theorem regReset_of_seedReg {a : Nat} (h : SeedReg a) : regReset a = 0 := by
  obtain ⟨h1, h2⟩ : 0x1010000 ≤ a ∧ a < 0x1010000 + 16384 := h
  have hb : blockRows (a / 4096) = [] := by
    have : a / 4096 = 0x1010 ∨ a / 4096 = 0x1011 ∨ a / 4096 = 0x1012 ∨ a / 4096 = 0x1013 := by omega
    rcases this with h | h | h | h <;> rw [h] <;> rfl
  have hf : regFields a = [] := by rw [regFields, regRow?, hb]; rfl
  rw [regReset, hf]
  iterate 10 rw [if_neg (by omega)]
  rfl

/-- At reset the furrows are disabled and unlocked. -/
theorem furrows_at_reset : ∀ n < 4, State.reset.rd (FUR_CTL_EN n) = 0 ∧ State.reset.rd (FUR_STAT_LOCK n) = 0 := by
  decide +kernel

theorem silos_at_reset : ∀ b < 8, State.reset.rd (SIL_BSTAT_STATE b) = 0 := by decide +kernel

theorem receivers_at_reset :
    (∀ r < 2, State.reset.rd (BAL_LSTAT_STATE r) = 0) ∧ State.reset.rd BAL_PLOT_POSVALID = 0 := by decide +kernel

theorem device_at_reset :
    State.reset.rd DEAL_STAT_STATE = 0 ∧ State.reset.rd HDG_STAT_SAFE = 0 ∧ State.reset.rd DUO_CTL_EN = 0 ∧
      State.reset.rd DUO_STAT_NODE = 255 ∧ State.reset.rd INT_CTL_FW = 0 := by decide +kernel

theorem reset_fits : State.reset.Fits :=
  ⟨by decide, by decide, by decide, by decide, by decide, by decide, by decide, nofun⟩
end Sys2Proof.Machine
end

section
open Sys2Proof Sys2Proof.Machine

/-- Settles O2: the state is empty, so that every register reads `regReset`, of which the named fields are evaluated. -/
theorem resetState : Obligations.ResetState := by
  obtain ⟨hst, hsafe, hen, hnode, hfw⟩ := device_at_reset
  exact ⟨⟨rfl, rfl⟩, reset_fits, rfl, rfl, rfl, fun _ => rfl, furrows_at_reset, fun _ h => regReset_of_seedReg h,
    silos_at_reset, receivers_at_reset.1, receivers_at_reset.2, rfl, hst, hsafe, hen, hnode, hfw, rfl, rfl, rfl, rfl,
    rfl, rfl, fun _ _ => ⟨rfl, rfl⟩, fun _ _ => rfl⟩
end

section
/-! SUPPORT. The commit that a software reset asks for takes a changed retirement map with it, and so clears `mapDirty`. -/
namespace Sys2Proof.Machine

/-- With no commit running, one that a reset asks for leaves no changed retirement map behind: its `map` is `mapDirty`. -/
theorem State.commitFail_mapDirty {s : State} (h : s.nvC = none) (kind : Nat) : (s.commitFail kind).mapDirty = false := by
  simp only [State.commitFail, h]
  exact Bool.and_not_self _

/-- Where the barn's parts alone may change, `mapDirty`, which is one of the channels', stays. -/
theorem State.Only.mapDirty {u t : State} {A : Nat → Prop} (h : u.Only t [.nvm] A) : t.mapDirty = u.mapDirty := by
  obtain ⟨⟨-, -, -, hch, -⟩, -, -⟩ := h
  exact congrArg ChanSt.mapDirty (hch.resolve_left (by decide))
end Sys2Proof.Machine
end

section
open Sys2Proof Sys2Proof.Machine

/-- Refutes O49: its frame for SOFTWARE_RESET_DELAY_EXPIRY lets the parts of `.nvm` alone change, but where a changed
retirement map waits (`mapDirty`, one of the channels' parts; R287) the commit of kind reset takes it along. -/
theorem not_resets : ¬ Obligations.Resets := by
  intro h
  let s : State := { State.reset with clk := cyUs 10, rstReq := some 0, mapDirty := true }
  have hs : s.Awake 0 s := ⟨rfl, rfl⟩
  obtain ⟨-, -, -, hdelay⟩ := h s s 0
  obtain ⟨t, ht, -, -, honly⟩ := ((hdelay hs).2 0 rfl).2.2 (by decide) (by decide)
  have hrun : exec (.softwareResetDelayExpiry 0) s = .next (s.commitFail 3) := rfl
  obtain rfl : s.commitFail 3 = t := by rw [hrun] at ht; cases ht; rfl
  have hclear : (s.commitFail 3).mapDirty = false := State.commitFail_mapDirty rfl 3
  rw [honly.mapDirty] at hclear
  exact absurd hclear (by decide)
end
